-- ==== Sys2Proof/Word.lean ====
section
/-! DEFINITION. The words of the TLH-9600: bytes, byte strings, register words, and the sparse table type in which
every addressed table of the device is held. -/

namespace Sys2Proof

/-- One byte. Bit 0 is the least significant bit (R12). -/
abbrev Byte := BitVec 8

/-- A byte string, in wire or memory order (R13): index 0 is the lowest address, or the first byte on the wire. -/
abbrev Bytes := List Byte

/-- A 64-bit word: a context register, a stamp, a counter value as software reads it. -/
abbrev W64 := BitVec 64

/-- A 32-bit word: a BAR0 register (R363), a CRC, a hash. -/
abbrev W32 := BitVec 32

/-- A table of the device, indexed by a number. It is a list of (index, entry) pairs with strictly rising indexes that lists no
entry equal to the table's reset value, so equal tables are equal lists; the operations are those of Machine/Tab.lean. -/
abbrev Tab (α : Type) := List (Nat × α)

end Sys2Proof
end

