-- ==== Sys2Proof/Syntax.lean ====
section
/-! DEFINITION. The commands that reach the block: one constructor of `Instr` for each row of spec/opcode_table.json, and the
types of their operands. The table gives its rows no operand bits, so the operands are the model's (assumption 1): the unit the
row acts on, and what the outside world (wire, pin, master, physical disturbance) supplies. -/

namespace Sys2Proof

/-- Line port P00 to P95 (R4). -/
abbrev PortId := Fin 96
/-- Line lane L000 to L191 (R4). -/
abbrev LaneId := Fin 192
/-- Slice S0 to S7 (R4). -/
abbrev SliceId := Fin 8
/-- Traffic class TC0 to TC7 (R5). -/
abbrev ClassId := Fin 8
/-- Action engine AE00 to AE63 of a slice (R5). -/
abbrev EngineId := Fin 64
/-- Service engine SV0 to SV3 of a slice (R5). -/
abbrev SvId := Fin 4
/-- Awn engine AW00 to AW31 (R5). -/
abbrev AwnId := Fin 32
/-- Seal pair SP00 to SP31 (R5). -/
abbrev SealPairId := Fin 32
/-- SHA-512 engine 0 to 15 (R28, R262). -/
abbrev HashId := Fin 16
/-- HBM pseudo-channel, 0 to 127 for H(p[6:5]).(p[4:0]) (Table 16-1, kind 12). -/
abbrev PcId := Fin 128
/-- Granary channel D00 to D15 (R5). -/
abbrev DdrId := Fin 16
/-- Memory unit: 0 to 127 an HBM pseudo-channel, 128 + k Granary channel Dk. -/
abbrev UnitId := Fin 144
/-- Sheaf link SH0, SH1 (R5). -/
abbrev LinkId := Fin 2
/-- Sheaf lane: 9·n + k for SHn.k (Table 16-1, kind 4). -/
abbrev SheafLaneId := Fin 18
/-- Mailbox MB0 to MB15 (R5). -/
abbrev MbId := Fin 16
/-- A mailbox of the host, MB0 to MB7 (R368). -/
abbrev HostMbId := Fin 8
/-- DMA ring: 0 event, 1 Chaff, 2 export (R363). -/
abbrev RingId := Fin 3
/-- Link aggregation group LG00 to LG47 (R130). -/
abbrev GroupId := Fin 48

/-- A set of Ethernet modes: bit 0 200G, 1 100G, 2 50G, 3 25G, 4 10G (Table 16-4). -/
abbrev ModeSet := Fin 32

/-- The masters of R17 and R164, in the order in which Table 16-4 codes them. -/
inductive Master where
  | supervisor
  | host
  | twin
  | jtag
  | bootKeeper
deriving DecidableEq, Repr

/-- The routing tables of R126. -/
inductive RouteTable where
  | prefix4
  | prefix6
  | nextHop
  | group
deriving DecidableEq, Repr

/-- What the parity and copy checks of the step-4 lookups find for one frame (R122, R129, R244): the disturbance is physical, so
it comes with the frame. -/
structure LookupFaults where
  /-- The entry the source lookup meets has a parity error. -/
  macSrc : Bool := false
  /-- The entry the destination lookup meets has a parity error. -/
  macDst : Bool := false
  /-- The entry of this table that the packet's route lookup meets has a parity error. -/
  route : Option RouteTable := none
  /-- Physical indexes of the match rows that are false hits. -/
  matchFalse : List Nat := []
  /-- Physical indexes of the match rows that a corrupted cell makes miss (R244). -/
  matchMiss : List Nat := []
deriving DecidableEq, Repr

/-- A hardware machine-check cause of Table 8-7, codes 1 to 4. -/
inductive HwCause where
  | fetchParity
  | regParity
  | residue
  | contextStore
deriving DecidableEq, Repr

/-- A program machine-check cause of Table 8-7, codes 5 to 7. -/
inductive ProgCause where
  | baleLimit
  | protection
  | runaway
deriving DecidableEq, Repr

/-- A machine check of a routine in the Larzenu region: a hardware cause, or a program cause, which is treated as code 3 (R198). -/
inductive LarzenuFault where
  | hw (cause : HwCause)
  | program (cause : ProgCause)
deriving DecidableEq, Repr

/-- An engine of a slice: an action engine or a service engine (R200, R202). -/
inductive SliceEngine where
  | action (n : EngineId)
  | service (v : SvId)
deriving DecidableEq, Repr

/-- What resumes of a service routine (R202): the routine of service engine `engine`, after an interrupt, or after a failure of the
engine that ran it. -/
structure SvResume where
  engine : SvId
  failure : Option LarzenuFault
deriving DecidableEq, Repr

/-- How a known-answer routine ends (R200): it passes, it fails, or a machine check stops it (Table 8-8). -/
inductive KnownAnswer where
  | passed
  | failed
  | checked (fault : LarzenuFault)
deriving DecidableEq, Repr

/-- The ALU slot of a word as a context executes it (R192). -/
structure AluSlot where
  /-- The packet whose context executes the slot. -/
  ctx : Nat
  dst : Fin 32
  a : Fin 32
  b : Fin 32
  bsel : Bool
  imm : W32
  cond : Fin 16
  setf : Bool
  /-- The hardware fault that strikes the slot, if one does (R197). -/
  fault : Option HwCause := none
deriving DecidableEq, Repr

/-- The memory slot of a word (R192). -/
structure MemSlot where
  ctx : Nat
  mreg : Fin 32
  mbase : Fin 32
  msize : Fin 64
  cond : Fin 16
  moff : W32
  fault : Option HwCause := none
deriving DecidableEq, Repr

/-- The branch slot of a word (R192). -/
structure BrSlot where
  ctx : Nat
  cond : Fin 16
  target : Fin 16384
  fault : Option HwCause := none
deriving DecidableEq, Repr

/-- How a memory read comes back (R332). -/
inductive ReadResult where
  | ok
  | corrected
  | uncorrectable
deriving DecidableEq, Repr

/-- A received pause or PFC frame (R83): the classes it names and their quanta of 512 bit times. -/
structure PauseFrame where
  /-- True for IEEE 802.1Qbb PFC; false for Annex 31B link-level pause, which covers all eight classes. -/
  pfc : Bool
  /-- Class-enable vector of a PFC frame. -/
  enable : Nat
  /-- Quanta per class; a pause frame carries its one value first. -/
  quanta : List Nat
deriving DecidableEq, Repr

/-- PTP message types (R53). -/
inductive PtpKind where
  | sync
  | followUp
  | pdelayReq
  | pdelayResp
  | pdelayRespFollowUp
  | announce
  | other
deriving DecidableEq, Repr

/-- The data set of a PTP announce, in the order in which IEEE 1588 compares it (R53): the grandmaster's priority 1, clock class,
accuracy, variance, priority 2 and identity, and the steps removed from it. -/
structure PtpClock where
  priority1 : Nat := 0
  clockClass : Nat := 0
  accuracy : Nat := 0
  variance : Nat := 0
  priority2 : Nat := 0
  identity : Nat := 0
  steps : Nat := 0
deriving DecidableEq, Repr, Inhabited

/-- A PTP message (R53): its header fields, its timestamps, and what an announce carries; the stamp of a received one is the device's
own. -/
structure PtpMessage where
  kind : PtpKind
  domain : Nat
  twoStep : Bool
  seq : Nat
  /-- The timestamp the message carries: seconds and nanoseconds. -/
  tsSec : Nat
  tsNs : Nat
  /-- The correction field, in ns. -/
  corrNs : Int
  /-- UTC offset that an announce carries (R52). -/
  utcOffset : Int
  /-- Data set that an announce carries. -/
  clock : PtpClock := {}
  /-- Grandmaster ID and total time inaccuracy of the C37.238 profile's TLV, which an announce carries (R53). -/
  gmId : Nat := 0
  inaccuracy : Nat := 0
  /-- The frame that carries the message, FCS included, as a transparent clock passes it on (R311). -/
  frame : Bytes := []
deriving DecidableEq, Repr

/-- A partner's coefficient request for one transmit tap (R78): tap 0 to 4 for c(−3) to c(1). -/
structure CoefRequest where
  tap : Fin 5
  /-- +1 increment, −1 decrement, 0 hold. -/
  delta : Int
deriving DecidableEq, Repr

/-- One received OTU4 frame of a port, as the overhead of Table 4-4 presents it (R98 to R107). -/
structure OtuFrame where
  /-- Per logical lane: FAS found and the lane marker it carries. -/
  lanes : List (Bool × Nat)
  /-- Skew between logical lanes, in ns. -/
  skewNs : Nat
  fas : Bool
  mfas : Fin 256
  smTti : Byte
  smBip : Nat
  smBei : Nat
  smBiae : Bool
  smBdi : Bool
  smIae : Bool
  pmTti : Byte
  pmBip : Nat
  pmBei : Nat
  pmBdi : Bool
  pmStat : Fin 8
  psi : Byte
  /-- A justification control that cannot be corrected (Table 4-4). -/
  jcBad : Bool
  fecBits : Nat
  fecSymbols : Nat
  fecUncorrectable : Nat
  /-- Client PCS: block lock and lane alignment, and local or remote fault (R103, R104). -/
  pcsLock : Bool
  pcsFault : Bool
deriving DecidableEq, Repr

/-- A place in a MAC table (Table 5-1, location). -/
inductive MacLoc where
  | bucket (b : Fin 65536) (slot : Fin 4)
  | overflow (i : Fin 4096)
deriving DecidableEq, Repr

/-- The partner's LACP state that a LACPDU carries (R130). -/
structure LacpInfo where
  inSync : Bool
  collecting : Bool
  distributing : Bool
deriving DecidableEq, Repr

/-- A place in the flow table (Table 6-2, pair field). -/
inductive FlowLoc where
  | bucket (b : Fin 268435456) (slot : Fin 4)
  | overflow (i : Fin 262144)
deriving DecidableEq, Repr

/-- A fault met by a scan (R255). -/
inductive AwnFault where
  | laneState
  | memCorrected
  | memUncorrectable (entry : Nat)
deriving DecidableEq, Repr

/-- A place in the permit table (R273). -/
structure PermitLoc where
  bucket : Fin 4194304
  slot : Fin 4
deriving DecidableEq, Repr

/-- Which value of the scheduler an error strikes: a class's deficit, its shaper's credit, or the port shaper's bucket (Table 12-3). -/
inductive SchedValue where
  | deficit
  | credit
  | bucket
deriving DecidableEq, Repr

/-- An error that the scrub of on-die control SRAM meets, or a use meets, in one structure (R313, Table 17-1 class 1). -/
inductive SramError where
  | macEntry (k : SliceId) (loc : MacLoc)
  | routeEntry (k : SliceId) (t : RouteTable) (id : Nat)
  | matchRow (k : SliceId) (idx : Nat)
  | descriptor (pkt : Nat)
  | pointerStack (pool : Fin 6)
  | queueLink (p : PortId) (c : ClassId)
  | copyCount (pkt : Nat)
  | scheduler (p : PortId) (c : ClassId) (v : SchedValue)
  | automata (entry : Nat) (correctable : Bool)
  | cacheLine (loc : FlowLoc) (double : Bool)
deriving DecidableEq, Repr

/-- Why a service engine is interrupted (R202). -/
inductive SvInterrupt where
  | faultReport
  | sagChange
  | sliceDrain
  | scemasOrder
deriving DecidableEq, Repr

/-- How step 5 of a retraining ends (Table 13-5, R336). -/
inductive RetrainResult where
  | newSetting
  | keptPrevious
  | noneWorks
deriving DecidableEq, Repr

/-- A superframe as the eight lanes of a link deliver it (R347, R348). -/
structure Superframe where
  /-- Per data lane, where the first three symbols of the frame-start pattern and a lane byte were seen in these 2,048 symbols: the symbol
  position modulo 2,048, as the receiver counts the symbols of all its lanes, and the lane byte, positions rising (R348). -/
  seen : List (List (Nat × Nat))
  /-- The 16,352 payload bytes, network order (Table 14-2). -/
  payload : Bytes
deriving DecidableEq, Repr

/-- A heartbeat message (Table 14-5, type 1). -/
structure HeartbeatBody where
  gateShut : Bool
  tiller : Nat
  sag : Nat
  rank : Nat
deriving DecidableEq, Repr

/-- A pairing message (R352). -/
structure PairingBody where
  pairId : Nat
  serial : Nat
  key : Bytes
  nonce : Bytes
  /-- Signature over both nonces and the pair ID, once the other nonce has arrived. -/
  sig : Option Bytes
deriving DecidableEq, Repr

/-- One key's replay window (R269): the highest sequence and the bitmap below it. -/
structure WindowState where
  key : Nat
  high : Nat
  bitmap : Nat
deriving DecidableEq, Repr

/-- A delay exchange (Table 14-5, type 9): the number of its message (R350) and four TAI times in ns. -/
structure DelayBody where
  num : Nat
  t1 : Nat
  t2 : Nat
  t3 : Nat
  t4 : Nat
deriving DecidableEq, Repr

/-- A translation checkpoint (Table 14-5, type 10). -/
structure Checkpoint where
  create : Bool
  key : Bytes
  addr : Bytes
  port : Nat
  pool : Nat
  block : Nat
  group : Nat
  member : Nat
deriving DecidableEq, Repr

/-- The escalation units of R394. -/
inductive FaultUnit where
  | actionEngines (k : SliceId)
  | serviceEngines (k : SliceId)
  | sealPair (sp : SealPairId)
  | hash (h : HashId)
  | awn (a : AwnId)
  | mcPair (q : Fin 2)
deriving DecidableEq, Repr

/-- What the boot ROM finds when it checks one slot under R410. -/
structure SlotCheck where
  /-- Scemas image and patch set pass every check of R410. -/
  ok : Bool
  sv : Nat
  patchSv : Nat
  keyId : Nat
  major : Nat
  minor : Nat
  build : Nat
  digest : Bytes
  patchDigest : Bytes
  patchBuild : Nat
deriving DecidableEq, Repr

/-- What a start meets (R413, R466): the straps, the OTP and identity checks, both image slots, and the Granary population. -/
structure BootInputs where
  straps : Fin 16
  otpOk : Bool
  identityOk : Bool
  slotA : SlotCheck
  slotB : SlotCheck
  /-- Capacity in GiB found on each Granary channel, 0 for none (R325). -/
  granary : List Nat
deriving DecidableEq, Repr

/-- The rail monitors of Table 19-2. -/
inductive RailMonitor where
  | vcore
  | vsram
  | vserdesA
  | vserdesH
  | ddrPhy
deriving DecidableEq, Repr

/-- One pass of the adaptive VCORE loop (R430): what the monitors ask, and whether the regulator acknowledged. -/
structure VcoreStep where
  /-- Every monitor shows at least 5 % margin. -/
  marginMet : Bool
  acked : Bool
deriving DecidableEq, Repr

/-- A Guolo request as a mailbox hands it to Scemas (R371): the header fields of Table 15-12, the payload and the trailer of
Table 15-13. The opcode is the row's own; `expert` is its bit 15. -/
structure Request where
  mb : MbId
  expert : Bool := false
  flags : Nat := 0
  seq : Nat := 0
  bale : Nat := 0
  authClass : Nat := 0
  boot : Nat := 0
  counter : Nat := 0
  payload : Bytes := []
  /-- Key ID and signature of the trailer, when it is present. -/
  trailer : Option (Nat × Bytes) := none
  /-- Host value returned in the completion (Table 15-10). -/
  tag : Nat := 0
  /-- Scope of a bale action (Table 7-2), which the Guolo header has no field for. -/
  scope : Nat := 0
deriving DecidableEq, Repr

/-- The commands: one constructor for each row of spec/opcode_table.json, in the table's order. -/
inductive Instr where
  /-- The first bit of a frame arrives at a line port. Stamps are taken, and parse, length hint, buffer take, ingress VLAN, policer and the
  step-4 lookups follow. (R20) -/
  | frameArrival (p : PortId) (bytes : Bytes) (e : LookupFaults)
  /-- The last bit of a frame completes receive decoding; the FCS check decides bad-frame discard, void or stomp, and store-and-forward
  waits end. (R309) -/
  | frameReceiveComplete (pkt : Nat) (codeError : Bool)
  /-- The flow sequencer releases an operation on a key once every slice has issued all operations with smaller stamps. (R148) -/
  | flowSequencerRelease (pkt : Nat)
  /-- An HBM or Granary read returns; it is corrected and written back, or an uncorrectable error goes to the owner of the data. (R332) -/
  | memoryReadComplete (rd : Nat) (res : ReadResult)
  /-- A packet that has waited longer than the record-wait limit is dropped, with its flow's queued packets, as a flow-state overload. (R158) -/
  | flowRecordWaitTimeout (pkt : Nat)
  /-- A packet takes a packet context and is dispatched to the engine with the most free hardware contexts. (R184) -/
  | routineDispatch (pkt : Nat) (fault : Option LarzenuFault)
  /-- ALU slot operation nop. (R193) -/
  | aluNop (x : AluSlot)
  /-- ALU slot adds a and b, with a residue check. (R193) -/
  | aluAdd (x : AluSlot)
  /-- ALU slot subtracts b from a, with a residue check. (R193) -/
  | aluSub (x : AluSlot)
  /-- ALU slot multiplies the low 32 bits of a and b into a 64-bit result. (R193) -/
  | aluMul (x : AluSlot)
  /-- ALU slot forms the folded ones'-complement sum of a and b. (R193) -/
  | aluCsum (x : AluSlot)
  /-- ALU slot AND of a and b. (R193) -/
  | aluAnd (x : AluSlot)
  /-- ALU slot OR of a and b. (R193) -/
  | aluOr (x : AluSlot)
  /-- ALU slot XOR of a and b. (R193) -/
  | aluXor (x : AluSlot)
  /-- ALU slot shifts a left by b[5:0]. (R193) -/
  | aluShl (x : AluSlot)
  /-- ALU slot shifts a right by b[5:0] with zero fill. (R193) -/
  | aluShr (x : AluSlot)
  /-- ALU slot shifts a right by b[5:0] with sign fill. (R193) -/
  | aluSar (x : AluSlot)
  /-- ALU slot rotates a left by b[5:0]. (R193) -/
  | aluRol (x : AluSlot)
  /-- ALU slot moves b to the destination. (R193) -/
  | aluMov (x : AluSlot)
  /-- ALU slot takes the unsigned minimum of a and b. (R193) -/
  | aluMinu (x : AluSlot)
  /-- ALU slot takes the unsigned maximum of a and b. (R193) -/
  | aluMaxu (x : AluSlot)
  /-- ALU slot reverses the bytes of a over 2, 4 or 8 bytes. (R193) -/
  | aluBswap (x : AluSlot)
  /-- ALU slot extracts a bit field of a. (R193) -/
  | aluExt (x : AluSlot)
  /-- ALU slot inserts bits of b into a. (R193) -/
  | aluIns (x : AluSlot)
  /-- ALU slot selects a or b by flag Z. (R193) -/
  | aluSel (x : AluSlot)
  /-- ALU slot computes CRC-32C over the 8 bytes of b, starting from a. (R193) -/
  | aluCrc (x : AluSlot)
  /-- Memory slot does nothing. (R193) -/
  | memNone (x : MemSlot)
  /-- Loads packet header bytes into mreg. (R193) -/
  | hdrLd (x : MemSlot)
  /-- Records a header edit for the egress pipeline to apply. (R194) -/
  | hdrSt (x : MemSlot)
  /-- Loads a metadata field into mreg. (R193) -/
  | metaLd (x : MemSlot)
  /-- Sets a descriptor field such as egress, class, verdict or a Chaff request. (R193) -/
  | descSt (x : MemSlot)
  /-- Writes 8 bytes into the key buffer. (R193) -/
  | keySt (x : MemSlot)
  /-- Looks up the key buffer and locks the record into a handle, creating it on a miss if asked. (R179) -/
  | recLock (x : MemSlot)
  /-- The HBM reply to a rec.lock arrives, and the context returns to a hardware context. (R183) -/
  | recLockReply (ctx : Nat) (res : ReadResult)
  /-- Loads bytes of a record handle. (R193) -/
  | recLd (x : MemSlot)
  /-- Assigns bytes to a locked record handle. (R188) -/
  | recSt (x : MemSlot)
  /-- Stages a merge add for the packet bale. (R189) -/
  | mrgAdd (x : MemSlot)
  /-- Stages a merge OR for the packet bale. (R189) -/
  | mrgOr (x : MemSlot)
  /-- Stages a merge unsigned maximum for the packet bale. (R189) -/
  | mrgMax (x : MemSlot)
  /-- Stages a merge unsigned minimum for the packet bale. (R189) -/
  | mrgMin (x : MemSlot)
  /-- Stages a merge average with weight 1/16 for the packet bale. (R189) -/
  | mrgAvg (x : MemSlot)
  /-- Starts a read from the customer object region in HBM. (R196) -/
  | objLd (x : MemSlot)
  /-- The HBM reply to an obj.ld arrives, setting object_error if it was uncorrectable. (R194) -/
  | objLdReply (ctx : Nat) (res : ReadResult)
  /-- Stages an add to a customer counter. (R196) -/
  | cntAdd (x : MemSlot)
  /-- Stages a customer event, subject to its rate limit. (R196) -/
  | evt (x : MemSlot)
  /-- The branch slot continues with the next word. (R192) -/
  | brNext (x : BrSlot)
  /-- The branch slot jumps to the target word if its condition holds. (R192) -/
  | brJump (x : BrSlot)
  /-- The branch slot calls the target and pushes a return address. (R193) -/
  | brCall (x : BrSlot)
  /-- The branch slot returns to the address on the call stack. (R192) -/
  | brReturn (x : BrSlot)
  /-- The routine ends, and its packet bale is handed to the flow sequencer. (R178) -/
  | brEnd (x : BrSlot)
  /-- The flow sequencer applies a routine's packet bale as one operation, including merges, pair updates and PRP judgement. (R178) -/
  | packetBaleApply (pkt : Nat)
  /-- At step 7 a packet or flood copy is admitted to its egress queue or refused by the admission checks. (R300) -/
  | egressQueueAdmission (pkt : Nat)
  /-- A port's scheduler selects the head packet of an eligible class, under gates, guard bands and shapers. (R306) -/
  | schedulerSelect (p : PortId)
  /-- A copy finishes leaving the port; the egress CRC is compared, and the buffer returns after the last copy. (R295) -/
  | transmitDone (p : PortId) (corrupt : Bool)
  /-- A flooded packet's residue timer expires, and the copies that have not started are voided. (R316) -/
  | residueTimerExpiry (pkt : Nat)
  /-- The 10 s buffer audit returns buffers that are orphaned at two successive audits. (R314) -/
  | bufferAudit
  /-- XOFF is refreshed every 80 µs while it holds. (R305) -/
  | xoffRefresh (p : PortId) (c : ClassId)
  /-- A class paused for the XOFF limit receives quanta 0 and enters the back-off time. (R305) -/
  | xoffLimitExpiry (p : PortId) (c : ClassId)
  /-- The back-off time after an XOFF limit ends. (R305) -/
  | pauseBackoffEnd (p : PortId) (c : ClassId)
  /-- A received pause or PFC frame is consumed and holds the classes it names. (R83) -/
  | pauseFrameReceive (p : PortId) (f : PauseFrame)
  /-- A class held by received pause for the watchdog time trips, and the watchdog action starts. (R83) -/
  | pauseWatchdogTrip (p : PortId) (c : ClassId)
  /-- The watchdog recovery time ends, and the class honours pause again. (R83) -/
  | pauseWatchdogRecoveryEnd (p : PortId) (c : ClassId)
  /-- A staged sample is written by DMA into the host Chaff ring, or falls back to the Straw ring. (R318) -/
  | chaffSampleWrite
  /-- A deglitched CYC_REF edge is accepted or rejected; the loop updates, and holdover or qualification may follow. (R42) -/
  | cycRefEdge (rising : Bool) (t : Nat)
  /-- No edge has arrived for the stuck time, and holdover is entered with cause 1. (R43) -/
  | tillerStuck
  /-- No edge has been accepted for the lapse time, and holdover is entered with cause 2. (R43) -/
  | tillerLapse
  /-- The holdover limit passes, and Tiller enters the holdover-expired state. (R45) -/
  | holdoverExpired
  /-- The slew closes the angle error to within the lock threshold, and Tiller enters the locked state. (R49) -/
  | tillerLocked
  /-- The output angle crosses the rise or fall angle, and CYC_OUT changes level. (R66) -/
  | cycOutToggle
  /-- At a TAI second boundary qualified TAI is written into the RTC. (R432) -/
  | taiSecondBoundary
  /-- PPS_OUT rises at the compensated TAI second boundary. (R67) -/
  | ppsOutRise
  /-- PPS_OUT falls after its configured width. (R67) -/
  | ppsOutFall
  /-- A 1PPS edge disciplines the TAI clock when 1PPS is the source in use. (R52) -/
  | ppsInEdge (t : Nat)
  /-- A PTP event or general message is received and handled by the PTP stack. (R53) -/
  | ptpMessageReceive (p : PortId) (m : PtpMessage)
  /-- A commit tick applies up to 16 armed bales in rule order and moves the epoch. (R170) -/
  | commitTick
  /-- An old epoch has drained, and the superseded versions are reclaimed at the next tick. (R176) -/
  | epochDrained
  /-- Fifty µs after a commit, packets queued on a superseded gate bank move to the bank in force. (R177) -/
  | gateBankRelease (p : PortId)
  /-- An open bale idle for the idle timeout is aborted, and bale-expired is raised. (R167) -/
  | baleIdleTimeout (bale : Nat)
  /-- A port begins a negotiation or training attempt after its retry wait. (R77) -/
  | trainingAttemptStart (p : PortId)
  /-- The wait of the retry schedule ends, and the next attempt is due. (R81) -/
  | retryWaitExpiry (p : PortId)
  /-- A suspended port's suspension interval ends, and one attempt is made. (R81) -/
  | suspensionIntervalExpiry (p : PortId)
  /-- Clause 73 negotiation resolves to the highest common mode, and training starts. (R77) -/
  | negotiationComplete (p : PortId) (partner : ModeSet)
  /-- The negotiation time limit passes, and the attempt fails. (R79) -/
  | negotiationTimeout (p : PortId)
  /-- The training time limit passes, and the attempt fails. (R79) -/
  | trainingTimeout (p : PortId)
  /-- A partner coefficient request is received and counted; it replaces a pending one. (R79) -/
  | partnerCoefficientRequest (l : LaneId) (q : CoefRequest)
  /-- The pending partner request is answered once the minimum response interval allows. (R78) -/
  | coefficientResponse (l : LaneId)
  /-- A next page is received and counted against the page limit. (R79) -/
  | nextPageReceive (p : PortId)
  /-- Training converges, the port enters the up state and raises the port-up event. (R74) -/
  | trainingComplete (p : PortId)
  /-- Signal appears at a receiver during an attempt, and the attempt proceeds. (R79) -/
  | signalAppears (l : LaneId)
  /-- Loss of signal on a lane of an up port takes the port down, drops its queues and starts a new attempt. (R80) -/
  | lossOfSignal (l : LaneId)
  /-- A REFCLK_LINE input fails, and its 32 lanes lose lock. (R75) -/
  | refclkLineLoss (n : Fin 6)
  /-- The damping penalty is evaluated every 100 ms, and the port enters or leaves damping. (R82) -/
  | dampingEvaluation
  /-- A lane finishes leaving lane idle or deep rest, and negotiation restarts. (R88) -/
  | lanePowerExitDone (l : LaneId)
  /-- A periodic in-place recalibration pass over all lanes begins. (R90) -/
  | recalibrationPassStart
  /-- A lane's temperature changes by the step, and recalibration falls due. (R90) -/
  | laneTemperatureStep (l : LaneId) (temp : Int)
  /-- In-place recalibration of one lane completes; the pass moves to the next lane or ends. (R90) -/
  | laneRecalibrationDone (l : LaneId) (better : Bool)
  /-- The expert full recalibration of one lane takes its port down and retrains it. (R91) -/
  | fullLaneRecalibration (r : Request)
  /-- An OTU4 frame is received: alignment states, BIP and overhead are processed, and TTI and payload type acceptance run. (R98) -/
  | otu4FrameReceive (p : PortId) (f : OtuFrame)
  /-- An OTU4 frame is sent with the overhead and the consequent actions in force. (R102) -/
  | otu4FrameTransmit (p : PortId)
  /-- An alignment out-state or in-state holds for 3 ms, and dLOL, dLOF or dLOM is declared or cleared. (R98) -/
  | otnPersistenceExpiry (p : PortId)
  /-- Signal has been present on both lanes for 1 ms, and dLOS clears. (R99) -/
  | dlosClearTimeout (p : PortId)
  /-- A TAI second ends, and it is classified for SM and PM at near and far end and added to the totals 10 s later. (R107) -/
  | otnSecondEnd
  /-- The learn engine applies one learn or move request every 8 clocks. (R117) -/
  | learnRequestApply (k : SliceId)
  /-- A move window closes with fewer than M moves, and the move count resets. (R119) -/
  | moveWindowClose (k : SliceId) (loc : MacLoc)
  /-- The freeze time ends, the entry thaws and MAC-thawed is raised. (R119) -/
  | macThaw (k : SliceId) (loc : MacLoc)
  /-- Service engines remove the learned entries that name a port that left the up state, in all slices. (R120) -/
  | macFlushOnPortDown (p : PortId)
  /-- The paced ageing sweep visits a MAC entry and clears hit, sets stale or removes it. (R121) -/
  | macAgeingSweepVisit (k : SliceId) (loc : MacLoc)
  /-- Scemas restores an invalidated static entry from its master copy. (R122) -/
  | macStaticRestore (k : SliceId) (vid : Nat) (mac : Nat)
  /-- Scemas refreshes a route entry with a parity error from its master copy. (R129) -/
  | routeEntryRefresh (k : SliceId) (t : RouteTable) (id : Nat)
  /-- An LACP frame is received and updates a member's distributing state. (R130) -/
  | lacpFrameReceive (p : PortId) (x : LacpInfo)
  /-- A member starts distributing, and slots are taken back under the drain hold. (R133) -/
  | lagMemberJoin (p : PortId)
  /-- A returning slot's old member queues drain, and the slot switches. (R133) -/
  | lagSlotDrained (g : GroupId) (slot : Fin 256)
  /-- The move limit passes, and undrained slots switch with a reorder-risk count. (R133) -/
  | lagMoveLimitExpiry (g : GroupId)
  /-- The flow sweep visits a record, evaluates its class and may age and remove it. (R152) -/
  | flowSweepVisit (loc : FlowLoc)
  /-- A sweep pass completes, numbering and pace are updated, and overflow relocation begins. (R151) -/
  | flowSweepPassEnd
  /-- An overflow record moves into a free candidate bucket slot as one sequenced operation. (R153) -/
  | overflowRelocationMove (idx : Nat)
  /-- A port block with no port in use returns to the pool FIFO when its hold time ends. (R218) -/
  | blockHoldExpiry (pool : Fin 1024) (block : Nat)
  /-- An IPFIX message is written to the export ring or sent to the collectors. (R231) -/
  | exportMessageSend
  /-- The IPFIX templates are sent again at the resend period. (R231) -/
  | templateResend
  /-- A service engine moves one match row one position, copying it and then invalidating the original. (R246) -/
  | matchRelocationStep (src : Nat) (dst : Nat)
  /-- Scemas rewrites a match row from its master copy after a false hit or a scrub difference. (R244) -/
  | matchRowRewrite (k : SliceId) (idx : Nat)
  /-- The scrubber compares match rows against their SRAM copies and rewrites those that differ. (R244) -/
  | matchRowScrub (k : SliceId) (idx : Nat) (differs : Bool)
  /-- A free Awn lane takes the oldest queued segment of a flow that has no segment in scan. (R249) -/
  | segmentScanStart
  /-- A scan ends, the match list and vector are set, and the end state is saved in stream mode. (R251) -/
  | segmentScanComplete (a : AwnId) (lane : Fin 2) (fault : Option AwnFault)
  /-- A segment that has not begun its scan by the deadline is dropped with its packet. (R29) -/
  | profiledWorkDeadlineExpiry (pkt : Nat)
  /-- Scemas rewrites an uncorrectable automata-memory entry, and the waiting segments resume. (R255) -/
  | automataEntryRewrite (entry : Nat)
  /-- An Awn engine runs its periodic known-answer scan; it returns or is retired. (R255) -/
  | awnKnownAnswerScan (a : AwnId) (pass : Bool)
  /-- A SHA-512 engine finishes the command digest of a normalised PDU. (R262) -/
  | commandDigestComplete (pkt : Nat) (wrong : Bool)
  /-- The selector lookup in the permit table returns, and a usable entry is consumed or the packet is held. (R276) -/
  | permitTableLookup (pkt : Nat)
  /-- A held packet's hold limit passes; it is discarded with its verdict, and the packets behind it are released. (R279) -/
  | holdLimitExpiry (pkt : Nat)
  /-- A permit, shut or reopen body arrives; checks 1 to 6 run, and it enters the intake queue. (R267) -/
  | permitFrameReceive (p : PortId) (body : Bytes)
  /-- Refusals at checks 1 to 5 are written as one aggregate ledger record per source, cause and second. (R267) -/
  | aggregateRefusalRecord
  /-- Both engines of a seal pair finish verifying a signature; the permit or signed request is accepted, refused or verified again. (R268) -/
  | sealVerdict (sp : SealPairId) (err0 : Bool) (err1 : Bool)
  /-- An accepted permit is written to the permit table with its ledger record, and held commands are looked up again. (R272) -/
  | permitEntryWrite (key : Nat) (seq : Nat)
  /-- A matching entry's not_before passes, and held packets are looked up again. (R278) -/
  | permitNotBeforeReached (loc : PermitLoc)
  /-- A matching entry's cycle window opens, and held packets are looked up again. (R278) -/
  | permitWindowOpen (loc : PermitLoc)
  /-- A service engine removes an entry after its not_after passes. (R275) -/
  | permitExpiryRemoval (loc : PermitLoc)
  /-- GATE_SHUT stays asserted past its deglitch time, and the gate shuts with cause 10. (R281) -/
  | gateShutAssert
  /-- GATE_SHUT deasserts; in level mode the release time starts. (R282) -/
  | gateShutDeassert
  /-- In level pin mode the release time passes with the pin deasserted, and the gate reopens. (R282) -/
  | gateShutRelease
  /-- The ledger writer takes a record from the queue and writes it to both mirrors. (R288) -/
  | ledgerRecordWrite
  /-- A seal record signed by the identity key is written at the seal interval or seal count. (R287) -/
  | ledgerSeal
  /-- A SHA-512 engine runs its 10 ms known-answer test, and a failing engine is retired. (R395) -/
  | hashKnownAnswerTest (h : HashId) (pass : Bool)
  /-- A seal pair runs its 10 ms known-answer test. (R395) -/
  | sealPairKnownAnswerTest (sp : SealPairId) (pass : Bool)
  /-- An action engine runs its known-answer routine; it returns to service or is retired. (R200) -/
  | knownAnswerRoutine (k : SliceId) (e : SliceEngine) (res : KnownAnswer)
  /-- The scrubber checks control-store words, and a bad word is rewritten from the master copy. (R191) -/
  | controlStoreScrub (k : SliceId) (bank : Fin 2) (word : Nat) (bad : Bool)
  /-- A bad control-store word has been rewritten, and stalled fetches resume. (R191) -/
  | controlStoreRewriteDone (k : SliceId) (bank : Fin 2) (word : Nat)
  /-- The scrub of on-die control SRAM finds and handles errors in entries that no use touches. (R313) -/
  | onDieSramScrub (e : SramError)
  /-- An interrupt makes a service engine yield at its next safe point. (R202) -/
  | serviceEngineInterrupt (k : SliceId) (v : SvId) (why : SvInterrupt)
  /-- A service routine resumes from its checkpoint, on its own engine or on another after a failure. (R202) -/
  | serviceRoutineResume (k : SliceId) (v : SvResume)
  /-- A memory controller issues a refresh, read or write by its issue rule. (R328) -/
  | memoryRequestIssue (u : UnitId)
  /-- A bank's due refresh is issued, or it is issued at its postponement limit. (R330) -/
  | refreshIssue (u : UnitId) (bank : Nat)
  /-- A row activation updates the bank's activation table and may refresh neighbour rows. (R331) -/
  | rowActivation (u : UnitId) (bank : Nat) (row : Nat)
  /-- At the start of each 32 ms refresh window the activation tables are cleared. (R331) -/
  | activationTableClear (u : UnitId)
  /-- The patrol scrubber reads a burst, corrects or reports it, and may order an immediate retraining. (R333) -/
  | patrolScrubRead (u : UnitId) (addr : Nat) (res : ReadResult)
  /-- A unit's periodic or temperature-triggered retraining begins with its fence. (R335) -/
  | retrainStart (u : UnitId)
  /-- A retraining fence lifts with a new or the previous setting; a failure may lead to retirement. (R336) -/
  | retrainComplete (u : UnitId) (res : RetrainResult)
  /-- A second or third retraining attempt starts 1 s after a failed one. (R336) -/
  | retrainRetry (u : UnitId)
  /-- The policy-object partition of a retired pseudo-channel has been copied to its new mirror. (R337) -/
  | policyMirrorCopyDone (pc : PcId)
  /-- The rebuild of a ledger stripe mirror completes, and the second continuation record is written. (R341) -/
  | ledgerMirrorRebuildDone (d : DdrId)
  /-- Training of the memories at reset completes, and units with no working setting are retired. (R334) -/
  | memoryTrainingDone (failed : List UnitId)
  /-- A Sheaf lane sees 16 violations in 256 symbols and loses symbol lock. (R345) -/
  | sheafSymbolLockLoss (l : SheafLaneId)
  /-- A Sheaf training frame is received with its coefficient request and status. (R346) -/
  | sheafTrainingFrame (l : SheafLaneId) (q : CoefRequest) (converged : Bool)
  /-- A failed Sheaf training attempt is repeated after 1 s. (R346) -/
  | sheafTrainingRetry (n : LinkId)
  /-- A superframe is received; frame-start candidates, the header CRC and its slots are processed. (R349) -/
  | superframeReceive (n : LinkId) (x : Superframe)
  /-- A superframe is sent with its header and queued slots. (R347) -/
  | superframeSend (n : LinkId)
  /-- Loss of signal on a Sheaf lane takes its link out of service. (R349) -/
  | sheafLaneLossOfSignal (l : SheafLaneId)
  /-- No heartbeat is accepted on a link for 300 µs, and the link leaves service. (R349) -/
  | sheafHeartbeatTimeout (n : LinkId)
  /-- No heartbeat is accepted on either link for the loss time, and the twin is lost. (R353) -/
  | twinHeartbeatTimeout
  /-- REFCLK_SHEAF fails, and the Sheaf links leave service. (R467) -/
  | refclkSheafLoss
  /-- A heartbeat is sent on each link every 100 µs. (R350) -/
  | heartbeatSend
  /-- A heartbeat message is received with the twin's gate, Tiller and sag state. (R353) -/
  | heartbeat (n : LinkId) (x : HeartbeatBody)
  /-- A pairing message is received and the twin is accepted or refused. (R352) -/
  | pairing (n : LinkId) (x : PairingBody)
  /-- A reservation of a key ID and sequence arrives from the twin and is granted or refused. (R283) -/
  | reservation (msg : Nat) (key : Nat) (seq : Nat)
  /-- The twin's reservation result arrives, completing step P4 of a permit. (R283) -/
  | reservationResult (msg : Nat) (key : Nat) (seq : Nat) (granted : Bool)
  /-- A pair-required permit copy arrives and is stored. (R284) -/
  | permitCopy (msg : Nat) (body : Bytes) (st : Nat)
  /-- A consumption message arrives and is applied and acknowledged. (R284) -/
  | consumption (msg : Nat) (key : Nat) (seq : Nat) (uses : Nat)
  /-- The twin acknowledges a consumption, and the waiting command passes. (R284) -/
  | consumptionAcknowledge (msg : Nat) (key : Nat) (seq : Nat)
  /-- Replay windows and pair-required entries are merged on the twin's return. (R285) -/
  | windowMerge (msg : Nat) (ws : List WindowState)
  /-- A delay-exchange message is received, and the round trip is measured. (R356) -/
  | delayExchange (n : LinkId) (x : DelayBody)
  /-- A delay exchange is sent once per second on each link. (R356) -/
  | delayExchangeSend (n : LinkId)
  /-- A translation checkpoint arrives and is stored, and its block is marked bound. (R355) -/
  | translationCheckpoint (msg : Nat) (x : Checkpoint)
  /-- A queued translation checkpoint is sent to the twin off the frame path. (R355) -/
  | checkpointSend
  /-- A Guolo request or completion for MB12 or MB13 arrives from the twin. (R368) -/
  | sheafGuoloMessage (msg : Nat) (m : Bytes)
  /-- The twin's resync done message arrives, and takeover of flows is possible again. (R357) -/
  | resyncDone (msg : Nat) (count : Nat)
  /-- A message not acknowledged within 8 superframes is sent again. (R350) -/
  | messageResendTimeout (msg : Nat)
  /-- The host writes REQ_PROD; it rings the doorbell or sets overrun. (R369) -/
  | reqProdDoorbell (mb : HostMbId) (v : W32)
  /-- The host advances CPL_CONS, freeing completion slots and ending a stall. (R369) -/
  | cplConsWrite (mb : HostMbId) (v : W32)
  /-- The host advances a DMA ring's CONS, giving the device room. (R366) -/
  | ringConsWrite (g : RingId) (v : W32)
  /-- RING_CTRL is written; enabling checks SIZE and BASE_LO. (R366) -/
  | ringCtrlWrite (g : RingId) (v : W32)
  /-- INT_CAUSE bits are cleared by W1C, allowing the vector to signal again. (R365) -/
  | intCauseWrite (v : W32)
  /-- INT_SET sets INT_CAUSE bits for test. (R364) -/
  | intSetWrite (v : W32)
  /-- INT_MASK is written, enabling or disabling interrupt sources. (R365) -/
  | intMaskWrite (v : W32)
  /-- A read of EVENT_LOST returns the count and clears it. (R364) -/
  | eventLostRead
  /-- A write to a BAR0 register or window that has no behaviour of its own. (R363) -/
  | registerWrite (addr : Nat) (v : W32)
  /-- A hot reset, a link down, PERST_N or a Function Level Reset resets the function only. (R362) -/
  | pcieFunctionReset
  /-- An event record is delivered to a subscribed master, or dropped and counted. (R367) -/
  | eventDelivery (m : Master)
  /-- A MGMT frame carrying a Guolo fragment is received and reassembled. (R375) -/
  | mgmtFrameReceive (src : Bytes) (payload : Bytes)
  /-- A MGMT message not complete within 100 ms is discarded. (R376) -/
  | mgmtReassemblyTimeout (mb : MbId)
  /-- Requests held for a sequence gap are refused when the gap time passes. (R376) -/
  | mgmtGapTimeout (mb : MbId)
  /-- JTAG instruction 0x3C selects the MB14 data register for mailbox access. (R469) -/
  | jtagMb14Data (w : W32)
  /-- JTAG instruction 0xFF selects BYPASS. (R469) -/
  | jtagBypass (b : Bool)
  /-- A management-core pair's lockstep comparison fails; the pair is reset and its threads move. (R395) -/
  | mcLockstepMismatch (q : Fin 2)
  /-- A reset management-core pair finishes its self-test and takes threads back. (R396) -/
  | mcPairSelfTestDone (q : Fin 2) (pass : Bool)
  /-- A fault's settle time ends, and its log entry closes. (R393) -/
  | settleTimeExpiry (u : FaultUnit)
  /-- A slice drain reaches its bound; remaining packets are dropped and the slice is reset. (R401) -/
  | sliceDrainComplete (k : SliceId)
  /-- A reset slice rejoins the release condition and the epoch, and its ports return. (R401) -/
  | sliceReturn (k : SliceId)
  /-- A slice not returned within 150 ms of its drain order leads to the safe state. (R397) -/
  | sliceReturnTimeout (k : SliceId)
  /-- SYSCLK is lost; the backup oscillator takes over and the safe state is entered. (R398) -/
  | sysclkLoss
  /-- A SYSCLK period outside 30–50 ns sets the tamper latch with source 3. (R463) -/
  | sysclkPeriodGlitch
  /-- A VCORE excursion beyond ±12 % for 5 ns sets the tamper latch with source 1. (R463) -/
  | vcoreGlitch
  /-- VKEEP falls below 1.6 V, and keeper state is lost. (R433) -/
  | vkeepLoss
  /-- RESET_N is asserted; admission stops, the gate shuts, the ledger queue is flushed and internal reset follows. (R465) -/
  | resetNAssert
  /-- RESET_N is released; straps are sampled and the boot ROM runs the start sequence. (R413) -/
  | bootStart (x : BootInputs)
  /-- The new Scemas image has taken the state block and started its threads; the switch completes. (R419) -/
  | switchoverHandoverDone
  /-- The new image has not started 40 ms after quiesce, and the old image resumes. (R419) -/
  | switchoverTimeout
  /-- A deglitched SAG_WARN change requests a sag level. (R434) -/
  | sagWarnInput (v : Fin 8)
  /-- A rail monitor crosses a threshold and requests or stops requesting a sag level. (R434) -/
  | railMonitorTrigger (m : RailMonitor) (lvl : Fin 6)
  /-- At level 2, sheddable ports of a rank go to deep rest at their 5·r µs time. (R436) -/
  | shedRankTimer (rank : Fin 16)
  /-- At level 5 the ledger queue is written and the final sealed record is written, then the keeper is updated. (R437) -/
  | ledgerCloseDone
  /-- A release hold ends, and the sag level steps down by one. (R441) -/
  | sagReleaseHoldExpiry
  /-- Every trigger has been clear for the level-5 release time, and the device resets itself. (R441) -/
  | level5ReleaseReset
  /-- The adaptive VCORE loop writes one 5 mV step through PMBus. (R430) -/
  | vcoreAdaptStep (x : VcoreStep)
  /-- A sensor crosses the thermal threshold or its release, THERM_N changes and the thermal event is raised. (R444) -/
  | thermalThresholdCrossing (temp : Int)
  /-- A snapshot copies every counter on one core clock, and snapshot-done is raised. (R457) -/
  | counterSnapshotTake
  /-- A programmable counter's sample period expires, and a packet capture is armed. (R454) -/
  | counterPeriodExpiry (k : SliceId) (n : Fin 8)
  /-- The 64-clock skid window ends, and counter-overflow is raised with or without a capture. (R454) -/
  | counterCaptureTimeout (k : SliceId) (n : Fin 8)
  /-- Command 0x0101 returns the status registers, base MAC and a stamp. (R388) -/
  | deviceStatus (r : Request)
  /-- Command 0x0102 sets the event groups of the sending master. (R367) -/
  | eventSubscribe (r : Request)
  /-- Read of Event subscribe. (R383) -/
  | eventSubscribeRead (r : Request)
  /-- Command 0x0103 sets the MGMT settings. (R375) -/
  | managementPortSet (r : Request)
  /-- Read of Management port set. (R383) -/
  | managementPortSetRead (r : Request)
  /-- Command 0x0104 sets the engine, scrub, Awn and deadline settings. (R206) -/
  | engineSet (r : Request)
  /-- Read of Engine set. (R383) -/
  | engineSetRead (r : Request)
  /-- The Engine set item that fences an engine or returns it to service. (R206) -/
  | engineFenceOrReturn (r : Request)
  /-- Command 0x0105 returns the fault status. (R405) -/
  | faultStatus (r : Request)
  /-- Command 0x0106 sets the fault policy. (R407) -/
  | faultPolicySet (r : Request)
  /-- Read of Fault policy set. (R383) -/
  | faultPolicySetRead (r : Request)
  /-- The Fault policy item that orders the drain and reset of a slice. (R401) -/
  | sliceDrainAndReset (r : Request)
  /-- The owner-signed Fault policy item that clears the safe state. (R399) -/
  | clearSafeState (r : Request)
  /-- Command 0x0201 sets the port mode, negotiation and store-and-forward. (R74) -/
  | portModeSet (r : Request)
  /-- Read of Port mode set. (R383) -/
  | portModeSetRead (r : Request)
  /-- Command 0x0202 sets lane polarity. (R75) -/
  | laneConfigSet (r : Request)
  /-- Read of Lane config set. (R383) -/
  | laneConfigSetRead (r : Request)
  /-- Command 0x0203 sets training bounds, resets the retry count and may start an attempt. (R81) -/
  | portTrainingSet (r : Request)
  /-- Read of Port training set. (R383) -/
  | portTrainingSetRead (r : Request)
  /-- Command 0x0204 sets the damping parameters. (R82) -/
  | portDampingSet (r : Request)
  /-- Read of Port damping set. (R383) -/
  | portDampingSetRead (r : Request)
  /-- Command 0x0205 sets pause honouring, the watchdog and pause sending. (R83) -/
  | portPauseSet (r : Request)
  /-- Read of Port pause set. (R383) -/
  | portPauseSetRead (r : Request)
  /-- Command 0x0206 sets policers, keeping bucket contents clipped. (R85) -/
  | portPolicerSet (r : Request)
  /-- Read of Port policer set. (R383) -/
  | portPolicerSetRead (r : Request)
  /-- Command 0x0207 puts lanes into loops and patterns in the test state. (R86) -/
  | laneTestSet (r : Request)
  /-- Read of Lane test set. (R383) -/
  | laneTestSetRead (r : Request)
  /-- Command 0x0208 sets a lane's power state. (R88) -/
  | lanePowerSet (r : Request)
  /-- Read of Lane power set. (R383) -/
  | lanePowerSetRead (r : Request)
  /-- Command 0x0209 sets recalibration settings or starts a pass. (R90) -/
  | laneRecalibrateSet (r : Request)
  /-- Read of Lane recalibrate set. (R383) -/
  | laneRecalibrateSetRead (r : Request)
  /-- Command 0x020A sets TTI, TIM detection and action, and the expected payload type. (R100) -/
  | otnOverheadSet (r : Request)
  /-- Read of OTN overhead set. (R383) -/
  | otnOverheadSetRead (r : Request)
  /-- Command 0x020B sets ODU lock. (R102) -/
  | otnMaintenanceSet (r : Request)
  /-- Read of OTN maintenance set. (R383) -/
  | otnMaintenanceSetRead (r : Request)
  /-- Command 0x020C sets pool division, thresholds, privileged classes and α. (R294) -/
  | bufferPoolSet (r : Request)
  /-- Read of Buffer pool set. (R383) -/
  | bufferPoolSetRead (r : Request)
  /-- Command 0x020D sets MTU, queue limits, ECN, trust and residue. (R300) -/
  | portQueueSet (r : Request)
  /-- Read of Port queue set. (R383) -/
  | portQueueSetRead (r : Request)
  /-- Command 0x020E sets scheduler modes, weights and shapers. (R306) -/
  | portSchedulerSet (r : Request)
  /-- Read of Port scheduler set. (R383) -/
  | portSchedulerSetRead (r : Request)
  /-- Command 0x020F returns port state, mode, cause, failures and damping. (R388) -/
  | portStatus (r : Request)
  /-- Command 0x0301 sets the reference and loop settings. (R69) -/
  | tillerReferenceSet (r : Request)
  /-- Read of Tiller reference set. (R383) -/
  | tillerReferenceSetRead (r : Request)
  /-- Command 0x0302 sets qualification, slew, lock and holdover settings. (R69) -/
  | tillerHoldoverSet (r : Request)
  /-- Read of Tiller holdover set. (R383) -/
  | tillerHoldoverSetRead (r : Request)
  /-- Command 0x0303 sets the synthetic origin and forces or releases a mode. (R51) -/
  | tillerModeSet (r : Request)
  /-- Read of Tiller mode set. (R383) -/
  | tillerModeSetRead (r : Request)
  /-- Command 0x0304 sets the TAI sources, PTP and port asymmetry. (R52) -/
  | tillerTimeSourceSet (r : Request)
  /-- Read of Tiller time source set. (R383) -/
  | tillerTimeSourceSetRead (r : Request)
  /-- Command 0x0305 sets CYC_OUT and PPS_OUT. (R66) -/
  | tillerOutputSet (r : Request)
  /-- Read of Tiller output set. (R383) -/
  | tillerOutputSetRead (r : Request)
  /-- Bale action 0x0306 writes a gate list into a port's inactive bank. (R60) -/
  | gateListSet (r : Request)
  /-- Bale action 0x0307 changes an ingress window descriptor. (R64) -/
  | windowSet (r : Request)
  /-- Command 0x0308 returns the Tiller state and estimates. (R388) -/
  | tillerStatus (r : Request)
  /-- Command 0x0401 sets the eviction rule per slice. (R114) -/
  | bridgeTableSet (r : Request)
  /-- Read of Bridge table set. (R383) -/
  | bridgeTableSetRead (r : Request)
  /-- Command 0x0402 sets learning, move damping and VLAN port settings. (R116) -/
  | bridgeLearnSet (r : Request)
  /-- Read of Bridge learn set. (R383) -/
  | bridgeLearnSetRead (r : Request)
  /-- Command 0x0403 sets the sweep period and ageing. (R121) -/
  | bridgeAgeingSet (r : Request)
  /-- Read of Bridge ageing set. (R383) -/
  | bridgeAgeingSetRead (r : Request)
  /-- Command 0x0404 copies matching learned entries from one slice to others. (R125) -/
  | bridgeCopy (r : Request)
  /-- Command 0x0405 sets TTL-expiry handling. (R127) -/
  | routeOptionsSet (r : Request)
  /-- Read of Route options set. (R383) -/
  | routeOptionsSetRead (r : Request)
  /-- Command 0x0406 sets seeds, LACP and the move limit per group. (R133) -/
  | aggregationSet (r : Request)
  /-- Read of Aggregation set. (R383) -/
  | aggregationSetRead (r : Request)
  /-- Bale action 0x0407 adds, changes or removes a static MAC entry. (R115) -/
  | bridgeEntrySet (r : Request)
  /-- Bale action 0x0408 changes a VLAN entry. (R124) -/
  | vlanSet (r : Request)
  /-- Bale action 0x0409 sets a router MAC address. (R126) -/
  | routerMacSet (r : Request)
  /-- Bale action 0x040A adds, replaces or removes a prefix. (R128) -/
  | prefixSet (r : Request)
  /-- Bale action 0x040B changes a next hop. (R128) -/
  | nextHopSet (r : Request)
  /-- Bale action 0x040C changes a multipath group. (R128) -/
  | multipathSet (r : Request)
  /-- Bale action 0x040D sets a group's members and deals its slots. (R131) -/
  | aggregationGroupSet (r : Request)
  /-- Bale action 0x040E adds, changes or removes a match row, relocating for a hole. (R247) -/
  | matchRowSet (r : Request)
  /-- Bale action 0x040F changes a bank selector. (R240) -/
  | matchBankSet (r : Request)
  /-- Command 0x0410 changes the hole interval and starts respacing. (R248) -/
  | matchArraySet (r : Request)
  /-- Read of Match array set. (R383) -/
  | matchArraySetRead (r : Request)
  /-- Command 0x0411 reads a match row with its hit and tie data. (R388) -/
  | matchRead (r : Request)
  /-- Command 0x0412 bulk-reads matching MAC entries of a slice. (R388) -/
  | bridgeRead (r : Request)
  /-- Command 0x0413 bulk-reads prefix, next-hop and multipath records. (R388) -/
  | routeRead (r : Request)
  /-- Bale action 0x0501 changes a flow profile entry. (R137) -/
  | flowProfileSet (r : Request)
  /-- Bale action 0x0502 places, changes or removes a host flow record. (R154) -/
  | flowRecordSet (r : Request)
  /-- Command 0x0503 sets sweep classes, ageing and pass time. (R151) -/
  | flowAgeingSet (r : Request)
  /-- Read of Flow ageing set. (R383) -/
  | flowAgeingSetRead (r : Request)
  /-- Command 0x0504 sets creation limits, thresholds, the record-wait limit and seeds. (R162) -/
  | flowTableSet (r : Request)
  /-- Read of Flow table set. (R383) -/
  | flowTableSetRead (r : Request)
  /-- Command 0x0505 reads a flow record by key, or by location in the expert form. (R388) -/
  | flowRead (r : Request)
  /-- Bale action 0x0506 writes the customer object region. (R196) -/
  | objectWrite (r : Request)
  /-- Command 0x0507 places a signed pattern set into free automata memory. (R254) -/
  | patternLoad (r : Request)
  /-- Bale action 0x0508 switches to a loaded pattern set. (R254) -/
  | patternSwitch (r : Request)
  /-- Bale action 0x0509 changes a load-balancing group. (R212) -/
  | lbGroupSet (r : Request)
  /-- Bale action 0x050A changes a member and redeals the slots. (R213) -/
  | lbMemberSet (r : Request)
  /-- Bale action 0x050B changes a translation pool. (R217) -/
  | translationPoolSet (r : Request)
  /-- Command 0x050C sets export destinations and options. (R231) -/
  | exportSet (r : Request)
  /-- Read of Export set. (R383) -/
  | exportSetRead (r : Request)
  /-- Command 0x050D returns export counts and the enterprise number. (R388) -/
  | exportStatus (r : Request)
  /-- Command 0x050E reads archive entries by sequence, reporting any gap. (R234) -/
  | archiveRead (r : Request)
  /-- Command 0x050F returns flow table occupancy and refusal counts. (R388) -/
  | flowStatus (r : Request)
  /-- Bale action 0x0601 changes a command profile. (R258) -/
  | gateProfileSet (r : Request)
  /-- Owner-signed bale action 0x0602 changes an operator key. (R265) -/
  | keyRingSet (r : Request)
  /-- Command 0x0603 sets permit intake settings. (R263) -/
  | gateIntakeSet (r : Request)
  /-- Read of Gate intake set. (R383) -/
  | gateIntakeSetRead (r : Request)
  /-- Command 0x0604 sets gate options, pin mode and permit seeds. (R293) -/
  | gateOptionsSet (r : Request)
  /-- Read of Gate options set. (R383) -/
  | gateOptionsSetRead (r : Request)
  /-- Command 0x0605 sets the seal interval and count. (R287) -/
  | ledgerOptionsSet (r : Request)
  /-- Read of Ledger options set. (R383) -/
  | ledgerOptionsSetRead (r : Request)
  /-- Command 0x0606 moves the retention mark. (R289) -/
  | ledgerAcknowledge (r : Request)
  /-- Command 0x0607 shuts the gate by signed order. (R281) -/
  | gateShut (r : Request)
  /-- Command 0x0608 reopens the gate by signed order unless the pin or a state forbids it. (R282) -/
  | gateReopen (r : Request)
  /-- Command 0x0609 submits a permit body for intake. (R263) -/
  | permitSubmit (r : Request)
  /-- Bale action 0x060A removes permits of a key at the commit tick. (R291) -/
  | permitRevoke (r : Request)
  /-- Command 0x060B reads permit entries by selector. (R388) -/
  | permitRead (r : Request)
  /-- Command 0x060C bulk-reads ledger records by index. (R388) -/
  | ledgerRead (r : Request)
  /-- Command 0x060D returns the gate state and counts. (R388) -/
  | gateStatus (r : Request)
  /-- Command 0x0701 opens a bale and returns its ID. (R164) -/
  | baleOpen (r : Request)
  /-- Command 0x0702 validates a bale and arms its commit. (R168) -/
  | baleCommit (r : Request)
  /-- Command 0x0703 aborts a bale and releases its room. (R167) -/
  | baleAbort (r : Request)
  /-- Command 0x0704 returns a bale's state. (R163) -/
  | baleStatus (r : Request)
  /-- Command 0x0705 sets bale limits, idle timeout and precedence. (R182) -/
  | baleOptionsSet (r : Request)
  /-- Read of Bale options set. (R383) -/
  | baleOptionsSetRead (r : Request)
  /-- Command 0x0801 sets the age cap. (R328) -/
  | memorySchedulerSet (r : Request)
  /-- Read of Memory scheduler set. (R383) -/
  | memorySchedulerSetRead (r : Request)
  /-- Command 0x0802 sets retraining settings. (R335) -/
  | memoryRetrainSet (r : Request)
  /-- Read of Memory retrain set. (R383) -/
  | memoryRetrainSetRead (r : Request)
  /-- The Memory retrain set item that retrains one unit now. (R335) -/
  | retrainUnitNow (r : Request)
  /-- Command 0x0803 sets the disturbance threshold and patrol passes. (R343) -/
  | memoryScrubSet (r : Request)
  /-- Read of Memory scrub set. (R383) -/
  | memoryScrubSetRead (r : Request)
  /-- Command 0x0804 sets Granary shares and orders for the next reset. (R343) -/
  | granaryRegionSet (r : Request)
  /-- Read of Granary region set. (R383) -/
  | granaryRegionSetRead (r : Request)
  /-- Command 0x0805 retires a memory unit. (R337) -/
  | memoryRetire (r : Request)
  /-- Command 0x0806 returns a unit's status and error counts. (R388) -/
  | memoryStatus (r : Request)
  /-- Owner-signed command 0x0901 sets the pair ID, twin key and alignment. (R352) -/
  | sheafPairSet (r : Request)
  /-- Read of Sheaf pair set. (R383) -/
  | sheafPairSetRead (r : Request)
  /-- Command 0x0902 sets Sheaf lane polarity and test. (R358) -/
  | sheafLaneSet (r : Request)
  /-- Read of Sheaf lane set. (R383) -/
  | sheafLaneSetRead (r : Request)
  /-- Command 0x0903 sets Sheaf lane power. (R358) -/
  | sheafPowerSet (r : Request)
  /-- Read of Sheaf power set. (R383) -/
  | sheafPowerSetRead (r : Request)
  /-- Command 0x0904 returns the twin state and offsets. (R356) -/
  | sheafStatus (r : Request)
  /-- Command 0x0A01 sets the samplers. (R317) -/
  | chaffSet (r : Request)
  /-- Read of Chaff set. (R383) -/
  | chaffSetRead (r : Request)
  /-- Command 0x0A02 sets the Straw offset. (R319) -/
  | strawSet (r : Request)
  /-- Read of Straw set. (R383) -/
  | strawSetRead (r : Request)
  /-- Command 0x0A03 reads Straw records by index, reporting any gap. (R320) -/
  | strawRead (r : Request)
  /-- Command 0x0A04 reads live or snapshot counters. (R458) -/
  | counterRead (r : Request)
  /-- Command 0x0A05 arms a snapshot now or at an angle. (R457) -/
  | counterSnapshot (r : Request)
  /-- Command 0x0A06 freezes or releases the programmable counters. (R456) -/
  | counterFreeze (r : Request)
  /-- Command 0x0A07 sets event numbers, periods and sampling. (R460) -/
  | counterSamplingSet (r : Request)
  /-- Read of Counter sampling set. (R383) -/
  | counterSamplingSetRead (r : Request)
  /-- Command 0x0B01 writes the first owner keys and the claim record. (R377) -/
  | claim (r : Request)
  /-- Command 0x0B02 loads a signed image into the shadow banks. (R203) -/
  | microcodeLoad (r : Request)
  /-- Bale action 0x0B03 switches the control-store bank. (R204) -/
  | microcodeSwitch (r : Request)
  /-- Command 0x0B04 reads control-store words, with the Larzenu region reading 0. (R411) -/
  | microcodeRead (r : Request)
  /-- Command 0x0B05 writes a Scemas image and patch set into the inactive slot. (R418) -/
  | firmwareLoad (r : Request)
  /-- Command 0x0B06 starts a switchover to the named slot. (R419) -/
  | firmwareSwitch (r : Request)
  /-- Command 0x0B07 returns a signed quote over the nonce. (R422) -/
  | attestationQuote (r : Request)
  /-- Command 0x0B08 returns the attestation log. (R422) -/
  | attestationLogRead (r : Request)
  /-- Command 0x0B09 advances a rollback counter. (R417) -/
  | rollbackAdvance (r : Request)
  /-- Command 0x0B0A adds, replaces or removes an owner key. (R415) -/
  | ownerKeySet (r : Request)
  /-- Command 0x0B0B returns a succession payload and retires this device's ownership. (R425) -/
  | successionExport (r : Request)
  /-- Command 0x0B0C imports a succession package and applies its configuration. (R426) -/
  | successionImport (r : Request)
  /-- Command 0x0C01 returns the sag level, rail flags and power. (R443) -/
  | powerStatus (r : Request)
  /-- Command 0x0C02 sets port sag roles and ranks. (R436) -/
  | sagPortSet (r : Request)
  /-- Read of Sag port set. (R383) -/
  | sagPortSetRead (r : Request)
  /-- Command 0x0C03 sets sag classes, limits and thresholds. (R449) -/
  | sagOptionsSet (r : Request)
  /-- Read of Sag options set. (R383) -/
  | sagOptionsSetRead (r : Request)
  /-- The expert Sag options item that requests a test sag level of 1 to 3. (R434) -/
  | commandedTestLevel (r : Request)
  /-- Command 0x0C04 returns the keeper's last sag record. (R439) -/
  | sagRecordRead (r : Request)
  /-- The 10 MHz TIME_REF input fails, and the 1PPS time source is disqualified. (R467) -/
  | timeRefLoss
  /-- SYSCLK is present again after a loss, so the clear-safe-state item is no longer refused for SYSCLK absent. (R399) -/
  | sysclkReturn
  /-- VKEEP returns above its threshold, and the RTC restarts at 0 s with seed-valid clear. (R433) -/
  | vkeepReturn
  /-- The 32.768 kHz keeper crystal stops, and the RTC stops while the rest of keeper state is kept. (R467) -/
  | xtal32Loss
  /-- A Sheaf lane that is searching finds the K28.5 comma and gains symbol lock. (R345) -/
  | sheafSymbolLockGain (l : SheafLaneId)
  /-- The pause time that a received pause or PFC frame granted runs out, and the class is no longer held. (R83) -/
  | pauseQuantaExpiry (p : PortId) (c : ClassId)
  /-- No LACPDU arrives from a member's partner within the LACP timeout, and the member stops collecting and distributing. (R130) -/
  | lacpTimeout (p : PortId)
  /-- The second check of the target slot and patch set finishes, STATUS switchover is set, and the mailboxes quiesce. (R419) -/
  | switchoverImageStaged (ok : Bool)
  /-- Each second of a running long request, the progress event is raised. (R379) -/
  | longRequestProgress (mb : MbId) (percent : Nat)
deriving DecidableEq, Repr

end Sys2Proof
end

