-- ==== Sys2Proof/Decode.lean ====
section
/-! DEFINITION. Reading a command from a word of the opcode table. The table gives none of its rows any bits. -/

namespace Sys2Proof

/-- The command that a word spells by the bits of spec/opcode_table.json: no row has bits, so no word spells a command. -/
def decodeTableWord (_nbits _w : Nat) : Option Instr := none

end Sys2Proof
end

