-- ==== Sys2Proof/Config.lean ====
section
/-! DEFINITION. What the spec leaves open: secrets of the part, values the factory gives it, functions of the outside tools whose
form the spec does not give, and the free values. None has a body, so no claim can rest on a value of one. -/

namespace Sys2Proof.Config

/-- A free value: the `n`-th value the device supplies where the spec leaves one open. -/
opaque freeWord : Nat → W64

/-- Factory values of Table 18-1. -/
opaque serial : Nat
opaque baseMac : Nat
opaque endorsement : Bytes
/-- The private seed that R412 derives from the unclonable source; 32 bytes. -/
opaque identitySeed : Bytes
/-- The patch key of Table 18-1. -/
opaque patchKey : Bytes
/-- AES-256-GCM decryption (R411): key, nonce, additional data, tag, ciphertext. -/
opaque aesGcmOpen : Bytes → Bytes → Bytes → Bytes → Bytes → Option Bytes
/-- The public keys of the four Larzenu firmware keys held by the boot ROM (R408). -/
opaque larzenuKey : Nat → Bytes
/-- SHA-512 of the boot ROM contents (Table 18-9). -/
opaque romDigest : Bytes
/-- The enterprise number that the export status returns (R231). -/
opaque enterpriseNumber : Nat
/-- The source address, IPv4 or not, and the UDP source port of export messages, which the spec does not give (R231). -/
opaque exportSource : Bool → Nat
opaque exportPort : Nat

/-- The compiled pattern image, whose format is dzipa's (R250): transition, accepted patterns (with their actions), start state
and mode of each protocol profile, and the number of states. -/
opaque dfaNext : Bytes → Nat → Byte → Nat
opaque dfaAccept : Bytes → Nat → List Nat
opaque dfaStart : Bytes → Nat → Option Nat
opaque dfaStream : Bytes → Nat → Bool
opaque dfaAction : Bytes → Nat → Nat
opaque dfaStates : Bytes → Nat
opaque dfaBytes : Bytes → Nat
/-- The index of the first state that breaks Table 10-4, if one does. -/
opaque dfaBad : Bytes → Option Nat

/-- Power estimate in mW from activity and setpoint (R443): a free value within the estimate's bounds. -/
opaque powerEstimate : Nat → Nat

/-- Frames that wait for a packet context before a slice's ingress buffer is full (R184). -/
opaque ingressBuffer : Nat

/-- Page in bytes, and banks of a subchannel, of the Granary's devices, by their SPD (R324, R325). -/
opaque granaryPage : Nat
opaque granaryBanks : Nat
/-- The SPD of a Granary unit reports refresh management, and after how many activations of a bank the command is due (R331, JEDEC
DDR5). -/
opaque refreshManaged : Nat → Bool
opaque managedAt : Nat → Nat
/-- Refresh interval, in ninths of a ns, of the standards that R330 names: JEDEC HBM3 (`true`) and DDR5. -/
opaque refreshInterval : Bool → Nat
/-- How many refreshes beyond one the same standards let a bank postpone. -/
opaque postponeMore : Bool → Nat
/-- The postponement limit of R330: at least one refresh can be postponed. -/
def postponeLimit (hbm : Bool) : Nat := postponeMore hbm + 1

/-- The range of transmit tap c(n − 3) of a lane in steps of the start-up protocol (R78), which the spec does not give. -/
opaque tapLow : Nat → Int
opaque tapHigh : Nat → Int
/-- What an adapting receiver asks of its partner next, if anything: a tap and a step (R78), from a free value. -/
opaque tapAsk : W64 → Option (Nat × Int)
/-- What the pattern checker makes of one clock's bits that come by an analog path: lock, and bit errors (R87), from a free value. -/
opaque checkerLocks : W64 → Bool
opaque checkerErrors : W64 → Nat

/-- The third-order tracking loop (R46), whose coefficients the spec does not give: from the time constant in cycles (Table 2-3), the
present frequency estimate in nHz and its rate of change in nHz per second, the period measured in ns and the phase error in au, the new
frequency estimate, the new rate of change, and the phase of the estimate less that of the edge in 2^-40 au. -/
opaque loopFreq : Nat → Nat → Int → Nat → Int → Nat
opaque loopRate : Nat → Nat → Int → Nat → Int → Int
opaque loopPhase : Nat → Nat → Int → Nat → Int → Int
/-- The TAI frequency trim after a comparison with a source (R52), whose loop the spec does not give: from the present trim, in 10^-9
ninths of a ns per core clock, and the offset found in ns. -/
opaque taiTrim : Int → Int → Int
/-- The data set by which the device announces itself as a grandmaster, with its grandmaster ID and its total time inaccuracy (R53). -/
opaque ptpClock : PtpClock
opaque ptpGmId : Nat
opaque ptpInaccuracy : Nat

/-- Bytes of a message in one MGMT frame beyond the first 257: a free value (assumption 190). -/
opaque mgmtFragment : Nat

end Sys2Proof.Config
end

