-- ==== Sys2Proof/Machine/Bits.lean ====
section
/-! DEFINITION. Byte order, bit fields and the cyclic redundancy checks (R13, R112, R141, R311). -/

namespace Sys2Proof.Machine

/-- The number that little-endian bytes hold (R13). -/
def leNat : Bytes → Nat
  | [] => 0
  | b :: bs => b.toNat + 256 * leNat bs

/-- The number that network-order bytes hold (R13). -/
def beNat (bs : Bytes) : Nat := bs.foldl (fun n b => 256 * n + b.toNat) 0

/-- `n` as `k` little-endian bytes; the higher bits are cut. -/
def natLe : Nat → Nat → Bytes
  | 0, _ => []
  | k + 1, n => BitVec.ofNat 8 n :: natLe k (n / 256)

/-- `n` as `k` bytes in network order. -/
def natBe (k n : Nat) : Bytes := (natLe k n).reverse

/-- The bytes of `bs` from offset `off`, `len` of them; bytes beyond the end read 0. -/
def slice (bs : Bytes) (off len : Nat) : Bytes :=
  (List.range len).map (fun i => bs.getD (off + i) 0)

/-- The little-endian field of `len` bytes at `off`. -/
def leAt (bs : Bytes) (off len : Nat) : Nat := leNat (slice bs off len)

/-- The network-order field of `len` bytes at `off`. -/
def beAt (bs : Bytes) (off len : Nat) : Nat := beNat (slice bs off len)

/-- `bs` with its bytes from `off` replaced by `new`; bytes that fall beyond the end are not written. -/
def patch (bs : Bytes) (off : Nat) (new : Bytes) : Bytes :=
  bs.mapIdx (fun i b => if off ≤ i ∧ i < off + new.length then new.getD (i - off) 0 else b)

/-- `bs` cut or filled with zero bytes to length `n`. -/
def padTo (n : Nat) (bs : Bytes) : Bytes := (bs ++ List.replicate (n - bs.length) 0).take n

/-- Bit `i` of the number `n`. -/
def bit (n i : Nat) : Bool := n.testBit i

/-- Bits [hi:lo] of the number `n` (R12). -/
def bits (n hi lo : Nat) : Nat := (n >>> lo) % 2 ^ (hi + 1 - lo)

/-- `n` read as a two's-complement number of `w` bits. -/
def signed (w n : Nat) : Int :=
  let m := n % 2 ^ w
  if m < 2 ^ (w - 1) then (m : Int) else (m : Int) - (2 ^ w : Nat)

/-- The `w`-bit two's-complement pattern of `z`. -/
def unsigned (w : Nat) (z : Int) : Nat := (z % (2 ^ w : Nat)).toNat

/-- A flag as a bit. -/
def b2n (b : Bool) : Nat := if b then 1 else 0

/-- One bit of a CRC that takes bits most significant first. -/
def crcStep (poly c : W32) (inBit : Bool) : W32 :=
  let c' := c <<< 1
  if (c.getLsbD 31) != inBit then c' ^^^ poly else c'

/-- One byte of such a CRC, bit 7 first. -/
def crcByte (poly c : W32) (b : Byte) : W32 :=
  [7, 6, 5, 4, 3, 2, 1, 0].foldl (fun c i => crcStep poly c (b.getLsbD i)) c

/-- A CRC over bytes, bits most significant first, no final XOR. -/
def crcMsb (poly seed : W32) (bs : Bytes) : W32 := bs.foldl (crcByte poly) seed

/-- The CRC-32C of R112 from `seed`: polynomial 0x1EDC_6F41, bits most significant first, no final XOR. -/
def crc32c (seed : W32) (bs : Bytes) : W32 := crcMsb 0x1EDC6F41#32 seed bs

/-- The CRC-32 of H2 (R141): polynomial 0x04C1_1DB7, bits most significant first, no final XOR. -/
def crc32h (seed : W32) (bs : Bytes) : W32 := crcMsb 0x04C11DB7#32 seed bs

/-- The start value 0xFFFF_FFFF of the CRCs. -/
def crcOnes : W32 := 0xFFFFFFFF#32

/-- One bit of the Ethernet CRC-32, which takes bits least significant first (IEEE 802.3 Clause 3). -/
def fcsStep (c : W32) (inBit : Bool) : W32 :=
  let c' := c >>> 1
  if (c.getLsbD 0) != inBit then c' ^^^ 0xEDB88320#32 else c'

/-- The Ethernet frame check sequence over the bytes of a frame without its FCS. -/
def fcs (bs : Bytes) : W32 :=
  (bs.foldl (fun c b => [0, 1, 2, 3, 4, 5, 6, 7].foldl (fun c i => fcsStep c (b.getLsbD i)) c) crcOnes) ^^^ crcOnes

/-- The FCS field as it stands on the wire after the frame: least significant byte first. -/
def fcsBytes (c : W32) : Bytes := natLe 4 c.toNat

/-- Ceiling division. -/
def ceilDiv (a b : Nat) : Nat := (a + b - 1) / b

/-- `x` kept within `lo` and `hi`. -/
def clampNat (lo hi x : Nat) : Nat := max lo (min hi x)

end Sys2Proof.Machine
end

