-- ==== Sys2Proof/Machine/Crypto.lean ====
section
/-! DEFINITION. SHA-512 (FIPS 180-4) and Ed25519 (RFC 8032), which the spec names for digests, ledger chaining, permits,
signed requests and images (R262, R264, R287, R372, R410). PRESUMED: their algorithms are those of the named standards. -/

namespace Sys2Proof.Machine

/-- The 64-bit words of a row of four, from the most significant on. -/
def shaRow (row : Nat) : List W64 := [3, 2, 1, 0].map (fun i => BitVec.ofNat 64 (row >>> (64 * i)))

/-- The eighty round constants of SHA-512, four to a row. -/
def shaK : List W64 :=
  ([0x428a2f98d728ae227137449123ef65cdb5c0fbcfec4d3b2fe9b5dba58189dbbc,
   0x3956c25bf348b53859f111f1b605d019923f82a4af194f9bab1c5ed5da6d8118,
   0xd807aa98a303024212835b0145706fbe243185be4ee4b28c550c7dc3d5ffb4e2,
   0x72be5d74f27b896f80deb1fe3b1696b19bdc06a725c71235c19bf174cf692694,
   0xe49b69c19ef14ad2efbe4786384f25e30fc19dc68b8cd5b5240ca1cc77ac9c65,
   0x2de92c6f592b02754a7484aa6ea6e4835cb0a9dcbd41fbd476f988da831153b5,
   0x983e5152ee66dfaba831c66d2db43210b00327c898fb213fbf597fc7beef0ee4,
   0xc6e00bf33da88fc2d5a79147930aa72506ca6351e003826f142929670a0e6e70,
   0x27b70a8546d22ffc2e1b21385c26c9264d2c6dfc5ac42aed53380d139d95b3df,
   0x650a73548baf63de766a0abb3c77b2a881c2c92e47edaee692722c851482353b] ++
  [0xa2bfe8a14cf10364a81a664bbc423001c24b8b70d0f89791c76c51a30654be30,
   0xd192e819d6ef5218d69906245565a910f40e35855771202a106aa07032bbd1b8,
   0x19a4c116b8d2d0c81e376c085141ab532748774cdf8eeb9934b0bcb5e19b48a8,
   0x391c0cb3c5c95a634ed8aa4ae3418acb5b9cca4f7763e373682e6ff3d6b2b8a3,
   0x748f82ee5defb2fc78a5636f43172f6084c87814a1f0ab728cc702081a6439ec,
   0x90befffa23631e28a4506cebde82bde9bef9a3f7b2c67915c67178f2e372532b,
   0xca273eceea26619cd186b8c721c0c207eada7dd6cde0eb1ef57d4f7fee6ed178,
   0x06f067aa72176fba0a637dc5a2c898a6113f9804bef90dae1b710b35131c471b,
   0x28db77f523047d8432caab7b40c724933c9ebe0a15c9bebc431d67c49c100d4c,
   0x4cc5d4becb3e42b6597f299cfc657e2a5fcb6fab3ad6faec6c44198c4a475817]).flatMap shaRow

/-- The working variables: a to d and e to h of FIPS 180-4, each four newest first, since a round moves them one place on and makes
one new value of each. -/
structure ShaVars where
  left : List W64
  right : List W64
deriving DecidableEq, Repr

/-- The initial hash value of SHA-512. -/
def shaInit : ShaVars where
  left := shaRow 0x6a09e667f3bcc908bb67ae8584caa73b3c6ef372fe94f82ba54ff53a5f1d36f1
  right := shaRow 0x510e527fade682d19b05688c2b3e6c1f1f83d9abfb41bd6b5be0cd19137e2179

/-- The exclusive or of a word rotated right by each of some amounts. -/
def shaTurns (x : W64) (by_ : List Nat) : W64 := by_.foldl (fun acc r => acc ^^^ x.rotateRight r) 0

/-- One round of the compression function with the sum of its constant and its schedule word. -/
def shaRound (v : ShaVars) (kw : W64) : ShaVars :=
  let l (i : Nat) : W64 := v.left.getD i 0
  let r (i : Nat) : W64 := v.right.getD i 0
  let choice := (r 0 &&& r 1) ||| (~~~r 0 &&& r 2)
  let majority := (l 0 &&& (l 1 ||| l 2)) ||| (l 1 &&& l 2)
  let fresh := kw + r 3 + choice + shaTurns (r 0) [14, 18, 41]
  { left := (fresh + majority + shaTurns (l 0) [28, 34, 39]) :: v.left.take 3, right := (l 3 + fresh) :: v.right.take 3 }

/-- The message schedule: `n` more words after the words `acc`, which stand newest first. -/
def shaSchedule : Nat → List W64 → List W64
  | 0, acc => acc
  | n + 1, acc =>
    let back (k : Nat) : W64 := acc.getD (k - 1) 0
    let near := shaTurns (back 2) [19, 61] ^^^ (back 2 >>> 6)
    let far := shaTurns (back 15) [1, 8] ^^^ (back 15 >>> 7)
    shaSchedule n ((near + back 7 + far + back 16) :: acc)

/-- The big-endian words of a byte string, `n` of them. -/
def shaWords (n : Nat) (bs : Bytes) : List W64 := (List.range n).map (fun i => BitVec.ofNat 64 (beNat (slice bs (8 * i) 8)))

/-- The compression of one block of 128 bytes, added to the hash value before it. -/
def shaBlock (v : ShaVars) (block : Bytes) : ShaVars :=
  let schedule := (shaSchedule 64 (shaWords 16 block).reverse).reverse
  let out := (List.zipWith (fun k w => k + w) shaK schedule).foldl shaRound v
  { left := List.zipWith (fun x y => x + y) v.left out.left, right := List.zipWith (fun x y => x + y) v.right out.right }

/-- The padding after a message of `n` bytes: a one bit, zeros to 16 bytes short of a block, and the length in bits. -/
def shaPad (n : Nat) : Bytes := 0x80#8 :: List.replicate ((239 - n % 128) % 128) 0 ++ natBe 16 (8 * n)

/-- The SHA-512 digest of a byte string: 64 bytes. -/
def sha512 (m : Bytes) : Bytes :=
  let padded := m ++ shaPad m.length
  let v := (List.range (padded.length / 128)).foldl (fun v i => shaBlock v (slice padded (128 * i) 128)) shaInit
  (v.left ++ v.right).flatMap (fun w => natBe 8 w.toNat)

/-- The field prime 2^255 − 19. -/
def edP : Nat := 2 ^ 255 - 19

/-- The order of the base point. -/
def edL : Nat := 2 ^ 252 + 27742317777372353535851937790883648493

/-- `b ^ e` in the field, over the `n` low bits of `e`. -/
def edPow : Nat → Nat → Nat → Nat
  | 0, _, _ => 1
  | n + 1, b, e =>
    let r := edPow n (b * b % edP) (e / 2)
    if e % 2 = 1 then r * b % edP else r

/-- The inverse in the field. -/
def edInv (x : Nat) : Nat := edPow 255 x (edP - 2)

/-- The curve constant d = −121665 / 121666. -/
def edD : Nat := (edP - 121665) * edInv 121666 % edP

/-- A point in extended coordinates. -/
structure EdPoint where
  x : Nat
  y : Nat
  z : Nat
  t : Nat
deriving DecidableEq, Repr

/-- The neutral point. -/
def EdPoint.zero : EdPoint := ⟨0, 1, 1, 0⟩

/-- Addition of points. -/
def edAdd (p q : EdPoint) : EdPoint :=
  let a := (p.y + edP - p.x) * (q.y + edP - q.x) % edP
  let b := (p.y + p.x) * (q.y + q.x) % edP
  let c := 2 * p.t * q.t * edD % edP
  let d := 2 * p.z * q.z % edP
  let e := b + edP - a
  let f := d + edP - c
  let g := d + c
  let h := b + a
  ⟨e * f % edP, g * h % edP, f * g % edP, e * h % edP⟩

/-- `k · p` over the `n` low bits of `k`. -/
def edMul : Nat → Nat → EdPoint → EdPoint
  | 0, _, _ => .zero
  | n + 1, k, p =>
    let r := edMul n (k / 2) (edAdd p p)
    if k % 2 = 1 then edAdd r p else r

/-- Equality of points. -/
def edEq (p q : EdPoint) : Bool := p.x * q.z % edP == q.x * p.z % edP && p.y * q.z % edP == q.y * p.z % edP

/-- The x coordinate of sign `sgn` for the y coordinate `y`, if there is one. -/
def edRecoverX (y sgn : Nat) : Option Nat :=
  if edP ≤ y then none
  else
    let x2 := (y * y + edP - 1) * edInv (edD * y * y + 1) % edP
    if x2 = 0 then (if sgn = 0 then some 0 else none)
    else
      let x0 := edPow 255 x2 ((edP + 3) / 8)
      let x := if (x0 * x0 % edP) = x2 then x0 else x0 * edPow 255 2 ((edP - 1) / 4) % edP
      if x * x % edP = x2 then some (if x % 2 = sgn then x else edP - x) else none

/-- The point that 32 bytes encode. -/
def edDecode (bs : Bytes) : Option EdPoint :=
  if bs.length = 32 then
    let n := leNat bs
    let y := n % 2 ^ 255
    (edRecoverX y (n / 2 ^ 255)).map (fun x => ⟨x, y, 1, x * y % edP⟩)
  else none

/-- The 32 bytes that encode a point. -/
def edEncode (p : EdPoint) : Bytes :=
  let zi := edInv p.z
  natLe 32 (p.y * zi % edP + 2 ^ 255 * (p.x * zi % edP % 2))

/-- The y coordinate 4/5 of the base point. -/
def edBaseY : Nat := 4 * edInv 5 % edP

/-- The base point. -/
def edBase : EdPoint :=
  let x := (edRecoverX edBaseY 0).getD 0
  ⟨x, edBaseY, 1, x * edBaseY % edP⟩

/-- Ed25519 verification (RFC 8032, 5.1.7): does `sig` sign `msg` under the public key `key`? -/
def edVerify (key msg sig : Bytes) : Bool :=
  if sig.length = 64 then
    match edDecode key, edDecode (sig.take 32) with
    | some a, some r =>
      let k := leNat (sha512 (sig.take 32 ++ key ++ msg)) % edL
      let s := leNat (sig.drop 32)
      decide (s < edL) && edEq (edMul 256 s edBase) (edAdd r (edMul 256 k a))
    | _, _ => false
  else false

/-- The clamped secret scalar of a private seed. -/
def edScalar (seed : Bytes) : Nat :=
  let n := leNat ((sha512 seed).take 32)
  n % 2 ^ 254 / 8 * 8 + 2 ^ 254

/-- The public key of a private seed. -/
def edPublic (seed : Bytes) : Bytes := edEncode (edMul 256 (edScalar seed) edBase)

/-- The Ed25519 signature of `msg` with the private seed (RFC 8032, 5.1.6). -/
def edSign (seed msg : Bytes) : Bytes :=
  let a := edScalar seed
  let r := leNat (sha512 ((sha512 seed).drop 32 ++ msg)) % edL
  let rp := edEncode (edMul 256 r edBase)
  let k := leNat (sha512 (rp ++ edPublic seed ++ msg)) % edL
  rp ++ natLe 32 ((r + k * a) % edL)

end Sys2Proof.Machine
end

