-- ==== Sys2Proof/Machine/Tab.lean ====
section
/-! DEFINITION. Operations on the sparse tables (Tab) in which the device's tables, registers banks and memories are held. -/

namespace Sys2Proof.Tab

/-- The listed entry at index `k`, if there is one. -/
def find? {α : Type} : Tab α → Nat → Option α
  | [], _ => none
  | (i, v) :: t, k => if i = k then some v else find? t k

/-- The entry at index `k`; an unlisted index reads the table's reset value `d`. -/
def get {α : Type} (d : α) (t : Tab α) (k : Nat) : α := (find? t k).getD d

/-- `t` with entry `v` at index `k`, the indexes still rising. -/
def insert {α : Type} : Tab α → Nat → α → Tab α
  | [], k, v => [(k, v)]
  | (i, w) :: t, k, v =>
    if k < i then (k, v) :: (i, w) :: t
    else if k = i then (k, v) :: t
    else (i, w) :: insert t k v

/-- `t` without an entry at index `k`. -/
def erase {α : Type} : Tab α → Nat → Tab α
  | [], _ => []
  | (i, w) :: t, k => if i = k then t else (i, w) :: erase t k

/-- Writes `v` at index `k`; writing the reset value `d` removes the entry, which keeps the canonical form. -/
def put {α : Type} [DecidableEq α] (d : α) (t : Tab α) (k : Nat) (v : α) : Tab α :=
  if v = d then erase t k else insert t k v

/-- Changes the entry at index `k` by `f`. -/
def modify {α : Type} [DecidableEq α] (d : α) (t : Tab α) (k : Nat) (f : α → α) : Tab α :=
  put d t k (f (get d t k))

/-- Every listed index is above `k`, and they rise strictly. -/
def risesFrom {α : Type} : Option Nat → Tab α → Bool
  | _, [] => true
  | none, (i, _) :: t => risesFrom (some i) t
  | some k, (i, _) :: t => decide (k < i) && risesFrom (some i) t

/-- The canonical form: indexes strictly rising, and no entry equal to what an unlisted index reads as. -/
def wf {α : Type} [DecidableEq α] (d : α) (t : Tab α) : Bool :=
  risesFrom none t && t.all (fun e => decide (e.2 ≠ d))

/-- The listed entries, lowest index first. -/
def values {α : Type} (t : Tab α) : List α := t.map (·.2)

/-- The listed indexes, lowest first. -/
def keys {α : Type} (t : Tab α) : List Nat := t.map (·.1)

/-- Writes the bytes `bs` at consecutive indexes from `a`. -/
def putBytes (t : Tab Byte) (a : Nat) : Bytes → Tab Byte
  | [] => t
  | b :: bs => putBytes (put 0 t a b) (a + 1) bs

/-- Reads `n` bytes at consecutive indexes from `a`; a byte that nothing has written reads 0. -/
def getBytes (t : Tab Byte) (a : Nat) : Nat → Bytes
  | 0 => []
  | n + 1 => get 0 t a :: getBytes t (a + 1) n

end Sys2Proof.Tab
end

