-- ==== Sys2Proof/Machine/Catalogue.lean ====
section
/-! DEFINITION. The settings catalogue: every row of every settings table that a settings command (use S of Table 16-6) carries,
with its command, form, target kind, value coding (Tables 16-3 and 16-4), range and default. Settings are held in one table of the
state, keyed by item ID and target; a setting that nothing has written reads the default given here (R16). -/

namespace Sys2Proof.Machine

/-- The number codings of Table 16-3. -/
inductive Code where
  | u8
  | u16
  | u32
  | u64
  | i8
  | i64
deriving DecidableEq, Repr

/-- Bytes a coding takes. -/
def Code.size : Code → Nat
  | .u8 | .i8 => 1
  | .u16 => 2
  | .u32 => 4
  | .u64 | .i64 => 8

/-- Whether a coding is signed. -/
def Code.isSigned : Code → Bool
  | .i8 | .i64 => true
  | _ => false

/-- One field of a setting: its coding, its range and its reset value. -/
structure Fld where
  code : Code
  lo : Int
  hi : Int
  dflt : Int
deriving DecidableEq, Repr

/-- The shape of a row's value: a fixed list of fields, or one of the two lists of Table 16-4. -/
inductive Shape where
  | fixed
  /-- Table 16-4: per policer, 28 bytes (Table 3-10, policers). -/
  | policers
  /-- Table 16-4: a count, three zero bytes and count × 16-byte addresses, then the fixed fields. -/
  | addrs
deriving DecidableEq, Repr

/-- One row of a settings table. -/
structure Row where
  /-- Item ID (Table 16-2). -/
  id : Nat
  name : String
  /-- Basic opcode of the command that carries it. -/
  op : Nat
  expert : Bool := false
  /-- Marked owner-signed. -/
  owner : Bool := false
  /-- Target kind of Table 16-1 to which the row applies (R384). -/
  kind : Nat := 0
  flds : List Fld
  shape : Shape := .fixed

namespace Catalogue

/-- A time in ns. -/
def t (lo hi d : Int) : Fld := ⟨.u64, lo, hi, d⟩
/-- A count, frame rate, percentage or temperature. -/
def c (lo hi d : Int) : Fld := ⟨.u32, lo, hi, d⟩
/-- A size in bytes. -/
def z (lo hi d : Int) : Fld := ⟨.u64, lo, hi, d⟩
/-- A data rate in b/s. -/
def rate (lo hi d : Int) : Fld := ⟨.u64, lo, hi, d⟩
/-- A choice or a small code. -/
def ch (hi d : Int) : Fld := ⟨.u8, 0, hi, d⟩
/-- An on/off value. -/
def onOff (d : Int) : Fld := ⟨.u8, 0, 1, d⟩
/-- A bitmap of up to eight members. -/
def set8 (hi d : Int) : Fld := ⟨.u8, 0, hi, d⟩
/-- An angle in au, or the magnitude of a threshold. -/
def ang (lo hi d : Int) : Fld := ⟨.u16, lo, hi, d⟩
/-- A 32-bit value. -/
def w32 (d : Int) : Fld := ⟨.u32, 0, 4294967295, d⟩
/-- A byte string of `n` bytes, all reset to `d`. -/
def raw (n : Nat) (d : Int := 0) : List Fld := List.replicate n ⟨.u8, 0, 255, d⟩

/-- One millisecond, one microsecond and one second in ns. -/
def us : Int := 1000
def ms : Int := 1000000
def sec : Int := 1000000000
/-- One mebibyte. -/
def mib : Int := 1048576

/-- Table 2-8 (R69). DESIGN CHOICE (log 215): the synthetic origin is coded as a time, u64 ns, and a value that is no whole second is
accepted; the PTP domain is coded u32 as a count, since Table 16-3 names no kind for it. -/
def tillerRows : List Row :=
  [ { id := 0x0201, name := "CYC_REF polarity", op := 0x0301, flds := [ch 1 0] },
    { id := 0x0202, name := "Reference phase", op := 0x0301, flds := [ang 0 65535 0] },
    { id := 0x0203, name := "Reference delay compensation", op := 0x0301, flds := [t 0 (10 * ms) 0] },
    { id := 0x0204, name := "Deglitch filter", op := 0x0301, flds := [t 0 (100 * us) us] },
    { id := 0x0205, name := "Nominal frequency", op := 0x0301, flds := [c 500 20000000 50000] },
    { id := 0x0206, name := "Loop bandwidth", op := 0x0301, flds := [ch 3 1] },
    { id := 0x0207, name := "Acceptance window", op := 0x0301, expert := true,
      flds := [⟨.u16, 250, 900, 500⟩, ⟨.u16, 1100, 2000, 1500⟩] },
    { id := 0x0208, name := "Rejections to reference fault", op := 0x0301, expert := true, flds := [c 2 8 3] },
    { id := 0x0209, name := "Stuck and lapse time", op := 0x0301, expert := true, flds := [⟨.u8, 2, 8, 2⟩] },
    { id := 0x020A, name := "Chatter count", op := 0x0301, expert := true, flds := [⟨.u8, 2, 16, 4⟩] } ] ++
  [ { id := 0x020B, name := "Qualifying edges", op := 0x0302, flds := [c 4 64 8] },
    { id := 0x020C, name := "Slew limit s", op := 0x0302, flds := [⟨.i8, -10, -4, -8⟩] },
    { id := 0x020D, name := "Lock threshold", op := 0x0302, flds := [ang 1 1024 16] },
    { id := 0x020E, name := "Holdover limit", op := 0x0302, flds := [t sec (86400 * sec) (600 * sec)] },
    { id := 0x020F, name := "Synthetic origin", op := 0x0303, flds := [t 0 18446744073709551615 0] },
    { id := 0x0210, name := "Forced mode", op := 0x0303, flds := [ch 2 0] },
    { id := 0x0211, name := "TAI source order", op := 0x0304,
      flds := [⟨.u8, 0, 255, 0⟩, ⟨.u8, 0, 255, 1⟩, ⟨.u8, 0, 255, 2⟩] },
    { id := 0x0212, name := "TAI step threshold", op := 0x0304, expert := true, flds := [t us sec ms] },
    { id := 0x0213, name := "PTP enable, role, domain", op := 0x0304, flds := [onOff 0, ch 1 0, c 0 255 254] },
    { id := 0x0214, name := "Port delay asymmetry", op := 0x0304, kind := 1, flds := [⟨.i64, -100000, 100000, 0⟩] },
    { id := 0x0215, name := "CYC_OUT rise and fall, enable", op := 0x0305,
      flds := [ang 0 65535 0, ang 0 65535 32768, onOff 1] },
    { id := 0x0216, name := "PPS_OUT width, enable", op := 0x0305, flds := [t us (900 * ms) (100 * ms), onOff 1] },
    { id := 0x0217, name := "PPS_OUT delay compensation", op := 0x0305, flds := [t 0 1000 0] } ]

/-- Table 3-10 (R93) and its Table 3-3. -/
def portRows : List Row :=
  [ { id := 0x0301, name := "Port mode", op := 0x0201, kind := 1, flds := [ch 6 0] },
    { id := 0x0302, name := "Auto-negotiation, advertised modes", op := 0x0201, kind := 1, flds := [onOff 1, set8 31 31] },
    { id := 0x0303, name := "Store-and-forward", op := 0x0201, kind := 1, flds := [onOff 0] },
    { id := 0x0304, name := "Lane polarity, transmit and receive", op := 0x0202, kind := 3, flds := [ch 1 0, ch 1 0] },
    { id := 0x0305, name := "Training and negotiation bounds", op := 0x0203, expert := true, kind := 1,
      flds := [t (100 * ms) (10000 * ms) (1000 * ms), c 4 64 16, t (500 * ms) (10000 * ms) (3000 * ms),
               t (100 * ms) (5000 * ms) (500 * ms), t (10 * us) (1000 * us) (100 * us), c 1024 65535 8192] },
    { id := 0x0306, name := "Suspension interval", op := 0x0203, kind := 1, flds := [t (10 * sec) (3600 * sec) (300 * sec)] },
    { id := 0x0307, name := "Damping half-life H", op := 0x0204, kind := 1, flds := [t sec (60 * sec) (10 * sec)] },
    { id := 0x0308, name := "Suppress threshold S, reuse threshold U", op := 0x0204, kind := 1,
      flds := [c 1000 20000 3000, c 100 19999 750] },
    { id := 0x0309, name := "Maximum damped time Tmax", op := 0x0204, kind := 1, flds := [t sec (3600 * sec) (60 * sec)] },
    { id := 0x030A, name := "Damping", op := 0x0204, kind := 1, flds := [onOff 1] } ] ++
  [ { id := 0x030B, name := "Pause and PFC honour", op := 0x0205, kind := 1, flds := [ch 2 0, set8 255 0] },
    { id := 0x030C, name := "Pause watchdog time", op := 0x0205, kind := 1, flds := [t (10 * ms) (10 * sec) (100 * ms)] },
    { id := 0x030D, name := "Pause watchdog recovery time", op := 0x0205, kind := 1,
      flds := [t (100 * ms) (60 * sec) sec] },
    { id := 0x030E, name := "Pause watchdog action", op := 0x0205, kind := 1, flds := [ch 2 0] },
    { id := 0x030F, name := "Policers PL00-PL15", op := 0x0206, kind := 1, shape := .policers, flds := [] },
    { id := 0x0310, name := "Test state, loop, pattern", op := 0x0207, kind := 3,
      flds := [ch 3 0, ch 1 0, ch 8 0, ch 1 0, ch 1 0] },
    { id := 0x0311, name := "Lane power state", op := 0x0208, kind := 3, flds := [ch 2 0] },
    { id := 0x0312, name := "Recalibration period", op := 0x0209, flds := [t (60 * sec) (86400 * sec) (1800 * sec)] },
    { id := 0x0313, name := "Recalibration temperature step", op := 0x0209, flds := [c 2 40 10] },
    { id := 0x0314, name := "Full recalibration of one lane", op := 0x0209, expert := true, kind := 3,
      flds := [⟨.u8, 1, 1, 0⟩] } ]

/-- Table 4-6 (R110). DESIGN CHOICE (log 215): the expected payload type is coded u32 as a count, since Table 16-3 names no kind for it. -/
def otnRows : List Row :=
  [ { id := 0x0401, name := "Transmitted SM and PM TTI", op := 0x020A, kind := 1, flds := raw 128 },
    { id := 0x0402, name := "Expected SM and PM TTI", op := 0x020A, kind := 1, flds := raw 128 },
    { id := 0x0403, name := "TIM detection, SM and PM", op := 0x020A, kind := 1, flds := [ch 3 0, ch 3 0] },
    { id := 0x0404, name := "TIM action", op := 0x020A, kind := 1, flds := [onOff 0] },
    { id := 0x0405, name := "Expected payload type", op := 0x020A, expert := true, kind := 1, flds := [c 0 255 7] },
    { id := 0x0406, name := "ODU lock", op := 0x020B, kind := 1, flds := [onOff 0] } ]

/-- Table 5-3 (R135). -/
def bridgeRows : List Row :=
  [ { id := 0x0501, name := "Eviction rule", op := 0x0401, kind := 5, flds := [ch 1 0] },
    { id := 0x0502, name := "Unknown-source action", op := 0x0402, kind := 1, flds := [ch 2 0] },
    { id := 0x0503, name := "Static-violation action", op := 0x0402, kind := 1, flds := [ch 1 0] },
    { id := 0x0504, name := "Moves to freeze M", op := 0x0402, flds := [c 2 255 8] },
    { id := 0x0505, name := "Move window W", op := 0x0402, flds := [t (100 * ms) (60 * sec) sec] },
    { id := 0x0506, name := "Freeze time F", op := 0x0402, flds := [t sec (3600 * sec) (10 * sec)] },
    { id := 0x0507, name := "Flush on port down", op := 0x0402, expert := true, flds := [onOff 1] },
    { id := 0x0508, name := "Sweep period P", op := 0x0403, kind := 5, flds := [t sec (65535 * sec) (100 * sec)] },
    { id := 0x0509, name := "Ageing", op := 0x0403, kind := 5, flds := [onOff 1] },
    { id := 0x050B, name := "TTL or hop limit expiry", op := 0x0405, flds := [ch 1 0] } ] ++
  [ { id := 0x050C, name := "Group and multipath seeds", op := 0x0406, expert := true, kind := 9,
      flds := [w32 0xFFFFFFFF, w32 0x5A5A5A5A] },
    { id := 0x050D, name := "LACP per group", op := 0x0406, kind := 9, flds := [onOff 1] },
    { id := 0x050E, name := "Move limit", op := 0x0406, kind := 9, flds := [t 0 (100 * ms) ms] },
    { id := 0x050F, name := "Port VLAN ID", op := 0x0402, kind := 1, flds := [c 1 4094 1] },
    { id := 0x0510, name := "Acceptable frames", op := 0x0402, kind := 1, flds := [ch 2 0] },
    { id := 0x0511, name := "Ingress VLAN filtering", op := 0x0402, kind := 1, flds := [onOff 1] } ]

/-- Table 6-8 (R162), Table 7-5 (R182), Table 8-9 (R206), Table 9-7 (R237) and Table 10-7 (R257). -/
def flowRows : List Row :=
  [ { id := 0x0603, name := "Sweep class periods P_0 to P_7", op := 0x0503,
      flds := [2, 10, 30, 120, 600, 1800, 7200, 65535].map (fun s => t sec (65535 * sec) (s * sec)) },
    { id := 0x0604, name := "Ageing", op := 0x0503, flds := [onOff 1] },
    { id := 0x0605, name := "Minimum pass time", op := 0x0503, expert := true, flds := [t (2 * sec) (600 * sec) (2 * sec)] },
    { id := 0x0606, name := "Overflow relocation", op := 0x0503, expert := true, flds := [onOff 1] },
    { id := 0x0607, name := "Device creation limit, burst", op := 0x0504, expert := true,
      flds := [c 1000 200000000 200000000, c 1024 1048576 1048576] },
    { id := 0x0608, name := "Occupancy thresholds", op := 0x0504, flds := [c 10 99 80, c 10 99 90] },
    { id := 0x0609, name := "Record-wait limit", op := 0x0504, expert := true, flds := [t (2 * us) (500 * us) (20 * us)] },
    { id := 0x060A, name := "Flow seeds 1 and 2", op := 0x0504, expert := true, flds := [w32 0xFFFFFFFF, w32 0xFFFFFFFF] } ] ++
  [ { id := 0x0701, name := "Open and pending bales per master", op := 0x0705, flds := [c 1 8 8] },
    { id := 0x0702, name := "Idle timeout", op := 0x0705, flds := [t sec (3600 * sec) (60 * sec)] },
    { id := 0x0704, name := "Master precedence order", op := 0x0705, expert := true,
      flds := [ch 4 0, ch 4 1, ch 4 2, ch 4 3, ch 4 4] },
    { id := 0x0801, name := "Known-answer period", op := 0x0104, expert := true, flds := [t (10 * ms) (100 * ms) (100 * ms)] },
    { id := 0x0802, name := "Fence or return an engine", op := 0x0104, expert := true, kind := 13, flds := [ch 1 0] },
    { id := 0x0803, name := "Control-store scrub cycle", op := 0x0104, expert := true,
      flds := [t (10 * ms) (50 * ms) (50 * ms)] } ] ++
  [ { id := 0x090A, name := "Export destination, collectors, UDP port", op := 0x050C, shape := .addrs,
      flds := [ch 1 0, c 1 65535 4739] },
    { id := 0x090B, name := "Export message size, template resend", op := 0x050C, expert := true,
      flds := [z 512 8960 1400, t (10 * sec) (3600 * sec) (600 * sec)] },
    { id := 0x090C, name := "Observation domain ID", op := 0x050C, flds := [w32 0] },
    { id := 0x0A04, name := "Hole interval", op := 0x0410, expert := true, flds := [c 8 32 16] },
    { id := 0x0A08, name := "Awn known-answer period", op := 0x0104, expert := true,
      flds := [t (10 * ms) (100 * ms) (100 * ms)] },
    { id := 0x0A0A, name := "Profiled-work deadline", op := 0x0104, expert := true, flds := [t (5 * us) (30 * us) (30 * us)] } ]

/-- Table 11-17 (R293). The gate MAC address 0 stands for the base MAC address + 1. -/
def gateRows : List Row :=
  [ { id := 0x0B03, name := "Gate EtherType, gate MAC address", op := 0x0603, flds := [c 0x0600 0xFFFF 0x88B5] ++ raw 6 },
    { id := 0x0B04, name := "Gate addresses, UDP port", op := 0x0603, shape := .addrs, flds := [c 1 65535 6173] },
    { id := 0x0B05, name := "Permit intake", op := 0x0603, kind := 1, flds := [onOff 1] },
    { id := 0x0B06, name := "Maximum permit lifetime", op := 0x0604, flds := [t sec (86400 * sec) (300 * sec)] },
    { id := 0x0B07, name := "Clock tolerance", op := 0x0604, flds := [t 0 (60 * sec) (2 * sec)] },
    { id := 0x0B08, name := "Flush on shut", op := 0x0604, flds := [onOff 1] },
    { id := 0x0B09, name := "Pin mode, deglitch, release time", op := 0x0604, expert := true,
      flds := [ch 1 0, t us (1000 * us) (10 * us), t (10 * ms) (60 * sec) sec] },
    { id := 0x0B0A, name := "Permit seeds 1 and 2", op := 0x0604, expert := true, flds := [w32 0xFFFFFFFF, w32 0xFFFFFFFF] },
    { id := 0x0B0B, name := "Seal interval, seal count", op := 0x0605, expert := true,
      flds := [t (10 * ms) (60 * sec) sec, c 256 65536 4096] } ]

/-- Table 12-7 (R323). -/
def switchRows : List Row :=
  [ { id := 0x0C01, name := "Pool division", op := 0x020C, expert := true,
      flds := [40, 24, 24, 50, 24, 30].map (fun m => z mib (187 * mib) (m * mib)) },
    { id := 0x0C02, name := "Amber, red and black thresholds", op := 0x020C, kind := 14,
      flds := [c 10 60 30, c 5 50 15, c 1 30 5] },
    { id := 0x0C03, name := "Privileged classes", op := 0x020C, flds := [set8 255 192] },
    { id := 0x0C04, name := "Dynamic factor", op := 0x020C, expert := true, flds := [⟨.i8, -7, 2, -2⟩] },
    { id := 0x0C05, name := "Port MTU", op := 0x020D, kind := 1, flds := [z 64 9792 1522] },
    { id := 0x0C06, name := "Static queue limit", op := 0x020D, kind := 2, flds := [z 0 (64 * mib) (2 * mib)] },
    { id := 0x0C07, name := "Held limit", op := 0x020D, kind := 1, flds := [z 65536 (64 * mib) (4 * mib)] },
    { id := 0x0C08, name := "ECN marking and threshold", op := 0x020D, kind := 2,
      flds := [onOff 0, z 0 (64 * mib) 262144] },
    { id := 0x0C09, name := "Trust mode, DSCP map, PCP map, default class", op := 0x020D, kind := 1,
      flds := [ch 2 0] ++ (List.range 64).map (fun d => ch 7 (d / 8)) ++ (List.range 8).map (fun p => ch 7 p) ++ [ch 7 0] } ] ++
  [ { id := 0x0C0A, name := "Scheduler mode and weight", op := 0x020E, kind := 2, flds := [ch 1 1, c 1 127 1] },
    { id := 0x0C0B, name := "Credit-based shaper idle slope, 0 off", op := 0x020E, kind := 2, flds := [rate 0 200000000000 0] },
    { id := 0x0C0C, name := "Port shaper rate, 0 off, and burst", op := 0x020E, kind := 1,
      flds := [rate 0 200000000000 0, z 2048 1048576 2048] },
    { id := 0x0C0D, name := "Residue limit", op := 0x020D, kind := 2, flds := [t us (10 * ms) (100 * us)] },
    { id := 0x0C0E, name := "Pause sending and pausable classes", op := 0x0205, kind := 1, flds := [ch 2 0, set8 255 15] },
    { id := 0x0C0F, name := "XOFF and XON thresholds", op := 0x0205, kind := 1,
      flds := [z 16384 (16 * mib) 524288, z 16384 (16 * mib) 262144] },
    { id := 0x0C10, name := "XOFF limit, back-off time", op := 0x0205, expert := true, kind := 1,
      flds := [t (10 * ms) (10 * sec) (500 * ms), t (100 * ms) (60 * sec) sec] },
    { id := 0x0C11, name := "Port samplers, ingress and egress: N, 0 off, and capture", op := 0x0A01, kind := 1,
      flds := [c 0 16777215 0, z 64 256 128, c 0 16777215 0, z 64 256 128] },
    { id := 0x0C12, name := "Row sampling N_row", op := 0x0A01, kind := 5, flds := [c 1 16777215 1] },
    { id := 0x0C13, name := "Sample limit", op := 0x0A01, expert := true, flds := [c 1000 16000000 4000000] },
    { id := 0x0C14, name := "Straw offset", op := 0x0A02, kind := 1, flds := [z 0 216 0] } ]

/-- Table 13-9 (R343) and Table 14-8 (R360). -/
def memoryRows : List Row :=
  [ { id := 0x0D01, name := "Age cap", op := 0x0801, expert := true, flds := [t 500 8000 2000] },
    { id := 0x0D02, name := "Retraining period", op := 0x0802, flds := [t (60 * sec) (86400 * sec) (1800 * sec)] },
    { id := 0x0D03, name := "Retraining temperature step", op := 0x0802, flds := [c 2 40 10] },
    { id := 0x0D04, name := "Retrain one unit now", op := 0x0802, kind := 12, flds := [⟨.u8, 1, 1, 0⟩] },
    { id := 0x0D05, name := "Correction threshold", op := 0x0802, flds := [c 1 65535 256] },
    { id := 0x0D06, name := "Disturbance threshold", op := 0x0803, expert := true, flds := [c 256 2048 2048] },
    { id := 0x0D07, name := "HBM patrol pass", op := 0x0803, expert := true, flds := [t (60 * sec) (900 * sec) (900 * sec)] },
    { id := 0x0D08, name := "Granary patrol pass", op := 0x0803, expert := true,
      flds := [t (900 * sec) (14400 * sec) (14400 * sec)] },
    { id := 0x0D09, name := "Granary region shares and orders", op := 0x0804, expert := true,
      flds := [ch 128 32, ch 128 64, ch 128 16, ch 128 4, ch 128 12, ch 3 3, ch 3 3, ch 3 1] },
    { id := 0x0D0A, name := "Retire a unit", op := 0x0805, expert := true, kind := 12, flds := [⟨.u8, 1, 1, 0⟩] } ] ++
  [ { id := 0x0E01, name := "Pair ID", op := 0x0901, owner := true, flds := raw 8 },
    { id := 0x0E02, name := "Twin identity key", op := 0x0901, owner := true, flds := raw 32 },
    { id := 0x0E03, name := "Tiller alignment", op := 0x0901, flds := [ch 1 0] },
    { id := 0x0E04, name := "Translation checkpoints", op := 0x0901, flds := [onOff 1] },
    { id := 0x0E05, name := "Heartbeat loss time", op := 0x0901, expert := true, flds := [t (300 * us) (900 * us) (900 * us)] },
    { id := 0x0E06, name := "Lane polarity", op := 0x0902, kind := 4, flds := [ch 1 0] },
    { id := 0x0E07, name := "Lane test, loop, pattern", op := 0x0902, kind := 4,
      flds := [ch 3 0, ch 1 0, ch 8 0, ch 1 0, ch 1 0] },
    { id := 0x0E08, name := "Lane power", op := 0x0903, kind := 4, flds := [ch 2 0] } ]

/-- Table 15-20 (R382), Table 17-11 (R407), Table 19-9 (R449) and Table 20-6 (R460). -/
def systemRows : List Row :=
  [ { id := 0x0F01, name := "MGMT address, UDP port, supervisor address", op := 0x0103,
      flds := raw 16 ++ [c 1 65535 6174] ++ raw 16 },
    { id := 0x0F02, name := "MGMT read signing", op := 0x0103, expert := true, flds := [onOff 1] },
    { id := 0x0F03, name := "MGMT response signing", op := 0x0103, expert := true, flds := [onOff 1] },
    { id := 0x0F04, name := "MGMT gap time", op := 0x0103, expert := true, flds := [t (10 * ms) sec (100 * ms)] },
    { id := 0x0F05, name := "Event groups", op := 0x0102, flds := [⟨.u16, 0, 0x1FFE, 0x1FFE⟩] },
    { id := 0x1101, name := "Settle time", op := 0x0106, flds := [t (10 * ms) (100 * ms) (10 * ms)] },
    { id := 0x1102, name := "Safe-state entry", op := 0x0106, expert := true, flds := [⟨.u8, 1, 1, 1⟩] },
    { id := 0x1103, name := "Safe-state classes", op := 0x0106, flds := [set8 255 192] },
    { id := 0x1104, name := "FAULT_N on retirement", op := 0x0106, flds := [onOff 0] },
    { id := 0x1105, name := "Slice drain and reset", op := 0x0106, expert := true, kind := 5, flds := [⟨.u8, 1, 1, 0⟩] },
    { id := 0x1106, name := "Clear safe state", op := 0x0106, expert := true, owner := true, flds := [⟨.u8, 1, 1, 0⟩] } ] ++
  [ { id := 0x1301, name := "Sag role", op := 0x0C02, kind := 1, flds := [ch 2 1] },
    { id := 0x1302, name := "Shed rank", op := 0x0C02, kind := 1, flds := [c 0 15 0] },
    { id := 0x1303, name := "Level-3 classes", op := 0x0C03, flds := [set8 255 240] },
    { id := 0x1304, name := "Level-4 classes", op := 0x0C03, flds := [set8 255 192] },
    { id := 0x1305, name := "Level-3 creation limit", op := 0x0C03, flds := [c 1000 200000000 20000000] },
    { id := 0x1306, name := "Release hold", op := 0x0C03, flds := [t ms (1000 * ms) (10 * ms)] },
    { id := 0x1307, name := "Level-5 release time", op := 0x0C03, expert := true, flds := [t (10 * ms) (10 * sec) (100 * ms)] },
    { id := 0x1308, name := "SAG_WARN input", op := 0x0C03, expert := true, flds := [onOff 1] },
    { id := 0x1309, name := "Commanded test level", op := 0x0C03, expert := true, flds := [c 0 3 0] },
    { id := 0x130A, name := "Thermal threshold", op := 0x0C03, flds := [c 85 110 100] },
    { id := 0x130B, name := "Adaptive VCORE", op := 0x0C03, expert := true, flds := [onOff 1] } ] ++
  [ { id := 0x1401, name := "Event numbers, counters 0-7", op := 0x0A07, flds := List.replicate 8 (c 0 0x11 0) },
    { id := 0x1402, name := "Sample periods N, counters 0-7", op := 0x0A07, flds := List.replicate 8 (c 0 4294967295 0) },
    { id := 0x1403, name := "Sampling event limit", op := 0x0A07, expert := true, flds := [c 10 100000 1000] },
    { id := 0x1404, name := "Overflow sampling", op := 0x0A07, flds := [onOff 1] } ]

/-- Every settings row of the device. -/
def rows : List Row :=
  tillerRows ++ portRows ++ otnRows ++ bridgeRows ++ flowRows ++ gateRows ++ switchRows ++ memoryRows ++ systemRows

/-- The row of an item ID. -/
def row? (id : Nat) : Option Row := rows.find? (fun r => r.id == id)

/-- Policers of Table 3-6 as they stand at reset: enable, unit (1 frames), committed and peak rate, committed and peak burst. -/
def policerDefault : List Int :=
  let off := [0, 0, 0, 0, 0, 0]
  let on (r b : Int) := [1, 1, r, r, b, b]
  (List.replicate 8 off).flatten ++ on 2000 64 ++ on 4000 128 ++ on 10000 256 ++ on 65536 4096 ++ on 20000 512 ++
    (List.replicate 3 off).flatten

/-- The value a row holds at reset for a target. Scheduler mode and weight are strict for TC6 and TC7 (R306). -/
def dflt (r : Row) (idx : Nat) : List Int :=
  match r.shape with
  | .policers => policerDefault
  | .fixed => if r.id = 0x0C0A ∧ idx % 8 ≥ 6 then [0, 1] else r.flds.map (·.dflt)
  | .addrs => if r.id = 0x090A then [0, 0, 4739] else 0 :: r.flds.map (·.dflt)

end Catalogue

/-- The settings of the device: values written, by item ID · 65,536 + target index. -/
abbrev Settings := Tab (List Int)

/-- The value of setting `id` for target `idx`: what was last written, or the default of its row (R16). -/
def Settings.get (t : Settings) (id idx : Nat) : List Int :=
  match Tab.find? t (id * 65536 + idx) with
  | some v => v
  | none => match Catalogue.row? id with
    | some r => Catalogue.dflt r idx
    | none => []

/-- Field `k` of a setting, as a natural number. -/
def Settings.nat (t : Settings) (id idx k : Nat) : Nat := ((t.get id idx).getD k 0).toNat

/-- Field `k` of a setting, signed. -/
def Settings.int (t : Settings) (id idx k : Nat) : Int := (t.get id idx).getD k 0

/-- Writes a setting; writing the default removes the entry. -/
def Settings.put (t : Settings) (id idx : Nat) (v : List Int) : Settings :=
  match Catalogue.row? id with
  | some r => Tab.put (Catalogue.dflt r idx) t (id * 65536 + idx) v
  | none => t

end Sys2Proof.Machine
end

