-- ==== Sys2Proof/State/Common.lean ====
section
/-! DEFINITION. Types shared by the parts of the state: stamps, events, versions, outputs. -/

namespace Sys2Proof.Machine

/-- A stamp block (R55): the output angle stamp, TAI time and the quality byte at one core clock. -/
structure Stamp where
  /-- angle_stamp, 64 bits: cycle number in [63:16], angle in [15:0] (R54) -/
  angle : Nat := 0
  /-- tai_s, 48 bits (R54) -/
  sec : Nat := 0
  /-- tai_ns, 32 bits (R54) -/
  ns : Nat := 0
  /-- quality byte of Table 2-5 (R56) -/
  quality : Nat := 0
deriving DecidableEq, Repr

/-- An event record (Table 15-8, R367). -/
structure EventRec where
  /-- event code, 16 bits (Table 15-8) -/
  code : Nat
  /-- masked flag (Table 15-8) -/
  masked : Bool := false
  /-- source field, 32 bits (R390) -/
  source : Nat
  /-- event index of the device, 64 bits (R367) -/
  index : Nat
  /-- stamp block of the event (R55) -/
  stamp : Stamp
  /-- body, 24 bytes (Table 16-9) -/
  body : Bytes
  /-- the clock it was raised on (Table 16-10) -/
  at_ : Nat := 0
deriving DecidableEq, Repr

/-- The versions of one object, oldest first: from which epoch each applies, and its value, none where the object is absent
(R30, R171). -/
abbrev Ver (α : Type) := List (Nat × Option α)

/-- What a transmitted OTU4 frame carries (Table 4-4, R97, R102, R105); every overhead byte that is not named here is 0x00. -/
structure OtuSent where
  /-- lane marker, in the sixth byte of the standard FAS (R105) -/
  marker : Nat
  /-- MFAS (Table 4-4) -/
  mfas : Nat
  /-- SM and PM trail trace byte of this frame (Table 4-4) -/
  smTti : Nat
  pmTti : Nat
  /-- SM and PM BIP-8 over the OPU4 of the frame two before; free where the client's bits decide it (Table 4-4, assumption 221) -/
  smBip : Nat
  pmBip : Nat
  /-- SM and PM backward errors and backward defect (Table 4-3) -/
  smBei : Nat
  smBdi : Bool
  pmBei : Nat
  pmBdi : Bool
  /-- SM IAE, always 0 (Table 4-4) -/
  smIae : Nat := 0
  /-- PM STAT (R102) -/
  pmStat : Nat
  /-- PSI byte of this frame: the payload type 0x07 with MFAS 0 (R97) -/
  psi : Nat
  /-- JC1 to JC6: computed by the mapper, and so free, for a client; of the LCK pattern under LCK (Table 4-4, assumption 221) -/
  jc : Bytes
  /-- the payload is the LCK pattern (R102) -/
  lck : Bool
  /-- the client carries remote fault toward the far end (R97) -/
  remoteFault : Bool
deriving DecidableEq, Repr

/-- A symbol of a Sheaf lane before 8b/10b coding (R345): a data symbol, or the K28.5 comma. -/
inductive Symbol where
  | data (b : Byte)
  | comma
deriving DecidableEq, Repr

/-- What leaves the device, besides the register reads that change nothing (State.readRegister): the outside sees these in order. -/
inductive Output where
  /-- A frame leaves a line port (R20 step 10). -/
  | frame (p : Nat) (bytes : Bytes)
  /-- A packet, or a copy of it, is delivered to the management cores (R126, R243): ingress port and bytes. -/
  | cores (p : Nat) (bytes : Bytes)
  /-- Pause or PFC quanta for a class leave a port (R305). -/
  | pause (p c quanta : Nat)
  /-- An OTU4 frame is transmitted (R102, R105). -/
  | otuOverhead (p : Nat) (x : OtuSent)
  /-- A coefficient status answer on a lane: 0 updated, 1 maximum, 2 minimum, 3 hold (R78). -/
  | coefStatus (lane tap status : Nat)
  /-- A LACPDU leaves a member port of a group (R130). -/
  | lacp (p g : Nat) (x : LacpInfo)
  /-- A lane's own request to the partner: tap and step (R78). -/
  | coefRequest (lane tap : Nat) (delta : Int)
  /-- A BAR0 read returns a value that the read itself changes: offset and value (R14, R364). -/
  | regRead (addr value : Nat)
  /-- Bytes written into host memory: ring and slot (R366). -/
  | dma (ring slot : Nat) (bytes : Bytes)
  /-- Bytes written at an address of host memory (R369). -/
  | hostWrite (addr : Nat) (bytes : Bytes)
  /-- An MSI-X vector is signalled (R365). -/
  | msix (vector : Nat)
  /-- A frame leaves the MGMT port (R375, R376). -/
  | mgmt (dst : Bytes) (bytes : Bytes)
  /-- A superframe leaves a Sheaf link: the 2,048 symbols of each of its data lanes (R347). -/
  | superframe (link : Nat) (lanes : List (List Symbol))
  /-- A training frame of 256 symbols leaves a Sheaf lane (R345, R346). -/
  | sheafTrain (lane : Nat) (symbols : List Symbol)
  /-- A coefficient status in a Sheaf lane's training frames, as an answer to the twin (R346). -/
  | sheafCoef (lane tap status : Nat)
  /-- A Sheaf lane's own request to the twin's transmitter in its training frames: tap and step (R346). -/
  | sheafAsk (lane tap : Nat) (delta : Int)
  /-- A PMBus VOUT_COMMAND in mV (R430). -/
  | pmbus (mv : Nat)
  /-- A PTP message leaves a port (R53). -/
  | ptp (p : Nat) (m : PtpMessage)
  /-- A DRAM command: unit, kind (0 refresh, 1 read, 2 write, 3 neighbour refresh, 4 refresh management), bank, row (R328 to R331). -/
  | dram (u kind bank row : Nat)
deriving DecidableEq, Repr

end Sys2Proof.Machine
end

