-- ==== Sys2Proof/State/Bales.lean ====
section
/-! DEFINITION. State of bales, the epoch and the configuration objects that change by bale (07_bales.md). -/

namespace Sys2Proof.Machine

/-- The bale states of Table 7-1, codes 1 to 5. -/
inductive BaleState where
  | opened
  | pending
  | committed
  | refused
  | aborted
deriving DecidableEq, Repr

/-- One action of a bale (Table 7-2). -/
structure Action where
  /-- Guolo opcode, basic or expert form -/
  code : Nat
  /-- slice mask; 0 means all eight (Table 7-2) -/
  scope : Nat := 0
  /-- body -/
  body : Bytes
  /-- objects touched, and the version of each at the add (R173) -/
  objs : List (Nat × Nat) := []
  /-- 0 neutral, 1 tighten, 2 loosen (R175) -/
  sec : Nat := 0
  /-- an owner key signed the add -/
  owner : Bool := false
  /-- key that signed the add, 65,535 for none (Table 16-9) -/
  key : Nat := 65535
  /-- mailbox the action came in by -/
  mb : Nat := 0
deriving DecidableEq, Repr

/-- A configuration bale (R163). -/
structure Bale where
  /-- bale ID, 32 bits (R164) -/
  id : Nat
  /-- master that owns it, coded as in Table 16-4 (R164) -/
  master : Nat
  /-- mailbox it was opened on (R175) -/
  mb : Nat
  /-- state (Table 7-1) -/
  st : BaleState
  /-- the bale of one state change outside a bale, which no command names (R381) -/
  single : Bool := false
  /-- actions, in index order (R165) -/
  actions : List Action := []
  /-- time of the last add, commit or status request (R167) -/
  touched : Nat := 0
  /-- highest class among its adds (R374) -/
  cls : Nat := 1
  /-- stated commit time as an angle stamp, or none for immediate (R168) -/
  due : Option Nat := none
  /-- arming order (R175) -/
  armed : Nat := 0
  /-- when it was armed (Table 7-4) -/
  armedAt : Nat := 0
  /-- shadow versions of it on a retired pseudo-channel are being rewritten (Table 7-4) -/
  rewriting : Bool := false
  /-- status of its end (Table 15-14) -/
  status : Nat := 0
  /-- index of the first refused action (Table 16-6) -/
  firstBad : Nat := 0
  /-- stamp of the tick that applied it (R169) -/
  tick : Nat := 0
  /-- the staging record was lost (R172) -/
  lost : Bool := false
  /-- of a state change that an owner key signed: its key ID and the public key that verified it (Table 18-13) -/
  signer : Option (Nat × List Byte) := none
deriving DecidableEq, Repr

/-- Bales, the epoch and versioned objects. -/
structure Bales where
  /-- every bale since reset, oldest first (R163) -/
  list : List Bale := []
  /-- next bale ID (R164) -/
  next : Nat := 1
  /-- next arming order (R175) -/
  arm : Nat := 0
  /-- device epoch (R170) -/
  epoch : Nat := 0
  /-- stamp of the last commit tick (R170) -/
  lastTick : Nat := 0
  /-- time of the last commit tick (R170) -/
  tickAt : Nat := 0
  /-- epochs below this one are drained (R176) -/
  drained : Nat := 0
  /-- epochs below this one are drained, and are reclaimed at the next tick (R176) -/
  drainedTo : Nat := 0
  /-- deferrals counted (R170) -/
  deferrals : Nat := 0
  /-- actions of the packet bales' discarded versioned writes (R178) -/
  staleWrites : Nat := 0
  /-- versions of the configuration objects, by object key; the value is the record of Table 16-5 (R30, R171) -/
  objects : Tab (Ver Bytes) := []
  /-- 32-bit version of each object (R173) -/
  versions : Tab Nat := []
deriving DecidableEq, Repr

end Sys2Proof.Machine
end

