-- ==== Sys2Proof/State/Bridge.lean ====
section
/-! DEFINITION. State of bridging, routing and aggregation (05_bridging_and_routing.md). Configuration objects that change only by
bale (VLANs, prefixes, next hops, groups) stand in the object table of State/Bales.lean. -/

namespace Sys2Proof.Machine

/-- A MAC-table entry (Table 5-1). -/
structure MacEntry where
  /-- 48-bit address, network order (Table 5-1) -/
  mac : Nat
  /-- VLAN ID, 12 bits (Table 5-1) -/
  vid : Nat
  /-- dest, 16 bits: bit 15 with a group in [5:0], or a port in [6:0] (Table 5-1) -/
  dest : Nat
  /-- static flag (Table 5-1) -/
  static : Bool := false
  /-- hit flag (R121) -/
  hit : Bool := false
  /-- stale flag (R121) -/
  stale : Bool := false
  /-- frozen flag (R119) -/
  frozen : Bool := false
  /-- moves counted in the present window, 8 bits (R119) -/
  moves : Nat := 0
  /-- sweep count at the last sweep that found hit set, 8 bits (R121) -/
  lastSeen : Nat := 0
  /-- end of the move window, while one is open (R119) -/
  windowEnd : Option Nat := none
  /-- end of the freeze, while frozen (R119) -/
  thawAt : Option Nat := none
  /-- first epoch in which a static entry's version applies (R115) -/
  from_ : Nat := 0
  /-- last epoch in which a superseded version applies (R115) -/
  till : Option Nat := none
  /-- bale that holds this slot for a version not yet committed (R115) -/
  bale : Option Nat := none
  /-- the last source hit, learn or move: its time, and what a sweep visit of that clock, which acts first, leaves to be done: 0 nothing,
  1 the stale flag is set, 2 last_seen is taken and the stale flag cleared (Table 5-2) -/
  touch : Option (Nat × Nat) := none
  /-- the port that the entry names has left the up state since the entry was learned, so that the entry is to be removed (R120) -/
  flushDue : Bool := false
deriving DecidableEq, Repr

/-- A learn or move request (R117). -/
structure LearnReq where
  /-- ingress angle stamp of the requesting packet -/
  stamp : Nat
  /-- ingress port of the packet -/
  port : Nat
  /-- VLAN ID of the key -/
  vid : Nat
  /-- source address of the key -/
  mac : Nat
  /-- destination that the request gives the entry -/
  dest : Nat
deriving DecidableEq, Repr

/-- The MAC table and learning state of one slice (R111 to R121, R477). -/
structure MacTable where
  /-- entries: index 4·bucket + slot, or 262,144 + overflow index (R111) -/
  entries : Tab MacEntry := []
  /-- eviction LFSR, 16 bits (R477) -/
  lfsr : Nat := 0xACE1
  /-- sweep count, modulo 256 (R121) -/
  sweep : Nat := 0
  /-- entries that the sweep has found aged on this clock; one with a source hit on the clock survives its end (R121, Table 5-2) -/
  aged : List Nat := []
  /-- learn queue, up to 4,096 requests, in order (R117) -/
  queue : List LearnReq := []
  /-- static entries lost to a parity error and not yet restored (R122) -/
  lost : List (Nat × MacEntry) := []
deriving DecidableEq, Repr

/-- One member slot on its way to another member (R133). -/
structure SlotMove where
  /-- member that takes the slot -/
  target : Nat
  /-- when the move began -/
  since : Nat
deriving DecidableEq, Repr

/-- A link aggregation group (R130 to R133). -/
structure Lag where
  /-- member slots 0 to 255: port + 1, absent while no member distributes (R131) -/
  slots : Tab Nat := []
  /-- slots being moved to a returning member (R133) -/
  moves : Tab SlotMove := []
  /-- slots that switched undrained in the present rebalance (R133) -/
  undrained : Nat := 0
  /-- reorder risks counted for the group (R133) -/
  risks : Nat := 0
  /-- how often the host has built the group (R131) -/
  gen : Nat := 0
  /-- the epoch from which the slots above are in force, with the slots that packets of older epochs still select (R30, Table 7-3) -/
  was : Option (Nat × Tab Nat) := none
deriving DecidableEq, Repr

/-- Bridging and aggregation. -/
structure Bridge where
  /-- MAC table of each slice (R111) -/
  macs : Tab MacTable := []
  /-- link aggregation groups LG00 to LG47 (R130) -/
  lags : Tab Lag := []
  /-- route entries with a parity error not yet refreshed: 8·(4·entry + table) + slice (R129) -/
  badRoutes : List Nat := []
  /-- packets that routing discarded, by 4·slice + kind: 0 no route, 1 TTL or hop limit, 2 parity error (R127, R129) -/
  routeDrops : Tab Nat := []
deriving DecidableEq, Repr

end Sys2Proof.Machine
end

