-- ==== Sys2Proof/State/Engines.lean ====
section
/-! DEFINITION. State of the action engines, service engines and control store (08_action_engines.md), and of the flow services
that keep state outside the records (09_flow_services.md). -/

namespace Sys2Proof.Machine

/-- The flags of a context (R193). -/
structure Flags where
  /-- Z, zero (R193) -/
  z : Bool := false
  /-- C, carry (R193) -/
  c : Bool := false
  /-- N, negative (R193) -/
  n : Bool := false
  /-- V, overflow (R193) -/
  v : Bool := false
deriving DecidableEq, Repr

/-- Registers and flags of a context at one moment (R193). -/
structure Regs where
  /-- g00 to g31, 64 bits each (R193) -/
  g : Tab W64 := []
  /-- Z, C, N, V (R193) -/
  f : Flags := {}
deriving DecidableEq, Repr

/-- A merge operation (R189). -/
inductive Merge where
  | add
  | or
  | max
  | min
  | avg
deriving DecidableEq, Repr

/-- A write that a routine has staged in its packet bale (R178). -/
inductive Staged where
  /-- assign: handle, offset, bytes -/
  | store (h off : Nat) (bs : Bytes)
  /-- merge: handle, operation, offset, size, operand -/
  | merge (h : Nat) (op : Merge) (off size : Nat) (v : Nat)
  /-- add to a customer counter -/
  | count (n : Nat) (v : Nat)
  /-- raise the customer event -/
  | event (v : Nat)
  /-- pair update of R210: hit, tcp_state bits to OR, sweep class to assign -/
  | pair (tcp : Nat) (cls : Option Nat)
  /-- the PRP window test of R225 with the packet's sequence -/
  | prp (seq : Nat)
  /-- the reverse record of the pair takes this key and these service words (R215) -/
  | reverse (key svc : Bytes)
  /-- histogram bin (R230) -/
  | histogram (bin : Nat)
  /-- base telemetry of the standard routine (R227) -/
  | telemetry
  /-- adds one to a count of the flow profile (Table 20-2) -/
  | counted (n : Nat)
deriving DecidableEq, Repr

/-- A header edit (R194). -/
structure Edit where
  /-- byte offset of the edit (R194) -/
  off : Nat
  /-- bytes it writes (R194) -/
  bytes : Bytes
deriving DecidableEq, Repr

/-- Results of the last rec.lock and obj.ld (Table 8-4, codes 9 to 14). -/
structure Conds where
  /-- the last rec.lock found a record (Table 8-4) -/
  found : Bool := false
  /-- the last rec.lock found none (Table 8-4) -/
  absent : Bool := false
  /-- the last rec.lock was refused (Table 8-4) -/
  refused : Bool := false
  /-- the last rec.lock created a record (Table 8-4) -/
  created : Bool := false
  /-- the edit list is full (Table 8-4) -/
  editsFull : Bool := false
  /-- the last obj.ld met an uncorrectable error (Table 8-4) -/
  objError : Bool := false
deriving DecidableEq, Repr

/-- A memory slot that waits for HBM, for a free transaction, or for the flow sequencer (R148, R158, R183). -/
inductive Wait where
  /-- an obj.ld: address, register and length -/
  | object (addr reg len : Nat)
  /-- a rec.lock: handle, and whether it creates -/
  | lock (handle : Nat) (create : Bool)
deriving DecidableEq, Repr

/-- A packet context (R183). -/
structure Context where
  /-- engine of the slice that runs it (R184) -/
  engine : Nat
  /-- hardware context c0 to c7 that it holds; none while it waits for HBM (R183) -/
  hw : Option Nat := none
  /-- time of the last word that it issued, plus one; 0 before its first (R185) -/
  issuedAt : Nat := 0
  /-- the ALU slot of the present word has executed (R192) -/
  aluDone : Bool := false
  /-- the memory slot of the present word has executed (R192) -/
  memDone : Bool := false
  /-- program cause that the memory slot of the present word has met, taken at the word's end unless another slot meets a hardware cause
  (Table 8-8) -/
  check : Option Nat := none
  /-- control-store bank of its epoch (R204) -/
  bank : Nat
  /-- registers and flags at the start of the word (R192) -/
  start : Regs := {}
  /-- registers and flags as the word has written them (R192) -/
  regs : Regs := {}
  /-- call stack, up to four return addresses, newest first (R193) -/
  stack : List Nat := []
  /-- present word address, 14 bits (R192) -/
  pc : Nat := 0
  /-- words executed in this run (R195) -/
  words : Nat := 0
  /-- customer mode is hold (R195) -/
  hold : Bool := false
  /-- customer fault action is forward (R199) -/
  faultForward : Bool := false
  /-- entry word of the customer routine (R195) -/
  entry : Nat := 0
  /-- conditions 9 to 14 as they stood at the start of the word (Table 8-4, R192) -/
  conds : Conds := {}
  /-- conditions as the word has set them, from its end on (R192) -/
  condsNext : Option Conds := none
  /-- key buffer, 40 bytes (Table 8-6) -/
  key : Bytes := List.replicate 40 0
  /-- key of the record in each handle 0 to 3 (R188), and from 4 on those that a handle held before, while staged writes name them -/
  handles : Tab Bytes := []
  /-- snapshot of handle 0 at dispatch, and of records locked since (R188) -/
  snaps : Tab Bytes := []
  /-- staged writes in order (R178) -/
  staged : List Staged := []
  /-- how many staged writes the Larzenu services made (R199) -/
  larzenu : Nat := 0
  /-- how many header edits the Larzenu services made (R199) -/
  larzenuEdits : Nat := 0
  /-- descriptor fields set by desc.st, by field (Table 8-6) -/
  desc : Tab Nat := []
  /-- header edits of the customer routine, up to 16 with the services' own (R194) -/
  edits : List Edit := []
  /-- memory slot that waits (R183) -/
  waiting : Option Wait := none
  /-- places that the lookup of a rec.lock has compared (R143) -/
  tried : List Nat := []
  /-- the routine has ended (Table 8-3, br_op 4) -/
  ended : Bool := false
deriving DecidableEq, Repr

/-- Continuation block of a service engine (R202). -/
structure Service where
  /-- 32 registers at the checkpoint (R202) -/
  regs : Tab W64 := []
  /-- call stack at the checkpoint (R202) -/
  stack : List Nat := []
  /-- next word address (R202) -/
  next : Nat := 0
  /-- interrupt pending (R202) -/
  pendingInt : Bool := false
  /-- the engine has yielded (R202) -/
  yielded : Bool := false
  /-- engine that runs the routine now (R202) -/
  runsOn : Nat := 0
deriving DecidableEq, Repr

/-- A microcode image loaded into the shadow bank (R203). -/
structure Load where
  /-- handle that the load returned (R387) -/
  handle : Nat
  /-- image type (Table 18-5) -/
  kind : Nat
  /-- digest of its header (Table 18-4) -/
  digest : Bytes
  /-- security version of the image (R421) -/
  sv : Nat := 0
  /-- build of the image (R421) -/
  build : Nat := 0
deriving DecidableEq, Repr

/-- Engines and control store. -/
structure Engines where
  /-- service state of engine 128·slice + n (AEn), 128·slice + 64 + n (SVn): 0 in service, 1 fenced, 2 retired (R198, R200) -/
  state : Tab Nat := []
  /-- control-store words of the two banks, 192 bits each: index 16,384·bank + word, identical in every slice (R190) -/
  store : Tab Nat := []
  /-- master copy of both banks in management SRAM (R191) -/
  master : Tab Nat := []
  /-- words found bad and being rewritten: 32,768·slice + 16,384·bank + word (R191) -/
  badWords : List Nat := []
  /-- engines that stopped at a bad word, and the word, until it is rewritten (Table 8-7, code 1) -/
  stopped : List (Nat × Nat) := []
  /-- time of the last word that an engine issued, plus one (R185) -/
  wordAt : Tab Nat := []
  /-- digest of the patch set in each bank's Larzenu region; none for the region as the image has it (R190, R203) -/
  larzenu : Tab Bytes := []
  /-- bank that each epoch selects (R190) -/
  bankSel : Ver Nat := []
  /-- microcode loads (R203) -/
  loads : List Load := []
  /-- next load handle, of microcode and pattern sets alike (R387) -/
  nextLoad : Nat := 1
  /-- shadow bank loaded and verified by this load handle (R203) -/
  shadow : Option Nat := none
  /-- epoch whose drain frees the old bank, while it is busy (R204) -/
  oldBank : Option Nat := none
  /-- continuation blocks, by 4·slice + engine (R202) -/
  services : Tab Service := []
  /-- customer object region, 64 MiB, by epoch: version of each written byte (R196) -/
  objects : Tab (Ver Byte) := []
  /-- faults counted per entry word (R199) -/
  entryFaults : Tab Nat := []
  /-- security version of the patch set in force (R417) -/
  patchSv : Nat := 0
  /-- build of the patch set in force (R417) -/
  patchBuild : Nat := 0
deriving DecidableEq, Repr

/-- A binding of an internal source in a pool (R217). -/
structure Binding where
  /-- internal IPv4 source address -/
  src : Nat
  /-- zone of the key -/
  zone : Nat
  /-- blocks in the order bound -/
  blocks : List Nat := []
  /-- cursor: position in the binding's blocks · B + port -/
  cursor : Nat := 0
deriving DecidableEq, Repr

/-- A translation pool's allocator (R217, R218). -/
structure PoolAlloc where
  /-- free blocks, head first; a block is 65,536 · address + block index (R217) -/
  free : List Nat := []
  /-- the FIFO has been filled (R217) -/
  filled : Bool := false
  /-- bindings (R217) -/
  bindings : List Binding := []
  /-- ports in use: 65,536 · address + port (R217) -/
  used : List Nat := []
  /-- blocks with no port in use, and when their hold ends (R218) -/
  holding : Tab Nat := []
  /-- blocks that the twin has bound (R355) -/
  twinBound : List Nat := []
  /-- refusals by cause: exhausted, quota, allocator full (R219) -/
  refused : List Nat := [0, 0, 0]
deriving DecidableEq, Repr

/-- Flow services. -/
structure Services where
  /-- slots of each load-balancing group by epoch: 1,024 members + 1, 0 for none (R212, R213) -/
  lbSlots : Tab (Ver (List Nat)) := []
  /-- port-block allocators by pool (R217) -/
  pools : Tab PoolAlloc := []
  /-- export records staged in the Granary, oldest first; one that an uncorrectable error has taken is all zeros (R231, Table 13-4) -/
  staging : List Bytes := []
  /-- bytes staged since reset: the end of the newest staged record (R231) -/
  stageAt : Nat := 0
  /-- IPFIX sequence: data records sent (R231) -/
  exportSeq : Nat := 0
  /-- IPFIX messages sent (R231) -/
  exportMsgs : Nat := 0
  /-- export records dropped (R231) -/
  exportDropped : Nat := 0
  /-- export records shed (R235) -/
  exportShed : Nat := 0
  /-- time of the last template message (R231) -/
  templateAt : Nat := 0
  /-- templates changed since they were last sent (R231) -/
  templateDue : Bool := true
  /-- flow archive ring, by sequence modulo its size; 256 bytes each (R234) -/
  archive : Tab Bytes := []
  /-- next archive sequence (R234) -/
  archiveSeq : Nat := 0
  /-- first archive sequence of the present ring, after a restart (R340) -/
  archiveBase : Nat := 0
deriving DecidableEq, Repr

end Sys2Proof.Machine
end

