-- ==== Sys2Proof/State/Fault.lean ====
section
/-! DEFINITION. State of the fault controller (17_faults_and_ordered_recovery.md). -/

namespace Sys2Proof.Machine

/-- An error-log entry (Table 17-2). -/
structure LogEntry where
  /-- fault class (Table 17-1) -/
  cls : Nat
  /-- cause (Table 17-2) -/
  cause : Nat
  /-- rung of the ladder (R394) -/
  rung : Nat
  /-- 0 in handling, 1 settling, 2 closed (Table 17-2) -/
  st : Nat := 0
  /-- detail (Table 17-2) -/
  detail : Nat
  /-- output angle stamp at detection (Table 17-2) -/
  stamp : Nat
  /-- when settling ends (R393) -/
  settleAt : Nat := 0
  /-- event index of the fault report (Table 17-2) -/
  event : Nat := 0
  /-- the clock of its detection (Table 17-10) -/
  at_ : Nat := 0
deriving DecidableEq, Repr

/-- A slice being drained and reset (R401). -/
structure Drain where
  /-- slice that drains (R401) -/
  slice : Nat
  /-- when it was ordered (R401) -/
  at_ : Nat
  /-- fault class that called for it, which its reports give: 7 or 8 (R401, R404, assumption 262) -/
  cls : Nat := 7
  /-- the drain of step 2 is complete (R401) -/
  drained : Bool := false
  /-- ports that were up at the order (R401) -/
  ports : List Nat := []
deriving DecidableEq, Repr

/-- The fault controller. -/
structure FaultCtl where
  /-- two-deep logs by unit number: slice AE 0 to 7, slice SV 8 to 15, seal pair 16 to 47, SHA-512 48 to 63, Awn 64 to 95,
  management-core pair 96 and 97 (R394) -/
  logs : Tab (List LogEntry) := []
  /-- faults of each class since reset, 64 bits (Table 17-9) -/
  counts : Tab Nat := []
  /-- safe state (R397) -/
  safe : Bool := false
  /-- cause of the safe state, Table 17-4 (R397) -/
  safeCause : Nat := 0
  /-- stamp block at safe-state entry (Table 17-9) -/
  safeStamp : Stamp := {}
  /-- FAULT_N asserted by a retirement (R400) -/
  retireN : Bool := false
  /-- FAULT_N asserted by the boot ROM (R412, R414, R466) -/
  bootN : Bool := false
  /-- slice that is draining or resetting (R401) -/
  drain : Option Drain := none
  /-- slices ordered after it, in order (R401) -/
  ordered : List Nat := []
  /-- management-core pairs: 0 in service, 1 fenced, 2 retired (R396) -/
  mc : Tab Nat := []
  /-- SYSCLK present (R398) -/
  sysclk : Bool := true
  /-- a tick has taken a clear-safe-state item, which takes effect as the clock ends (Table 17-10) -/
  clearing : Bool := false
deriving DecidableEq, Repr

end Sys2Proof.Machine
end

