-- ==== Sys2Proof/State/Flow.lean ====
section
/-! DEFINITION. State of the flow table, its cache, sequencer, creation limits and sweep (06_flow_table.md). The bucket directory
(R142) and the overflow signature array (R145) are functions of the records and are computed from them. -/

namespace Sys2Proof.Machine

/-- A flow record in its place (Table 6-2). -/
structure FlowRec where
  /-- the 128 bytes of Table 6-2; versioned fields in the newest version (R154) -/
  bytes : Bytes
  /-- versioned fields as packets up to the given epoch read them, while a superseded version lives (R154) -/
  old : Option (Nat × Bytes) := none
  /-- first epoch that finds a host record (R154) -/
  from_ : Nat := 0
  /-- last epoch that finds a host record that a bale removed (R154) -/
  till : Option Nat := none
  /-- bale that holds this slot, and this new version, until it commits (R154) -/
  bale : Option Nat := none
  /-- the slot of a version that a bale superseded, kept until this epoch has drained; the record itself has its new slot (R154) -/
  husk : Option Nat := none
  /-- packet whose routine has reserved this slot, until its packet bale is applied (R179) -/
  reserved : Option Nat := none
  /-- epoch of a bale's version whose commit waits in the sequencer behind earlier operations on the key (R148, R154) -/
  due : Option Nat := none
  /-- sweep pass in which the record came to its place (R153) -/
  placed : Nat := 0
  /-- sweep pass that last visited it (R151) -/
  visited : Nat := 0
deriving DecidableEq, Repr

/-- A line of the flow cache (R147). -/
structure CacheLine where
  /-- place of the record the line holds -/
  loc : Nat
  /-- the line differs from HBM -/
  dirty : Bool := false
deriving DecidableEq, Repr

/-- A lock or pending operation of the flow sequencer (R148, R179). -/
structure SeqOp where
  /-- the 40 key bytes -/
  key : Bytes
  /-- packet whose operation it is -/
  pkt : Nat
  /-- stamp that orders it, 64 bits -/
  stamp : Nat
  /-- ingress port that orders equal stamps -/
  port : Nat
  /-- the operation holds the record's lock -/
  lock : Bool := false
  /-- the lookup is over, and the packet-bale write is still to come (R146, R148) -/
  looked : Bool := false
  /-- the operation is the pair update of R210 on the key; true when it changes the filter's state of the record -/
  pair : Option Bool := none
deriving DecidableEq, Repr

/-- What an operation that waits in the sequencer does. -/
inductive VisitKind where
  /-- the visit of a sweep (R151) -/
  | sweep
  /-- a relocation (R153) -/
  | move
  /-- a pair update under an epoch: tcp_state bits to OR, sweep class to assign (R210) -/
  | pair (tcp : Nat) (cls : Option Nat) (epoch : Nat)
  /-- a bale's action on a record, from an epoch on (R154) -/
  | commit (epoch : Nat) (removes : Bool)
deriving DecidableEq, Repr

/-- An operation of a service engine or of a bale on a record, or a pair update, which waits in the sequencer behind packets' operations
(R148, R161, R210). -/
structure Visit where
  /-- key of the record -/
  key : Bytes
  /-- place of the record -/
  loc : Nat
  /-- stamp at which it was issued (R148) -/
  stamp : Nat
  /-- ingress port that orders equal stamps; an engine's or a bale's comes after every port (R148, R161) -/
  port : Nat := 96
  /-- what it does -/
  kind : VisitKind := .sweep
deriving DecidableEq, Repr

/-- A token bucket of R150. -/
structure Bucket where
  /-- tokens times 72·10^9 -/
  tokens : Nat := 0
  /-- time of the last fill -/
  at_ : Nat := 0
  /-- the bucket has been filled once since reset -/
  started : Bool := false
deriving DecidableEq, Repr

/-- The flow table. -/
structure Flow where
  /-- records: index 4·bucket + slot, or 2^30 + overflow index (R141, R145) -/
  records : Tab FlowRec := []
  /-- flow-cache sets, least recently used line first (R147) -/
  cache : Tab (List CacheLine) := []
  /-- pending operations and locks, in order of arrival (R148) -/
  ops : List SeqOp := []
  /-- sweep visits, relocations, pair updates and bale actions that wait behind earlier operations (R148, R161, R210) -/
  visits : List Visit := []
  /-- packets whose creation draws on the common pool at this core clock (R150) -/
  poolWait : List Nat := []
  /-- flow eviction LFSR, 16 bits (R477) -/
  lfsr : Nat := 0xACE1
  /-- share buckets of the slices (R150) -/
  shares : Tab Bucket := []
  /-- cap buckets of the slices (R150) -/
  caps : Tab Bucket := []
  /-- common pool (R150) -/
  pool : Bucket := {}
  /-- profile buckets (R150) -/
  profiles : Tab Bucket := []
  /-- slice last served from the pool (R150) -/
  lastSlice : Nat := 7
  /-- number of the present sweep pass (R151) -/
  pass : Nat := 0
  /-- pass period in force for the present pass, ns (R151) -/
  passNs : Nat := 2000000000
  /-- evaluations E_c / Ppass in force for the present pass (R151) -/
  passEval : List Nat := [1, 5, 15, 60, 300, 900, 3600, 32768]
  /-- sweep passes begun since reset; the model's own count, from 1 -/
  passes : Nat := 1
  /-- when the present pass began (R151) -/
  passAt : Nat := 0
  /-- epoch drained when the present pass began (R254) -/
  passDrained : Nat := 0
  /-- thresholds above which occupancy stands: bit 0 notice, 1 warning, 2 overflow 50 %, 3 overflow 90 % (R155) -/
  above : Nat := 0
  /-- creations refused since reset, by cause: device, slice, profile, no victim (Table 16-6) -/
  refused : List Nat := [0, 0, 0, 0]
  /-- records removed, by sweep class (R152) -/
  removals : Tab Nat := []
  /-- histogram entries: 16 bins (R230) -/
  hist : Tab (List Nat) := []
  /-- records that found the histogram store full (R230) -/
  histShort : Nat := 0
  /-- histogram entries lost with their memory, whose records still name them (Table 13-4, R337) -/
  lostHist : List Nat := []
  /-- records lost to retirement, errors and their pairs (R157, R160) -/
  lostRecords : Nat := 0
deriving DecidableEq, Repr

end Sys2Proof.Machine
end

