-- ==== Sys2Proof/State/Gate.lean ====
section
/-! DEFINITION. State of the Glume gate and the command ledger (11_glume_gate.md). -/

namespace Sys2Proof.Machine

/-- An entry of the permit table (Table 11-9). -/
structure PermitEntry where
  /-- the 128 bytes of Table 11-9 -/
  bytes : Bytes
  /-- bale that has not committed the entry (R291) -/
  bale : Option Nat := none
  /-- the place is held for a committed permit that waits for the twin (R283) -/
  waits : Bool := false
  /-- the key that signed the entry was removed or replaced, or lost the permit role (R266) -/
  dead : Bool := false
deriving DecidableEq, Repr

/-- A permit body in the intake queue or in verification (R268). -/
structure Intake where
  /-- the 192 bytes of Table 11-4 -/
  body : Bytes
  /-- ledger source: 0 to 95 a port, 0x0100 + n a mailbox, 0x0200 a bale, 0x0300 the twin (Table 11-12) -/
  source : Nat
  /-- when it came (Table 11-16) -/
  at_ : Nat := 0
  /-- seal pairs that have disagreed over it (R268) -/
  tried : List Nat := []
  /-- a reservation has been sent to the twin (R283) -/
  reserved : Bool := false
  /-- the reservation has been granted, or none is needed (R283) -/
  granted : Bool := false
deriving DecidableEq, Repr

/-- A replay window (R269). -/
structure Window64 where
  /-- H, the highest sequence accepted (R269) -/
  high : Nat := 0
  /-- 64-bit bitmap of the sequences below H (R269) -/
  bitmap : Nat := 0
deriving DecidableEq, Repr

/-- Refusals at checks 1 to 5 not yet written (R267). -/
structure Aggregate where
  /-- ledger source -/
  source : Nat
  /-- cause of Table 11-11 -/
  cause : Nat
  /-- refusals counted -/
  count : Nat
  /-- the second in which they came, counted from reset -/
  sec : Nat := 0
deriving DecidableEq, Repr

/-- A recent discard (R280). -/
structure Discard where
  /-- 40 key bytes of the flow -/
  key : Bytes
  /-- command digest -/
  digest : Bytes
  /-- verdict given -/
  verdict : Nat
  /-- when -/
  at_ : Nat
deriving DecidableEq, Repr

/-- The gate. -/
structure Gate where
  /-- the gate is shut (R281) -/
  isShut : Bool := false
  /-- cause of the last shut or reopen, Table 11-11 (R281) -/
  cause : Nat := 0
  /-- GATE_SHUT as deglitched (R281, R469) -/
  pin : Bool := false
  /-- when the pin last deasserted, for the release time (R282) -/
  releasedAt : Option Nat := none
  /-- pin toggles counted after the first shut (R282) -/
  toggles : Nat := 0
  /-- boot floor, TAI ns, once it is fixed (R271) -/
  floor : Option Nat := none
  /-- operator keys 0x0000 to 0x00FF, present entries of Table 11-5: 64 bytes each (R265) -/
  ring : Tab Bytes := []
  /-- replay windows by key ID (R269) -/
  windows : Tab Window64 := []
  /-- intake queue, oldest first, up to 16,384 (R268) -/
  queue : List Intake := []
  /-- bodies under verification, by seal pair (R268) -/
  verifying : Tab Intake := []
  /-- bodies verified and waiting (R270, R283) -/
  waiting : List Intake := []
  /-- permit-table entries: index 4·bucket + slot (R273) -/
  permits : Tab PermitEntry := []
  /-- occupancy thresholds crossed: bit 0 80 %, bit 1 90 % (R273) -/
  above : Nat := 0
  /-- refusals to be written as aggregates (R267) -/
  aggregates : List Aggregate := []
  /-- refusals at check 6 (R267) -/
  intakeFull : Nat := 0
  /-- permit refusals of an unowned device (R287) -/
  unowned : Nat := 0
  /-- selector and digest of the permits consumed to their last use, and not sent again since (R279) -/
  spent : List Bytes := []
  /-- recent discards, oldest first, up to 4,096 (R280) -/
  recent : List Discard := []
  /-- seal pair state: 0 in service, 1 fenced, 2 retired (R395) -/
  sealSt : Tab Nat := []
  /-- SHA-512 engine state: 0 in service, 2 retired (R395) -/
  hashSt : Tab Nat := []
  /-- packet whose PDUs are in each SHA-512 engine (R28, R262) -/
  hashing : Tab Nat := []
  /-- discard-shut verdicts counted after step 2 of level 5 (R437) -/
  lateShut : Nat := 0
  /-- command verdicts that await the twin's acknowledgement: packet, key ID, sequence (R284) -/
  consuming : List (Nat × Nat × Nat) := []
deriving DecidableEq, Repr

/-- The fields of a ledger record that its writer gives (Table 11-12). -/
structure LedgerRec where
  type : Nat
  code : Nat := 0
  cause : Nat := 0
  flags : Nat := 0
  source : Nat := 0xFFFF
  key : Nat := 0xFFFF
  seq : Nat := 0
  selector : Bytes := List.replicate 40 0
  digest : Bytes := List.replicate 32 0
  detailA : Nat := 0
  detailB : Bytes := List.replicate 64 0
deriving DecidableEq, Repr

/-- A ledger record that waits for room in the queue, with its stamp (R288). -/
structure LateRec where
  /-- its fields -/
  rec_ : LedgerRec
  /-- stamp of the decision -/
  stamp : Stamp
  /-- it carries a signature (R287, R438) -/
  sealed : Bool
deriving DecidableEq, Repr

/-- The command ledger. -/
structure Ledger where
  /-- on-die ledger queue, oldest first, up to 8,192 records of 256 bytes (R288) -/
  queue : List Bytes := []
  /-- records that found the queue full, oldest first (R288) -/
  late : List LateRec := []
  /-- records written, by index (R289) -/
  ring : Tab Bytes := []
  /-- index of the next record (Table 11-12) -/
  next : Nat := 0
  /-- SHA-512 of the last record queued (R287) -/
  hash : Bytes := List.replicate 64 0
  /-- the ledger has its first record (R287) -/
  started : Bool := false
  /-- records since the previous seal (R287) -/
  sinceSeal : Nat := 0
  /-- time of the last seal (R287) -/
  sealAt : Nat := 0
  /-- retention mark (R289) -/
  mark : Nat := 0
  /-- levels reported: bit 0 75 %, bit 1 90 % (R289) -/
  levels : Nat := 0
deriving DecidableEq, Repr

end Sys2Proof.Machine
end

