-- ==== Sys2Proof/State/Host.lean ====
section
/-! DEFINITION. State of the host interface: BAR0, rings, mailboxes, events, MGMT (15_mailboxes_and_host_interface.md). -/

namespace Sys2Proof.Machine

/-- Registers of a PCIe mailbox (Table 15-2). -/
structure MbRegs where
  /-- REQ_PROD, 32 bits (Table 15-2) -/
  reqProd : Nat := 0
  /-- REQ_CONS, 32 bits (Table 15-2) -/
  reqCons : Nat := 0
  /-- CPL_PROD, 32 bits (Table 15-2) -/
  cplProd : Nat := 0
  /-- CPL_CONS, 32 bits (Table 15-2) -/
  cplCons : Nat := 0
  /-- MB_CTRL enable (Table 15-6) -/
  enable : Bool := false
  /-- MB_CTRL interrupt (Table 15-6) -/
  interrupt : Bool := true
  /-- MB_STATUS stalled (Table 15-6) -/
  stalled : Bool := false
  /-- MB_STATUS overrun (Table 15-6) -/
  overrun : Bool := false
deriving DecidableEq, Repr

/-- Registers of a DMA ring (Table 15-2). -/
structure RingRegs where
  /-- BASE, 64 bits (Table 15-2) -/
  base : Nat := 0
  /-- SIZE log2_entries, 5 bits (Table 15-7) -/
  log2 : Nat := 0
  /-- PROD, 32 bits (Table 15-2) -/
  prod : Nat := 0
  /-- CONS, 32 bits (Table 15-2) -/
  cons : Nat := 0
  /-- RING_CTRL enable (Table 15-7) -/
  enable : Bool := false
  /-- RING_CTRL interrupt (Table 15-7) -/
  interrupt : Bool := true
deriving DecidableEq, Repr

/-- A request taken from a ring, a frame or the JTAG register, waiting for its row (R369). -/
structure Taken where
  /-- Guolo sequence of its header (Table 15-12) -/
  seq : Nat
  /-- opcode of its header (Table 15-12) -/
  opcode : Nat
  /-- tag of its descriptor (Table 15-10) -/
  tag : Nat := 0
  /-- response address of its descriptor (Table 15-10) -/
  respAddr : Nat := 0
  /-- window offset of its descriptor (Table 15-10) -/
  respOff : Nat := 0
  /-- room for the response (Table 15-10) -/
  respMax : Nat := 0
  /-- the message (R371) -/
  bytes : Bytes := []
  /-- source address, for MGMT (R376) -/
  src : Bytes := []
deriving DecidableEq, Repr

/-- A completion kept for the resend of R376, or as last written (Table 15-11). -/
structure Completion where
  /-- Guolo sequence (Table 15-11) -/
  seq : Nat
  /-- opcode (Table 15-11) -/
  opcode : Nat
  /-- status (Table 15-14) -/
  status : Nat
  /-- detail (Table 15-11) -/
  detail : Nat := 0
  /-- host tag (Table 15-10) -/
  tag : Nat := 0
  /-- response payload (R371) -/
  resp : Bytes := []
  /-- stamp block (Table 15-11) -/
  stamp : Stamp := {}
  /-- angle stamp of the tick that applied it (Table 15-11) -/
  tick : Nat := 0
deriving DecidableEq, Repr

/-- A request dispatched, whose completion has not yet been written (R370). -/
structure Owed where
  /-- Guolo sequence (Table 15-12) -/
  seq : Nat
  /-- opcode (Table 15-12) -/
  opcode : Nat
  /-- host tag (Table 15-10) -/
  tag : Nat
  /-- its completion, once it is known -/
  answer : Option Completion := none
deriving DecidableEq, Repr

/-- A request that a later happening ends (R379, R388, R168). -/
structure LongReq where
  /-- mailbox -/
  mb : Nat
  /-- Guolo sequence -/
  seq : Nat
  /-- opcode -/
  opcode : Nat
  /-- what it waits for: 0 a commit tick, 1 a memory unit's retraining, 2 a recalibration pass, 3 a switchover, 4 a decision on
  a permit body, 5 the end of the clock in which the safe state is cleared -/
  kind : Nat
  /-- bale ID, memory unit, or key ID and sequence of the body -/
  idx : Nat
  /-- when it was dispatched, or last raised its progress event (R379) -/
  at_ : Nat := 0
deriving DecidableEq, Repr

/-- A mailbox, MB0 to MB15 (R368, R371, R376). -/
structure Mailbox where
  /-- next sequence expected, 32 bits (R371) -/
  next : Nat := 0
  /-- the last 256 completions, newest first (R376) -/
  done : List Completion := []
  /-- requests taken and not completed (R369) -/
  taken : List Taken := []
  /-- requests held for a gap (R376) -/
  gap : List Taken := []
  /-- when the gap wait began (R376) -/
  gapAt : Option Nat := none
  /-- message being reassembled: fragments by number (R376) -/
  frags : Tab Bytes := []
  /-- its total length (R376) -/
  fragTotal : Nat := 0
  /-- its number of fragments (R376) -/
  fragCount : Nat := 0
  /-- source address of its fragments (R376) -/
  fragSrc : Bytes := []
  /-- when its first fragment came (R376) -/
  fragAt : Nat := 0
  /-- partial messages discarded (R376) -/
  discards : Nat := 0
  /-- refusals with 0x0105 (R376) -/
  badSeq : Nat := 0
  /-- requests dispatched and not yet answered, in request order; with the completion once there is one (R370) -/
  line : List Owed := []
deriving DecidableEq, Repr

/-- The events of one master (R367). -/
structure MasterQ where
  /-- event queue, oldest first, up to 4,096 (R367) -/
  queue : List EventRec := []
  /-- events lost since the last events-lost event (R367) -/
  lost : Nat := 0
  /-- index of the first of them (R367) -/
  firstLost : Nat := 0
deriving DecidableEq, Repr

/-- The host interface. -/
structure HostIf where
  /-- INT_CAUSE, 32 bits (Table 15-5) -/
  intCause : Nat := 0
  /-- INT_MASK, 32 bits (Table 15-5) -/
  intMask : Nat := 0
  /-- EVENT_LOST, 32 bits (Table 15-2) -/
  eventLost : Nat := 0
  /-- STATUS bits [15:4] as last reported by the urgent cause (Table 15-5) -/
  lastStatus : Nat := 0
  /-- mailbox registers MB0 to MB7 (Table 15-2) -/
  mbs : Tab MbRegs := []
  /-- DMA rings: 0 event, 1 Chaff, 2 export (Table 15-2) -/
  rings : Tab RingRegs := []
  /-- MSI-X table, 64 entries of 16 bytes, as 32-bit words; the fourth word of an entry, its mask bit set, is 1 at reset (Table 15-1,
  assumption 234) -/
  msix : Tab Nat := []
  /-- MSI-X pending-bit array, 64 bits (Table 15-1) -/
  pba : Nat := 0
  /-- windows of MB0 to MB7: 1,048,576·n + offset (R363) -/
  windows : Tab Byte := []
  /-- mailboxes MB0 to MB15 (R368) -/
  boxes : Tab Mailbox := []
  /-- highest signing counter accepted, by key ID, plus 1 (R372) -/
  counters : Tab Nat := []
  /-- event queues by master code (R367) -/
  masters : Tab MasterQ := []
  /-- next event index (R367) -/
  eventIndex : Nat := 0
  /-- time of the last rate-limited event, by code · 2^32 + source (R390) -/
  eventAt : Tab Nat := []
  /-- occurrences since the previous event, by code · 2^32 + source (R390) -/
  eventCount : Tab Nat := []
  /-- MGMT bucket: frames times 9·10^9 (R375) -/
  mgmtTokens : Nat := 0
  /-- when the MGMT bucket was last filled (R375) -/
  mgmtAt : Nat := 0
  /-- the MGMT bucket has been filled once since reset (R375) -/
  mgmtStarted : Bool := false
  /-- signed MGMT frames that wait for the rate limit, oldest first: destination and bytes (R376) -/
  mgmtOut : List (Bytes × Bytes) := []
  /-- when the signed MGMT frames of the last second were sent, newest first (R376) -/
  mgmtSent : List Nat := []
  /-- words of the message being shifted into MB14 (R468) -/
  jtag : List Nat := []
  /-- BYPASS is selected (R468) -/
  bypass : Bool := true
  /-- requests that a later happening ends (R379) -/
  longs : List LongReq := []
  /-- last percent of the progress events, by mailbox (R379) -/
  progress : Tab Nat := []
deriving DecidableEq, Repr

end Sys2Proof.Machine
end

