-- ==== Sys2Proof/State/Match.lean ====
section
/-! DEFINITION. State of the match array and the Awn engines (10_match_arrays_and_automata.md). -/

namespace Sys2Proof.Machine

/-- A version of a match row in its place (Table 10-2, R238). -/
structure MatchRow where
  /-- the 104 bytes of Table 10-2 -/
  rec_ : Bytes
  /-- first epoch of its range (R247) -/
  from_ : Nat := 0
  /-- last epoch of its range, none while it is in force (R247) -/
  till : Option Nat := none
  /-- bale that has not committed this version (R247) -/
  bale : Option Nat := none
deriving DecidableEq, Repr

/-- The match array: identical in every slice but for cells that differ from their copies. -/
structure MatchArray where
  /-- rows by physical index 256·bank + position (R238) -/
  rows : Tab MatchRow := []
  /-- rows whose array cells differ from their SRAM copy: 65,536·slice + index (R244) -/
  bad : List Nat := []
  /-- banks not yet respaced after a change of the hole interval (R248) -/
  respacing : List Nat := []
  /-- last tie of each slice: winner and next row ID (R242) -/
  lastTie : Tab (Nat × Nat) := []
deriving DecidableEq, Repr

/-- A pattern set in the automata memory (R254). -/
structure PatternSet where
  /-- load handle -/
  handle : Nat
  /-- the image's payload -/
  image : Bytes
  /-- first state entry and number of entries (R254) -/
  base : Nat
  /-- number of state entries (R254) -/
  size : Nat
  /-- first epoch that uses it; none before its switch commits (R254) -/
  from_ : Option Nat := none
  /-- last epoch that used it (R254) -/
  till : Option Nat := none
deriving DecidableEq, Repr

/-- A scan in a lane (R249). -/
structure Scan where
  /-- packet whose segment is scanned -/
  pkt : Nat
  /-- saved state the scan began with (R251) -/
  start : Nat
  /-- when it started -/
  at_ : Nat
  /-- the packet's record has left the table since, so no state is saved (Table 10-6) -/
  lost : Bool := false
deriving DecidableEq, Repr

/-- A segment that waits to be scanned again after a lane fault (R255). -/
structure Rescan where
  /-- the fault, from which its deadline counts -/
  at_ : Nat
  /-- state the scan began with -/
  start : Nat
  /-- lane that it must not take again -/
  avoid : Option Nat
  /-- as in Scan -/
  lost : Bool
deriving DecidableEq, Repr

/-- The Awn engines. -/
structure Awn where
  /-- state of each engine: 0 in service, 1 fenced, 2 retired (R255) -/
  state : Tab Nat := []
  /-- lane 2·engine + lane: the scan in it (R249) -/
  lanes : Tab Scan := []
  /-- pattern sets held in the automata memory (R254) -/
  sets : List PatternSet := []
  /-- automata entries with an uncorrectable error, being rewritten (R255) -/
  badEntries : List Nat := []
  /-- profiled-work queue of each slice: packets, oldest first (R28) -/
  queue : Tab (List Nat) := []
  /-- packets whose segment waits for a lane after a lane fault (R255) -/
  rescans : Tab Rescan := []
  /-- packets discarded by a pattern whose action is discard, by pattern ID (R252) -/
  discards : Tab Nat := []
deriving DecidableEq, Repr

end Sys2Proof.Machine
end

