-- ==== Sys2Proof/State/Memory.lean ====
section
/-! DEFINITION. State of the HBM and Granary memory systems (13_memory_system.md). -/

namespace Sys2Proof.Machine

/-- A request in a controller's queue (R328). -/
structure MemReq where
  /-- request number -/
  id : Nat
  /-- burst address (R328) -/
  addr : Nat
  /-- write request (R328) -/
  write : Bool
  /-- when it entered the queue (R328) -/
  at_ : Nat
deriving DecidableEq, Repr

/-- Refresh of one bank (R330). -/
structure BankRefresh where
  /-- when the next refresh falls due (R330) -/
  due : Nat := 0
  /-- refreshes postponed (R330) -/
  postponed : Nat := 0
deriving DecidableEq, Repr

/-- A memory unit: an HBM pseudo-channel or a Granary channel (R324). -/
structure MemUnit where
  /-- 0 in use, 1 fenced, 2 retired, 3 not used (R325, R335, R337) -/
  state : Nat := 0
  /-- read and write requests, oldest first (R328) -/
  queue : List MemReq := []
  /-- requests that no queue of the unit has room for, oldest first (R328) -/
  wait : List MemReq := []
  /-- open row of each bank, row + 1 (R328) -/
  openRow : Tab Nat := []
  /-- refresh of each bank (R330) -/
  refresh : Tab BankRefresh := []
  /-- activation tables of each bank: row and count, up to 64 (R331) -/
  activations : Tab (List (Nat × Nat)) := []
  /-- activations of each bank since its last refresh management (R331) -/
  managed : Tab Nat := []
  /-- start of the present refresh window (R331) -/
  windowAt : Nat := 0
  /-- neighbour refreshes of each bank (R331) -/
  neighbour : Tab Nat := []
  /-- when the corrections of the last second were made, oldest first (R333) -/
  corrections : List Nat := []
  /-- when it was last trained (R335) -/
  trainedAt : Nat := 0
  /-- temperature of its stack or DIMM at its last training, °C (R335) -/
  trainedTemp : Int := 0
  /-- retraining attempts failed (R336) -/
  attempts : Nat := 0
  /-- when the next attempt is due (R336) -/
  retryAt : Option Nat := none
  /-- patrol errors met behind the present fence, oldest first: uncorrectable or not, and the address (Table 13-8) -/
  patrolErr : List (Bool × Nat) := []
  /-- Granary capacity of the channel, GiB (R325) -/
  gib : Nat := 128
deriving DecidableEq, Repr

/-- A read that an operation of the frame path waits for (R183, R332). -/
inductive ReadOwner where
  /-- the record lookup of a packet (R143) -/
  | record (pkt : Nat)
  /-- a rec.lock of a packet's routine (Table 8-6) -/
  | lock (pkt : Nat)
  /-- an obj.ld of a packet's routine (Table 8-6) -/
  | object (pkt : Nat)
  /-- the permit bucket of a judged packet (R276) -/
  | permit (bucket : Nat)
  /-- the fresh read of a clean cache line in error (R147) -/
  | refill
  /-- the good copy of a policy object or ledger record whose copy at a byte of a unit is in error (Table 13-4) -/
  | mirror (unit addr : Nat) (rec_ : Option Nat)
deriving DecidableEq, Repr

/-- An outstanding memory read. -/
structure MemRead where
  /-- read number; the model's own name for the read -/
  id : Nat
  /-- memory unit (R324) -/
  unit : Nat
  /-- place read: bucket or overflow index of the flow table, bucket of the permit table, or object address -/
  place : Nat
  /-- it reads a directory entry, not a record (R143) -/
  directory : Bool := false
  /-- what waits for it (R183) -/
  owner : ReadOwner
deriving DecidableEq, Repr

/-- The rebuild of a ledger stripe's mirror (R340). -/
structure Rebuild where
  /-- channel that retired -/
  failed : Nat
  /-- when the rebuild began -/
  at_ : Nat
  /-- index of the first record written after it began, which goes to the new mirror at once -/
  upTo : Nat
deriving DecidableEq, Repr

/-- The memory systems. -/
structure Memory where
  /-- units 0 to 127 HBM, 128 to 143 Granary (R324) -/
  units : Tab MemUnit := []
  /-- reads outstanding, oldest first (R183) -/
  reads : List MemRead := []
  /-- next read ID -/
  nextRead : Nat := 0
  /-- flow blocks not in their own place: 128·pc + block to pc holding it (R157) -/
  blockAt : Tab Nat := []
  /-- which of its holder's nine spare blocks a moved block has: flow block code, 2^14 + 2·pc + half of a permit area, or 2^15 + pc of
  a journal area (R157, R337) -/
  spareIx : Tab Nat := []
  /-- permit areas, two blocks each, not in their own place: pc to (holder, holder) (R275) -/
  permitAt : Tab (Nat × Nat) := []
  /-- journal areas not in their own place: pc to holder (R337) -/
  journalAt : Tab Nat := []
  /-- flow blocks absent (R338) -/
  absent : List Nat := []
  /-- HBM retirements since reset (R337) -/
  retired : Nat := 0
  /-- copies of policy partitions that are not made yet: the pseudo-channel whose retirement calls for the copy, and its code, 2·partition
  for the primary copy and 2·partition + 1 for the mirror (R337) -/
  policyMirror : List (Nat × Nat) := []
  /-- copies of policy partitions out of their own place, by code: the pseudo-channel that holds one, and which 32 MiB of its unused area
  (R337) -/
  policyAt : Tab (Nat × Nat) := []
  /-- ledger stripes being rebuilt, by stripe (R340) -/
  rebuilding : Tab Rebuild := []
  /-- ledger stripes with a rebuilt mirror (R340) -/
  rebuilt : List Nat := []
  /-- ledger stripes that have a new mirror or are getting one, in the order of their places in the reserved region (R340) -/
  mirrors : List Nat := []
  /-- region sizes in 1/128 GiB, rows of Table 13-7 (R339) -/
  regions : List Nat := [65536, 131072, 32768, 8192, 24576]
  /-- bytes of the ledger area of a channel, fixed when the Granary is formed (R339, R340) -/
  ledgerPart : Nat := 34359738368
  /-- temperature of each stack and DIMM as its sensor last reported it, °C: stack, and 4 + channel (R330, R335) -/
  temps : Tab Int := []
  /-- share in 1/128 and orders in force since reset (R343) -/
  shares : List Nat := [32, 64, 16, 4, 12, 3, 3, 1]
  /-- ledger records written to one mirror only, while the other is fenced: index and channel (R339) -/
  owed : List (Nat × Nat) := []
  /-- DDR5 is in self-refresh (R437) -/
  selfRefresh : Bool := false
  /-- memory training is complete (R334) -/
  trained : Bool := false
deriving DecidableEq, Repr

end Sys2Proof.Machine
end

