-- ==== Sys2Proof/State/Packets.lean ====
section
/-! DEFINITION. A packet in the device: its descriptor, buffer, context, and its copies in the egress queues (R20 to R36, chapter 12). -/

namespace Sys2Proof.Machine

/-- Where a packet stands on the path of Table 1-2 and Table 1-3. -/
inductive PktStage where
  /-- past step 4; step 5 comes next (R20) -/
  | lookedUp
  /-- waits for its record from HBM (R158) -/
  | waitRecord
  /-- waits for its whole frame (R24, R249) -/
  | waitFrame
  /-- in the profiled-work queue, or in scan (R28) -/
  | queued
  /-- ready for dispatch at step 6 (R184) -/
  | ready
  /-- its routine runs (R183) -/
  | running
  /-- its routine has ended; the packet bale is to be applied (R178) -/
  | ended
  /-- at step C2: the digest is being computed (R262) -/
  | digest
  /-- at step C3: the permit lookup is next (R276) -/
  | judge
  /-- in the hold of R26 -/
  | held
  /-- passed over by a held packet of its flow (R26, R277) -/
  | behind
  /-- at step 7: admission is next (R300) -/
  | step7
  /-- held for an aggregation move (R133) -/
  | moveHold
  /-- admitted: copies stand in queues (R300) -/
  | inQueues
deriving DecidableEq, Repr

/-- What a copy of a packet does in its egress queue (R315, R316). -/
inductive CopyState where
  | waiting
  | sending
  | voided
deriving DecidableEq, Repr

/-- A copy of a packet at an egress port (R315). -/
structure Copy where
  /-- egress port (R315) -/
  port : Nat
  /-- class at the egress port (R315) -/
  cls : Nat
  /-- waiting, being sent, or voided (R315, R316) -/
  state : CopyState := .waiting
  /-- gate-list bank the copy names (R60) -/
  bank : Nat := 0
  /-- when it was admitted (R133) -/
  since : Nat := 0
  /-- ECN mark to be set (R303) -/
  ce : Bool := false
  /-- the egress port is in the untagged set of the packet's egress VLAN, as its epoch has it (R30, R124) -/
  untag : Bool := false
deriving DecidableEq, Repr

/-- A command PDU of a segment (R259 to R262). -/
structure Pdu where
  /-- the PDU after normalisation (R261) -/
  norm : Bytes
  /-- length as it stands in the segment (R259) -/
  len : Nat
  /-- selector (Table 11-3) -/
  selector : Bytes
  /-- digest, once computed (R262) -/
  digest : Bytes := []
  /-- entry consumed for it: key ID, sequence, uses left, flags (R276) -/
  used : Option (Nat × Nat × Nat × Nat) := none
deriving DecidableEq, Repr

/-- The result of a scan (R252, Table 10-5). -/
structure ScanResult where
  /-- the segment was scanned (R252) -/
  scanned : Bool := false
  /-- matches listed, up to 32: end offset and pattern ID in order (R252) -/
  matches_ : List (Nat × Nat) := []
  /-- more matches than the list holds (R252) -/
  overflow : Bool := false
  /-- matches beyond the list, counted only (R252) -/
  beyond : Nat := 0
  /-- the lowest pattern ID matched anywhere, and the end offset of its first match (R252) -/
  lowest : Option (Nat × Nat) := none
  /-- action of that pattern (Table 10-5) -/
  action : Nat := 0
  /-- Awn profile used (R252) -/
  profile : Nat := 0
  /-- end state of the scan (R251) -/
  state : Nat := 0
deriving DecidableEq, Repr

/-- How a packet enters a flow (R143, R149). -/
inductive Record where
  /-- no lookup is made (R136) -/
  | unused
  /-- the lookup is to be made or waits -/
  | wanted
  /-- found, at this place -/
  | found (loc : Nat)
  /-- created by this packet, at this place -/
  | created (loc : Nat)
  /-- a miss that created nothing -/
  | missed
deriving DecidableEq, Repr

/-- A packet: descriptor, buffer and context. -/
structure Packet where
  /-- ingress port (R20) -/
  port : Nat
  /-- frame as received and buffered, FCS included (R294) -/
  bytes : Bytes
  /-- ingress stamp block (R55) -/
  stamp : Stamp
  /-- ingress time (R29) -/
  at_ : Nat
  /-- ingress epoch (R30) -/
  epoch : Nat
  /-- stage on the path -/
  stage : PktStage
  /-- the whole frame has been received (R24) -/
  complete : Bool := false
  /-- the frame is bad (R309) -/
  bad : Bool := false
  /-- truncated to its hint (R297) -/
  truncated : Bool := false
  /-- length hint (R296) -/
  hint : Nat := 0
  /-- pool of its buffer, 0 A to 5 F (R295) -/
  pool : Nat := 0
  /-- the buffer was a spill (R295) -/
  spilled : Bool := false
  /-- ingress VLAN (R123) -/
  vid : Nat := 0
  /-- PCP it arrived with (R123) -/
  pcp : Nat := 0
  /-- it arrived with a VLAN tag (R123) -/
  tagged : Bool := false
  /-- ingress class (R304) -/
  inCls : Nat := 0
  /-- traffic class now (R243, Table 8-6) -/
  cls : Nat := 0
  /-- high drop precedence (R84) -/
  yellow : Bool := false
  /-- winning match row ID (R242) -/
  row : Option Nat := none
  /-- flow profile (R136) -/
  profile : Nat := 0
  /-- zone (R138) -/
  zone : Nat := 0
  /-- a Chaff sample is requested: source code of Table 12-4 (R317) -/
  chaff : Nat := 0
  /-- it has been sampled (R317) -/
  sampled : Bool := false
  /-- discard verdict of a routine, pattern or service (Table 8-6, R252) -/
  discard : Bool := false
  /-- egress ports chosen (R124, R126) -/
  dests : List Nat := []
  /-- aggregation group and slot of the choice, 256·group + slot (R131) -/
  lagSlot : Option Nat := none
  /-- how often its group had been built when the choice was made (R27, R131) -/
  lagGen : Nat := 0
  /-- the packet is flooded (R124) -/
  flood : Bool := false
  /-- untagged set of its egress VLAN, as its epoch has it (R27, R30, R124) -/
  untagged : Nat := 0
  /-- it no longer holds its epoch: it has entered the gate hold, or was inserted at egress (R30) -/
  epochDone : Bool := false
  /-- store-and-forward is forced (R308) -/
  sf : Bool := false
  /-- ports whose store-and-forward was on when the packet was stamped, one bit each (R74) -/
  sfPorts : Nat := 0
  /-- classes that were privileged when it was stamped, one bit each (R299) -/
  privMask : Nat := 0xC0
  /-- routed: new destination MAC, source MAC and VLAN (R126) -/
  route : Option (Nat × Nat × Nat) := none
  /-- the PRP trailer is to be removed (R225) -/
  cutPrp : Bool := false
  /-- the FCS derived so far is that of the frame with these edits applied, in order (R194, R311) -/
  edits : List Edit := []
  /-- the 40-byte flow key, empty for none (R138) -/
  key : Bytes := []
  /-- flow record of the packet (R143) -/
  record : Record := .unused
  /-- places that its lookup has compared (R143) -/
  tried : List Nat := []
  /-- key of the pair's second record, once the directory entries of its buckets have been read (R143, R159) -/
  pairRead : Option Bytes := none
  /-- when it began to wait for a record (R158) -/
  waitAt : Option Nat := none
  /-- the wait is exempt from the limit (R159) -/
  exempt : Bool := false
  /-- since when it waits on a fenced pseudo-channel (R29, R159) -/
  fenceAt : Option Nat := none
  /-- time that it has waited on fenced pseudo-channels (R29) -/
  fenced : Nat := 0
  /-- admitted without checks 2 to 4 (R301) -/
  exemptAdmit : Bool := false
  /-- context of its routine (R183) -/
  ctx : Option Context := none
  /-- keys whose locks its services have still to take, in the order of R179 -/
  locks : List Bytes := []
  /-- it is held because the ledger queue has no room for its verdict (R288) -/
  noRoom : Bool := false
  /-- when the gate passed it (Table 11-16) -/
  passedAt : Option Nat := none
  /-- the twin has acknowledged what the command consumes, and only room for its verdict record is wanting (R284, R288) -/
  acked : Bool := false
  /-- engine that failed under it, where it does not run again (R180, R198) -/
  avoid : Option Nat := none
  /-- scan result (R252) -/
  scan : ScanResult := {}
  /-- command PDUs (R259) -/
  pdus : List Pdu := []
  /-- the flow's command profile judges this packet (R259) -/
  judged : Nat := 0
  /-- record of that command profile, as its epoch has it (R27, R30) -/
  gpRec : Bytes := []
  /-- verdict and cause, once given (R279) -/
  verdict : Option (Nat × Nat) := none
  /-- when step C3 ended, for the hold timer (R277) -/
  holdAt : Option Nat := none
  /-- reasons met while held: verdict code and cause (R279) -/
  reasons : List (Nat × Nat) := []
  /-- copies in the egress queues (R315) -/
  copies : List Copy := []
  /-- the copy count has an uncorrectable error (Table 12-3) -/
  countLost : Bool := false
  /-- when the residue timer expires (R316) -/
  residueAt : Option Nat := none
deriving DecidableEq, Repr

end Sys2Proof.Machine
end

