-- ==== Sys2Proof/State/Ports.lean ====
section
/-! DEFINITION. State of the line ports and lanes (03_line_ports.md) and of OTN framing (04_otn_framing.md). -/

namespace Sys2Proof.Machine

/-- Port states of Table 3-2 (R76), coded 0 to 8 in order. -/
inductive PortState where
  | disabled
  | deepRest
  | laneIdle
  | negotiating
  | training
  | up
  | damped
  | suspended
  | test
deriving DecidableEq, Repr

/-- The two token buckets of a policer (R84, R85); its rates are settings. -/
structure Policer where
  /-- committed bucket, tokens times 72·10^9 (R84) -/
  tc : Nat := 0
  /-- peak bucket, the same unit (R84) -/
  tp : Nat := 0
  /-- time the buckets were last filled (R84) -/
  at_ : Nat := 0
  /-- the buckets have been filled to their bursts once since reset (R84) -/
  started : Bool := false
deriving DecidableEq, Repr

/-- One line port. -/
structure Port where
  /-- port state beneath damping, Table 3-2 (R76, R82) -/
  st : PortState := .disabled
  /-- last cause, coded as assumption 20 states (R76) -/
  cause : Nat := 0
  /-- consecutive failures (R81) -/
  failures : Nat := 0
  /-- an attempt is in progress (R79) -/
  attempt : Bool := false
  /-- when the attempt or its training part began (R79) -/
  attemptAt : Nat := 0
  /-- end of the wait or suspension interval in force (R81) -/
  waitUntil : Nat := 0
  /-- signal seen during the attempt (R79) -/
  sawSignal : Bool := false
  /-- next pages received in this negotiation (R79) -/
  pages : Nat := 0
  /-- partner requests received in this attempt (R79) -/
  requests : Nat := 0
  /-- mode resolved by negotiation or set, coded as the port mode (R77) -/
  runMode : Nat := 0
  /-- damping penalty in 1/1,024 (R82) -/
  penalty : Nat := 0
  /-- time the penalty stood at (R82) -/
  penaltyAt : Nat := 0
  /-- held damped, whatever the link does beneath (R82) -/
  isDamped : Bool := false
  /-- shed by sag (R436) -/
  shed : Bool := false
  /-- the sag level whose end brings a shed port back, 0 while it is not shed (R436, R448) -/
  shedAt : Nat := 0
  /-- down for a slice reset (R401) -/
  sliceDown : Bool := false
  /-- policers PL00 to PL15 that differ from Table 3-6 (R84) -/
  policers : Tab Policer := []
  /-- class last served by the weighted scheduler (R306) -/
  lastServed : Nat := 7
  /-- port shaper tokens, bytes times 72·10^9 (R307) -/
  tokens : Int := 0
  /-- time the tokens stood at (R307) -/
  tokensAt : Nat := 0
  /-- packet being transmitted: packet ID (R306) -/
  sending : Option Nat := none
  /-- ingress sampler LFSR, 24 bits (R317) -/
  inLfsr : Nat := 1
  /-- frames left to the next ingress sample (R317) -/
  inGap : Nat := 0
  /-- egress sampler LFSR, 24 bits (R317) -/
  outLfsr : Nat := 1
  /-- frames left to the next egress sample (R317) -/
  outGap : Nat := 0
  /-- LACP actor state of the port: collecting (R130) -/
  lacpRx : Bool := false
  /-- LACP actor state of the port: collecting and distributing (R130) -/
  lacp : Bool := false
  /-- when the last LACPDU arrived (R130) -/
  lacpAt : Nat := 0
deriving DecidableEq, Repr

/-- One line lane (R86 to R90). -/
structure Lane where
  /-- power state: 0 active, 1 lane idle, 2 deep rest (R88); deep rest while the port is disabled -/
  power : Nat := 2
  /-- power state ordered by command, none per port mode (R93) -/
  ordered : Option Nat := none
  /-- when a power-state exit began (R88) -/
  exitAt : Option Nat := none
  /-- bit errors counted, 48 bits, saturating (R87) -/
  errs : Nat := 0
  /-- the checker has lock (R87) -/
  locked : Bool := false
  /-- when the checker locked (R87) -/
  lockAt : Nat := 0
  /-- signal present at the receiver (R79) -/
  signal : Bool := false
  /-- transmit taps c(−3) to c(1) (R78) -/
  taps : List Int := [0, 0, 0, 0, 0]
  /-- equaliser settings of the receiver, an adaptation's result without a layout (R78, R89) -/
  eq : Nat := 0
  /-- equaliser settings of the last successful training (R89) -/
  savedEq : Nat := 0
  /-- rate at which a lane test runs, kb/s, 0 while none does (R72, R87) -/
  testRate : Nat := 0
  /-- pending partner request (R79) -/
  pendingReq : Option CoefRequest := none
  /-- time of the last answer (R79) -/
  lastAnswer : Option Nat := none
  /-- temperature at the last recalibration, °C; 25 at reset (R90, DESIGN CHOICE: assumption 240) -/
  calTemp : Int := 25
  /-- recalibration due (R90) -/
  calDue : Bool := false
deriving DecidableEq, Repr

/-- In-place recalibration (R90). -/
structure Recal where
  /-- lanes still to be done in the pass, lowest first (R90) -/
  left : List Nat := []
  /-- a pass is running (R90) -/
  running : Bool := false
  /-- lanes changed in this pass (Table 16-9) -/
  changed : Nat := 0
  /-- start of the last pass (R90) -/
  lastPass : Nat := 0
  /-- another pass is due once the running one ends (R90) -/
  again : Bool := false
  /-- time of the last damping evaluation (R82) -/
  dampAt : Nat := 0
deriving DecidableEq, Repr

/-- Alignment of one logical lane (Table 4-1). -/
structure LogicalLane where
  /-- expected markers missed in a row (R98) -/
  miss : Nat := 0
  /-- expected markers found in a row (R98) -/
  good : Nat := 0
  /-- lane marker seen (R98) -/
  marker : Nat := 0
  /-- frames since the lane's frame position, which comes once in 20 frames (R94, R98) -/
  pos : Nat := 0
  /-- the lane is aligned (R98) -/
  aligned : Bool := false
deriving DecidableEq, Repr

/-- TTI or payload-type acceptance (R100). -/
structure Accept where
  /-- bytes of the present multiframe, by MFAS (R100) -/
  cur : Tab Byte := []
  /-- MFAS of the byte that comes next (R100) -/
  fill : Nat := 0
  /-- value of the last multiframe (R100) -/
  last : Bytes := []
  /-- how often it has come unchanged (R100) -/
  run : Nat := 0
  /-- accepted value (R100) -/
  value : Option Bytes := none
deriving DecidableEq, Repr

/-- One second's counts and class for a layer and end (R107). -/
structure PmSecond where
  /-- errored blocks of the second (R107) -/
  blocks : Nat := 0
  /-- a defect stood in the second (R107) -/
  defect : Bool := false
deriving DecidableEq, Repr

/-- A classified second: errored blocks, SES, and whether it is SES because of a defect (R107, R108). -/
structure PmClass where
  /-- errored blocks of the second (R107) -/
  blocks : Nat
  /-- severely errored (R107) -/
  ses : Bool
  /-- errored (R107) -/
  es : Bool
  /-- severely errored because of a defect (R107) -/
  defect : Bool
  /-- the port was shed: the second is unavailable (Table 4-5) -/
  shed : Bool := false
deriving DecidableEq, Repr

/-- Performance monitoring of one layer and end (R108). -/
structure PmEnd where
  /-- the present second (R107) -/
  now : PmSecond := {}
  /-- the last ten classified seconds, newest first (R108) -/
  held : List PmClass := []
  /-- the layer and end is unavailable (R108) -/
  unavailable : Bool := false
deriving DecidableEq, Repr

/-- Stage persistence: in the out-state since, in the in-state since (Table 4-1). -/
structure Stage where
  /-- the stage is in its out-state (Table 4-1) -/
  out : Bool := true
  /-- when the present out-state or in-state began (Table 4-1) -/
  since : Nat := 0
  /-- misses in a row (Table 4-1) -/
  miss : Nat := 0
  /-- hits in a row (Table 4-1) -/
  good : Nat := 0
deriving DecidableEq, Repr

/-- OTN framing of one port (chapter 4). -/
structure Otn where
  /-- the twenty logical lanes (R98) -/
  lanes : List LogicalLane := List.replicate 20 {}
  /-- lane alignment stage (R98) -/
  lane : Stage := {}
  /-- frame alignment stage (R98) -/
  frame : Stage := {}
  /-- multiframe alignment stage (R98) -/
  multi : Stage := {}
  /-- last MFAS received (R98) -/
  mfas : Nat := 0
  /-- transmitted MFAS (Table 4-4) -/
  txMfas : Nat := 0
  /-- transmitted lane marker (Table 4-4) -/
  txMarker : Nat := 0
  /-- active defects, bit n for row n + 1 of Table 4-2 (R99) -/
  defects : Nat := 0
  /-- signal present on both lanes since (R99) -/
  sigSince : Option Nat := none
  /-- when the signal was lost, until the frame stages have gone out for want of it (R98) -/
  lossAt : Option Nat := none
  /-- when each of the two physical lanes lost its signal, until its ten logical lanes have gone out for want of it (R94, R98) -/
  laneLossAt : Tab (Option Nat) := []
  /-- when the client PCS lost lock, until the port goes down for it (R104, R109) -/
  pcsLostAt : Option Nat := none
  /-- BIP-8 of the OPU4 of the last two frames sent, the newer first (Table 4-4) -/
  opuBips : List Byte := []
  /-- since when all-ones have been inserted in place of the ODU (R102) -/
  aisSince : Option Nat := none
  /-- GMP Cm last received (Table 4-4) -/
  cm : Nat := 0
  /-- consecutive frames with STAT AIS, OCI, LCK, and without (R99) -/
  statRun : Tab Nat := []
  /-- consecutive frames with BDI 1 and 0, SM and PM (R99) -/
  bdiRun : Tab Nat := []
  /-- acceptance of the SM TTI (R100) -/
  accSm : Accept := {}
  /-- acceptance of the PM TTI (R100) -/
  accPm : Accept := {}
  /-- acceptance of the payload type (R100) -/
  accPt : Accept := {}
  /-- SM BIP-8 violations of the last frame, to be sent as BEI (Table 4-4) -/
  smBeiTx : Nat := 0
  /-- PM BIP-8 violations of the last frame, to be sent as BEI (Table 4-4) -/
  pmBeiTx : Nat := 0
  /-- IAE received, counted (Table 4-4) -/
  iae : Nat := 0
  /-- BIAE received, counted (Table 4-4) -/
  biae : Nat := 0
  /-- uncorrectable justification controls, counted (Table 4-4) -/
  jcBad : Nat := 0
  /-- client PCS block lock and alignment (R103, R104) -/
  pcsLock : Bool := false
  /-- client local or remote fault (R103, R104) -/
  pcsFault : Bool := true
  /-- performance: SM near, SM far, PM near, PM far (R107) -/
  pm : List PmEnd := List.replicate 4 {}
deriving DecidableEq, Repr

end Sys2Proof.Machine
end

