-- ==== Sys2Proof/State/Sheaf.lean ====
section
/-! DEFINITION. State of the Sheaf links and the twin (14_sheaf_link.md). -/

namespace Sys2Proof.Machine

/-- A message to the twin, as queued (R350). -/
inductive Msg where
  | heartbeat (gate tiller sag rank : Nat)
  | pairing (bs : Bytes)
  | reservation (key seq : Nat)
  | result (key seq : Nat) (granted : Bool)
  | permitCopy (body : Bytes) (st : Nat)
  | consumption (key seq uses : Nat)
  | ack (key seq : Nat)
  | windows (ws : List WindowState)
  | delay (link t1 t2 t3 t4 : Nat)
  | checkpoint (c : Checkpoint)
  | guolo (bs : Bytes)
  | resyncDone (n : Nat)
deriving DecidableEq, Repr

/-- A message sent and not yet acknowledged (R350). -/
structure Sent where
  /-- message number (R350) -/
  num : Nat
  /-- the message -/
  msg : Msg
  /-- when it was last sent (R350) -/
  at_ : Nat
deriving DecidableEq, Repr

/-- One lane of a Sheaf link (R345 to R348). -/
structure SheafLane where
  /-- symbol lock (R345) -/
  lock : Bool := false
  /-- in frame (R348) -/
  inFrame : Bool := false
  /-- expected positions missed in a row (R348) -/
  missed : Nat := 0
  /-- signal present (R349) -/
  signal : Bool := false
  /-- converged in training (R346) -/
  converged : Bool := false
  /-- transmit taps c(−1), c(0), c(1) (R346) -/
  taps : List Int := [0, 0, 0]
  /-- frame-start candidates kept, at most four: symbol position and lane byte (R348) -/
  cands : List (Nat × Nat) := []
  /-- symbol position of the frame start while in frame (R348) -/
  framePos : Nat := 0
  /-- lane byte of the frame start while in frame (R349) -/
  laneByte : Option Nat := none
  /-- equaliser settings of the receiver, an adaptation's result without a layout (R346) -/
  eq : Nat := 0
  /-- pending request of the twin (R79, R346) -/
  pendingReq : Option CoefRequest := none
  /-- time of the last answer to the twin (R79, R346) -/
  lastAnswer : Option Nat := none
  /-- bit errors counted, 48 bits, saturating (R87, R358) -/
  errs : Nat := 0
  /-- the pattern checker has lock (R87, R358) -/
  locked : Bool := false
  /-- when the pattern checker locked (R87, R358) -/
  lockAt : Nat := 0
  /-- power state: 0 active, 1 lane idle, 2 deep rest (R358) -/
  power : Nat := 2
deriving DecidableEq, Repr

/-- One Sheaf link (R349). -/
structure SheafLink where
  /-- lanes 0 to 8 (R344) -/
  lanes : List SheafLane := List.replicate 9 {}
  /-- in service (R349) -/
  up : Bool := false
  /-- header CRCs passed in a row (R349) -/
  crcOk : Nat := 0
  /-- header CRCs failed in a row (R349) -/
  crcBad : Nat := 0
  /-- last heartbeat accepted (R349) -/
  beatAt : Nat := 0
  /-- superframes sent (Table 14-3) -/
  sfNumber : Nat := 0
  /-- last superframe sent (R347) -/
  sentAt : Nat := 0
  /-- last heartbeat sent (R350) -/
  beatSent : Nat := 0
  /-- the twin's pairing was accepted on this link (R353) -/
  paired : Bool := false
  /-- nonce of this side, once its pairing is sent (R352) -/
  nonce : Bytes := []
  /-- nonce of the twin, once received (R352) -/
  twinNonce : Bytes := []
  /-- transmit queue: the slots of the messages, 64 bytes each, oldest first (R350) -/
  txq : List Bytes := []
  /-- when the present training attempt began (R346) -/
  attemptAt : Option Nat := none
  /-- last training frames sent (R346) -/
  trainAt : Nat := 0
  /-- coefficient requests received in the attempt (R346) -/
  requests : Nat := 0
  /-- when the next training attempt is due (R346) -/
  retryAt : Option Nat := none
  /-- last training-failed event (R346) -/
  failEventAt : Option Nat := none
  /-- one-way delay measured, ns (R356) -/
  delay : Int := 0
  /-- last delay exchange sent (R356) -/
  delayAt : Nat := 0
deriving DecidableEq, Repr

/-- The links and the twin. -/
structure Sheaf where
  /-- SH0 and SH1 (R344) -/
  links : Tab SheafLink := []
  /-- twin state: 0 absent, 1 present, 2 lost (R353) -/
  twin : Nat := 0
  /-- serial number of the twin (R352) -/
  twinSerial : Nat := 0
  /-- pair rank of this device (R352) -/
  rank : Nat := 0
  /-- last heartbeat accepted on either link (R353) -/
  beatAt : Nat := 0
  /-- next message number to send (R350) -/
  txNum : Nat := 1
  /-- highest message number received without a gap (R350) -/
  rxNum : Nat := 0
  /-- messages kept until a gap is filled, by number (R350) -/
  early : List (Nat × Msg) := []
  /-- messages not covered by the twin's ack (R350) -/
  unacked : List Sent := []
  /-- the twin's heartbeat: gate shut (R350) -/
  twinGate : Bool := false
  /-- the twin's heartbeat: Tiller state (R350) -/
  twinTiller : Nat := 0
  /-- the twin's heartbeat: sag level (R350) -/
  twinSag : Nat := 0
  /-- angle offset of the twin at the last header, au (R356) -/
  angleOffset : Int := 0
  /-- cycle offset of the twin at the last header (R356) -/
  cycleOffset : Int := 0
  /-- the twin's cycle number, counted at the reference phase, at the last header (R356) -/
  twinCycle : Option Nat := none
  /-- round trip measured, ns (R356) -/
  roundTrip : Nat := 0
  /-- checkpoint store, oldest first, up to 2,097,152 (R355) -/
  store : List Checkpoint := []
  /-- checkpoints waiting to be sent, up to 65,536 (R355) -/
  outq : List Checkpoint := []
  /-- checkpoints dropped (R355) -/
  dropped : Nat := 0
  /-- when the last checkpoint was sent (R355, R357) -/
  checkpointAt : Nat := 0
  /-- checkpoints of the pairs held at the twin's return, still to be sent (R357) -/
  resyncLeft : List Checkpoint := []
  /-- checkpoints sent since the twin returned (R357) -/
  resync : Nat := 0
  /-- the resync done message has still to be sent (R357) -/
  resyncOn : Bool := false
  /-- a window merge is in progress (R285) -/
  merging : Bool := false
  /-- REFCLK_SHEAF present (R467) -/
  refclk : Bool := true
deriving DecidableEq, Repr

end Sys2Proof.Machine
end

