-- ==== Sys2Proof/State/Switch.lean ====
section
/-! DEFINITION. State of the switch core: pools, queues, back-pressure, schedulers, the Chaff sampler and the Straw ring
(12_switch_core.md). -/

namespace Sys2Proof.Machine

/-- A packet buffer pool (R294, R295, R314). -/
structure Pool where
  /-- buffers taken from the pool's stack (R295) -/
  taken : Nat := 0
  /-- of these, buffers named by no live descriptor, not yet seen by an audit (R314) -/
  lostNew : Nat := 0
  /-- buffers that one audit has seen on no stack and in no descriptor (R314) -/
  lostSeen : Nat := 0
  /-- level: 0 green, 1 amber, 2 red, 3 black (R298) -/
  level : Nat := 0
deriving DecidableEq, Repr

/-- XOFF sending of one port and class (R305). -/
structure Xoff where
  /-- XOFF stands, since (R305) -/
  since : Option Nat := none
  /-- last refresh (R305) -/
  sentAt : Nat := 0
  /-- end of the back-off time (R305) -/
  backoff : Option Nat := none
deriving DecidableEq, Repr

/-- Received pause of one port and class (R83). -/
structure PauseRx where
  /-- end of the pause in force (R83) -/
  until_ : Option Nat := none
  /-- how long the class has been held with a frame at its head and its gate open (R83) -/
  held : Nat := 0
  /-- end of the watchdog recovery in force (R83) -/
  recovery : Option Nat := none
  /-- when the watchdog time was reached, until the watchdog trips (R83) -/
  reachedAt : Option Nat := none
deriving DecidableEq, Repr

/-- Scheduler and shaper values of one port and class (R306, R307); the credit is carried forward at every core clock. -/
structure Sched where
  /-- deficit, bytes (R306) -/
  deficit : Nat := 0
  /-- credit of the credit-based shaper, bits times 9·10^9 (R307) -/
  credit : Int := 0
  /-- the angle, with its cycle number, up to which the class is ineligible: the close before which a frame did not fit (R61) -/
  shutTill : Nat := 0
deriving DecidableEq, Repr

/-- The switch core. -/
structure Switch where
  /-- buffer pools A to F (R294) -/
  pools : Tab Pool := []
  /-- egress queues, index 8·port + class: packet IDs, head first (R300) -/
  queues : Tab (List Nat) := []
  /-- XOFF by port and class (R305) -/
  xoff : Tab Xoff := []
  /-- frames still being received whose packet has left: packet, port, hint and bytes (R310) -/
  receiving : Tab (Nat × Nat × Bytes) := []
  /-- received pause by port and class (R83) -/
  paused : Tab PauseRx := []
  /-- scheduler values by port and class (R306) -/
  sched : Tab Sched := []
  /-- last buffer audit (R314) -/
  auditAt : Nat := 0
  /-- samples staged in the sample pool, oldest first: packet, and the records of Table 12-5 and of Table 12-4 (R318) -/
  staged : List (Nat × Bytes) := []
  /-- next sample sequence (R318) -/
  sampleSeq : Nat := 0
  /-- row sample requests counted by slice for N_row (R317) -/
  rowReq : Tab Nat := []
  /-- samples taken in the present second (R317) -/
  sampleCount : Nat := 0
  /-- when the present second of samples began (R317) -/
  sampleSec : Nat := 0
  /-- Straw records by slot (R320) -/
  straw : Tab Bytes := []
  /-- next Straw index (R320) -/
  strawNext : Nat := 0
  /-- first index of the present ring, after a restart (R340) -/
  strawBase : Nat := 0
  /-- Straw records written in the present second (R320) -/
  strawCount : Nat := 0
  /-- when the present second of Straw records began (R320) -/
  strawSec : Nat := 0
deriving DecidableEq, Repr

end Sys2Proof.Machine
end

