-- ==== Sys2Proof/State/Tiller.lean ====
section
/-! DEFINITION. State of Tiller: cycle angle, TAI time, gate lists and ingress windows (02_tiller_timebase.md). -/

namespace Sys2Proof.Machine

/-- The Tiller states of Table 2-1 (R40), coded 0 to 4 in order. -/
inductive TillerState where
  | synthetic
  | slewing
  | locked
  | holdover
  | expired
deriving DecidableEq, Repr

/-- Peer-delay state of one port (R53): times in ns. -/
structure PtpPort where
  /-- measured mean path delay, ns (R53) -/
  delay : Int := 0
  /-- transmit time of the peer-delay request in flight, ns (R53) -/
  t1 : Nat := 0
  /-- remote receipt time, ns (R53) -/
  t2 : Nat := 0
  /-- local receipt time of the response, ns (R53) -/
  t4 : Nat := 0
  /-- correction that the last response carried (R53) -/
  respCorr : Int := 0
  /-- the last two-step sync: its sequence, its local receipt time and the correction that it carried (R53) -/
  syncAt : Option (Nat × Nat × Int) := none
  /-- data set of the last announce received, and when it came, ninths of ns (R53) -/
  foreign : Option (PtpClock × Nat) := none
  /-- sequence number of the next messages that the port sends (R53) -/
  seq : Nat := 0
deriving DecidableEq, Repr

/-- Tiller: the angle scale and the TAI scale. -/
structure Tiller where
  /-- Tiller state, 3 bits (R40, R41) -/
  st : TillerState := .synthetic
  /-- phase accumulator with its cycle number: 48 cycle bits, 16 angle bits, 40 fraction bits (R37) -/
  phase : Nat := 0
  /-- the accumulator has been loaded (R41) -/
  loaded : Bool := false
  /-- tracked, frozen or nominal frequency that the output rate follows, in nHz (R40, R44) -/
  freq : Nat := 50000000000
  /-- rate of change of frequency, nHz per second (R46) -/
  rate : Int := 0
  /-- difference still to be corrected by slewing, target minus output, in 2^-40 au (R47, R49) -/
  gap : Int := 0
  /-- signed angle error measured at the last accepted edge, au (R46) -/
  error : Int := 0
  /-- phase of the estimate less the output angle at the last accepted edge, 1/256 au (Table 16-6) -/
  estPhase : Int := 0
  /-- time of the last edge, ninths of ns (R43) -/
  lastEdge : Option Nat := none
  /-- time of the last accepted edge (R42) -/
  lastAccepted : Option Nat := none
  /-- consecutive rejections (R42) -/
  rejected : Nat := 0
  /-- times of recent edges for the chatter test (R43) -/
  recent : List Nat := []
  /-- qualification: anchor seen (R48) -/
  anchored : Bool := false
  /-- qualification: accepted edges after the anchor (R48) -/
  qualCount : Nat := 0
  /-- qualification: shadow frequency estimate in nHz (R48) -/
  shadow : Nat := 50000000000
  /-- qualification: shadow rate of change, nHz per second (R48) -/
  shadowRate : Int := 0
  /-- stuck and lapse time as it stood at the last edge, in multiples of T (R43, R69) -/
  stuckMul : Nat := 2
  /-- reference delay compensation as it stood at the last edge, ns (R42, R69) -/
  refDelay : Nat := 0
  /-- the last two periods of accepted edges, ns, newest first (R46) -/
  periods : List Nat := []
  /-- edge jitter of the reference as the loop filters it, 2^-40 au (R46) -/
  jitter : Nat := 72057594037927936
  /-- last holdover cause code of Table 2-2, 0 before the first (R44) -/
  cause : Nat := 0
  /-- time of holdover entry (R45) -/
  holdAt : Nat := 0
  /-- the loop follows the twin's angle (R356) -/
  followsTwin : Bool := false
  /-- CYC_OUT level (R66, R68) -/
  cycOut : Bool := false
  /-- PPS_OUT level (R67, R68) -/
  ppsOut : Bool := false
  /-- time of the last PPS_OUT rise (R67) -/
  ppsRose : Nat := 0
  /-- TAI second after whose boundary PPS_OUT last rose (R67) -/
  ppsSec : Option Nat := none
  /-- TAI seconds, 48 bits (R52) -/
  taiSec : Nat := 0
  /-- TAI nanoseconds, 0 to 999,999,999 (R52) -/
  taiNs : Nat := 0
  /-- TAI sub-nanosecond part in ninths (R52) -/
  taiFrac : Nat := 0
  /-- frequency trim, 10^-9 ninths of ns per core clock (R52) -/
  taiTrim : Int := 0
  /-- accumulated correction in ninths of ns times 10^9 (R52) -/
  taiTrimAcc : Int := 0
  /-- TAI phase still to be slewed, 10^-9 ninths of ns (R52) -/
  taiSlew : Int := 0
  /-- tai_state of Table 2-5: 0 to 4 (R56) -/
  taiState : Nat := 1
  /-- a TAI source has qualified since reset (R52) -/
  taiQualified : Bool := false
  /-- PTP source qualified (R52) -/
  ptpOk : Bool := false
  /-- time of the last PTP sync that came with its time, ninths of ns (R52) -/
  ptpAt : Nat := 0
  /-- TAI less PTP at that sync, ns, from which 1PPS takes its seconds (R52) -/
  ptpOffset : Int := 0
  /-- 1PPS source qualified (R52) -/
  ppsOk : Bool := false
  /-- time of the last edge of PPS_IN, ninths of ns (R52) -/
  ppsAt : Nat := 0
  /-- TIME_REF present (R467) -/
  timeRef : Bool := true
  /-- TAI less its best source at the last comparison, ns (Table 16-6) -/
  taiOffset : Int := 0
  /-- UTC offset that PTP announces, s (R52) -/
  utcOffset : Int := 0
  /-- grandmaster ID and total time inaccuracy of the master's announce (R53) -/
  gmId : Nat := 0
  inaccuracy : Nat := 0
  /-- PTP port state by port (R53) -/
  ptp : Tab PtpPort := []
  /-- CYC_REF is ignored: a mode is forced (R51) -/
  ignoring : Bool := false
deriving DecidableEq, Repr

/-- A gate-list entry (Table 2-7). -/
structure GateEntry where
  /-- start angle, 16 bits (Table 2-7) -/
  start : Nat := 0
  /-- open classes, bit n for TCn (Table 2-7) -/
  opens : Nat := 255
  /-- guard bit (Table 2-7) -/
  guarded : Bool := true
deriving DecidableEq, Repr

/-- An ingress window descriptor (R62). -/
structure Window where
  /-- windows per cycle N, 16 bits (R62) -/
  n : Nat
  /-- offset in au, 16 bits (R62) -/
  offset : Nat
  /-- width in au, 16 bits (R62) -/
  width : Nat
  /-- frames allowed per window, 8 bits (R62) -/
  limit : Nat
  /-- 0 discard, 1 reclass, 2 count (R62) -/
  action : Nat
  /-- class of a reclass (R62) -/
  tc : Nat
  /-- Tiller states in which the window is enforced (R62) -/
  mask : Nat
deriving DecidableEq, Repr

/-- Frames counted in the present window of a descriptor in a slice (R63). -/
structure WindowUse where
  /-- window opening that the count belongs to: cycle · N + k (R63) -/
  opening : Nat := 0
  /-- frames counted in it (R63) -/
  count : Nat := 0
deriving DecidableEq, Repr

/-- Gate lists and windows. -/
structure Schedules where
  /-- gate-list banks, index 2·port + bank, up to 256 entries each; empty opens all gates (R59) -/
  banks : Tab (List GateEntry) := []
  /-- bank that each epoch selects, per port; bank 0 from reset (R60) -/
  bankSel : Tab (Ver Nat) := []
  /-- commit time of a superseded bank not yet free, per port (R60, R177) -/
  bankBusy : Tab Nat := []
  /-- window descriptor that each flow profile names; no record of Table 16-5 has a field for the name (R62) -/
  profileWindow : Tab (Option Nat) := []
  /-- frames in the present window: index 4,096·slice + descriptor (R63) -/
  windowUse : Tab WindowUse := []
deriving DecidableEq, Repr

end Sys2Proof.Machine
end

