-- ==== Sys2Proof/State/Trust.lean ====
section
/-! DEFINITION. State of trust, boot and updates (18_trust_boot_and_updates.md), power and the keeper domain
(19_power_sag_and_service_life.md), and the counters (20_counters.md). -/

namespace Sys2Proof.Machine

/-- OTP that changes in service (Table 18-1); the factory items are constants of Config. -/
structure Otp where
  /-- Larzenu key revocation, 4 bits (Table 18-1) -/
  revoked : Nat := 0
  /-- rollback counters: firmware, microcode patch, key-ring epoch, succession, 0 to 255 each (Table 18-1) -/
  rollback : List Nat := [0, 0, 0, 0]
  /-- keeper epoch, 0 to 255 (Table 18-1) -/
  keeperEpoch : Nat := 0
  /-- owner-key store: slot, in use, key, in order of writing, up to 260 rows (Table 18-1) -/
  rows : List (Nat × Bool × Bytes) := []
  /-- owned bit (Table 18-1) -/
  owned : Bool := false
  /-- succeeded bit (R425) -/
  succeeded : Bool := false
deriving DecidableEq, Repr

/-- An image slot of the flash (Table 18-2). -/
structure FlashSlot where
  /-- image of type 1, with its header -/
  image : Bytes := []
  /-- patch set of type 2, with its header -/
  patch : Bytes := []
deriving DecidableEq, Repr

/-- The flash (R409). -/
structure Flash where
  /-- boot record 0: seq, preferred, trial, CRC correct (Table 18-3) -/
  rec0 : Nat × Nat × Nat × Bool := (0, 0, 0, true)
  /-- boot record 1: seq, preferred, trial, CRC correct (Table 18-3) -/
  rec1 : Nat × Nat × Nat × Bool := (0, 0, 0, false)
  /-- Scemas slot A with its patch slot (Table 18-2) -/
  slotA : FlashSlot := {}
  /-- Scemas slot B with its patch slot (Table 18-2) -/
  slotB : FlashSlot := {}
deriving DecidableEq, Repr

/-- A firmware switchover in progress (R419). -/
structure Switchover where
  /-- target slot -/
  slot : Nat
  /-- the 192 header bytes of the target image (Table 18-4) -/
  header : Bytes
  /-- mailboxes are quiesced, since (R419) -/
  quiesced : Option Nat := none
deriving DecidableEq, Repr

/-- Trust and boot. -/
structure Trust where
  /-- OTP (R408) -/
  otp : Otp := {}
  /-- flash (R409) -/
  flash : Flash := {}
  /-- slot that runs: 0 A, 1 B (R413) -/
  running : Nat := 0
  /-- FIRMWARE register, 32 bits; major 0 while the boot ROM runs (Table 15-3) -/
  firmware : Nat := 0
  /-- STATUS ready (Table 15-4) -/
  ready : Bool := false
  /-- recovery under the boot ROM: 0 none, 1 recovery of R414, 2 stopped by R412 or R466 -/
  recovery : Nat := 0
  /-- security version of the running image (R421) -/
  imageSv : Nat := 0
  /-- attestation log, oldest first, up to 4,096 entries of 128 bytes (R421) -/
  log : List Bytes := []
  /-- running value, 64 bytes (R421) -/
  running512 : Bytes := List.replicate 64 0
  /-- entries folded into the running value (R421) -/
  folded : Nat := 0
  /-- switchover in progress (R419) -/
  switchover : Option Switchover := none
  /-- STRAP0 to STRAP3 as sampled (R466) -/
  straps : Nat := 0
deriving DecidableEq, Repr

/-- The keeper domain (R431). -/
structure Keeper where
  /-- RTC seconds, TAI (R432) -/
  rtc : Nat := 0
  /-- RTC sub-second count, 15 bits (R432) -/
  sub : Nat := 0
  /-- seed-valid flag (R431) -/
  seed : Bool := false
  /-- boot counter (R413) -/
  boot : Nat := 0
  /-- index and SHA-512 of the last ledger record written (R287) -/
  tail : Option (Nat × Bytes) := none
  /-- tamper latch: source, 0 clear (R423) -/
  tamper : Nat := 0
  /-- sag record, 64 bytes (R439) -/
  sag : Bytes := List.replicate 64 0
  /-- keeper state lost since the last start (R433) -/
  lost : Bool := false
  /-- VKEEP present (R433) -/
  vkeep : Bool := true
  /-- the crystal runs (R467) -/
  xtal : Bool := true
deriving DecidableEq, Repr

/-- Power and sag. -/
structure Power where
  /-- VCORE setpoint, mV (R430) -/
  vcore : Nat := 750
  /-- PMBus transactions unacknowledged in a row (R430) -/
  pmbusFails : Nat := 0
  /-- rail flag pmbus_lost (R430) -/
  pmbusLost : Bool := false
  /-- last step of the setpoint (R430) -/
  vcoreAt : Nat := 0
  /-- SAG_WARN[2:0] as deglitched (R434) -/
  sagWarn : Nat := 0
  /-- level requested by each rail monitor, by its place in Table 19-2: 0 VCORE, 1 VSRAM, 2 VSERDES_A, 3 VSERDES_H, 4 DDR5 (R434) -/
  monitors : Tab Nat := []
  /-- sag level in force (R434) -/
  level : Nat := 0
  /-- trigger code that last raised the level (R443) -/
  trigger : Nat := 0
  /-- deepest level of the present episode (R439) -/
  deepest : Nat := 0
  /-- trigger of the deepest level (R439) -/
  deepTrigger : Nat := 0
  /-- stamp of the deepest level (R439) -/
  deepStamp : Stamp := {}
  /-- the VCORE monitor has requested a level in the present episode (R439) -/
  vcoreOut : Bool := false
  /-- when level 2 was entered, for the shed ranks (R436) -/
  level2At : Nat := 0
  /-- end of the release hold, while the request is lower (R441) -/
  releaseAt : Option Nat := none
  /-- level-5 entry time (R437) -/
  level5At : Option Nat := none
  /-- held packets discarded at step 2 (R437, R439) -/
  heldShut : Nat := 0
  /-- the final sealed record has been written (R438) -/
  closed : Bool := false
  /-- triggers clear since, at level 5 (R441) -/
  clearSince : Option Nat := none
  /-- THERM_N asserted (R444) -/
  therm : Bool := false
  /-- highest sensor reading, °C (R444) -/
  temp : Int := 25
deriving DecidableEq, Repr

/-- The counters (R450 to R457). -/
structure Counters where
  /-- fixed and programmable counters by identifier without its snapshot bit: 63-bit count and wrap bit (R450) -/
  live : Tab Nat := []
  /-- the counters as they stood when the present core clock began, which a snapshot copies (R457) -/
  start : Tab Nat := []
  /-- the snapshot's copies (R457) -/
  snap : Tab Nat := []
  /-- stamp block of the snapshot clock (R458) -/
  snapStamp : Option Stamp := none
  /-- a snapshot is armed, for the next clock or for an angle stamp (R457) -/
  armed : Option (Option Nat) := none
  /-- when it was armed (R457) -/
  armedAt : Nat := 0
  /-- programmable counters are frozen (R456) -/
  frozen : Bool := false
  /-- period registers, 8·slice + counter; absent while it stands at N (R454) -/
  period : Tab Nat := []
  /-- expiries of the period registers that are still to be reported or counted, oldest first: time and output angle stamp (R454) -/
  expired : Tab (List (Nat × Nat)) := []
  /-- captures waiting, by 8·slice + counter: time and output angle stamp of the expiry (R454) -/
  capture : Tab (Nat × Nat) := []
  /-- expiries not reported, by slice (R455) -/
  suppressed : Tab Nat := []
  /-- when the counter-overflow events of the last second were let go, by slice (R455) -/
  raised : Tab (List Nat) := []
deriving DecidableEq, Repr

end Sys2Proof.Machine
end

