-- ==== Sys2Proof/Machine/State.lean ====
section
/-! DEFINITION. The state of the device, its reset value, and the names of what stops it. -/

namespace Sys2Proof.Machine

/-- The state of the TLH-9600: everything the spec gives the device, the queue of commands that wait, and what has left it. -/
structure State where
  /-- commands waiting, first in, first out; the model's own field (the block has no program) -/
  pending : List Instr := []
  /-- what has left the device, newest first; the model's own field -/
  outbox : List Output := []
  /-- free values drawn so far; the model's own field (assumption 2) -/
  fresh : Nat := 0
  /-- time since reset in ninths of a nanosecond: a core clock of 1.8 GHz is 5, a nanosecond is 9 (R11, R37) -/
  now : Nat := 0
  /-- settings written by settings commands; unwritten ones read their default (R16) -/
  settings : Settings := []
  /-- Tiller, chapter 2 -/
  tiller : Tiller := {}
  /-- gate lists and ingress windows, chapter 2 -/
  sched : Schedules := {}
  /-- line ports P00 to P95, chapter 3 -/
  ports : Tab Port := []
  /-- line lanes L000 to L191, chapter 3 -/
  lanes : Tab Lane := []
  /-- in-place recalibration, chapter 3 -/
  recal : Recal := {}
  /-- REFCLK_LINE inputs that are absent (R75, R467) -/
  refclkLost : List Nat := []
  /-- OTN framing by port, chapter 4 -/
  otn : Tab Otn := []
  /-- bridging and aggregation, chapter 5 -/
  bridge : Bridge := {}
  /-- flow table, chapter 6 -/
  flow : Flow := {}
  /-- bales, epoch and configuration objects, chapter 7 -/
  bales : Bales := {}
  /-- engines and control store, chapter 8 -/
  eng : Engines := {}
  /-- flow services, chapter 9 -/
  svc : Services := {}
  /-- match array, chapter 10 -/
  matcher : MatchArray := {}
  /-- Awn engines, chapter 10 -/
  awn : Awn := {}
  /-- Glume gate, chapter 11 -/
  gate : Gate := {}
  /-- command ledger, chapter 11 -/
  ledger : Ledger := {}
  /-- packets in the device by packet number -/
  packets : Tab Packet := []
  /-- next packet number, in order of arrival -/
  nextPkt : Nat := 0
  /-- switch core, chapter 12 -/
  core : Switch := {}
  /-- memory systems, chapter 13 -/
  mem : Memory := {}
  /-- Sheaf links and twin, chapter 14 -/
  sheaf : Sheaf := {}
  /-- host interface, chapter 15 -/
  host : HostIf := {}
  /-- fault controller, chapter 17 -/
  fault : FaultCtl := {}
  /-- trust and boot, chapter 18 -/
  trust : Trust := {}
  /-- keeper domain, chapter 19 -/
  keeper : Keeper := {}
  /-- power and sag, chapter 19 -/
  power : Power := {}
  /-- counters, chapter 20 -/
  cnt : Counters := {}
deriving DecidableEq, Repr

/-- The device right after reset: every field at the value that the spec, or the log entry of its line in INVENTORY.md, gives. -/
def State.reset : State := {}

/-- What stops the device because the spec gives the happening no effect at all. -/
inductive Fault where
  /-- Never raised: every command of the table has an effect in every state. Safe. -/
  | neverRaised
deriving DecidableEq, Repr

/-- What the model declines to say. -/
inductive Refusal where
  /-- A command that has no meaning yet, by its mnemonic; raised by Dispatch only. Safe. -/
  | notModelled (mnemonic : String)
deriving DecidableEq, Repr

end Sys2Proof.Machine
end

