-- ==== Sys2Proof/Machine/Ops.lean ====
section
/-! DEFINITION. The named operations over the state that the commands share: access to the parts, time and stamps, free values,
counters, events, interrupts, DMA and the ledger queue. -/

namespace Sys2Proof.Machine

/-- What a command answers. -/
abbrev Res := Host.Outcome State Fault Refusal

/-- The command has been carried out, and the device stands in `s`. -/
def done (s : State) : Res := .next s

/-! ### Parts of the state -/

/-- Port `p`. -/
def State.port (s : State) (p : Nat) : Port := Tab.get {} s.ports p
/-- Puts port `p`. -/
def State.setPort (s : State) (p : Nat) (x : Port) : State := { s with ports := Tab.put {} s.ports p x }
/-- Changes port `p`. -/
def State.modPort (s : State) (p : Nat) (f : Port → Port) : State := s.setPort p (f (s.port p))
/-- Lane `l`. -/
def State.lane (s : State) (l : Nat) : Lane := Tab.get {} s.lanes l
/-- Puts lane `l`. -/
def State.setLane (s : State) (l : Nat) (x : Lane) : State := { s with lanes := Tab.put {} s.lanes l x }
/-- Changes lane `l`. -/
def State.modLane (s : State) (l : Nat) (f : Lane → Lane) : State := s.setLane l (f (s.lane l))
/-- OTN framing of port `p`. -/
def State.otnOf (s : State) (p : Nat) : Otn := Tab.get {} s.otn p
/-- Puts the OTN framing of port `p`. -/
def State.setOtn (s : State) (p : Nat) (x : Otn) : State := { s with otn := Tab.put {} s.otn p x }
/-- MAC table of slice `k`. -/
def State.mac (s : State) (k : Nat) : MacTable := Tab.get {} s.bridge.macs k
/-- Puts the MAC table of slice `k`. -/
def State.setMac (s : State) (k : Nat) (x : MacTable) : State :=
  { s with bridge := { s.bridge with macs := Tab.put {} s.bridge.macs k x } }
/-- Aggregation group `g`. -/
def State.lag (s : State) (g : Nat) : Lag := Tab.get {} s.bridge.lags g
/-- Puts aggregation group `g`. -/
def State.setLag (s : State) (g : Nat) (x : Lag) : State :=
  { s with bridge := { s.bridge with lags := Tab.put {} s.bridge.lags g x } }
/-- Packet `n`, if it is in the device. -/
def State.pkt? (s : State) (n : Nat) : Option Packet := Tab.find? s.packets n
/-- Puts packet `n`. -/
def State.setPkt (s : State) (n : Nat) (x : Packet) : State := { s with packets := Tab.insert s.packets n x }
/-- Memory unit `u`. -/
def State.munit (s : State) (u : Nat) : MemUnit := Tab.get {} s.mem.units u
/-- Puts memory unit `u`. -/
def State.setUnit (s : State) (u : Nat) (x : MemUnit) : State :=
  { s with mem := { s.mem with units := Tab.put {} s.mem.units u x } }
/-- Sheaf link `n`. -/
def State.link (s : State) (n : Nat) : SheafLink := Tab.get {} s.sheaf.links n
/-- Puts Sheaf link `n`. -/
def State.setLink (s : State) (n : Nat) (x : SheafLink) : State :=
  { s with sheaf := { s.sheaf with links := Tab.put {} s.sheaf.links n x } }
/-- Mailbox registers of MBn. -/
def State.mbRegs (s : State) (n : Nat) : MbRegs := Tab.get {} s.host.mbs n
/-- Puts mailbox registers. -/
def State.setMbRegs (s : State) (n : Nat) (x : MbRegs) : State :=
  { s with host := { s.host with mbs := Tab.put {} s.host.mbs n x } }
/-- DMA ring `r`. -/
def State.ringOf (s : State) (r : Nat) : RingRegs := Tab.get {} s.host.rings r
/-- Puts DMA ring `r`. -/
def State.setRing (s : State) (r : Nat) (x : RingRegs) : State :=
  { s with host := { s.host with rings := Tab.put {} s.host.rings r x } }
/-- Mailbox MBn. -/
def State.box (s : State) (n : Nat) : Mailbox := Tab.get {} s.host.boxes n
/-- Puts mailbox MBn. -/
def State.setBox (s : State) (n : Nat) (x : Mailbox) : State :=
  { s with host := { s.host with boxes := Tab.put {} s.host.boxes n x } }
/-- Buffer pool `i`. -/
def State.poolOf (s : State) (i : Nat) : Pool := Tab.get {} s.core.pools i
/-- Puts buffer pool `i`. -/
def State.setPool (s : State) (i : Nat) (x : Pool) : State :=
  { s with core := { s.core with pools := Tab.put {} s.core.pools i x } }
/-- Egress queue 8·port + class, head first. -/
def State.queueOf (s : State) (q : Nat) : List Nat := Tab.get [] s.core.queues q
/-- Puts an egress queue. -/
def State.setQueue (s : State) (q : Nat) (x : List Nat) : State :=
  { s with core := { s.core with queues := Tab.put [] s.core.queues q x } }
/-- Translation pool `n`'s allocator. -/
def State.alloc (s : State) (n : Nat) : PoolAlloc := Tab.get {} s.svc.pools n
/-- Puts a translation pool's allocator. -/
def State.setAlloc (s : State) (n : Nat) (x : PoolAlloc) : State :=
  { s with svc := { s.svc with pools := Tab.put {} s.svc.pools n x } }

/-! ### Settings, time and free values -/

/-- Field `k` of setting `id` for target `idx`. -/
def State.sn (s : State) (id : Nat) (idx : Nat := 0) (k : Nat := 0) : Nat := s.settings.nat id idx k
/-- Field `k` of setting `id` for target `idx`, signed. -/
def State.si (s : State) (id : Nat) (idx : Nat := 0) (k : Nat := 0) : Int := s.settings.int id idx k
/-- Field `k` of an on/off setting. -/
def State.son (s : State) (id : Nat) (idx : Nat := 0) (k : Nat := 0) : Bool := s.sn id idx k != 0

/-- A time of `n` ns in the state's units. -/
def ns (n : Nat) : Nat := 9 * n
/-- A core clock in the state's units. -/
def clk : Nat := 5
/-- A span of the state's units in whole ns. -/
def toNs (n : Nat) : Nat := n / 9
/-- A microsecond, millisecond and second in the state's units. -/
def us (n : Nat) : Nat := ns (1000 * n)
def ms (n : Nat) : Nat := ns (1000000 * n)
def sec (n : Nat) : Nat := ns (1000000000 * n)

/-- The next free value, and the state that has drawn it (assumption 2). -/
def State.draw (s : State) : W64 × State := (Config.freeWord s.fresh, { s with fresh := s.fresh + 1 })
/-- `n` free bytes. -/
def State.drawBytes (s : State) (n : Nat) : Bytes × State :=
  ((List.range n).map (fun i => (Config.freeWord (s.fresh + i)).truncate 8), { s with fresh := s.fresh + n })

/-- The slice of a port (R4). -/
def sliceOf (p : Nat) : Nat := p / 12

/-- State code of Tiller (Table 2-1). -/
def TillerState.code : TillerState → Nat
  | .synthetic => 0
  | .slewing => 1
  | .locked => 2
  | .holdover => 3
  | .expired => 4

/-- State code of a port (Table 3-2). -/
def PortState.code : PortState → Nat
  | .disabled => 0
  | .deepRest => 1
  | .laneIdle => 2
  | .negotiating => 3
  | .training => 4
  | .up => 5
  | .damped => 6
  | .suspended => 7
  | .test => 8

/-- A port is in the up state of Table 3-2: its link is up, and neither damping nor a slice reset holds it (R76, R82, R401). -/
def Port.isUp (p : Port) : Bool := p.st == .up && !p.isDamped && !p.sliceDown
/-- The state that a port reports (R76, R81, R82, R401). -/
def Port.shown (p : Port) : PortState :=
  if p.sliceDown then .suspended else match p.st with
  | .disabled | .deepRest | .laneIdle | .test => p.st
  | st => if p.isDamped then .damped else st

/-- The output angle stamp now: cycle number and angle (R37, R54). -/
def State.angle (s : State) : Nat := (s.tiller.phase >>> 40) % 2 ^ 64
/-- The quality byte (Table 2-5). -/
def State.quality (s : State) : Nat := 16 * s.tiller.taiState + s.tiller.st.code
/-- The stamp block now (R55). -/
def State.stamp (s : State) : Stamp := ⟨s.angle, s.tiller.taiSec, s.tiller.taiNs, s.quality⟩
/-- The 24 bytes of a stamp block (Table 2-4). -/
def Stamp.bytes (t : Stamp) : Bytes :=
  natLe 8 t.angle ++ natLe 4 t.ns ++ natLe 6 t.sec ++ natLe 1 t.quality ++ List.replicate 5 0
/-- TAI time of a stamp in ns since the PTP epoch (Table 6-2). -/
def Stamp.tai (t : Stamp) : Nat := t.sec * 1000000000 + t.ns

/-- A routine of service engine `n` of slice `k` runs: it has not yielded, and the engine that runs it is in service and has not stopped at a bad
word (R201, R202, Table 8-7). -/
def State.svRuns (s : State) (k n : Nat) : Bool :=
  let x := Tab.get ({ runsOn := n } : Service) s.eng.services (4 * k + n)
  let i := 128 * k + 64 + x.runsOn
  !x.yielded && Tab.get 0 s.eng.state i == 0 && !s.eng.stopped.any (fun y => y.1 == i)
/-- A slice's service engines run background routines (R151, R201). -/
def State.sweeps (s : State) (k : Nat) : Bool :=
  (List.range 4).any (s.svRuns k) && !s.fault.drain.any (fun d => d.slice == k && d.drained)

/-- A safe point of the routine of service engine `n` of slice `k`: the engine writes its registers, its call stack of up to four
addresses and the next word to the continuation block. What they hold in a Larzenu routine is free (R193, R202, assumption 34). -/
def State.checkpoint (s : State) (k n : Nat) (yields : Bool) : State :=
  let old := Tab.get ({ runsOn := n } : Service) s.eng.services (4 * k + n)
  let regs : Tab W64 := (List.range 31).map (fun j => (j + 1, Config.freeWord (s.fresh + j)))
  let next := (Config.freeWord (s.fresh + 31)).toNat % 12288
  let stack := (List.range ((Config.freeWord (s.fresh + 32)).toNat % 5)).map (fun j => (Config.freeWord (s.fresh + 33 + j)).toNat % 12288)
  let x : Service := { old with regs := regs, stack := stack, next := next, pendingInt := false, yielded := yields }
  { s with fresh := s.fresh + 37, eng := { s.eng with services := Tab.insert s.eng.services (4 * k + n) x } }
/-- The word of a change by a service routine of slice `k` is a safe point (R201, R202). DESIGN CHOICE (assumption 229): the change is one
of the lowest service engine whose routine runs. -/
def State.safePoint (s : State) (k : Nat) : State :=
  match (List.range 4).find? (s.svRuns k) with
  | some n => s.checkpoint k n false
  | none => s

/-- The device is owned (R377). -/
def State.owned (s : State) : Bool := s.trust.otp.owned

/-! ### Outputs, interrupts, counters -/

/-- Something leaves the device. -/
def State.emit (s : State) (o : Output) : State := { s with outbox := o :: s.outbox }

/-- Vector of an INT_CAUSE bit, if it has one (R365). -/
def vectorOf (b : Nat) : Option Nat := if b ≤ 10 ∨ b = 12 then some b else none

/-- What word `i` of the MSI-X table reads as while nothing has written it: the vectors are masked (assumption 234). -/
def msixReset (i : Nat) : Nat := if i % 4 = 3 then 1 else 0
/-- Word `i` of the MSI-X table (Table 15-1). -/
def State.msixWord (s : State) (i : Nat) : Nat := Tab.get (msixReset i) s.host.msix i

/-- Vector `v` is signalled; one whose table entry masks it waits in the pending-bit array (R365, Table 15-1; PRESUMED, assumption 234). -/
def State.signal (s : State) (v : Nat) : State :=
  if (s.msixWord (4 * v + 3)).testBit 0 then { s with host := { s.host with pba := s.host.pba ||| (1 <<< v) } }
  else s.emit (.msix v)

/-- INT_CAUSE bit `b` becomes set; its vector is signalled when the bit was clear, INT_MASK enables it, and the interrupt bit `on` of the
mailbox or ring allows it (R365, Tables 15-5 to 15-7, assumption 265). -/
def State.interrupt (s : State) (b : Nat) (on : Bool := true) : State :=
  if s.host.intCause.testBit b then s
  else
    let s' := { s with host := { s.host with intCause := s.host.intCause ||| (1 <<< b) } }
    if s.host.intMask.testBit b && on then
      match vectorOf b with
      | some v => s'.signal v
      | none => s'
    else s'

/-- A counter value: count in [62:0], wrap bit in [63] (R450). -/
def countUp (v n : Nat) : Nat :=
  let c := v % 2 ^ 63 + n
  if c < 2 ^ 63 ∧ v < 2 ^ 63 then c else c % 2 ^ 63 + 2 ^ 63

/-- The identifier of a counter (Table 20-1). -/
def counterId (block idx : Nat) : Nat := block * 2 ^ 24 + idx

/-- Adds `n` to a counter (R450). -/
def State.count (s : State) (block idx : Nat) (n : Nat := 1) : State :=
  { s with cnt := { s.cnt with
      live := Tab.modify 0 s.cnt.live (counterId block idx) (fun v => countUp v n) } }
/-- Adds to count `n` of a port (Table 20-2, block 1). -/
def State.countPort (s : State) (p n : Nat) (k : Nat := 1) : State := s.count 1 (256 * p + n) k
/-- Adds to count `n` of a port and class (block 2). -/
def State.countClass (s : State) (p c n : Nat) (k : Nat := 1) : State := s.count 2 (256 * (8 * p + c) + n) k
/-- Adds to count `n` of a slice (block 4). -/
def State.countSlice (s : State) (k n : Nat) (j : Nat := 1) : State := s.count 4 (256 * k + n) j
/-- Adds to count `n` of a flow profile (block 8). -/
def State.countProfile (s : State) (pr n : Nat) : State := s.count 8 (256 * pr + n)
/-- Adds to count `n` of the device (block 12). -/
def State.countDevice (s : State) (n : Nat) (k : Nat := 1) : State := s.count 12 n k

/-! ### Events -/

/-- Source field of an event (R390): target kind and index. -/
def src (kind idx : Nat) : Nat := kind * 2 ^ 24 + idx
/-- Source field of the device. -/
def srcDevice : Nat := 0xFFFFFFFF

/-- The 64 bytes of an event record (Table 15-8). -/
def EventRec.bytes (e : EventRec) : Bytes :=
  natLe 2 e.code ++ natLe 2 (b2n e.masked) ++ natLe 4 e.source ++ natLe 8 e.index ++ e.stamp.bytes ++ padTo 24 e.body

/-- The event queue of a master (R367). -/
def State.masterQ (s : State) (m : Nat) : MasterQ := Tab.get {} s.host.masters m

/-- An event is lost to the host: it is counted in EVENT_LOST, which sets the event cause (Table 15-2, Table 15-5). -/
def State.hostLost (s : State) (n : Nat := 1) : State :=
  ({ s with host := { s.host with eventLost := (s.host.eventLost + n) % 2 ^ 32 } }).interrupt 8

/-- An event takes its place in a queue: last, but before the events of its source that were raised on the same clock and have a larger code
(Table 16-10). -/
def EventRec.place (e : EventRec) : List EventRec → List EventRec
  | [] => [e]
  | x :: xs => if x.source = e.source ∧ x.at_ = e.at_ ∧ e.code < x.code then e :: x :: xs else x :: e.place xs

/-- An event joins a master's queue, if its group is enabled there; a full queue drops it and counts it (R367). -/
def State.enqueueEvent (s : State) (m : Nat) (e : EventRec) : State :=
  if s.settings.nat 0x0F05 m 0 |>.testBit (e.code / 256) then
    let q := s.masterQ m
    let full := decide (4096 ≤ q.queue.length)
    let q' : MasterQ := if full then { q with lost := q.lost + 1, firstLost := if q.lost = 0 then e.index else q.firstLost }
      else { q with queue := e.place q.queue }
    let s1 := { s with host := { s.host with masters := Tab.put {} s.host.masters m q' } }
    if m = 1 ∧ full then s1.hostLost else s1
  else s

/-- The `n` oldest events of a master's queue leave it; where events were lost, the events-lost event takes the room, with the next device
index, before any later event (R367, assumption 234). -/
def State.popEvents (s : State) (m n : Nat) : State :=
  let q := s.masterQ m
  let rest := q.queue.drop n
  if q.lost = 0 then { s with host := { s.host with masters := Tab.put {} s.host.masters m { q with queue := rest } } }
  else
    let e : EventRec := { code := 0x0101, masked := false, source := srcDevice, index := s.host.eventIndex, stamp := s.stamp
                          body := natLe 4 q.lost ++ natLe 8 q.firstLost, at_ := s.now }
    let q' : MasterQ := { queue := rest ++ [e], lost := 0, firstLost := 0 }
    { s with host := { s.host with
      eventIndex := s.host.eventIndex + 1
      masters := Tab.put {} s.host.masters m q' } }

/-- An event is raised: it takes the next device index and goes to every master with an event path: supervisor, host, and the
twin while it is present (R367). -/
def State.raise (s : State) (code source : Nat) (body : Bytes) (masked : Bool := false) : State :=
  let e : EventRec := { code, masked, source, index := s.host.eventIndex, stamp := s.stamp, body, at_ := s.now }
  let s1 := { s with host := { s.host with eventIndex := s.host.eventIndex + 1 } }
  let s2 := (s1.enqueueEvent 0 e).enqueueEvent 1 e
  if s.sheaf.twin = 1 then s2.enqueueEvent 2 e else s2

/-- An event raised at most once in `gap` of its source, or of part `sub` of it, its body ending in the count of occurrences since the
last one of its code and source (R390). `pre` is the body before the count, `width` the count's bytes, `post` what follows. -/
def State.raiseLimited (s : State) (code source gap : Nat) (pre : Bytes) (width : Nat) (post : Bytes := []) (sub : Nat := 0) : State :=
  let k := code * 2 ^ 32 + source
  let t := k + sub * 2 ^ 48
  let n := Tab.get 0 s.host.eventCount k + 1
  let last := Tab.get 0 s.host.eventAt t
  if last = 0 ∨ last + gap ≤ s.now + 1 then
    let s' := { s with host := { s.host with
      eventCount := Tab.put 0 s.host.eventCount k 0
      eventAt := Tab.put 0 s.host.eventAt t (s.now + 1) } }
    s'.raise code source (pre ++ natLe width n ++ post)
  else { s with host := { s.host with eventCount := Tab.put 0 s.host.eventCount k n } }

/-! ### Faults -/

/-- A fault of a class that its owning rule handles is counted for the fault status (R393, Tables 17-1 and 17-9). -/
def State.noteFault (s : State) (cls : Nat) : State :=
  { s with fault := { s.fault with counts := Tab.modify 0 s.fault.counts cls (fun v => (v + 1) % 2 ^ 64) } }

/-- Scemas runs: a management-core pair is in service (R378, R396). -/
def State.scemasRuns (s : State) : Bool := Tab.get 0 s.fault.mc 0 == 0 || Tab.get 0 s.fault.mc 1 == 0
/-- A firmware switchover has quiesced Scemas (R419). -/
def State.quiesced (s : State) : Bool := s.trust.switchover.any (fun x => x.quiesced.isSome)

/-! ### STATUS -/

/-- FAULT_N is asserted (R400, R412, R414). -/
def State.faultN (s : State) : Bool := s.fault.safe || s.fault.retireN || s.fault.bootN

/-- The STATUS register (Table 15-4). -/
def State.status (s : State) : Nat :=
  b2n s.trust.ready + 8 * b2n s.owned + 16 * b2n s.gate.isShut + 32 * b2n s.fault.safe + 64 * s.power.level +
  512 * s.tiller.st.code + 4096 * s.sheaf.twin + 16384 * b2n s.faultN +
  32768 * b2n s.quiesced

/-- The urgent cause is set when STATUS bits [15:4] have changed (Table 15-5). -/
def State.noteStatus (s : State) : State :=
  let now := s.status / 16
  if now = s.host.lastStatus then s
  else { s with host := { s.host with lastStatus := now } }.interrupt 12

/-! ### Granary regions -/

/-- Bytes of region `i` of the Granary, whose size is held in 1/128 GiB (Table 13-7, R343). -/
def State.regionBytes (s : State) (i : Nat) : Nat := s.mem.regions.getD i 0 * 2 ^ 23

/-! ### The ledger -/

/-- Bytes 0 to 191 of a ledger record (Table 11-12). -/
def LedgerRec.head (r : LedgerRec) (index : Nat) (stamp : Stamp) (prev : Bytes) : Bytes :=
  natLe 8 index ++ natLe 1 r.type ++ natLe 1 r.code ++ natLe 1 r.cause ++ natLe 1 r.flags ++ natLe 2 r.source ++
  natLe 2 r.key ++ natLe 8 r.seq ++ stamp.bytes ++ padTo 40 r.selector ++ padTo 32 r.digest ++ natLe 8 r.detailA ++
  padTo 64 prev

/-- A record joins the ledger queue and the chain (R286 to R288). -/
def State.pushRecord (s : State) (bytes : Bytes) : State :=
  { s with ledger := { s.ledger with
      queue := s.ledger.queue ++ [bytes]
      next := s.ledger.next + 1
      hash := sha512 bytes
      started := true
      sinceSeal := s.ledger.sinceSeal + 1 } }

/-- The ledger queue is full (R288). -/
def State.ledgerFull (s : State) : Bool := decide (8192 ≤ s.ledger.queue.length)

/-- A record joins the queue and the chain, with the identity key's signature over its bytes 0 to 191 if it is sealed (R287, R438). -/
def State.joinLedger (s : State) (x : LateRec) : State :=
  let h := x.rec_.head s.ledger.next x.stamp s.ledger.hash
  let s1 := s.pushRecord (h ++ (if x.sealed then edSign Config.identitySeed h else padTo 64 x.rec_.detailB))
  if x.sealed then { s1 with ledger := { s1.ledger with sinceSeal := 0, sealAt := s.now } } else s1

/-- A record is made; one that finds the queue full waits for room, behind those that wait already (R288, assumption 252). An unowned device
writes none (R287). -/
def State.makeRecord (s : State) (x : LateRec) : State :=
  if !s.owned then s
  else if s.ledgerFull then { s with ledger := { s.ledger with late := s.ledger.late ++ [x] } }
  else s.joinLedger x

/-- The oldest record that waits for room joins the queue when there is some (R288). -/
def State.joinLate (s : State) : State :=
  match s.ledger.late with
  | x :: rest => if s.ledgerFull then s else ({ s with ledger := { s.ledger with late := rest } }).joinLedger x
  | [] => s

/-- A record is written. -/
def State.record (s : State) (r : LedgerRec) : State := s.makeRecord ⟨r, s.stamp, false⟩
/-- A sealed record is written (R287, R438). -/
def State.recordSigned (s : State) (r : LedgerRec) : State := s.makeRecord ⟨r, s.stamp, true⟩

end Sys2Proof.Machine
end

