-- ==== Sys2Proof/Machine/Objects.lean ====
section
/-! DEFINITION. Configuration objects and their versions (R30, R171): the key of an object, the version an epoch selects, and the
typed views of the records of Table 16-5. -/

namespace Sys2Proof.Machine

/-- Kinds of objects that bales touch (Table 7-3). -/
inductive ObjKind where
  | gateList
  | window
  | staticMac
  | vlan
  | routerMac
  | route
  | nextHop
  | multipath
  | lag
  | matchRow
  | matchBank
  | flowProfile
  | flowRecord
  | region
  | lbGroup
  | lbMember
  | transPool
  | gateProfile
  | key
  | permit
  | pattern
  | microcode
  | gateState
  | setting
deriving DecidableEq, Repr

/-- Number of a kind. -/
def ObjKind.num : ObjKind → Nat
  | .gateList => 1
  | .window => 2
  | .staticMac => 3
  | .vlan => 4
  | .routerMac => 5
  | .route => 6
  | .nextHop => 7
  | .multipath => 8
  | .lag => 9
  | .matchRow => 10
  | .matchBank => 11
  | .flowProfile => 12
  | .flowRecord => 13
  | .region => 14
  | .lbGroup => 15
  | .lbMember => 16
  | .transPool => 17
  | .gateProfile => 18
  | .key => 19
  | .permit => 20
  | .pattern => 21
  | .microcode => 22
  | .gateState => 23
  | .setting => 24

/-- Key of an object: its kind and its own key, below 2^400. -/
def objKey (k : ObjKind) (i : Nat) : Nat := k.num * 2 ^ 400 + i

/-- The version that epoch `e` selects: the last that applies from `e` or before (R30). -/
def verAt {α : Type} (v : Ver α) (e : Nat) : Option α :=
  match v.reverse.find? (fun x => decide (x.1 ≤ e)) with
  | some x => x.2
  | none => none

/-- The newest version. -/
def verNow {α : Type} (v : Ver α) : Option α :=
  match v.getLast? with
  | some x => x.2
  | none => none

/-- A new version from epoch `e`; a version of the same epoch is replaced (R171: one new version per bale). -/
def verPut {α : Type} (v : Ver α) (e : Nat) (x : Option α) : Ver α :=
  v.filter (fun y => decide (y.1 < e)) ++ [(e, x)]

/-- Reclaims what no live epoch selects, once every epoch below `d` is drained (R176): of the versions that apply from `d` or
before, only the last is kept. -/
def verReclaim {α : Type} (v : Ver α) (d : Nat) : Ver α :=
  let old := v.filter (fun y => decide (y.1 ≤ d))
  let new := v.filter (fun y => decide (d < y.1))
  match old.getLast? with
  | some (e, some x) => (e, some x) :: new
  | _ => new

/-- The record of an object as epoch `e` selects it. -/
def State.objAt (s : State) (key e : Nat) : Option Bytes := verAt (Tab.get [] s.bales.objects key) e
/-- The record of an object in force. -/
def State.objNow (s : State) (key : Nat) : Option Bytes := s.objAt key s.bales.epoch
/-- Puts a version of an object from epoch `e`. -/
def State.putObj (s : State) (key e : Nat) (x : Option Bytes) : State :=
  { s with bales := { s.bales with objects := Tab.put [] s.bales.objects key (verPut (Tab.get [] s.bales.objects key) e x) } }

/-! ### Typed views (Table 16-5) -/

/-- A VLAN (R124, R138, R239). -/
structure Vlan where
  profile : Nat
  group : Nat
  zone : Nat
  /-- member and untagged sets, bit n for port n -/
  members : Nat
  untagged : Nat
  /-- router MAC indexes, bit n for index n -/
  routers : Nat
deriving DecidableEq, Repr

/-- A VLAN from its record. -/
def vlanOf (r : Bytes) : Vlan :=
  ⟨leAt r 2 1, leAt r 3 1 % 64, leAt r 4 2, leNat (slice r 8 12), leNat (slice r 20 12), leNat (slice r 32 32)⟩

/-- VLAN `vid` under epoch `e`; a VLAN that no bale has set has no members (assumption 8). -/
def State.vlan (s : State) (vid e : Nat) : Vlan :=
  vlanOf ((s.objAt (objKey .vlan vid) e).getD (List.replicate 64 0))

/-- A dest field (Table 5-1): a group, or a port. -/
inductive Dest where
  | port (p : Nat)
  | group (g : Nat)
deriving DecidableEq, Repr

/-- R113. -/
def destOf (n : Nat) : Dest := if n.testBit 15 then .group (n % 64) else .port (n % 128)

/-- A next hop (R126). -/
structure NextHop where
  dest : Nat
  vid : Nat
  router : Nat
  mac : Nat
deriving DecidableEq, Repr

/-- Next hop `i` under epoch `e`. -/
def State.nextHop (s : State) (i e : Nat) : Option NextHop :=
  (s.objAt (objKey .nextHop i) e).map (fun r => ⟨leAt r 2 2, leAt r 4 2, leAt r 6 1, beAt r 8 6⟩)

/-- Router MAC `i` under epoch `e`. -/
def State.routerMac (s : State) (i e : Nat) : Option Nat := (s.objAt (objKey .routerMac i) e).map (fun r => beAt r 2 6)

/-- Next hops of multipath group `g` under epoch `e`. -/
def State.multipath (s : State) (g e : Nat) : List Nat :=
  match s.objAt (objKey .multipath g) e with
  | some r => (List.range (leAt r 2 1)).map (fun i => leAt r (4 + 2 * i) 2)
  | none => []

/-- Members of aggregation group `g` in force, in ascending port order. -/
def State.lagMembers (s : State) (g : Nat) : List Nat :=
  match s.objNow (objKey .lag g) with
  | some r => ((List.range (leAt r 1 1)).map (fun i => leAt r (4 + i) 1)).mergeSort
  | none => []

/-- A flow profile entry (Table 6-1, Table 16-5). -/
structure Profile where
  mode : Nat
  cls : Nat
  evict : Nat
  refusal : Nat
  awn : Nat
  command : Nat
  flags : Nat
  rate : Nat
  services : Nat
  jitter : Nat
  respZone : Nat
  initZone : Nat
  classes : Nat
  forget : Nat
  entry : Nat
  custMode : Nat
  custFault : Nat
  lb : Nat
  pool : Nat
deriving DecidableEq, Repr

/-- A flow profile from its record of 40 bytes. -/
def profileOf (r : Bytes) : Profile :=
  { mode := leAt r 1 1, cls := leAt r 2 1, evict := leAt r 3 1, refusal := leAt r 4 1, awn := leAt r 5 1
    command := leAt r 6 1, flags := leAt r 7 1, rate := leAt r 8 4, services := leAt r 12 2, jitter := leAt r 14 2
    respZone := leAt r 16 2, initZone := leAt r 18 2, classes := leAt r 20 2, forget := leAt r 24 4
    entry := leAt r 28 2, custMode := leAt r 30 1, custFault := leAt r 31 1, lb := leAt r 32 2, pool := leAt r 34 2 }

/-- The record of a flow profile as it stands at reset (Table 6-1, R237): no record mode, class 3, filter classes 1, 3, 1, 2 and a
PRP forget time of 400 ms. -/
def profileReset (p : Nat) : Bytes :=
  natLe 1 p ++ [0, 3] ++ List.replicate 17 0 ++ natLe 2 0x2131 ++ [0, 0] ++ natLe 4 400000 ++ List.replicate 12 0

/-- Flow profile `p` under epoch `e`. -/
def State.profile (s : State) (p e : Nat) : Profile :=
  profileOf ((s.objAt (objKey .flowProfile p) e).getD (profileReset p))

/-- A command profile entry (Table 11-1, Table 16-5). -/
structure GateProfile where
  protocol : Nat
  port : Nat
  awn : Nat
  tcp : Nat
  pairForced : Bool
  states : Nat
  holdMs : Nat
  heldFrames : Nat
  resetMs : Nat
deriving DecidableEq, Repr

/-- A command profile from its record of 16 bytes. -/
def gateProfileOf (r : Bytes) : GateProfile :=
  ⟨leAt r 1 1, leAt r 2 2, leAt r 4 1, leAt r 5 1, leAt r 6 1 != 0, leAt r 7 1, leAt r 8 2, leAt r 10 2, leAt r 12 2⟩

/-- The record of a command profile as it stands at reset (Table 11-1): no protocol, hold 20 ms, 256 frames, reset on
retransmission with a window of 1 s, cycle-window states slewing, locked and holdover. -/
def gateProfileReset (c : Nat) : Bytes :=
  natLe 1 c ++ [0, 0, 0, 0, 1, 0, 14] ++ natLe 2 20 ++ natLe 2 256 ++ natLe 2 1000 ++ [0, 0]

/-- Command profile `c` under epoch `e`. -/
def State.gateProfile (s : State) (c e : Nat) : GateProfile :=
  gateProfileOf ((s.objAt (objKey .gateProfile c) e).getD (gateProfileReset c))

/-- The command profile that judges a packet: the one that its epoch selects, which its descriptor carries (R27, R30). -/
def State.cmdProfile (s : State) (p : Packet) : GateProfile :=
  if p.gpRec = [] then s.gateProfile p.judged p.epoch else gateProfileOf p.gpRec

/-- VLAN that a packet leaves with. -/
def Packet.outVid (x : Packet) : Nat := match x.route with | some (_, _, v) => v | none => x.vid
/-- The packet carries the untagged set of the VLAN that it leaves with (R30, R124). -/
def State.carryVlan (s : State) (x : Packet) : Packet := { x with untagged := (s.vlan x.outVid x.epoch).untagged }

/-- An ingress window descriptor under epoch `e` (R62). -/
def State.window (s : State) (w e : Nat) : Option Window :=
  (s.objAt (objKey .window w) e).map (fun r =>
    ⟨leAt r 2 2, leAt r 4 2, leAt r 6 2, leAt r 8 1, leAt r 9 1, leAt r 10 1, leAt r 11 1⟩)

end Sys2Proof.Machine
end

