-- ==== Sys2Proof/Machine/Sampler.lean ====
section
/-! DEFINITION. The Chaff sampler and the Straw ring (R317 to R321). -/

namespace Sys2Proof.Machine

/-- One frame passes a port sampler with 1 in `n`: it samples at the end of its gap, and then draws the next one. R317 gives the
LFSR's width and not its polynomial, so each draw is a free value (assumption 35). -/
def State.samplerStep (s : State) (n lfsr gap : Nat) : Bool × Nat × Nat × State :=
  if gap ≤ 1 then
    let (v, s1) := s.draw
    let x := v.toNat % 2 ^ 24
    (gap == 1, x, 1 + x % (2 * n - 1), s1)
  else (false, lfsr, gap - 1, s)

/-- Bytes that a sample of a source captures (R317): the setting of the port whose sampler took it, and the default of 128 for rows and
routines, which have no setting of their own (assumption 36). -/
def State.captureLen (s : State) (p src : Nat) : Nat :=
  if src = 1 then s.sn 0x0C11 p 1 else if src = 2 then s.sn 0x0C11 p 3 else 128

/-- The record of Table 12-4. -/
def State.chaffRecord (s : State) (x : Packet) (out : Nat) (discarded dropped : Bool) : Bytes :=
  let cap := min (s.captureLen (if x.chaff = 2 then out else x.port) x.chaff) x.bytes.length
  let room := ceilDiv cap 64 * 64
  natLe 2 (64 + room) ++ natLe 2 (x.bytes.length - 4) ++ natLe 2 cap ++ natLe 1 x.chaff ++
  natLe 1 (b2n x.bad + 2 * b2n discarded + 4 * b2n dropped + 8 * b2n x.truncated + 16 * b2n x.sf + 32 * b2n x.row.isSome) ++
  natLe 1 x.port ++ natLe 1 out ++ natLe 1 (x.cls + 8 * b2n x.yellow) ++ natLe 1 (sliceOf x.port) ++ natLe 2 (x.row.getD 0) ++
  natLe 1 x.profile ++ natLe 1 x.epoch ++ x.stamp.bytes ++ natLe 8 s.core.sampleSeq ++ natLe 4 x.hint ++
  natLe 4 (x.pool + 8 * b2n x.spilled) ++ List.replicate 8 0 ++ padTo room (x.bytes.take cap)

/-- The record of Table 12-5, its cause still 0. -/
def State.strawRecord (s : State) (x : Packet) (out : Nat) : Bytes :=
  natLe 8 x.stamp.angle ++ natLe 4 x.stamp.ns ++ natLe 6 x.stamp.sec ++ natLe 1 x.port ++ natLe 1 (x.chaff + 8 * b2n x.bad) ++
  natLe 2 (x.bytes.length - 4) ++ natLe 1 out ++ natLe 1 (x.cls + 8 * b2n x.yellow + 16 * s.tiller.st.code) ++
  slice x.bytes (s.sn 0x0C14 x.port) 40

/-- Records that the Straw region holds (R320). -/
def State.strawSize (s : State) : Nat := s.regionBytes 2 / 64

/-- A sample falls back to the Straw ring with a cause (R319, R320). -/
def State.toStraw (s : State) (rec_ : Bytes) (cause : Nat) : State :=
  let s1 := (s.countDevice (2 + cause)).raiseLimited 0x0A01 srcDevice (sec 1) (natLe 1 cause ++ [0, 0, 0]) 4
  let fresh := decide (s1.core.strawSec + sec 1 ≤ s1.now)
  let n := if fresh then 0 else s1.core.strawCount
  if 25000000 ≤ n ∨ s1.strawSize = 0 then s1.countDevice 6
  else
    let r := patch rec_ 19 (natLe 1 (leAt rec_ 19 1 + 16 * cause))
    { s1 with core := { s1.core with
        straw := Tab.insert s1.core.straw (s1.core.strawNext % s1.strawSize) r
        strawNext := s1.core.strawNext + 1
        strawCount := n + 1
        strawSec := if fresh then s1.now else s1.core.strawSec } }

/-- A sample of packet `n` is taken (R317, R318, R321): within the limit it takes a sequence, and then the sag level, the sample pool
or the Straw ring decides where it goes. -/
def State.takeSample (s : State) (n : Nat) (x : Packet) (out : Nat) (discarded dropped : Bool) : State :=
  let fresh := decide (s.core.sampleSec + sec 1 ≤ s.now)
  let k := if fresh then 0 else s.core.sampleCount
  if s.sn 0x0C13 ≤ k then s.countDevice 1
  else
    let chaff := s.chaffRecord x out discarded dropped
    let straw := s.strawRecord x out
    let s1 := { s with core := { s.core with
      sampleCount := k + 1, sampleSec := if fresh then s.now else s.core.sampleSec, sampleSeq := s.core.sampleSeq + 1 } }.countDevice 0
    if 2 ≤ s.power.level then s1.countDevice 5
    else if s.power.level = 1 then s1.toStraw straw 2
    else if 8192 ≤ s.core.staged.length then s1.toStraw straw 1
    else { s1 with core := { s1.core with staged := s1.core.staged ++ [(n, straw ++ chaff)] } }

/-- More of packet `n`'s fate is known: its sample carries the flags if it has not yet been written (R318, Table 12-6). -/
def State.sampleFate (s : State) (n flags : Nat) : State :=
  { s with core := { s.core with staged := s.core.staged.map (fun (y : Nat × Bytes) =>
      if y.1 = n then
        let a := patch y.2 19 (natLe 1 (leAt y.2 19 1 ||| (if flags.testBit 0 then 8 else 0)))
        (y.1, patch a 71 (natLe 1 (leAt a 71 1 ||| flags)))
      else y) } }

/-- CHAFF_SAMPLE_WRITE (R318, R319): the oldest staged sample goes into the next free entry of the host's ring, or falls back. -/
def execChaffSampleWrite (s : State) : Res :=
  match s.core.staged with
  | [] => done s
  | x :: rest =>
    let s1 := { s with core := { s.core with staged := rest } }
    let g := s.ringOf 1
    if g.enable ∧ (g.prod + 2 ^ 32 - g.cons) % 2 ^ 32 < 2 ^ g.log2 then
      let s2 := s1.emit (.dma 1 (g.prod % 2 ^ g.log2) (x.2.drop 64))
      let s3 := s2.setRing 1 { g with prod := (g.prod + 1) % 2 ^ 32 }
      done (s3.interrupt 9 g.interrupt)
    else if 2 ≤ s.power.level then done (s1.countDevice 5)
    else done (s1.toStraw (x.2.take 64) 0)

end Sys2Proof.Machine
end

