-- ==== Sys2Proof/Machine/Buffers.lean ====
section
/-! DEFINITION. Buffers, pool levels and the ways a packet or a copy of it leaves the device's memory (R294 to R298, R313 to
R316). -/

namespace Sys2Proof.Machine

/-- Buffer size of pool `i` (Table 12-1). -/
def bufSize (i : Nat) : Nat := [160, 384, 768, 1600, 2560, 9792].getD i 9792

/-- Buffers of pool `i` (Table 12-1). -/
def State.poolTotal (s : State) (i : Nat) : Nat := s.sn 0x0C01 0 i / bufSize i

/-- Free buffers of pool `i`. -/
def State.poolFree (s : State) (i : Nat) : Nat := s.poolTotal i - (s.poolOf i).taken

/-- Level of a pool after `free` of `total` are free, from level `old` (R298): it enters a level at its threshold and leaves it
2 % above. -/
def levelFor (thr : List Nat) (free total old : Nat) : Nat :=
  let enters (k : Nat) := decide (free * 100 ≤ thr.getD (k - 1) 0 * total)
  let stays (k : Nat) := decide (k ≤ old ∧ free * 100 < (thr.getD (k - 1) 0 + 2) * total)
  ([3, 2, 1].find? (fun k => enters k || stays k)).getD 0

/-- Pool `i` takes the level its free share gives, and a change raises the buffer-level event (R298). -/
def State.relevel (s : State) (i : Nat) : State :=
  let p := s.poolOf i
  let l := levelFor [s.sn 0x0C02 i 0, s.sn 0x0C02 i 1, s.sn 0x0C02 i 2] (s.poolFree i) (s.poolTotal i) p.level
  if l = p.level then s
  else (s.setPool i { p with level := l }).raise 0x020B (src 14 i) (natLe 1 p.level ++ natLe 1 l)

/-- A buffer is taken from pool `i` (R295). -/
def State.takeBuffer (s : State) (i : Nat) : State :=
  (s.setPool i { s.poolOf i with taken := (s.poolOf i).taken + 1 }).relevel i
/-- A buffer returns to pool `i` (R295). -/
def State.giveBuffer (s : State) (i : Nat) : State :=
  (s.setPool i { s.poolOf i with taken := (s.poolOf i).taken - 1 }).relevel i
/-- A buffer of pool `i` is left on no stack and in no descriptor, until the audit finds it (R313, R314). -/
def State.loseBuffer (s : State) (i : Nat) : State :=
  s.setPool i { s.poolOf i with lostNew := (s.poolOf i).lostNew + 1 }

/-- The lowest level of any pool (R298). -/
def State.worstLevel (s : State) : Nat := (List.range 6).foldl (fun m i => max m (s.poolOf i).level) 0

/-- Ingress usage of a port and class: buffer sizes of its packets still in a buffer (R305). -/
def State.ingressUsage (s : State) (p c : Nat) : Nat :=
  (Tab.values s.packets).foldl (fun n x => if x.port = p ∧ x.inCls = c then n + bufSize x.pool else n) 0

/-- Buffer sizes that a queue holds (R300). -/
def State.occupancy (s : State) (q : Nat) : Nat :=
  (s.queueOf q).foldl (fun n i => match s.pkt? i with | some x => n + bufSize x.pool | none => n) 0

/-- A packet is in one of the holds that count against the held account: the gate hold, the move hold, or the record wait of R158, in which a
routine's rec.lock may wait too. A read that is under way and a wait on a fence are none (R302). -/
def Packet.isHold (x : Packet) : Bool :=
  match x.stage with
  | .held | .moveHold | .behind => true
  | .waitRecord => !x.exempt
  | .running => x.waitAt.isSome
  | _ => false

/-- Held account of a port (R302). -/
def State.heldOf (s : State) (p : Nat) : Nat :=
  (Tab.values s.packets).foldl (fun n x => if x.port = p ∧ x.isHold then n + bufSize x.pool else n) 0

/-! ### Back-pressure (R305) -/

/-- XOFF state of a port and class. -/
def State.xoffOf (s : State) (p c : Nat) : Xoff := Tab.get {} s.core.xoff (8 * p + c)
/-- Puts the XOFF state of a port and class. -/
def State.setXoff (s : State) (p c : Nat) (x : Xoff) : State :=
  { s with core := { s.core with xoff := Tab.put {} s.core.xoff (8 * p + c) x } }

/-- A class is pausable on a port: the port sends pause or PFC, the host has enabled the class, and it is not privileged. -/
def State.pausable (s : State) (p c : Nat) : Bool :=
  s.sn 0x0C0E p 0 != 0 && (s.sn 0x0C0E p 1).testBit c && !(s.sn 0x0C03).testBit c

/-- Quanta leave a port that is up for a class: a PFC frame, or a pause frame, which ends only with the last class that stands. -/
def State.sendPause (s : State) (p c quanta : Nat) : State :=
  if !(s.port p).isUp then s
  else if s.sn 0x0C0E p 0 = 2 then s.emit (.pause p c quanta)
  else if s.sn 0x0C0E p 0 = 1 then
    if quanta = 0 ∧ (List.range 8).any (fun d => d != c && (s.xoffOf p d).since.isSome) then s else s.emit (.pause p 8 quanta)
  else s

/-- XOFF leaves, and is counted. -/
def State.sendXoff (s : State) (p c : Nat) : State := (s.sendPause p c 0xFFFF).countClass p c 7

/-- XOFF of a class is due: a pool is at red or black, the port can send, and the usage has reached the threshold. -/
def State.xoffDue (s : State) (p c : Nat) : Bool :=
  decide (2 ≤ s.worstLevel) && (s.port p).isUp && s.pausable p c && decide (s.sn 0x0C0F p 0 ≤ s.ingressUsage p c)

/-- A class backs off after its XOFF limit; with link-level pause, which stops every class, the whole port does (assumption 253). -/
def State.backsOff (s : State) (p c : Nat) : Bool :=
  (s.xoffOf p c).backoff.isSome || (s.sn 0x0C0E p 0 == 1 && (List.range 8).any (fun d => (s.xoffOf p d).backoff.isSome))

/-- XOFF is sent for each class that it is due for and that neither stands nor backs off. -/
def State.xoffCheck (s : State) : State :=
  if s.worstLevel < 2 then s
  else (List.range 768).foldl (fun s q =>
    let x := s.xoffOf (q / 8) (q % 8)
    if x.since.isNone ∧ !s.backsOff (q / 8) (q % 8) ∧ s.xoffDue (q / 8) (q % 8) then
      (s.setXoff (q / 8) (q % 8) { x with since := some s.now, sentAt := s.now }).sendXoff (q / 8) (q % 8)
    else s) s

/-- Quanta 0 is sent at once for each class whose usage fell below the XON threshold, or when no pool is at red or lower; on a port that is
not up nothing stands any longer. -/
def State.xonCheck (s : State) : State :=
  (Tab.keys s.core.xoff).foldl (fun s q =>
    let p := q / 8
    let c := q % 8
    let x := s.xoffOf p c
    if x.since.isSome ∧ (s.worstLevel < 2 ∨ s.ingressUsage p c < s.sn 0x0C0F p 1 ∨ !s.pausable p c ∨
        !(s.port p).isUp) then
      (s.setXoff p c { x with since := none, sentAt := 0 }).sendPause p c 0
    else s) s

/-- Packet `n` leaves the device: it is in no queue, lane, sequencer entry or read any longer, and its buffer returns (R295).
The rest of a frame that is still being received is judged as it ends (R310). -/
def State.freePacket (s : State) (n : Nat) : State :=
  match s.pkt? n with
  | none => s
  | some p =>
    let s1 := { s with
      packets := Tab.erase s.packets n
      core := { s.core with
        receiving := if p.complete then s.core.receiving else Tab.insert s.core.receiving n (p.port, p.hint, p.bytes)
        queues := p.copies.foldl (fun qs (c : Copy) => Tab.modify [] qs (8 * c.port + c.cls) (fun q => q.filter (· != n))) s.core.queues }
      awn := { s.awn with
        queue := Tab.modify [] s.awn.queue (sliceOf p.port) (fun q => q.filter (· != n))
        lanes := s.awn.lanes.filter (fun x => x.2.pkt != n)
        rescans := Tab.erase s.awn.rescans n }
      flow := { s.flow with
        ops := s.flow.ops.filter (fun o => o.pkt != n)
        records := s.flow.records.filter (fun (x : Nat × FlowRec) => x.2.reserved != some n) }
      gate := { s.gate with consuming := s.gate.consuming.filter (fun x => x.1 != n) }
      mem := { s.mem with reads := s.mem.reads.filter (fun r =>
        match r.owner with
        | .record k | .lock k | .object k => k != n
        | .permit _ | .refill | .mirror _ _ _ => true) } }
    let s2 := p.copies.foldl (fun s (c : Copy) => s.modPort c.port (fun x => if x.sending = some n then { x with sending := none } else x)) s1
    (if p.countLost then s2.loseBuffer p.pool else s2.giveBuffer p.pool).xonCheck

/-- The copies of packet `n` that `gone` names leave their queues; when the last one has left or been voided, the packet leaves too (R315,
R316). -/
def State.dropCopies (s : State) (n : Nat) (gone : Copy → Bool) : State :=
  match s.pkt? n with
  | none => s
  | some p =>
    let left := p.copies.filter (fun (c : Copy) => !gone c)
    if left.all (fun (c : Copy) => c.state == .voided) then s.freePacket n
    else
      let s1 := { s with core := { s.core with queues := (p.copies.filter gone).foldl (fun qs (c : Copy) =>
        Tab.modify [] qs (8 * c.port + c.cls) (fun q => q.filter (· != n))) s.core.queues } }
      s1.setPkt n { p with copies := left }

/-- Every packet queued at `8·port + class` is dropped; copies voided earlier are not counted again (R80, R313, Table 12-6). -/
def State.flushQueue (s : State) (q : Nat) (cnt : State → State) : State :=
  (s.queueOf q).foldl (fun s n =>
    let voided : Bool := match s.pkt? n with
      | some p => p.copies.any (fun (c : Copy) => decide (c.port * 8 + c.cls = q ∧ c.state = .voided))
      | none => false
    let last : Bool := (s.pkt? n).any (fun p => p.copies.all (fun (c : Copy) => c.port * 8 + c.cls == q || c.state == .voided))
    let s1 := if voided then s else cnt s
    (if last then s1.sampleFate n 4 else s1).dropCopies n (fun (c : Copy) => c.port * 8 + c.cls == q)) s

/-- Queued packets of classes that a mask leaves out are discarded and counted against their egress port, and flood copies voided. -/
def State.clearQueues (s : State) (keep : Nat → Bool) (n : Nat) : State :=
  (Tab.keys s.core.queues).foldl (fun s q => if keep (q % 8) then s else s.flushQueue q (fun s => s.countPort (q / 8) n)) s

/-- Every packet queued to port `p` is dropped (R80). -/
def State.flushPort (s : State) (p : Nat) (cnt : State → State) : State :=
  (List.range 8).foldl (fun s c => s.flushQueue (8 * p + c) cnt) s

/-- A packet ends before its copies leave: a sample that it asked for is taken as it ends, and one that waits to be written learns of its fate
(R317, R318). -/
def State.endPacket (s : State) (n : Nat) (discarded dropped : Bool) : State :=
  match s.pkt? n with
  | none => s
  | some x =>
    (if x.chaff ≠ 0 ∧ !x.sampled then s.takeSample n x 0xFF discarded dropped
     else s.sampleFate n (2 * b2n discarded + 4 * b2n dropped)).freePacket n

/-- A packet is dropped after `cnt` has counted it. -/
def State.drop (s : State) (n : Nat) (cnt : State → State) : State := (cnt s).endPacket n false true
/-- A packet is discarded. -/
def State.discard (s : State) (n : Nat) : State := s.endPacket n true false

end Sys2Proof.Machine
end

