-- ==== Sys2Proof/Machine/Lag.lean ====
section
/-! DEFINITION. Link aggregation: distributing members and the slots of a group (R130 to R133). -/

namespace Sys2Proof.Machine

/-- The group of which port `p` is a member, if there is one. -/
def State.lagOfPort (s : State) (p : Nat) : Option Nat := (List.range 48).find? (fun g => (s.lagMembers g).contains p)

/-- A member distributes: it is up, and its actor state is distributing when LACP is enabled for the group (R130). -/
def State.distributing (s : State) (g p : Nat) : Bool := (s.port p).isUp && (!s.son 0x050D g || (s.port p).lacp)

/-- The distributing members of a group, in ascending port order. -/
def State.dealers (s : State) (g : Nat) : List Nat := (s.lagMembers g).filter (fun p => s.distributing g p)

/-- The slots dealt round-robin to members (R131). -/
def dealSlots (ms : List Nat) : Tab Nat :=
  if ms.isEmpty then [] else (List.range 256).map (fun i => (i, ms.getD (i % ms.length) 0 + 1))

/-- The slots of a table that member `p` holds. -/
def heldIn (t : Tab Nat) (p : Nat) : List Nat := (t.filter (fun x => x.2 == p + 1)).map (·.1)

/-- The slots of a group that member `p` holds. -/
def Lag.held (l : Lag) (p : Nat) : List Nat := heldIn l.slots p

/-- The member with the fewest slots of a table, the lowest port on a tie (assumption 23). -/
def leastIn (t : Tab Nat) (ms : List Nat) : Option Nat :=
  ms.foldl (fun b p => match b with
    | none => some p
    | some q => if (heldIn t p).length < (heldIn t q).length then some p else some q) none

/-- Each slot that member `p` holds goes to one of `rest`, balancing the counts, or to none where no member is left (R132). -/
def giveSlots (t : Tab Nat) (p : Nat) (rest : List Nat) : Tab Nat :=
  (heldIn t p).foldl (fun t i => match leastIn t rest with
    | some q => Tab.insert t i (q + 1)
    | none => Tab.erase t i) t

/-- The other members that a slot table names and that distribute (R30, R132). -/
def State.restIn (s : State) (g p : Nat) (t : Tab Nat) : List Nat :=
  ((Tab.values t).map (· - 1)).dedup.filter (fun q => q != p && s.distributing g q)

/-- Packets held for slot `i` of group `g` go on to admission, to member `p` (R133). -/
def State.releaseSlot (s : State) (g i p : Nat) : State :=
  { s with packets := s.packets.map (fun x =>
      if x.2.stage = .moveHold ∧ x.2.lagSlot = some (256 * g + i) then (x.1, { x.2 with stage := .step7, dests := [p] }) else x) }

/-- Slot `i` switches to the member that its move names (R133). -/
def State.switchSlot (s : State) (g i : Nat) : State :=
  let l := s.lag g
  match Tab.find? l.moves i with
  | none => s
  | some m =>
    (s.setLag g { l with slots := Tab.insert l.slots i (m.target + 1), moves := Tab.erase l.moves i }).releaseSlot g i m.target

/-- Member `p` stops distributing (R132, Table 5-2): frames queued to it are dropped and counted, a slot that was moving away from
it switches at once, a move toward it is given up, and each slot it holds goes to the remaining member that holds the fewest, in the slots
that packets of older epochs select too (R30). -/
def State.memberStops (s : State) (g p : Nat) : State :=
  let l := s.lag g
  let s := s.flushPort p (fun s => s.countPort p 13)
  let toward := (l.moves.filter (fun x => x.2.target == p)).map (·.1)
  let away := (l.held p).filter (fun i => (Tab.find? l.moves i).any (fun m => m.target != p))
  let s1 := toward.foldl (fun s i =>
    let l := s.lag g
    (s.setLag g { l with moves := Tab.erase l.moves i }).releaseSlot g i (Tab.get 0 l.slots i - 1)) s
  let s2 := away.foldl (fun s i => s.switchSlot g i) s1
  let l2 := s2.lag g
  s2.setLag g { l2 with
    slots := giveSlots l2.slots p ((s2.dealers g).filter (· != p))
    was := l2.was.map (fun w => (w.1, giveSlots w.2 p (s2.restIn g p w.2))) }

/-- One slot is taken back for member `p` from the member with the most slots, its highest-numbered first (R133,
assumption 23). -/
def State.takeSlot (s : State) (g p : Nat) (others : List Nat) : State :=
  let l := s.lag g
  let free (q : Nat) := (l.held q).filter (fun i => (Tab.find? l.moves i).isNone)
  let best := others.foldl (fun (b : Option Nat) q => match b with
    | none => if (free q).isEmpty then none else some q
    | some r => if (free r).length < (free q).length then some q else some r) none
  match best with
  | none => s
  | some q =>
    match (free q).getLast? with
    | none => s
    | some i =>
      s.setLag g { l with moves := Tab.insert l.moves i ⟨p, s.now⟩ }

/-- Slot `i` of group `g` is undrained: a queue of its old member still holds a packet admitted before the change (R133). -/
def State.undrained (s : State) (g i : Nat) : Bool :=
  let old := Tab.get 0 (s.lag g).slots i - 1
  match Tab.find? (s.lag g).moves i with
  | none => false
  | some m => (List.range 8).any (fun c => (s.queueOf (8 * old + c)).any (fun n =>
      match s.pkt? n with
      | some x => x.copies.any (fun (y : Copy) => y.port == old && decide (y.since ≤ m.since))
      | none => false))

/-- Moves of group `g` that have waited for the move limit end: their slots switch, and those that are undrained are a reorder risk that is
counted and reported (R133). -/
def State.endMoves (s : State) (g : Nat) : State :=
  let due := (s.lag g).moves.filter (fun x => decide (x.2.since + ns (s.sn 0x050E g) ≤ s.now))
  let late := due.filter (fun x => s.undrained g x.1)
  let s1 := due.foldl (fun s x => s.switchSlot g x.1) s
  if late.isEmpty then s1
  else
    let l := s1.lag g
    (s1.setLag g { l with risks := l.risks + 1, undrained := late.length }).raise 0x0406 (src 9 g) (natLe 2 late.length)

/-- Member `p` starts distributing: an equal share of the slots is taken back for it, which switches at once where the move limit is 0; in a
group whose slots no member holds, they are dealt to all that distribute (R131, R133). -/
def State.memberStarts (s : State) (g p : Nat) : State :=
  let ms := s.dealers g
  let l := s.lag g
  if !ms.contains p ∨ !(l.held p).isEmpty ∨ l.moves.any (fun x => x.2.target == p) then s
  else
    let others := ms.filter (· != p)
    if others.all (fun q => (l.held q).isEmpty) then s.setLag g { l with slots := dealSlots ms, moves := [] }
    else
      let s1 := (List.range (256 / ms.length)).foldl (fun s _ => s.takeSlot g p others)
        (s.setLag g { l with undrained := if l.moves.isEmpty then 0 else l.undrained })
      if s.sn 0x050E g = 0 then s1.endMoves g else s1

/-- LAG_MEMBER_JOIN (R130, R133). -/
def execLagMemberJoin (p : PortId) (s : State) : Res :=
  match s.lagOfPort p with
  | some g => done (s.memberStarts g p)
  | none => done s

/-- LAG_SLOT_DRAINED (R133). -/
def execLagSlotDrained (g : GroupId) (slot : Fin 256) (s : State) : Res :=
  if s.undrained g slot then done s else done (s.switchSlot g slot)

/-- LAG_MOVE_LIMIT_EXPIRY (R133): what is still undrained at the limit switches, is counted, and is reported. -/
def execLagMoveLimitExpiry (g : GroupId) (s : State) : Res := done (s.endMoves g)

/-- The LACPDU of a member port, which Scemas sends while the port is up and LACP is enabled for its group (R130): the actor is in sync, and
collects and distributes as its state is. -/
def State.sendLacp (s : State) (p : Nat) : State :=
  match s.lagOfPort p with
  | none => s
  | some g =>
    if (s.port p).isUp ∧ s.son 0x050D g then
      s.emit (.lacp p g { inSync := true, collecting := (s.port p).lacpRx, distributing := (s.port p).lacp })
    else s

/-- The actor state of a port changes: the partner hears of it, and a member of a group with LACP that ceases to distribute leaves its slots
(R130, R132). -/
def State.setLacp (s : State) (p : Nat) (rx on : Bool) : State :=
  let q := s.port p
  let s1 := s.setPort p { q with lacpRx := rx, lacp := on }
  let s2 := if q.lacpRx = rx ∧ q.lacp = on then s1 else s1.sendLacp p
  match s.lagOfPort p with
  | some g => if q.lacp ∧ !on ∧ s.son 0x050D g then s2.memberStops g p else s2
  | none => s2

/-- LACP_FRAME_RECEIVE (R130): Scemas runs LACP; a partner in sync makes the actor collect, and one that collects too makes it distribute
(IEEE 802.1AX, PRESUMED, assumption 24). -/
def execLacpFrameReceive (p : PortId) (x : LacpInfo) (s : State) : Res :=
  done ((s.setPort p { s.port p with lacpAt := s.now }).setLacp p x.inSync (x.inSync && x.collecting))

/-- LACP_TIMEOUT (R130): the partner has been silent for the LACP timeout of 3 s (IEEE 802.1AX, PRESUMED, assumption 24). -/
def execLacpTimeout (p : PortId) (s : State) : Res :=
  if !(s.port p).lacpRx ∨ s.now < (s.port p).lacpAt + sec 3 then done s else done (s.setLacp p false false)

end Sys2Proof.Machine
end

