-- ==== Sys2Proof/Machine/Pmu.lean ====
section
/-! DEFINITION. The programmable counters, their sample periods and the counter snapshot (20_counters.md). -/

namespace Sys2Proof.Machine

/-- Event number that the settings give counter `n` (R453). -/
def State.eventNo (s : State) (n : Nat) : Nat := s.sn 0x1401 0 n
/-- Sample period of counter `n`, 0 off (R454). -/
def State.periodOf (s : State) (n : Nat) : Nat := s.sn 0x1402 0 n
/-- Events whose packet is captured (Table 20-3). -/
def captured (e : Nat) : Bool := [2, 3, 4, 6, 7, 10, 13, 14, 15, 16, 17].contains e

/-- The counter-overflow body of Table 20-4. -/
def State.overflowBody (s : State) (k n skid : Nat) (p : Option Packet) (angle : Nat) : Bytes :=
  let v := Tab.get 0 s.cnt.live (counterId 13 (8 * k + n))
  natLe 1 n ++ natLe 1 (b2n p.isSome + 2 * b2n (v.testBit 63)) ++ natLe 2 (s.eventNo n) ++ natLe 2 skid ++
  (match p with
   | none => [255, 255, 255, 0, 255, 255]
   | some p => natLe 1 p.port ++ natLe 1 (p.dests.headD 255) ++ natLe 1 p.cls ++ natLe 1 p.profile ++ natLe 2 (p.row.getD 65535)) ++
  natLe 4 (Tab.get 0 s.cnt.suppressed k) ++ natLe 8 angle

/-- Puts the captures that wait. -/
def State.setCaptures (s : State) (t : Tab (Nat × Nat)) : State := { s with cnt := { s.cnt with capture := t } }

/-- The counter-overflow event of counter `n` of slice `k` leaves, and the capture is no longer armed (R454, R455). -/
def State.raiseOverflow (s : State) (k n skid : Nat) (p : Option Packet) (angle : Nat) : State :=
  let s1 := s.raise 0x0A02 (src 5 k) (s.overflowBody k n skid p angle)
  { s1 with cnt := { s1.cnt with capture := Tab.erase s1.cnt.capture (8 * k + n), suppressed := Tab.put 0 s1.cnt.suppressed k 0 } }

/-- Counter `n` of slice `k` counts `q` of its event, unless it is frozen; its period register counts down, and at 0 it is reloaded and the
period expires (R453, R454, R456). -/
def State.pmuOne (s : State) (k q : Nat) (n : Nat) : State :=
  let i := 8 * k + n
  let s1 := s.count 13 i q
  if s.periodOf n = 0 then s1
  else
    let per := s.periodOf n
    let left := Tab.get per s1.cnt.period i
    if q < left then { s1 with cnt := { s1.cnt with period := Tab.put per s1.cnt.period i (left - q) } }
    else
      let due := List.replicate (1 + (q - left) / per) (s.now, s.angle)
      { s1 with cnt := { s1.cnt with
          period := Tab.put per s1.cnt.period i (per - (q - left) % per)
          expired := Tab.put [] s1.cnt.expired i (Tab.get [] s1.cnt.expired i ++ due) } }

/-- Event `e` happens `q` times in slice `k`, with the packet at that point if there is one (R453, R454): a capture that waits for
it takes the packet. -/
def State.pmu (s : State) (k e : Nat) (q : Nat := 1) (p : Option Packet := none) : State :=
  (List.range 8).foldl (fun s n =>
    if s.eventNo n != e then s
    else
      let s1 := match Tab.find? s.cnt.capture (8 * k + n), p with
        | some (t, _), some x =>
          if captured e && decide (s.now ≤ t + 64 * clk) then s.raiseOverflow k n ((s.now - t) / clk) (some x) x.stamp.angle else s
        | _, _ => s
      if s1.cnt.frozen then s1 else s1.pmuOne k q n) s

/-- Event `e` at packet `i`'s slice, the packet at that point (R453). -/
def State.pmuPkt (s : State) (i e : Nat) : State :=
  match s.pkt? i with
  | some p => s.pmu (sliceOf p.port) e 1 (some p)
  | none => s

/-- When counter-overflow events of slice `k` were let go within the last second (R455). -/
def State.letGo (s : State) (k : Nat) : List Nat := (Tab.get [] s.cnt.raised k).filter (fun t => decide (s.now < t + sec 1))
/-- An expiry of slice `k` is not reported (R455). -/
def State.suppress (s : State) (k : Nat) : State := { s with cnt := { s.cnt with suppressed := Tab.modify 0 s.cnt.suppressed k (· + 1) } }
/-- Sag level 1 is entered: an expiry of this clock, though a capture waits for it already, is not reported (Table 20-5). -/
def State.shedCaptures (s : State) : State :=
  (Tab.keys s.cnt.capture).foldl (fun s i =>
    if (Tab.get (0, 0) s.cnt.capture i).1 = s.now then
      (s.suppress (i / 8)).setCaptures (Tab.erase s.cnt.capture i)
    else s) s

/-- COUNTER_PERIOD_EXPIRY (R454, R455): an expiry that may be reported arms a capture, which counts from the expiry; another is counted
as suppressed. -/
def execCounterPeriodExpiry (k : SliceId) (n : Fin 8) (s : State) : Res :=
  let i := 8 * k.val + n.val
  match Tab.get [] s.cnt.expired i with
  | [] => done s
  | x :: rest =>
    let s1 := { s with cnt := { s.cnt with expired := Tab.put [] s.cnt.expired i rest } }
    let recent := s.letGo k
    if s.power.level = 0 ∧ s.son 0x1404 ∧ recent.length < s.sn 0x1403 then
      done { s1 with cnt := { s1.cnt with
        raised := Tab.put [] s1.cnt.raised k (recent ++ [s.now]), capture := Tab.insert s1.cnt.capture i x } }
    else done (s1.suppress k)

/-- COUNTER_CAPTURE_TIMEOUT (R454): no packet came within 64 core clocks. -/
def execCounterCaptureTimeout (k : SliceId) (n : Fin 8) (s : State) : Res :=
  match Tab.find? s.cnt.capture (8 * k.val + n.val) with
  | some (t, a) => if t + 64 * clk ≤ s.now then done (s.raiseOverflow k n 0 none a) else done s
  | none => done s

/-- COUNTER_SNAPSHOT_TAKE (R457): at the first core clock after arming, or once the stated angle stamp is reached, every counter
is copied as it stood when this clock began. -/
def execCounterSnapshotTake (s : State) : Res :=
  match s.cnt.armed with
  | none => done s
  | some due =>
    if s.cnt.armedAt < s.now ∧ due.all (fun d => decide (d ≤ s.angle)) then
      let s1 := { s with cnt := { s.cnt with snap := s.cnt.start, snapStamp := some s.stamp, armed := none } }
      done (s1.raise 0x0A03 srcDevice (natLe 8 s.angle))
    else done s

end Sys2Proof.Machine
end

