-- ==== Sys2Proof/Machine/Bridge.lean ====
section
/-! DEFINITION. MAC tables, learning, ageing, route lookup and member choice (05_bridging_and_routing.md). -/

namespace Sys2Proof.Machine

/-! ### The MAC table (R111 to R115, R477) -/

/-- Bucket of a key (R112). -/
def macBucket (vid mac : Nat) : Nat := (crc32c crcOnes (natBe 8 (vid % 4096 * 2 ^ 48 + mac % 2 ^ 48))).toNat % 65536

/-- First index of the overflow store. -/
def macOverflow : Nat := 262144

/-- The index of a location. -/
def macIndex : MacLoc → Nat
  | .bucket b slot => 4 * b.val + slot.val
  | .overflow i => macOverflow + i.val

/-- The location field of Table 5-1. -/
def locationField (i : Nat) : Nat := if macOverflow ≤ i then 2 ^ 31 + (i - macOverflow) else i

/-- An entry is one that epoch `e` finds (R115): committed, and in its range of epochs. -/
def MacEntry.visible (x : MacEntry) (e : Nat) : Bool :=
  x.bale.isNone && decide (x.from_ ≤ e) && x.till.all (fun t => decide (e ≤ t))

/-- The entry of a key under epoch `e`, and its index. -/
def MacTable.lookup (t : MacTable) (vid mac e : Nat) : Option (Nat × MacEntry) :=
  List.find? (fun (x : Nat × MacEntry) => x.2.vid == vid && x.2.mac == mac && x.2.visible e) t.entries

/-- A free place for a key: a slot of its bucket, or an overflow entry (R114). -/
def MacTable.free (t : MacTable) (vid mac : Nat) : Option Nat :=
  let b := macBucket vid mac
  match [0, 1, 2, 3].find? (fun i => (Tab.find? t.entries (4 * b + i)).isNone) with
  | some i => some (4 * b + i)
  | none => ((List.range 4096).find? (fun i => (Tab.find? t.entries (macOverflow + i)).isNone)).map (macOverflow + ·)

/-- One draw of an eviction LFSR (R477). -/
def lfsrDraw (x : Nat) : Nat :=
  let f := (b2n (x.testBit 0) + b2n (x.testBit 2) + b2n (x.testBit 3) + b2n (x.testBit 5)) % 2
  x / 2 + f * 32768

/-- Draws until the low two bits name a slot that may be evicted (R114). -/
def drawSlot (ok : Nat → Bool) : Nat → Nat → Option (Nat × Nat)
  | 0, _ => none
  | fuel + 1, x =>
    let y := lfsrDraw x
    if ok (y % 4) then some (y % 4, y) else drawSlot ok fuel y

/-- An entry may be evicted: it is learned, and no shadow version (R114, Table 5-2). -/
def MacEntry.evictable (x : MacEntry) : Bool := !x.static && x.bale.isNone

/-- The slot that the oldest rule evicts: last_seen furthest behind the sweep count, the lower slot on a tie (R114). -/
def oldestSlot (t : MacTable) (b : Nat) (ok : Nat → Bool) : Option Nat :=
  [0, 1, 2, 3].foldl (fun best i =>
    if !ok i then best
    else
      let age (j : Nat) := match Tab.find? t.entries (4 * b + j) with
        | some x => (t.sweep + 256 - x.lastSeen) % 256
        | none => 0
      match best with
      | none => some i
      | some j => if age j < age i then some i else some j) none

/-- The slot that the eviction rule of slice `k` frees in a key's bucket, and the LFSR after it. -/
def State.macVictim (s : State) (k vid mac : Nat) : Option (Nat × Nat) :=
  let t := s.mac k
  let b := macBucket vid mac
  let ok (i : Nat) := (Tab.find? t.entries (4 * b + i)).any (·.evictable)
  if ([0, 1, 2, 3] : List Nat).all (fun i => !ok i) then none
  else if s.sn 0x0501 k = 1 then (oldestSlot t b ok).map (fun i => (4 * b + i, t.lfsr))
  else (drawSlot ok 65536 t.lfsr).map (fun (x : Nat × Nat) => (4 * b + x.1, x.2))

/-- Entry `e` goes into index `i` of slice `k`'s table. -/
def State.putMac (s : State) (k i : Nat) (e : MacEntry) : State :=
  s.setMac k { s.mac k with entries := Tab.insert (s.mac k).entries i e }
/-- The entry at index `i` of slice `k`'s table leaves it. -/
def State.eraseMac (s : State) (k i : Nat) : State := s.setMac k { s.mac k with entries := Tab.erase (s.mac k).entries i }

/-- A learned entry goes into a free place, or into the place of one that it evicts (R114); `false` when it is refused. -/
def State.placeLearned (s : State) (k : Nat) (e : MacEntry) : State × Bool :=
  match (s.mac k).free e.vid e.mac with
  | some i => (s.putMac k i e, true)
  | none =>
    match s.macVictim k e.vid e.mac with
    | some (i, l) =>
      let s1 := s.setMac k { s.mac k with lfsr := l }
      ((s1.putMac k i e).countSlice k 5, true)
    | none => ((s.countSlice k 4).raiseLimited 0x0401 (src 5 k) (sec 1) [] 4, false)

/-! ### Learning (R116 to R119) -/

/-- A request orders before another: by stamp, then by port (R117). -/
def LearnReq.before (a b : LearnReq) : Bool := decide (a.stamp < b.stamp ∨ (a.stamp = b.stamp ∧ a.port ≤ b.port))

/-- A request joins its place in the queue. -/
def insertReq (r : LearnReq) : List LearnReq → List LearnReq
  | [] => [r]
  | q :: qs => if q.before r then q :: insertReq r qs else r :: q :: qs

/-- A learn or move request joins slice `k`'s queue, or is dropped and counted (R117). -/
def State.queueLearn (s : State) (k : Nat) (r : LearnReq) : State :=
  let t := s.mac k
  if 4096 ≤ t.queue.length then s.countSlice k 3 else s.setMac k { t with queue := insertReq r t.queue }

/-- What a sweep visit does to an entry that it keeps, with `kind` as in `MacEntry.touch`. -/
def MacEntry.swept (e : MacEntry) (kind sweep : Nat) : MacEntry :=
  match kind with
  | 0 => e
  | 1 => { e with stale := true }
  | _ => { e with stale := false, lastSeen := sweep }

/-- A source hit sets the hit bit at `now` (R121); what the entry was at the beginning of the clock is kept for a sweep on it. -/
def MacEntry.sourceHit (e : MacEntry) (now : Nat) : MacEntry :=
  let fresh := if e.hit then 2 else if e.stale then 0 else 1
  { e with hit := true, touch := some (now, match e.touch with | some (t, k) => if t = now then k else fresh | none => fresh) }

/-- A move changes the entry's destination, sets hit and clears stale (R118); the stale flag stays clear whatever a sweep on the clock
does. -/
def MacEntry.moved (e : MacEntry) (dest now : Nat) : MacEntry :=
  let k := match (e.sourceHit now).touch with | some (_, 2) => 2 | _ => 0
  { e with dest := dest, hit := true, stale := false, touch := some (now, k), flushDue := false }

/-- A move changes the entry's destination, and M moves in the window freeze it (R118, R119). A move on the clock on which the window
closes lies in it (Table 5-2); one after that opens a new window. -/
def State.moveEntry (s : State) (k i : Nat) (e0 : MacEntry) (dest : Nat) : State :=
  let e := if e0.windowEnd.any (fun t => decide (t < s.now)) then { e0 with windowEnd := none, moves := 0 } else e0
  let n := e.moves + 1
  let e1 := { e.moved dest s.now with moves := min n 255, windowEnd := some (e.windowEnd.getD (s.now + ns (s.sn 0x0505))) }
  let s1 := (s.countSlice k 1).countSlice k 2
  if s.sn 0x0504 ≤ n then
    let e2 := { e1 with frozen := true, windowEnd := none, thawAt := some (s.now + ns (s.sn 0x0506)) }
    (s1.putMac k i e2).raise 0x0402 (src 5 k) (natLe 2 e.vid ++ natBe 6 e.mac ++ natLe 2 dest ++ natLe 2 e.dest)
  else s1.putMac k i e1

/-- LEARN_REQUEST_APPLY (R117 to R119): the oldest request of the queue. -/
def execLearnRequestApply (k : SliceId) (s : State) : Res :=
  let t := s.mac k
  match t.queue with
  | [] => done s
  | r :: rest =>
    let s1 := (s.setMac k { t with queue := rest }).pmu k 14
    match (s1.mac k).lookup r.vid r.mac s.bales.epoch with
    | none =>
      let (s2, ok) := s1.placeLearned k
        { mac := r.mac, vid := r.vid, dest := r.dest, hit := true, lastSeen := t.sweep, touch := some (s.now, 0) }
      done (if ok then s2.countSlice k 1 else s2)
    | some (i, e) =>
      if e.dest = r.dest then done (s1.putMac k i (e.sourceHit s.now))
      else if e.static then done (s1.countSlice k 7)
      else if e.frozen then done (s1.countSlice k 2)
      else done (s1.moveEntry k i e r.dest)

/-- MOVE_WINDOW_CLOSE (R119): a window that closes with fewer than M moves resets the count, once the clock on which it closes has
passed, since a move on that clock counts in it (Table 5-2). -/
def execMoveWindowClose (k : SliceId) (loc : MacLoc) (s : State) : Res :=
  match Tab.find? (s.mac k).entries (macIndex loc) with
  | some e =>
    if e.windowEnd.any (fun t => decide (t < s.now)) ∧ !e.frozen then
      done (s.putMac k (macIndex loc) { e with windowEnd := none, moves := 0 })
    else done s
  | none => done s

/-- MAC_THAW (R119). -/
def execMacThaw (k : SliceId) (loc : MacLoc) (s : State) : Res :=
  match Tab.find? (s.mac k).entries (macIndex loc) with
  | some e =>
    if e.frozen ∧ e.thawAt.any (fun t => decide (t ≤ s.now)) then
      done ((s.putMac k (macIndex loc) { e with frozen := false, thawAt := none, moves := 0, windowEnd := none }).raise 0x0403
        (src 5 k) (natLe 2 e.vid ++ natBe 6 e.mac))
    else done s
  | none => done s

/-- The learned entries of slice `k` that name a port leave its table: all of them while the port is not up, and those that stood when it
left the up state once it is up again. -/
def State.flushMac (s : State) (p k : Nat) : State :=
  let up := (s.port p).isUp
  (s.setMac k { s.mac k with entries := (s.mac k).entries.filter (fun x => x.2.static || x.2.dest != p || up && !x.2.flushDue) }).safePoint k

/-- MAC_FLUSH_ON_PORT_DOWN (R120, R201, Table 5-2): in each slice whose service engines run; in the others the entries stay due. -/
def execMacFlushOnPortDown (p : PortId) (s : State) : Res :=
  if !s.son 0x0507 then done s
  else done ((List.range 8).foldl (fun s k => if s.sweeps k then s.flushMac p.val k else s) s)

/-- An aged entry leaves the table as the clock of its sweep visit ends, unless a source has hit it on that clock (R121, Table 5-2). -/
def State.ageOut (s : State) (k i : Nat) : State :=
  match Tab.find? (s.mac k).entries i with
  | some e => if e.static ∨ e.frozen ∨ e.touch.any (fun x => x.1 == s.now) then s else (s.eraseMac k i).countSlice k 6
  | none => s

/-- The aged entries of slice `k` leave its table as the clock ends. -/
def State.ageSlice (s : State) (k : Nat) : State :=
  if (s.mac k).aged.isEmpty then s
  else
    let s1 := (s.mac k).aged.foldl (fun s i => s.ageOut k i) s
    s1.setMac k { s1.mac k with aged := [] }

/-- The end of a clock in the MAC tables. -/
def State.macClock (s : State) : State := (List.range 8).foldl (fun s k => s.ageSlice k) s

/-- MAC_AGEING_SWEEP_VISIT (R121): the last overflow entry completes the sweep. A learn or source hit on the clock of the visit comes after
it, and the entry survives (Table 5-2). DESIGN CHOICE (assumption 222): with ageing off the sweep leaves every entry as it is, and the
sweep count still advances. -/
def execMacAgeingSweepVisit (k : SliceId) (loc : MacLoc) (s : State) : Res :=
  if !s.sweeps k then done s
  else
  let i := macIndex loc
  let last := decide (i = macOverflow + 4095)
  let s1 := match Tab.find? (s.mac k).entries i with
    | some e =>
      let same := match e.touch with | some (t, kind) => if t = s.now then some kind else none | none => none
      if e.static ∨ e.frozen ∨ !s.son 0x0509 k then s
      else if same.isSome then s.putMac k i (e.swept (same.getD 0) (s.mac k).sweep)
      else if e.hit then s.putMac k i { e with hit := false, stale := false, lastSeen := (s.mac k).sweep }
      else if !e.stale then s.putMac k i { e with stale := true }
      else s.setMac k { s.mac k with aged := i :: (s.mac k).aged.filter (· != i) }
    | none => s
  let t := s1.mac k
  done ((s1.setMac k { t with sweep := if last then (t.sweep + 1) % 256 else t.sweep }).safePoint k)

/-- An entry with a parity error is invalidated and reported; a static one waits for its restore (R122). -/
def State.macParity (s : State) (k i : Nat) : State :=
  let t := s.mac k
  match Tab.find? t.entries i with
  | none => s
  | some e =>
    ((s.setMac k { t with entries := Tab.erase t.entries i, lost := if e.static then t.lost ++ [(i, e)] else t.lost }).noteFault 1).raise
      0x0404 (src 5 k) (natLe 4 (locationField i))

/-- A lost static entry returns from the master copy: to its own place, from which it evicts a learned entry, or where a static entry has
taken that, to a free one (R115, R122). One in force replaces a learned entry for its key. It stays lost where no place is free. -/
def MacTable.restore (t : MacTable) (i : Nat) (e : MacEntry) : MacTable :=
  let inForce := e.bale.isNone && e.till.isNone
  let rest := t.entries.filter (fun x => !(inForce && x.2.vid == e.vid && x.2.mac == e.mac && x.2.evictable))
  let t1 := { t with entries := rest, lost := t.lost.erase (i, e) }
  let place := if (Tab.find? rest i).all (fun y => y.evictable) then some i else t1.free e.vid e.mac
  match place with
  | some j => { t1 with entries := Tab.insert rest j e }
  | none => t

/-- MAC_STATIC_RESTORE (R122). -/
def execMacStaticRestore (k : SliceId) (vid mac : Nat) (s : State) : Res :=
  let t := s.mac k
  match List.find? (fun (x : Nat × MacEntry) => x.2.vid == vid && x.2.mac == mac) t.lost with
  | some (i, e) =>
    let evicts := (Tab.find? t.entries i).any (fun y => y.evictable && !(y.vid == vid && y.mac == mac))
    let s1 := s.setMac k (t.restore i e)
    done (if evicts then s1.countSlice k 5 else s1)
  | none => done s

/-- One learned entry is copied into a slice, with its hit bit set (R125). A frozen entry of the key keeps its destination (R119). DESIGN CHOICE
(assumption 241): a static or frozen entry of the key refuses the copy, and another takes the destination. -/
def State.copyMac (s : State) (k : Nat) (e : MacEntry) : State × Bool :=
  match (s.mac k).lookup e.vid e.mac s.bales.epoch with
  | some (i, x) =>
    if x.static ∨ x.frozen then (s, false) else (s.putMac k i (x.moved e.dest s.now), true)
  | none => s.placeLearned k
      { mac := e.mac, vid := e.vid, dest := e.dest, hit := true, lastSeen := (s.mac k).sweep, touch := some (s.now, 0) }

/-! ### Entry records (Table 5-1) -/

/-- The record of the entry at index `i` of slice `k`. -/
def MacEntry.bytes (e : MacEntry) (k i : Nat) : Bytes :=
  natBe 6 e.mac ++ natLe 2 e.vid ++ natLe 2 e.dest ++
  natLe 1 (b2n e.static + 2 * b2n e.hit + 4 * b2n e.stale + 8 * b2n e.frozen + 16 * b2n (decide (macOverflow ≤ i))) ++
  natLe 1 e.moves ++ natLe 4 (locationField i) ++ natLe 1 e.lastSeen ++ natLe 1 k ++ [0, 0]

/-! ### Static entries under a bale (R115) -/

/-- A place for a shadow version in slice `k`: free, or by evicting a learned entry. -/
def State.shadowPlace (s : State) (k vid mac : Nat) : Option (Nat × Nat × Bool) :=
  match (s.mac k).free vid mac with
  | some i => some (i, (s.mac k).lfsr, false)
  | none => (s.macVictim k vid mac).map (fun x => (x.1, x.2, true))

/-- A shadow version of a static entry is placed in every slice of the mask, or in none (R115). -/
def State.placeStatic (s : State) (mask : Nat) (e : MacEntry) : Option State :=
  let ks := (List.range 8).filter (fun k => mask.testBit k)
  if ks.all (fun k => (s.shadowPlace k e.vid e.mac).isSome) then
    some (ks.foldl (fun s k =>
      match s.shadowPlace k e.vid e.mac with
      | some (i, l, ev) =>
        let s1 := s.setMac k { s.mac k with lfsr := l }
        (if ev then s1.countSlice k 5 else s1).putMac k i e
      | none => s) s)
  else none

/-! ### Routing (R126 to R129) -/

/-- Key of a prefix object: family, length and the prefix bits. -/
def prefixKey (fam len p : Nat) : Nat := objKey .route (fam * 2 ^ 200 + len * 2 ^ 136 + p)
/-- Address bits of a family. -/
def famBits (fam : Nat) : Nat := if fam = 4 then 32 else 128

/-- A resolved prefix: result (0 next hop, 1 group, 2 management cores, 3 discard), index, and the object. -/
structure RouteHit where
  result : Nat
  index : Nat
  key : Nat
deriving DecidableEq, Repr

/-- Longest-prefix match of an address under epoch `e` (R126). -/
def State.routeLookup (s : State) (fam addr e : Nat) : Option RouteHit :=
  (List.range (famBits fam + 1)).reverse.findSome? (fun len =>
    let key := prefixKey fam len (addr >>> (famBits fam - len))
    (s.objAt key e).map (fun r => ⟨leAt r 20 1, leAt r 22 2, key⟩))

/-- Mark of a route entry with a parity error in a slice (R129). -/
def badRoute (k table id : Nat) : Nat := 8 * (4 * id + table) + k
/-- Number of a routing table in the route-parity event. -/
def routeTableNum : RouteTable → Nat
  | .prefix4 | .prefix6 => 0
  | .nextHop => 1
  | .group => 2

/-- ROUTE_ENTRY_REFRESH (R129). -/
def execRouteEntryRefresh (k : SliceId) (t : RouteTable) (id : Nat) (s : State) : Res :=
  let m := badRoute k (routeTableNum t) id
  if s.bridge.badRoutes.contains m then
    done ({ s with bridge := { s.bridge with badRoutes := s.bridge.badRoutes.filter (· != m) } }.raise 0x0405 (src 5 k)
      (natLe 1 (routeTableNum t)))
  else done s

/-! ### Members and flooding (R124, R131) -/

/-- Epoch `e` is older than the last build of the group, so that it selects the slots before it (R30). -/
def Lag.before (l : Lag) (e : Nat) : Bool := l.was.any (fun w => decide (e < w.1))

/-- The slots that epoch `e` selects (R30, Table 7-3). -/
def Lag.slotsAt (l : Lag) (e : Nat) : Tab Nat :=
  match l.was with
  | some w => if e < w.1 then w.2 else l.slots
  | none => l.slots

/-- The member that slot `i` of group `g` names in epoch `e` (R30, R131). -/
def State.memberOf (s : State) (g i e : Nat) : Option Nat :=
  match Tab.find? ((s.lag g).slotsAt e) i with
  | some n => if n = 0 then none else some (n - 1)
  | none => none

/-- Ports to which a packet of VLAN `v` floods (R124): the member set without the ingress port and its group's other members. -/
def State.floodPorts (s : State) (v : Vlan) (p : Nat) : List Nat :=
  let mates := match s.lagOfPort p with | some g => s.lagMembers g | none => []
  (List.range 96).filter (fun q => v.members.testBit q && q != p && !mates.contains q)

end Sys2Proof.Machine
end

