-- ==== Sys2Proof/Machine/MemOps.lean ====
section
/-! DEFINITION. Memory units, the places of the HBM areas, and reads in flight (R141, R156, R157, R324 to R328, R332). -/

namespace Sys2Proof.Machine

/-- Unit number of kind 12 (Table 16-1). -/
def unitCode (u : Nat) : Nat := if u < 128 then u else 0x100 + (u - 128)
/-- Source field of a memory unit. -/
def srcUnit (u : Nat) : Nat := src 12 (unitCode u)
/-- Adds to count `n` of a memory unit (Table 20-2, block 11). -/
def memClass (u : Nat) : Nat := if u < 128 then 3 else 4
/-- Adds to a count of a memory unit (Table 20-2, block 11). -/
def State.countUnit (s : State) (u n : Nat) (k : Nat := 1) : State := s.count 11 (256 * unitCode u + n) k
/-- A unit is an HBM pseudo-channel. -/
def isHbm (u : Nat) : Bool := decide (u < 128)
/-- A unit is in use, fenced or not. -/
def MemUnit.used (m : MemUnit) : Bool := m.state == 0 || m.state == 1

/-! ### Areas of a pseudo-channel (Table 6-6, Table 13-3) -/

/-- One mebibyte. -/
def mib : Nat := 2 ^ 20
/-- Offsets of the areas in a pseudo-channel: flow table, directory, permit table, journal, overflow, histograms, policy objects and their
mirror, and the unused area. -/
def areaFlow : Nat := 0
def areaDirectory : Nat := 1024 * mib
def areaPermit : Nat := 1056 * mib + 74 * mib + mib / 4
def areaJournal : Nat := areaPermit + 16 * mib
def areaOverflow : Nat := areaJournal + 8 * mib
def areaHistogram : Nat := areaOverflow + mib / 4
def areaPolicy : Nat := areaHistogram + 8 * mib
def areaMirror : Nat := areaPolicy + 32 * mib
def areaEnd : Nat := areaPolicy + 64 * mib

/-! ### The Granary (Table 13-2, Table 13-7) -/

/-- Granary channels in use (R325). -/
def State.granaryUsed (s : State) : List Nat := (List.range 16).filter (fun d => (s.munit (128 + d)).used)
/-- Bytes of a channel that a region has, and the byte at which it starts (Table 13-7): the ledger area keeps its size when a channel
retires, and the others are spread over the channels that remain (R340). -/
def State.granaryShare (s : State) (i : Nat) : Nat := if i = 0 then s.mem.ledgerPart else s.regionBytes i / s.granaryUsed.length
def State.granaryStart (s : State) (i : Nat) : Nat := (List.range i).foldl (fun t j => t + s.granaryShare j) 0
/-- Region in which a byte of a channel lies. -/
def State.granaryRegion (s : State) (a : Nat) : Nat := ((List.range 4).find? (fun i => decide (a < s.granaryStart (i + 1)))).getD 4
/-- Address order of a region (Table 13-3, R343); the ledger's and the reserved region's places are taken by order 0 (assumption 159). -/
def State.granaryOrder (s : State) (i : Nat) : Nat :=
  match i with
  | 1 => s.mem.shares.getD 5 3
  | 2 => s.mem.shares.getD 6 3
  | 3 => s.mem.shares.getD 7 1
  | _ => 0
/-- Bank and row of a byte of a region in a subchannel, by address order (Table 13-2). -/
def granaryPlace (order o : Nat) : Nat × Nat :=
  let page := Config.granaryPage
  let banks := Config.granaryBanks
  if order = 1 then (o / 64 % banks, o / 64 / banks / (page / 64))
  else
    let row := o / page / banks
    (if order = 0 then o / page % banks else o / page % banks ^^^ row % banks ^^^ row / banks % banks, row)

/-- Subchannel of a Granary channel's byte: 64 bytes to each in turn; a pseudo-channel has none (R324). -/
def subchannel (u a : Nat) : Nat := if isHbm u then 0 else a / 64 % 2
/-! ### Places of the flow table -/

/-- First index of the overflow records. -/
def flowOverflow : Nat := 2 ^ 30
/-- The index of a flow location. -/
def flowIndex : FlowLoc → Nat
  | .bucket b slot => 4 * b.val + slot.val
  | .overflow i => flowOverflow + i.val

/-- Block code of a bucket: 128·pseudo-channel + block (R157). -/
def blockOf (b : Nat) : Nat := 128 * (b % 128) + b / 2 ^ 21
/-- Home pseudo-channel of a block. -/
def blockHome (c : Nat) : Nat := c / 128
/-- Pseudo-channel that holds a block. -/
def State.blockPc (s : State) (c : Nat) : Nat := Tab.get (blockHome c) s.mem.blockAt c
/-- Pseudo-channel that holds bucket `b`. -/
def State.bucketPc (s : State) (b : Nat) : Nat := s.blockPc (blockOf b)
/-- A bucket's block is absent (R338). -/
def State.bucketAbsent (s : State) (b : Nat) : Bool := s.mem.absent.contains (blockOf b)
/-- Block that moves with overflow set `i` (R157). -/
def overflowBlock (set : Nat) : Nat := 128 * (set % 128)
/-- The block that holds an overflow set is absent (R338). -/
def State.setAbsent (s : State) (set : Nat) : Bool := s.mem.absent.contains (overflowBlock set)
/-- Pseudo-channel that holds a record's place. -/
def State.placePc (s : State) (loc : Nat) : Nat :=
  if loc < flowOverflow then s.bucketPc (loc / 4) else s.blockPc (overflowBlock ((loc - flowOverflow) / 8))
/-- Start of the spare blocks of a pseudo-channel, and the size of one (R157, Table 13-3). -/
def areaSpare : Nat := 1056 * mib
def spareSize : Nat := 8 * mib + mib / 4
/-- Start of the spare block that a moved block has (R157). -/
def State.spareStart (s : State) (c : Nat) : Nat := areaSpare + Tab.get 0 s.mem.spareIx c * spareSize
/-- A flow block has moved out of its own place. -/
def State.blockMoved (s : State) (c : Nat) : Bool := (Tab.find? s.mem.blockAt c).isSome
/-- Byte, of the pseudo-channel that holds it, at which bucket `b` lies (R141, R157). -/
def State.bucketAddr (s : State) (b : Nat) : Nat :=
  if s.blockMoved (blockOf b) then s.spareStart (blockOf b) + b / 128 % 16384 * 512 else areaFlow + b / 128 * 512
/-- Byte of the pseudo-channel at which a record lies. The overflow sets that move with a block lie at the same offset of their holder's
overflow area (assumption 224). -/
def State.placeAddr (s : State) (loc : Nat) : Nat :=
  if loc < flowOverflow then s.bucketAddr (loc / 4) + loc % 4 * 128
  else areaOverflow + (loc - flowOverflow) / 1024 * 1024 + (loc - flowOverflow) % 8 * 128
/-- Byte of the pseudo-channel at which a bucket's directory entry lies. -/
def State.directoryAddr (s : State) (b : Nat) : Nat :=
  if s.blockMoved (blockOf b) then s.spareStart (blockOf b) + 8 * mib + b / 128 % 16384 * 16 else areaDirectory + b / 128 * 16

/-- The pseudo-channel that holds a bucket of the permit table (R273, R275): half a permit area moves at a time. -/
def State.permitPc (s : State) (b : Nat) : Nat :=
  let pc := b % 128
  let h := Tab.get (pc, pc) s.mem.permitAt pc
  if b / 128 / 16384 % 2 = 0 then h.1 else h.2
/-- Code, in the spare blocks, of the half of a permit area in which a bucket lies, and of a journal area (R337). -/
def permitCode (b : Nat) : Nat := 16384 + 2 * (b % 128) + b / 128 / 16384 % 2
def journalCode (p : Nat) : Nat := 32768 + p
/-- Byte, of the pseudo-channel that holds it, at which a bucket of the permit table lies (R273, R337). -/
def State.permitAddr (s : State) (b : Nat) : Nat :=
  if (Tab.find? s.mem.spareIx (permitCode b)).isSome then s.spareStart (permitCode b) + b / 128 % 16384 * 512 else areaPermit + b / 128 * 512

/-- The pseudo-channel that holds a block by its code in the spare blocks: a flow block, a half of a permit area, or a journal area. -/
def State.spareHolder (s : State) (c : Nat) : Nat :=
  if c < 16384 then s.blockPc c
  else if c < 32768 then
    let a := (c - 16384) / 2
    let h := Tab.get (a, a) s.mem.permitAt a
    if c % 2 = 0 then h.1 else h.2
  else Tab.get (c - 32768) s.mem.journalAt (c - 32768)
/-- Blocks that `p` holds for others, and which of its nine spare blocks each has: flow blocks, halves of permit areas, and journal
areas. -/
def State.sparesOf (s : State) (p : Nat) : List (Nat × Nat) := s.mem.spareIx.filter (fun (x : Nat × Nat) => s.spareHolder x.1 == p)

/-- Start and address order of a spare block: the order of the block that it holds (R327, Table 13-3). -/
def State.spareArea (s : State) (u i : Nat) : Nat × Nat :=
  (areaSpare + i * spareSize, if (s.sparesOf u).any (fun x => x.2 == i && decide (32768 ≤ x.1)) then 1 else 2)
/-- Start and address order of the area in which a byte of a pseudo-channel lies (Table 13-3). -/
def State.areaOf (s : State) (u a : Nat) : Nat × Nat :=
  if a < areaDirectory then (areaFlow, 2)
  else if a < areaSpare then (areaDirectory, 2)
  else if a < areaPermit then s.spareArea u ((a - areaSpare) / spareSize)
  else if a < areaJournal then (areaPermit, 2)
  else if a < areaOverflow then (areaJournal, 1)
  else if a < areaHistogram then (areaOverflow, 2)
  else if a < areaPolicy then (areaHistogram, 2)
  else if a < areaEnd then (areaPolicy, 0)
  else (areaEnd, 0)

/-- Bank and row of a byte of a pseudo-channel (Table 13-2). -/
def State.hbmPlace (s : State) (u a : Nat) : Nat × Nat :=
  let (base, order) := s.areaOf u a
  let o := a - base
  let bank := match order with
    | 1 => bits o 11 6
    | 2 => bits o 15 10 ^^^ bits o 21 16 ^^^ bits o 27 22
    | _ => bits o 15 10
  (bank, base / 65536 + o / 65536)

/-- Bank, numbered over both subchannels, and row of a burst of a unit (Table 13-2). -/
def State.placeOf (s : State) (u a : Nat) : Nat × Nat :=
  if isHbm u then s.hbmPlace u a
  else
    let i := s.granaryRegion a
    let o := (a - s.granaryStart i) / 128 * 64 + a % 64
    let (bank, row) := granaryPlace (s.granaryOrder i) o
    (bank + Config.granaryBanks * subchannel u a, row + s.granaryStart i / 128 * 64 / (Config.granaryPage * Config.granaryBanks))

/-! ### Copies of the policy objects (R327, R337) -/

/-- Own place of a copy of a policy partition, by its code: the primary copy of partition p on pseudo-channel p, its mirror on p XOR 64
(R327). -/
def policyOwn (c : Nat) : Nat × Nat := if c % 2 = 0 then (c / 2, areaPolicy) else (c / 2 ^^^ 64, areaMirror)
/-- Place of a copy: its own, or 32 MiB of the unused area of the pseudo-channel that it was copied to (R337). -/
def State.policyPlace (s : State) (c : Nat) : Nat × Nat :=
  match Tab.find? s.mem.policyAt c with
  | some (q, i) => (q, areaEnd + i * (32 * mib))
  | none => policyOwn c
/-- A copy of a partition serves: its unit is in use, and it is not still being made. -/
def State.policyReady (s : State) (c : Nat) : Bool := (s.munit (s.policyPlace c).1).used && !s.mem.policyMirror.any (fun x => x.2 == c)
/-- The copy that serves a partition: the primary one, or else the mirror (R337). -/
def State.policyServe (s : State) (part : Nat) : Option Nat := [2 * part, 2 * part + 1].find? s.policyReady
/-- Partition of a byte of the customer object region, and its place there (R196, R324, assumption 256). -/
def objectPart (a : Nat) : Nat := a / 32 % 128
def objectOffset (a : Nat) : Nat := a / 4096 * 32
/-- Byte of unit `u` at which an object's byte stands. -/
def State.objectAddr (s : State) (u a : Nat) : Nat :=
  let c := ([2 * objectPart a, 2 * objectPart a + 1].find? (fun c => (s.policyPlace c).1 == u)).getD 0
  (s.policyPlace c).2 + objectOffset a
/-- The copy to which a byte of a pseudo-channel belongs. -/
def State.policyCodeAt (s : State) (u a : Nat) : Option Nat :=
  (List.range 256).find? (fun c => (s.policyPlace c).1 == u && decide ((s.policyPlace c).2 ≤ a) && decide (a < (s.policyPlace c).2 + 32 * mib))

/-- A fence stands over a unit. -/
def State.fenced (s : State) (u : Nat) : Bool := (s.munit u).state == 1

/-! ### Reads -/

/-- Requests that a read queue or a write queue of a unit holds: 64 of a pseudo-channel, 32 of a subchannel (R328). -/
def queueSize (u : Nat) : Nat := if isHbm u then 64 else 32
/-- The requests of the queue that a request belongs to (R328). -/
def MemUnit.queueFor (m : MemUnit) (u : Nat) (r : MemReq) : List MemReq :=
  m.queue.filter (fun x => x.write == r.write && subchannel u x.addr == subchannel u r.addr)
/-- A request enters its queue, unless the queue is full or an earlier access to its burst still waits for room (R328). -/
def MemUnit.enter (u now : Nat) (m : MemUnit) (r : MemReq) : MemUnit :=
  if (m.queueFor u r).length < queueSize u ∧ !m.wait.any (fun x => x.addr == r.addr) then { m with queue := m.queue ++ [{ r with at_ := now }] }
  else { m with wait := m.wait ++ [r] }
/-- What waits for room enters its queues as far as they have it (R328). -/
def MemUnit.fill (u now : Nat) (m : MemUnit) : MemUnit := m.wait.foldl (fun m r => m.enter u now r) { m with wait := [] }
/-- A request has left its queue (R328). -/
def MemUnit.without (u now : Nat) (m : MemUnit) (r : MemReq) : MemUnit :=
  { m with queue := m.queue.filter (fun x => !(x.id == r.id && x.addr == r.addr)) }.fill u now

/-- Bytes of a burst (Table 13-1). -/
def burst (u : Nat) : Nat := if isHbm u then 32 else 64
/-- Requests for `n` bursts come to a unit under one number (R328). -/
def State.queueBursts (s : State) (u addr n : Nat) (write : Bool) : State :=
  let m := s.munit u
  let b := burst u
  let one (i : Nat) : MemReq := { id := s.mem.nextRead, addr := addr / b * b + b * i, write := write, at_ := s.now }
  let s1 := s.setUnit u (((List.range n).map one).foldl (fun (m : MemUnit) r => m.enter u s.now r) m)
  { s1 with mem := { s1.mem with nextRead := s1.mem.nextRead + 1 } }

/-- Writes of `n` bursts to a unit wait in its queue (R328). -/
def State.issueWrite (s : State) (u addr : Nat) (n : Nat := 1) : State := s.queueBursts u addr n true

/-- A read of `n` bursts of a unit is issued for an owner, and waits in the unit's queue (R183, R328). -/
def State.issueRead (s : State) (u addr place : Nat) (directory : Bool) (owner : ReadOwner) (n : Nat := 1) : State :=
  let s1 := s.queueBursts u addr n false
  { s1 with mem := { s1.mem with
      reads := s1.mem.reads ++ [{ id := s.mem.nextRead, unit := u, place := place, directory := directory, owner := owner }] } }

/-- Packet whose operation a read serves. -/
def ownerPkt : ReadOwner → Option Nat
  | .record n | .lock n | .object n => some n
  | .permit _ | .refill | .mirror _ _ _ => none

/-- Reads outstanding for packet `n`. -/
def State.readsOf (s : State) (n : Nat) : List MemRead := s.mem.reads.filter (fun r => ownerPkt r.owner == some n)

/-- A read has left its unit's queue (R328). -/
def State.readIssued (s : State) (r : MemRead) : Bool :=
  ((s.munit r.unit).queue ++ (s.munit r.unit).wait).all (fun q => q.id != r.id)

/-- A packet holds a flow-state transaction: a memory operation of it is outstanding, or it waits on a fence (R35, R159, R183, R194). -/
def State.transacts (s : State) (n : Nat) (p : Packet) : Bool :=
  !(s.readsOf n).isEmpty || (p.stage == .waitRecord && p.record == .wanted && p.exempt)
/-- Flow-state transactions that slice `k` uses (R35, R158). -/
def State.transactions (s : State) (k : Nat) : Nat :=
  s.packets.foldl (fun n (x : Nat × Packet) => if sliceOf x.2.port = k ∧ s.transacts x.1 x.2 then n + 1 else n) 0
/-- A packet's routine waits for a rec.lock. -/
def Packet.waitsLock (p : Packet) : Bool := (p.ctx.bind (·.waiting)).any (fun w => match w with | .lock _ _ => true | _ => false)
/-- Key of the operation that a packet waits with: its rec.lock's, or its own record's (R158). -/
def Packet.waitKey (p : Packet) : Bytes :=
  match p.ctx with
  | some c => if p.waitsLock then c.key else p.key
  | none => p.key
/-- An earlier packet of slice `k` than `n` waits for a transaction (R158). -/
def State.transactionQueue (s : State) (k n : Nat) : Bool :=
  s.packets.any (fun (x : Nat × Packet) => sliceOf x.2.port == k && decide (x.1 < n) && x.2.waitAt.isSome)
/-- Packet `n` of slice `k` may take a transaction now: one is free, and it is its turn in arrival order (R158). -/
def State.transactionFree (s : State) (k n : Nat) : Bool := decide (s.transactions k < 4096) && !s.transactionQueue k n

/-- A correction is counted per unit, and with those of the second before it; more than the threshold call for a retraining at once
(R332, R333). -/
def State.corrected (s : State) (u : Nat) : State :=
  let m := s.munit u
  let c := m.corrections.filter (fun t => decide (s.now < t + sec 1)) ++ [s.now]
  let retry := if s.sn 0x0D05 < c.length ∧ m.used then some (m.retryAt.elim s.now (fun t => min t s.now)) else m.retryAt
  ((s.setUnit u { m with corrections := c, retryAt := retry }).countUnit u 0).noteFault (memClass u)

/-- An uncorrectable error is counted and reported (R332). -/
def State.uncorrectable (s : State) (u addr : Nat) : State :=
  ((s.countUnit u 1).noteFault (memClass u)).raise 0x0802 (srcUnit u) (natLe 8 addr)

/-- A continuation record (R341): its discontinuity flag says that a second fault has struck the stripe. -/
def State.continuation (s : State) (d : Nat) (complete disc : Bool) (lost : Nat) : State :=
  s.record { type := 9, flags := b2n disc, detailA := d + 32 * b2n complete + 2 ^ 32 * lost }

/-- Both copies of a ledger record are in error: it is lost, and a continuation record with its discontinuity flag set follows
(Table 13-8). -/
def State.loseLedger (s : State) (u i : Nat) : State :=
  ({ s with ledger := { s.ledger with ring := Tab.erase s.ledger.ring i } }).continuation (u - 128) false true 1

/-- The other copy of a policy object or ledger record has been read: the copy in error is rewritten, or the record is lost
(Table 13-4, Table 13-8). -/
def State.mirrorDone (s : State) (u a : Nat) (rec_ : Option Nat) (bad : Bool) : State :=
  if !bad then (if (s.munit u).used then s.issueWrite u a else s)
  else match rec_ with
    | some i => s.loseLedger u i
    | none => s

/-- A policy object is in error: it is read from the other copy of its partition, and rewritten (Table 13-4, R337). -/
def State.lostPolicy (s : State) (u a : Nat) : State :=
  match s.policyCodeAt u a with
  | none => s
  | some c =>
    if s.policyReady (c ^^^ 1) then
      s.issueRead (s.policyPlace (c ^^^ 1)).1 ((s.policyPlace (c ^^^ 1)).2 + (a - (s.policyPlace c).2)) a false (.mirror u a none)
    else s

end Sys2Proof.Machine
end

