-- ==== Sys2Proof/Machine/Parse.lean ====
section
/-! DEFINITION. What the parser takes from a frame: tags, EtherType, IP and transport fields, the length hint, the ingress class, and
the flow key (R20 step 3, R123, R138, R239, R296, R304). -/

namespace Sys2Proof.Machine

/-- The fields of a parsed frame. Addresses are 128 bits, IPv4 ones in mapped form (R138). -/
structure Parsed where
  dmac : Nat
  smac : Nat
  /-- TCI of the outer tag with TPID 0x8100 -/
  tci : Option Nat
  /-- tags skipped, 0 to 2 -/
  tags : Nat
  etype : Nat
  /-- offset of the layer-3 header -/
  l3 : Nat
  /-- 4 or 6 for IP, 0 for other frames -/
  ver : Nat
  src : Nat
  dst : Nat
  proto : Nat
  dscp : Nat
  ecn : Nat
  ttl : Nat
  /-- IPv4 total length, or IPv6 payload length + 40 -/
  ipLen : Nat
  /-- a fragment of any kind -/
  frag : Bool
  /-- a fragment that is not the first -/
  laterFrag : Bool
  sport : Nat
  dport : Nat
  /-- offset of the transport header -/
  l4 : Nat
  tcpFlags : Nat
  /-- offset and end of the transport payload -/
  payload : Nat
  payEnd : Nat
deriving DecidableEq, Repr

/-- IPv6 extension headers are walked to the transport header: protocol, offset, and fragment offset and flags if a fragment header
is met. -/
def walkV6 (bs : Bytes) : Nat → Nat → Nat → Option Nat → Nat × Nat × Option Nat
  | 0, nh, off, fr => (nh, off, fr)
  | fuel + 1, nh, off, fr =>
    if nh = 0 ∨ nh = 43 ∨ nh = 60 then walkV6 bs fuel (beAt bs off 1) (off + 8 * (beAt bs (off + 1) 1 + 1)) fr
    else if nh = 44 then walkV6 bs fuel (beAt bs off 1) (off + 8) (some (beAt bs (off + 2) 2))
    else if nh = 51 then walkV6 bs fuel (beAt bs off 1) (off + 4 * (beAt bs (off + 1) 1 + 2)) fr
    else (nh, off, fr)

/-- The IPv4-mapped prefix ::ffff:0:0. -/
def mapped : Nat := 0xFFFF * 2 ^ 32

/-- Source port, destination port, TCP flags and length of the transport header at `l4` (R138). -/
def transport (bs : Bytes) (proto l4 : Nat) (later : Bool) : Nat × Nat × Nat × Nat :=
  if later then (0, 0, 0, 0)
  else if proto = 6 then (beAt bs l4 2, beAt bs (l4 + 2) 2, beAt bs (l4 + 13) 1, 4 * (beAt bs (l4 + 12) 1 / 16))
  else if proto = 17 then (beAt bs l4 2, beAt bs (l4 + 2) 2, 0, 8)
  else if proto = 132 then (beAt bs l4 2, beAt bs (l4 + 2) 2, 0, 12)
  else if (proto = 1 ∧ (beAt bs l4 1 = 0 ∨ beAt bs l4 1 = 8)) ∨ (proto = 58 ∧ (beAt bs l4 1 = 128 ∨ beAt bs l4 1 = 129)) then
    (beAt bs (l4 + 4) 2, 0, 0, 8)
  else (0, 0, 0, 0)

/-- Parse of a frame (R20 step 3, R123): up to two consecutive tags with TPID 0x8100 are skipped. -/
def parse (bs : Bytes) : Parsed :=
  let tag (o : Nat) := beAt bs o 2 == 0x8100
  let tags := if tag 12 then (if tag 16 then 2 else 1) else 0
  let l3 := 14 + 4 * tags
  let etype := beAt bs (l3 - 2) 2
  let nib := beAt bs l3 1 / 16
  let base : Parsed :=
    { dmac := beAt bs 0 6, smac := beAt bs 6 6, tci := if tags = 0 then none else some (beAt bs 14 2), tags := tags
      etype := etype, l3 := l3, ver := 0, src := 0, dst := 0, proto := 0, dscp := 0, ecn := 0, ttl := 0, ipLen := 0
      frag := false, laterFrag := false, sport := 0, dport := 0, l4 := l3, tcpFlags := 0, payload := l3, payEnd := l3 }
  if etype = 0x0800 ∧ nib = 4 then
    let ihl := 4 * (beAt bs l3 1 % 16)
    let fr := beAt bs (l3 + 6) 2
    let later := decide (0 < fr % 8192)
    let proto := beAt bs (l3 + 9) 1
    let l4 := l3 + ihl
    let (sp, dp, fl, hl) := transport bs proto l4 later
    let len := beAt bs (l3 + 2) 2
    { base with
      ver := 4, src := mapped + beAt bs (l3 + 12) 4, dst := mapped + beAt bs (l3 + 16) 4, proto := proto
      dscp := beAt bs (l3 + 1) 1 / 4, ecn := beAt bs (l3 + 1) 1 % 4, ttl := beAt bs (l3 + 8) 1, ipLen := len
      frag := later || fr.testBit 13, laterFrag := later, sport := sp, dport := dp, l4 := l4, tcpFlags := fl
      payload := l4 + hl, payEnd := l3 + len }
  else if etype = 0x86DD ∧ nib = 6 then
    let (proto, l4, fr) := walkV6 bs bs.length (beAt bs (l3 + 6) 1) (l3 + 40) none
    let later := fr.any (fun f => decide (0 < f / 8))
    let (sp, dp, fl, hl) := transport bs proto l4 later
    let tc := beAt bs l3 2 / 16 % 256
    let len := beAt bs (l3 + 4) 2 + 40
    { base with
      ver := 6, src := beAt bs (l3 + 8) 16, dst := beAt bs (l3 + 24) 16, proto := proto, dscp := tc / 4, ecn := tc % 4
      ttl := beAt bs (l3 + 7) 1, ipLen := len, frag := fr.isSome, laterFrag := later, sport := sp, dport := dp, l4 := l4
      tcpFlags := fl, payload := l4 + hl, payEnd := l3 + len }
  else base

/-- The frame is IPv4 or IPv6. -/
def Parsed.isIp (h : Parsed) : Bool := h.ver != 0

/-- Length hint on a port of MTU `mtu` (R296). -/
def Parsed.hint (h : Parsed) (mtu : Nat) : Nat :=
  if h.isIp then min mtu (max 64 (h.l3 + h.ipLen + 12)) else mtu

/-- What is left of a frame for its ingress VLAN: the VLAN, or a discard (R123). -/
inductive VlanOf where
  | vlan (vid pcp : Nat) (tagged : Bool)
  | discard
deriving DecidableEq, Repr

/-- Ingress VLAN of a frame on port `p` under epoch `e` (R123). -/
def State.ingressVlan (s : State) (p e : Nat) (h : Parsed) : VlanOf :=
  let (vid, pcp, tagged) := match h.tci with
    | none => (s.sn 0x050F p, 0, false)
    | some t => (if t % 4096 = 0 then s.sn 0x050F p else t % 4096, t / 8192, decide (0 < t % 4096))
  let accept := s.sn 0x0510 p
  if h.tci.any (fun t => t % 4096 == 4095) ∨ (accept = 1 ∧ !tagged) ∨ (accept = 2 ∧ tagged) then .discard
  else if s.son 0x0511 p ∧ !(s.vlan vid e).members.testBit p then .discard
  else .vlan vid pcp tagged

/-- Ingress class of a frame on port `p` (R304): trust mode 0 DSCP, 1 PCP, 2 port. -/
def State.ingressClass (s : State) (p : Nat) (h : Parsed) : Nat :=
  let mode := s.sn 0x0C09 p 0
  let dflt := s.sn 0x0C09 p 73
  let byPcp := match h.tci with
    | some t => s.sn 0x0C09 p (65 + t / 8192 % 8)
    | none => dflt
  if mode = 2 then dflt
  else if mode = 0 ∧ h.isIp then s.sn 0x0C09 p (1 + h.dscp)
  else byPcp

/-- The 16 bytes of an address in wire order. -/
def addrBytes (a : Nat) : Bytes := natBe 16 a

/-- The flow key of a frame (R138, Table 6-2). -/
def Parsed.key (h : Parsed) (profile zone : Nat) : Bytes :=
  addrBytes h.src ++ addrBytes h.dst ++ natLe 2 h.sport ++ natLe 2 h.dport ++ natLe 1 h.proto ++ natLe 1 profile ++ natLe 2 zone

/-- The match key of a frame, 320 bits as 40 bytes, byte 0 first (Table 10-1). -/
def Parsed.matchKey (h : Parsed) (group vid pcp p : Nat) : Bytes :=
  let cls (kind : Nat) := natBe 1 (64 * kind + group % 64)
  if h.isIp then
    cls (if h.ver = 4 then 0 else 1) ++ addrBytes h.src ++ addrBytes h.dst ++ natBe 2 h.sport ++ natBe 2 h.dport ++
    natBe 1 h.proto ++ natBe 2 (h.dscp * 2 ^ 10 + b2n h.laterFrag * 2 ^ 9 + p)
  else
    cls 2 ++ natBe 6 h.dmac ++ natBe 6 h.smac ++ natBe 2 h.etype ++ natBe 2 ((vid % 4096) * 16 + pcp % 8 * 2) ++
    List.replicate 21 0 ++ natBe 2 p

/-- The bytes over which a member is chosen (R131). DESIGN CHOICE (assumption 244): the VLAN ID is taken as 16 bits, with four zero bits in
front. -/
def Parsed.memberBytes (h : Parsed) (vid : Nat) : Bytes :=
  if h.ver = 4 then
    natBe 4 (h.src % 2 ^ 32) ++ natBe 4 (h.dst % 2 ^ 32) ++ natBe 1 h.proto ++
      (if h.frag then [] else natBe 2 h.sport ++ natBe 2 h.dport)
  else if h.ver = 6 then
    addrBytes h.src ++ addrBytes h.dst ++ natBe 1 h.proto ++ (if h.frag then [] else natBe 2 h.sport ++ natBe 2 h.dport)
  else natBe 6 h.dmac ++ natBe 6 h.smac ++ natBe 2 h.etype ++ natBe 2 (vid % 4096)

/-- The member slot, bits [23:16] of the CRC from a seed (R131). -/
def Parsed.slot (h : Parsed) (vid seed : Nat) : Nat :=
  ((crc32c (BitVec.ofNat 32 seed) (h.memberBytes vid)).toNat >>> 16) % 256

/-- Destination and source of a group-addressed frame. -/
def isGroupMac (mac : Nat) : Bool := mac.testBit 40
/-- The broadcast address. -/
def broadcastMac : Nat := 2 ^ 48 - 1

/-- Kinds of frame that Table 3-6 gives a policer, apart from flooding and the management cores. -/
inductive FrameKind where
  | pause
  | slow
  | lldp
  | ptp
  | arpNd
  | permit
  | plain
deriving DecidableEq, Repr

/-- The gate MAC address: 0 stands for the base MAC address + 1 (R293). -/
def State.gateMac (s : State) : Nat :=
  let m := (List.range 6).foldl (fun n k => 256 * n + s.sn 0x0B03 0 (1 + k)) 0
  if m = 0 then Config.baseMac + 1 else m

/-- The gate addresses in force (R263). -/
def State.gateAddrs (s : State) : List Nat :=
  let v := s.settings.get 0x0B04 0
  (List.range (v.headD 0).toNat).map (fun i => (List.range 16).foldl (fun n k => 256 * n + (v.getD (1 + 16 * i + k) 0).toNat) 0)
/-- The gate UDP port (R263). -/
def State.gateUdp (s : State) : Nat :=
  let v := s.settings.get 0x0B04 0
  (v.getD (1 + 16 * (v.headD 0).toNat) 6173).toNat

/-- A permit frame on a port with intake enabled (R263). -/
def State.isPermitFrame (s : State) (p e : Nat) (h : Parsed) : Bool :=
  s.son 0x0B05 p &&
    ((h.etype == s.sn 0x0B03 && (h.dmac == s.gateMac || (List.range 256).any (fun i => s.routerMac i e == some h.dmac))) ||
     (h.proto == 17 && h.isIp && h.dport == s.gateUdp && s.gateAddrs.contains h.dst))

/-- The kind of a frame (Table 3-6). -/
def State.frameKind (s : State) (p e : Nat) (bs : Bytes) (h : Parsed) : FrameKind :=
  if h.etype = 0x8808 then .pause
  else if h.etype = 0x8809 then .slow
  else if h.etype = 0x88CC then .lldp
  else if h.etype = 0x88F7 then .ptp
  else if h.etype = 0x0806 ∨ (h.ver = 6 ∧ h.proto = 58 ∧ 133 ≤ beAt bs h.l4 1 ∧ beAt bs h.l4 1 ≤ 137) then .arpNd
  else if s.isPermitFrame p e h then .permit
  else .plain

end Sys2Proof.Machine
end

