-- ==== Sys2Proof/Machine/Tiller.lean ====
section
/-! DEFINITION. Tiller: the angle, the reference, holdover, TAI time and its outputs (02_tiller_timebase.md), and the core-clock
tick that carries both scales forward. -/

namespace Sys2Proof.Machine

/-- Nominal frequency in nHz (R50). -/
def State.nominal (s : State) : Nat := s.sn 0x0205 * 1000000

/-- The tracking range of 0.5 Hz to 20 kHz, in nHz (Table 0-4, R38). -/
def inTracking (f : Int) : Nat := clampNat 500000000 20000000000000 f.toNat

/-- The tracked frequency in nHz: that of the last accepted edge, carried on at its rate of change (R46). -/
def State.trackedFreq (s : State) : Nat :=
  inTracking (s.tiller.freq + s.tiller.rate * ((toNs s.now - s.tiller.lastAccepted.getD (toNs s.now) : Nat) : Int) / 1000000000)

/-- Frequency that the output follows, in nHz (Table 2-1). -/
def State.baseFreq (s : State) : Nat :=
  match s.tiller.st with
  | .synthetic => s.nominal
  | .slewing | .locked => s.trackedFreq
  | .holdover | .expired => s.tiller.freq

/-- Frequency that a holdover freezes, in nHz: the estimate of the last accepted edge, or the nominal one (R44, R51). -/
def State.frozenFreq (s : State) : Nat := if s.tiller.st = .synthetic then s.nominal else s.tiller.freq

/-- Increment per core clock at frequency `f` nHz, in 2^-40 au (R37). -/
def incOf (f : Nat) : Nat := f * 2 ^ 56 / 1800000000000000000

/-- The shift of the slew limit: s = 2^-shift (R47). -/
def State.slewShift (s : State) : Nat := (-(s.si 0x020C)).toNat

/-- The shorter way from `a` to `b` around a cycle of `n`; half a cycle goes forward (R49). -/
def shorter (n a b : Nat) : Int :=
  let d := (b + n - a % n) % n
  if 2 * d ≤ n then (d : Int) else (d : Int) - (n : Int)

/-- The synthetic target of the accumulator's fraction of a cycle, in 2^-40 au (R50). -/
def State.syntheticTarget (s : State) : Nat :=
  let t := s.tiller.taiSec * 1000000000 + s.tiller.taiNs
  let d : Int := (t : Int) - (s.sn 0x020F : Int)
  (((d * (s.sn 0x0205 : Int)) % 1000000000000).toNat * 65536 / 1000000000000) * 2 ^ 40

/-- What one core clock corrects TAI by: the frequency trim and a phase slew of at most 100 µs per second, in 10^-9 ninths of a ns
(R52). -/
def State.taiCorr (s : State) : Int := s.tiller.taiTrim + max (-500000) (min 500000 s.tiller.taiSlew)

/-- Increment per core clock before any slew, in 2^-40 au: in the holdover states the angle is advanced against the disciplined TAI
timebase, by which a core clock lasts 5 ninths of a ns and TAI's correction (R37, R44). -/
def State.baseInc (s : State) : Nat :=
  let inc := incOf s.baseFreq
  if s.tiller.st = .holdover ∨ s.tiller.st = .expired then ((inc : Int) * (5000000000 + s.taiCorr) / 5000000000).toNat else inc

/-- What one core clock adds to the accumulator, and the difference then still to be corrected (R47). -/
def State.advance (s : State) : Nat × Int :=
  let inc := s.baseInc
  let lim : Int := (inc / 2 ^ s.slewShift : Nat)
  let gap := if s.tiller.st = .synthetic then shorter (2 ^ 56) s.tiller.phase s.syntheticTarget else s.tiller.gap
  let step := max (-lim) (min lim gap)
  (((inc : Int) + step).toNat, gap - step)

/-- TAI parts after `t` ninths of a ns since the PTP epoch. -/
def taiSplit (t : Nat) : Nat × Nat × Nat := (t / 9000000000, t / 9 % 1000000000, t % 9)

/-- One core clock passes: the angle and TAI time advance, TAI with its trim and a slew of at most 100 µs per second (R37, R52). -/
def State.tick (s : State) : State :=
  let t := s.tiller
  let (add, gap) := s.advance
  let slew : Int := max (-500000) (min 500000 t.taiSlew)
  let acc := t.taiTrimAcc + s.taiCorr
  let whole := acc / 1000000000
  let tai := ((t.taiSec * 1000000000 + t.taiNs) * 9 + t.taiFrac : Int) + 5 + whole
  let (sec', ns', fr) := taiSplit tai.toNat
  { s with
    now := s.now + clk
    tiller := { t with phase := if t.loaded then (t.phase + add) % 2 ^ 104 else t.phase, gap := gap, taiSec := sec', taiNs := ns', taiFrac := fr,
                       taiTrimAcc := acc - 1000000000 * whole, taiSlew := t.taiSlew - slew } }

/-- Frequency against which an edge's period is expected, in nHz (R42). -/
def State.expected (s : State) : Nat := s.baseFreq

/-- The span `d` ns is at least `m` thousandths of the expected period T = 10^18 / f ns. -/
def atLeastT (f d m : Nat) : Bool := decide (m * 1000000000000000000 ≤ d * f * 1000)

/-- The judgement of an edge by its distance from the last accepted one (R42). -/
inductive Judge where
  | accepted
  | early
  | late
deriving DecidableEq, Repr

/-- R42. -/
def State.judge (s : State) (d : Nat) : Judge :=
  if !atLeastT s.expected d (s.sn 0x0207 0 0) then .early
  else if s.sn 0x0207 0 1 * 1000000000000000000 < d * s.expected * 1000 then .late
  else .accepted

/-- The angle that passes in `d` ninths of a ns at the present output rate, slew included, in 2^-40 au (R58). -/
def State.phaseIn (s : State) (d : Nat) : Nat := d * s.advance.1 / clk
/-- The time in ninths of a ns in which an angle of `a`, in 2^-40 au, passes at the present output rate, slew included (R58). -/
def State.timeIn (s : State) (a : Nat) : Nat := a * clk / s.advance.1

/-- Angle of the accumulator at an earlier moment `t` ns, as a part of a cycle in 2^-40 au. -/
def State.phaseAt (s : State) (t : Nat) : Nat :=
  (s.tiller.phase + 2 ^ 104 - s.phaseIn (s.now - ns t) % 2 ^ 104) % 2 ^ 56

/-- Signed angle error of the output at an edge at `t` ns, target less output, in 2^-40 au (R46, R49). -/
def State.edgeError (s : State) (t : Nat) : Int := shorter (2 ^ 56) (s.phaseAt t) (s.sn 0x0202 * 2 ^ 40)

/-- An error in 2^-40 au as whole au. -/
def toAu (e : Int) : Int := e / (2 ^ 40 : Nat)

/-- The state of tracking for a remaining difference (R47). -/
def State.trackState (s : State) (gap : Int) : TillerState :=
  if gap.natAbs ≤ s.sn 0x020D * 2 ^ 40 then .locked else .slewing

/-- Puts Tiller, and reports a change of its state in STATUS. -/
def State.setTiller (s : State) (t : Tiller) : State := { s with tiller := t }.noteStatus

/-- Holdover is entered with a cause (R44). The next edge is the first after the loss, and becomes the anchor (R48). -/
def State.enterHoldover (s : State) (cause : Nat) : State :=
  let f := s.frozenFreq
  let s0 := if cause = 5 then s else s.noteFault 13
  (s0.setTiller { s.tiller with
    st := .holdover, freq := f, rate := 0, gap := 0, cause := cause, holdAt := s.now, rejected := 0
    anchored := false, qualCount := 0, shadow := f, shadowRate := 0, followsTwin := false }).raise
    0x0301 srcDevice (natLe 1 cause)

/-- Time constant of the loop in cycles (Table 2-3). -/
def State.loopCycles (s : State) : Nat := [4, 16, 64, 256].getD (s.sn 0x0206) 16

/-- A whole cycle in 2^-40 au: the jitter while no reference has shown its own. -/
def wholeCycle : Nat := 72057594037927936

/-- The edge jitter that a period of `d` ns shows, in 2^-40 au: what it and the two before it leave of a frequency that is constant or
changes at a constant rate; a whole cycle while there are no two before it (R46). -/
def State.edgeJitter (s : State) (d : Nat) : Nat :=
  match s.tiller.periods with
  | p :: q :: _ => ((d : Int) - 2 * p + q).natAbs * 2 ^ 56 / max 1 d
  | _ => wholeCycle

/-- The jitter with that of a period of `d` ns, filtered with the loop's time constant (R46; DESIGN CHOICE, assumption 208). -/
def State.jitterWith (s : State) (d : Nat) : Nat := s.edgeJitter d + s.tiller.jitter * (s.loopCycles - 1) / s.loopCycles

/-- Frequency in nHz at the end of a period of `d` ns, and its rate of change in nHz per second, as that period and the one before it give
them (R46). -/
def State.measured (s : State) (d : Nat) : Nat × Int :=
  let f := 1000000000000000000 / max 1 d
  match s.tiller.periods with
  | p :: _ =>
    let r : Int := ((f : Int) - (1000000000000000000 / max 1 p : Nat)) * 1000000000 / max 1 d
    (((f : Int) + r * d / 2000000000).toNat, r)
  | [] => (f, 0)

/-- A value held within `lim` of `x`. -/
def near (x : Int) (lim : Nat) (v : Int) : Int := max (x - lim) (min (x + lim) v)

/-- The reference is one that the loop keeps its bound for: within the lock threshold, and changing by no more than a tenth of its
frequency per second (R46). -/
def State.steady (s : State) (d : Nat) (err : Int) : Bool :=
  s.trackState err == .locked && decide ((s.measured d).2.natAbs * 10 ≤ (s.measured d).1)

/-- The new frequency estimate and its rate of change at an accepted edge (R46): free values of the loop, whose coefficients the spec
does not give. Where the reference is steady, each leaves what the edges measure by no more than makes a quarter of ±2 au and the jitter
over the next period; the frequency stays within the tracking range. -/
def State.loop (s : State) (freq : Nat) (rate : Int) (period : Nat) (err : Int) : Nat × Int :=
  let f : Int := Config.loopFreq s.loopCycles freq rate period (toAu err)
  let r := Config.loopRate s.loopCycles freq rate period (toAu err)
  if s.steady period err then
    let (fm, rm) := s.measured period
    let lim := (2 ^ 41 + s.jitterWith period) / 4
    (inTracking (near fm (fm * lim / 2 ^ 56) f), near rm (lim * 2000000000000000000000000000 / (2 ^ 56 * max 1 (period ^ 2))) r)
  else (inTracking f, r)

/-- The phase that the output is slewed toward at an accepted edge whose error is `err`, less the output's, in 2^-40 au (R46, R47, R49).
Within the lock threshold it is the loop's estimate, a free value that leaves the edge by no more than half of ±2 au and the jitter, nor by
more than the threshold; beyond the threshold the whole difference is corrected, by the shorter way. -/
def State.loopGap (s : State) (period : Nat) (err : Int) : Int :=
  if s.trackState err = .locked then
    near err (min ((2 ^ 41 + s.jitterWith period) / 2) (s.sn 0x020D * 2 ^ 40))
      (err + Config.loopPhase s.loopCycles s.tiller.freq s.tiller.rate period (toAu err))
  else err

/-- The loop has taken an accepted edge after a period of `d` ns (R46). -/
def State.loopSeen (s : State) (d : Nat) : State :=
  { s with tiller := { s.tiller with periods := d :: s.tiller.periods.take 1, jitter := s.jitterWith d } }

/-- An accepted edge while a reference is tracked (R46, R47). DESIGN CHOICE (log 212): the signed angle error reported is the output less
the target; the spec does not state its sign. -/
def State.trackEdge (s : State) (t d : Nat) (recent : List Nat) : State :=
  let err := s.edgeError t
  let est := s.loop s.tiller.freq s.tiller.rate d err
  let st := s.trackState err
  let gap := s.loopGap d err
  let s0 := s.loopSeen d
  let s' := s0.setTiller { s0.tiller with
    st := st, freq := est.1, rate := est.2, gap := gap, error := -(toAu err), estPhase := gap / (2 ^ 32 : Nat), lastEdge := some t
    lastAccepted := some t, rejected := 0, recent := recent, stuckMul := s.sn 0x0209, refDelay := s.sn 0x0203 }
  if s.tiller.st = .slewing ∧ st = .locked then s'.raise 0x0303 srcDevice (natLe 4 (est.1 / 1000000)) else s'

/-- The edges of the chatter test with an edge at `t`: those of the last expected period (R43). DESIGN CHOICE (log 211): an edge that came
exactly one period before is not counted; the spec does not say whether the interval holds both its ends. -/
def State.recentEdges (s : State) (t : Nat) : List Nat := t :: s.tiller.recent.filter (fun x => !atLeastT s.expected (t - x) 1000)

/-- An edge has come at `t`, and settings of the reference apply from it (R69). -/
def State.seenEdge (s : State) (t : Nat) (recent : List Nat) : State :=
  { s with tiller := { s.tiller with lastEdge := some t, recent := recent, stuckMul := s.sn 0x0209, refDelay := s.sn 0x0203 } }

/-- An edge is accepted while a reference is tracked, unless it makes chatter (R42, R43). -/
def State.edgeAccepted (s : State) (t d : Nat) (recent : List Nat) : State :=
  if s.sn 0x020A < recent.length then
    (s.seenEdge t recent).enterHoldover 4
  else s.trackEdge t d recent

/-- An edge is rejected while a reference is tracked (R42, R43). -/
def State.edgeRejected (s : State) (t : Nat) (recent : List Nat) : State :=
  let s0 := s.seenEdge t recent
  let s1 := { s0 with tiller := { s0.tiller with rejected := s.tiller.rejected + 1 } }
  if s.sn 0x0208 ≤ s.tiller.rejected + 1 then s1.enterHoldover 3
  else if s.sn 0x020A < recent.length then s1.enterHoldover 4
  else s1

/-- An edge while a reference is tracked (R42, R43). -/
def State.trackedEdge (s : State) (t : Nat) : State :=
  if s.judge (t - s.tiller.lastAccepted.getD t) = .accepted then
    s.edgeAccepted t (t - s.tiller.lastAccepted.getD t) (s.recentEdges t)
  else s.edgeRejected t (s.recentEdges t)

/-- A reference qualifies (R49): the shadow estimate becomes the tracked frequency, and the output slews toward the edge. -/
def State.qualify (s : State) (t f : Nat) (recent : List Nat) : State :=
  let err := s.edgeError t
  s.setTiller { s.tiller with
    st := .slewing, freq := f, rate := s.tiller.shadowRate, gap := err, error := -(toAu err), estPhase := err / (2 ^ 32 : Nat)
    anchored := false, qualCount := 0, lastEdge := some t, lastAccepted := some t, rejected := 0, recent := recent, followsTwin := false
    stuckMul := s.sn 0x0209, refDelay := s.sn 0x0203 }

/-- An edge becomes the anchor of a qualification (R48). -/
def State.anchorEdge (s : State) (t : Nat) : State :=
  { s with tiller := { s.tiller with
      anchored := true, qualCount := 0, shadow := s.baseFreq, shadowRate := 0, lastEdge := some t, lastAccepted := some t, rejected := 0
      recent := [t], stuckMul := s.sn 0x0209, refDelay := s.sn 0x0203, periods := [], jitter := wholeCycle } }

/-- The shadow estimate is `f` and `r` after an accepted edge, and the reference may qualify (R48). -/
def State.shadowEdge (s : State) (t d f : Nat) (r : Int) (recent : List Nat) : State :=
  let s0 := s.loopSeen d
  let s1 := { s0 with tiller := { s0.tiller with shadow := f, shadowRate := r } }
  if s.sn 0x020B ≤ s.tiller.qualCount + 1 then s1.qualify t f recent
  else { s1 with tiller := { s1.tiller with
      qualCount := s.tiller.qualCount + 1, lastEdge := some t, lastAccepted := some t, rejected := 0, recent := recent
      stuckMul := s.sn 0x0209, refDelay := s.sn 0x0203 } }

/-- An edge after the anchor is accepted, and the loop's shadow estimate moves (R48). -/
def State.shadowAccepted (s : State) (t d : Nat) : State :=
  let est := s.loop s.tiller.shadow s.tiller.shadowRate d 0
  s.shadowEdge t d est.1 est.2 (s.recentEdges t)

/-- A late edge during the count: it is rejected, and the lapse that follows it restarts the count with the next edge. Where a longer lapse
time lets rejections reach their limit first, the edge at which they do becomes the anchor (R48). -/
def State.lateEdge (s : State) (t : Nat) : State :=
  if s.sn 0x0208 ≤ s.tiller.rejected + 1 then s.anchorEdge t
  else
    let s0 := s.seenEdge t (s.recentEdges t)
    { s0 with tiller := { s0.tiller with rejected := s.tiller.rejected + 1 } }

/-- An edge while no reference is tracked (R48): an early one and one that makes chatter become the anchor. -/
def State.untrackedEdge (s : State) (t : Nat) : State :=
  let d := t - s.tiller.lastAccepted.getD t
  if !s.tiller.anchored ∨ s.sn 0x020A < (s.recentEdges t).length then s.anchorEdge t
  else match s.judge d with
    | .accepted => s.shadowAccepted t d
    | .early => s.anchorEdge t
    | .late => s.lateEdge t

/-- Tiller tracks a reference. -/
def State.tracking (s : State) : Bool := s.tiller.st == .locked || s.tiller.st == .slewing

/-- Follow mode takes the twin's angle as the reference (R356): the twin is present and locked, and Tiller is synthetic or in holdover, or
follows the twin already; a forced mode takes no reference (R51). -/
def State.following (s : State) : Bool :=
  !s.tiller.ignoring && s.sn 0x0E03 == 1 && s.sheaf.twin == 1 && s.sheaf.twinTiller == 2 &&
  (s.tiller.followsTwin || s.tiller.st == .synthetic || s.tiller.st == .holdover)

/-- The time from `x` to `t` ns has reached the stuck and lapse time, as it stood at the last edge (R43, R69). -/
def State.overdueAt (s : State) (x : Option Nat) (t : Nat) : Bool :=
  x.any (fun y => atLeastT s.expected (t - y) (1000 * s.tiller.stuckMul))
/-- The latest time of an edge that can have come to the ball by now, ns: edges are timed less the reference delay (R42). -/
def State.refNow (s : State) : Nat := toNs s.now - s.tiller.refDelay
/-- The time since `x` ns has reached the stuck and lapse time (R43). -/
def State.overdue (s : State) (x : Option Nat) : Bool := s.overdueAt x s.refNow

/-- The cause met at `t` ns without an edge, if one is: stuck before lapse, by the lower code (R43). -/
def State.lossAt (s : State) (t : Nat) : Option Nat :=
  if s.overdueAt s.tiller.lastEdge t then some 1 else if s.overdueAt s.tiller.lastAccepted t then some 2 else none

/-- The reference is lost without an edge: holdover where one is tracked, and else the count restarts; the next edge is the anchor (R43,
R44, R48). -/
def State.loseReference (s : State) (cause : Nat) : State :=
  if s.tracking then s.enterHoldover cause
  else { s with tiller := { s.tiller with anchored := false, qualCount := 0 } }

/-- An edge of the reference at `t` ns: what is met without an edge by then comes first, under its lower cause code (R43). -/
def State.referenceEdge (s : State) (t : Nat) : State :=
  let s1 := match s.lossAt t with
    | some c => s.loseReference c
    | none => s
  if s1.tracking then s1.trackedEdge t else s1.untrackedEdge t

/-- CYC_REF_EDGE (R42, R43, R46 to R49, R51): an edge whose raw transition came at `t` ns. -/
def execCycRefEdge (rising : Bool) (t : Nat) (s : State) : Res :=
  if rising != (s.sn 0x0201 == 0) || s.tiller.ignoring || s.following then done s
  else done (s.referenceEdge (t - s.sn 0x0203))

/-- TILLER_STUCK (R43, R48). -/
def execTillerStuck (s : State) : Res :=
  if !s.overdue s.tiller.lastEdge || s.tiller.ignoring then done s
  else done (s.loseReference 1)

/-- TILLER_LAPSE (R43, R48). -/
def execTillerLapse (s : State) : Res :=
  if !s.overdue s.tiller.lastAccepted || s.overdue s.tiller.lastEdge || s.tiller.ignoring then done s
  else done (s.loseReference 2)

/-- HOLDOVER_EXPIRED (R45). -/
def execHoldoverExpired (s : State) : Res :=
  if s.tiller.st = .holdover ∧ s.tiller.holdAt + ns (s.sn 0x020E) ≤ s.now then
    done ((s.setTiller { s.tiller with st := .expired }).raise 0x0302 srcDevice [])
  else done s

/-- TILLER_LOCKED (R47, R49). -/
def execTillerLocked (s : State) : Res :=
  if s.tiller.st = .slewing ∧ s.trackState s.tiller.gap = .locked then
    done ((s.setTiller { s.tiller with st := .locked }).raise 0x0303 srcDevice (natLe 4 (s.tiller.freq / 1000000)))
  else done s

/-- Level of CYC_OUT for an output angle (R66, R68). -/
def State.cycLevel (s : State) : Bool :=
  let a := s.angle % 65536
  let r := s.sn 0x0215 0 0
  let f := s.sn 0x0215 0 1
  s.tiller.loaded && s.son 0x0215 0 2 &&
    (if r = f then false else if r < f then decide (r ≤ a ∧ a < f) else decide (r ≤ a ∨ a < f))

/-- CYC_OUT_TOGGLE (R66). -/
def execCycOutToggle (s : State) : Res := done { s with tiller := { s.tiller with cycOut := s.cycLevel } }

/-- Peer-delay state of a port. -/
def State.ptpOf (s : State) (p : Nat) : PtpPort := Tab.get {} s.tiller.ptp p
/-- Puts the peer-delay state of a port. -/
def State.setPtp (s : State) (p : Nat) (x : PtpPort) : State :=
  { s with tiller := { s.tiller with ptp := Tab.put {} s.tiller.ptp p x } }

/-- TAI time now, ns since the PTP epoch. -/
def State.tai (s : State) : Nat := s.tiller.taiSec * 1000000000 + s.tiller.taiNs

/-- A port takes part in PTP: up, and not in OTU4 mode (R53); the PTP stack pauses while a switchover has quiesced Scemas (R419). -/
def State.ptpPort (s : State) (p : Nat) : Bool :=
  s.son 0x0213 && (s.port p).isUp && (s.port p).runMode != 6 && !s.quiesced

/-- The role of the device in PTP is that of a transparent clock (Table 2-8). -/
def State.ptpTransparent (s : State) : Bool := s.sn 0x0213 0 1 == 1

/-- Receive and transmit latency of an Ethernet mode in ns (Table 3-1), and of OTU4 (R95). -/
def rxLatency (m : Nat) : Nat := [0, 115, 150, 260, 60, 90, 700].getD m 700
def txLatency (m : Nat) : Nat := [0, 65, 80, 120, 50, 70, 450].getD m 450
/-- TAI time at which a message that has been decoded now was at the balls, and at which one that is sent now will be: the port compensates
the fixed latencies of its mode (R53, assumption 213). -/
def State.rxTime (s : State) (p : Nat) : Nat := s.tai - rxLatency (s.port p).runMode
def State.txTime (s : State) (p : Nat) : Nat := s.tai + txLatency (s.port p).runMode

/-! ### The boundary clock's ports (R53, assumption 213)

The best master is chosen as IEEE 1588 has it: data sets are compared field by field, lower first. -/

/-- A data set as a number that is lower for a better clock, the port of its announce last. -/
def ptpRank (c : PtpClock) (p : Nat) : Nat :=
  ((((((c.priority1 * 256 + c.clockClass) * 256 + c.accuracy) * 65536 + c.variance) * 256 + c.priority2) * 2 ^ 64 + c.identity) * 65536 +
    c.steps) * 128 + p

/-- Time for which an announce or a sync stands: three intervals of a second. -/
def ptpTimeout : Nat := sec 3

/-- The data set that a port's partner announces, while it stands. -/
def State.foreign (s : State) (p : Nat) : Option PtpClock :=
  match (s.ptpOf p).foreign with
  | some (c, t) => if s.ptpPort p ∧ s.now < t + ptpTimeout then some c else none
  | none => none

/-- The port whose partner is the best master, if it is better than the device itself, with its data set. -/
def State.ptpMaster (s : State) : Option (Nat × PtpClock) :=
  (Tab.keys s.ports).foldl (fun (best : Option (Nat × PtpClock)) p => match s.foreign p with
    | none => best
    | some c => match best with
      | none => if ptpRank c p < ptpRank Config.ptpClock 127 then some (p, c) else none
      | some (q, d) => if ptpRank c p < ptpRank d q then some (p, c) else best) none

/-- The data set that the device announces: its master's one step further, or its own. -/
def State.ptpOwn (s : State) : PtpClock :=
  match s.ptpMaster with
  | some (_, c) => { c with steps := c.steps + 1 }
  | none => Config.ptpClock

/-- A port is a master port: it takes part, it does not face the master, and what the device announces is better than what it hears. -/
def State.ptpLeads (s : State) (p : Nat) : Bool :=
  s.ptpPort p && !s.ptpTransparent && s.ptpMaster.all (fun x => x.1 != p) &&
  (match s.foreign p with | some c => decide (ptpRank s.ptpOwn 0 < ptpRank c 0) | none => true)

/-- The fields that every message of a port carries. -/
def State.ptpMsg (s : State) (p : Nat) (kind : PtpKind) (seq time : Nat) : PtpMessage :=
  { kind := kind, domain := s.sn 0x0213 0 2, twoStep := false, seq := seq, tsSec := time / 1000000000, tsNs := time % 1000000000
    corrNs := 0, utcOffset := 0, clock := { identity := Config.ptpClock.identity, steps := p } }

/-- The announce of a master port, with the profile's TLV (R53). -/
def State.ptpAnnounce (s : State) (p seq : Nat) : PtpMessage :=
  let m := s.ptpMaster.isSome
  { s.ptpMsg p .announce seq 0 with
    utcOffset := s.tiller.utcOffset, clock := s.ptpOwn
    gmId := if m then s.tiller.gmId else Config.ptpGmId, inaccuracy := if m then s.tiller.inaccuracy else Config.ptpInaccuracy }

/-- What a port that takes part sends each second: a peer-delay request, and, as a master port, an announce and a one-step sync (R53,
assumption 22). -/
def State.sendPtp (s : State) (p : Nat) : State :=
  if s.ptpPort p then
    let x := s.ptpOf p
    let n := x.seq
    let s1 := (s.setPtp p { x with t1 := s.txTime p, seq := (n + 1) % 65536 }).emit (.ptp p (s.ptpMsg p .pdelayReq n 0))
    if s.ptpLeads p then (s1.emit (.ptp p (s.ptpAnnounce p n))).emit (.ptp p (s.ptpMsg p .sync n (s.txTime p))) else s1
  else s

/-- Every port sends, once per second. -/
def State.sendPdelay (s : State) : State := (Tab.keys s.ports).foldl (fun s p => s.sendPtp p) s

/-- A source that has been silent is no longer qualified, and a clock that it disciplined is in TAI holdover (R52, R56, assumption 213). -/
def State.dropSilent (s : State) : State :=
  let t := s.tiller
  let ptp := t.ptpOk && s.son 0x0213 && decide (s.now < t.ptpAt + ptpTimeout)
  let pps := t.ppsOk && t.timeRef && decide (s.now < t.ppsAt + ptpTimeout)
  let st := if (t.taiState = 2 ∧ !ptp) ∨ (t.taiState = 3 ∧ !pps) then 4 else t.taiState
  s.setTiller { t with ptpOk := ptp, ppsOk := pps, taiState := st }

/-- TAI_SECOND_BOUNDARY (R52, R53, R130, R432): qualified TAI goes into the RTC, and the ports send what they send each second. -/
def execTaiSecondBoundary (s : State) : Res :=
  let s0 := s.dropSilent
  let s' := if s0.tiller.taiState = 2 ∨ s0.tiller.taiState = 3 then
      { s0 with keeper := if s0.keeper.vkeep then { s0.keeper with rtc := s0.tiller.taiSec, sub := 0, seed := true } else s0.keeper }
    else s0
  done ((Tab.keys s'.ports).foldl (fun s p => s.sendLacp p) s'.sendPdelay)

/-- PPS_OUT_RISE (R67, R68): once after each TAI second boundary, when the configured delay compensation has passed. -/
def execPpsOutRise (s : State) : Res :=
  if s.tiller.loaded && s.son 0x0216 0 1 && decide (s.sn 0x0217 ≤ s.tiller.taiNs) && s.tiller.ppsSec != some s.tiller.taiSec then
    done { s with tiller := { s.tiller with ppsOut := true, ppsRose := s.now, ppsSec := some s.tiller.taiSec } }
  else done s

/-- PPS_OUT_FALL (R67). -/
def execPpsOutFall (s : State) : Res :=
  if s.tiller.ppsRose + ns (s.sn 0x0216) ≤ s.now then
    done { s with tiller := { s.tiller with ppsOut := false } }
  else done s

/-- Priority of TAI source `c` (0 PTP, 1 1PPS, 2 free-run) in the configured list; a source omitted has none (R52). -/
def State.sourceRank (s : State) (c : Nat) : Option Nat := ([0, 1, 2].map (fun k => s.sn 0x0211 0 k)).findIdx? (· == c)

/-- Source `c` disciplines the clock: it is in the list, and no qualified source stands before it; free-running is always qualified
(R52). -/
def State.disciplines (s : State) (c : Nat) : Bool :=
  match s.sourceRank c with
  | none => false
  | some r =>
    let before (k : Nat) (ok : Bool) := ok && k != c && (match s.sourceRank k with | some q => decide (q < r) | none => false)
    !(before 0 s.tiller.ptpOk || before 1 s.tiller.ppsOk || before 2 true)

/-- The TAI clock is stepped by `d` ns, and the event raised (R52). -/
def State.stepTai (s : State) (d : Int) : State :=
  let t := ((s.tai : Int) + d).toNat
  ({ s with tiller := { s.tiller with taiSec := t / 1000000000, taiNs := t % 1000000000, taiSlew := 0 } }).raise
    0x0304 srcDevice (natLe 8 (unsigned 64 d))

/-- A qualified source finds the clock `off` ns ahead of it (R52): the first source after reset steps a large offset, and every
other correction is a slew. `st` is the tai_state of the source. -/
def State.discipline (s : State) (c st : Nat) (off : Int) : State :=
  if s.disciplines c then
    let first := !s.tiller.taiQualified
    let s' := ({ s with tiller := { s.tiller with taiState := st, taiQualified := true, taiOffset := off } }).noteStatus
    if first && decide (s.sn 0x0212 < off.natAbs) then s'.stepTai (-off)
    else { s' with tiller := { s'.tiller with
      taiTrim := max (-500000) (min 500000 (Config.taiTrim s.tiller.taiTrim off)), taiSlew := -off * 9 * 1000000000 } }
  else s

/-- The source order has changed: a clock whose source may discipline it no longer is in TAI holdover (R52, R56). -/
def State.reorderSources (s : State) : State :=
  if (s.tiller.taiState = 2 ∧ !s.disciplines 0) ∨ (s.tiller.taiState = 3 ∧ !s.disciplines 1) then
    s.setTiller { s.tiller with taiState := 4 }
  else s

/-- The expert form of the time-source command steps a clock that a source disciplines, where its offset at the last comparison exceeds the
step threshold that the command sets (R52, assumption 214). -/
def State.commandStep (s : State) : State :=
  if (s.tiller.taiState = 2 ∨ s.tiller.taiState = 3) ∧ s.sn 0x0212 < s.tiller.taiOffset.natAbs then
    let s1 := s.stepTai (-s.tiller.taiOffset)
    { s1 with tiller := { s1.tiller with taiOffset := 0 } }
  else s

/-- Whole seconds, in ns, by which the clock is ahead at an edge of PPS_IN whose own offset is `off`: 1PPS takes its seconds value from PTP
while PTP is qualified, and keeps the clock's own otherwise (R52, assumption 214). -/
def State.ppsSeconds (s : State) (off : Int) : Int :=
  if s.tiller.ptpOk then (s.tiller.ptpOffset - off + 500000000) / 1000000000 * 1000000000 else 0

/-- PPS_IN_EDGE (R52, R467): an edge at `t` ns. 1PPS needs TIME_REF. -/
def execPpsInEdge (t : Nat) (s : State) : Res :=
  if s.tiller.timeRef then
    let s1 := { s with tiller := { s.tiller with ppsOk := true, ppsAt := s.now } }
    let at_ := (s.tai : Int) - ((toNs s.now : Int) - (t : Int))
    let frac := at_ % 1000000000
    let off := if 2 * frac < 1000000000 then frac else frac - 1000000000
    done (s1.discipline 1 3 (off + s.ppsSeconds off))
  else done s

/-- Offset of the clock from a sync that was received at `rx`, ns: `m` gives the time at which it left, and `corr` is the correction of
the sync, with that of its follow-up where it has one (R53). -/
def State.syncOffset (s : State) (p rx : Nat) (corr : Int) (m : PtpMessage) : Int :=
  (rx : Int) - ((m.tsSec * 1000000000 + m.tsNs : Nat) + corr + (s.ptpOf p).delay + s.si 0x0214 p)

/-- A PTP sync has come with its time: the source is qualified (R52, R53). -/
def State.ptpSync (s : State) (p rx : Nat) (corr : Int) (m : PtpMessage) : State :=
  let off := s.syncOffset p rx corr m
  ({ s with tiller := { s.tiller with ptpOk := true, ptpAt := s.now, ptpOffset := off } }).discipline 0 2 off

/-- Port `p` faces the device's PTP master. -/
def State.facesMaster (s : State) (p : Nat) : Bool := s.ptpMaster.any (fun x => x.1 == p)

/-- An announce is noted with its port; that of the master gives the UTC offset and the profile's TLV (R52, R53). -/
def State.hearAnnounce (s : State) (p : Nat) (m : PtpMessage) : State :=
  let s1 := s.setPtp p { s.ptpOf p with foreign := some (m.clock, s.now) }
  if s1.facesMaster p then
    { s1 with tiller := { s1.tiller with utcOffset := m.utcOffset, gmId := m.gmId, inaccuracy := m.inaccuracy } }
  else s1

/-- The frame of a PTP message with another correction field, in 2^-16 ns at offset 8 of the message, and the FCS that follows from the edit
(R311). -/
def withCorrection (bs : Bytes) (ns : Int) : Bytes :=
  if bs.length < 4 then bs
  else
    let body := patch (bs.take (bs.length - 4)) ((parse bs).l3 + 8) (natBe 8 (unsigned 64 (ns * 65536)))
    body ++ fcsBytes (fcs body)

/-- A message that a transparent clock passes on: a one-step sync, or the follow-up of a two-step one, takes the time that the sync spent in
the device, which is a free value, and the delay of the link it came by; the two-step sync itself goes on as it came (R53). -/
def State.passPtp (s : State) (p q : Nat) (m : PtpMessage) : State :=
  if m.kind = .announce ∨ (m.kind = .sync ∧ m.twoStep) then s.emit (.ptp q m)
  else
    let (r, s1) := s.draw
    let stay : Int := rxLatency (s.port p).runMode + r.toNat + txLatency (s.port q).runMode
    let corr := m.corrNs + stay + (s.ptpOf p).delay + s.si 0x0214 p
    s1.emit (.ptp q { m with corrNs := corr, frame := withCorrection m.frame corr })

/-- PTP_MESSAGE_RECEIVE (R53). A boundary clock takes its time from the port that faces its master. -/
def execPtpMessageReceive (p : PortId) (m : PtpMessage) (s : State) : Res :=
  if !s.ptpPort p || m.domain != s.sn 0x0213 0 2 then done s
  else if s.ptpTransparent ∧ (m.kind = .sync ∨ m.kind = .followUp ∨ m.kind = .announce) then
    done ((Tab.keys s.ports).foldl (fun s q => if s.ptpPort q && q != p.val then s.passPtp p q m else s) s)
  else match m.kind with
  | .sync =>
    if !s.facesMaster p then done s
    else if m.twoStep then done (s.setPtp p { s.ptpOf p with syncAt := some (m.seq, s.rxTime p, m.corrNs) })
    else done (s.ptpSync p (s.rxTime p) m.corrNs m)
  | .followUp =>
    match (s.ptpOf p).syncAt with
    | some (q, rx, c) => if q = m.seq ∧ s.facesMaster p then done (s.ptpSync p rx (c + m.corrNs) m) else done s
    | none => done s
  | .pdelayReq => done (s.emit (.ptp p { s.ptpMsg p .pdelayResp m.seq 0 with corrNs := m.corrNs + (s.txTime p - s.rxTime p : Nat) }))
  | .pdelayResp =>
    let x := s.ptpOf p
    let t2 := m.tsSec * 1000000000 + m.tsNs
    let d : Int := ((s.rxTime p : Int) - (x.t1 : Int) - m.corrNs) / 2
    done (s.setPtp p { x with t4 := s.rxTime p, t2 := t2, respCorr := m.corrNs, delay := if m.twoStep then x.delay else d })
  | .pdelayRespFollowUp =>
    let x := s.ptpOf p
    let t3 : Int := (m.tsSec * 1000000000 + m.tsNs : Nat)
    done (s.setPtp p { x with delay := (((x.t4 : Int) - (x.t1 : Int)) - (t3 - (x.t2 : Int)) - x.respCorr - m.corrNs) / 2 })
  | .announce => done (s.hearAnnounce p m)
  | .other => done s

/-- TIME_REF_LOSS (R467, R52): the 1PPS source is disqualified. -/
def execTimeRefLoss (s : State) : Res :=
  let t := s.tiller
  let st := if t.taiState = 3 then 4 else t.taiState
  done (s.setTiller { t with timeRef := false, ppsOk := false, taiState := st })

/-- A Tiller mode command takes effect (R51). A release starts qualification with the next edge; one that releases nothing leaves a
running count as it is (R48). -/
def State.applyForced (s : State) (mode : Nat) : State :=
  if mode = 1 then
    s.setTiller { s.tiller with st := .synthetic, ignoring := true, anchored := false, qualCount := 0 }
  else if mode = 2 then
    if s.tiller.st = .holdover ∨ s.tiller.st = .expired then
      { s with tiller := { s.tiller with ignoring := true, anchored := false, qualCount := 0 } }
    else
      let s' := s.enterHoldover (if s.tracking then (s.lossAt s.refNow).getD 5 else 5)
      { s' with tiller := { s'.tiller with ignoring := true } }
  else if s.tiller.ignoring then { s with tiller := { s.tiller with ignoring := false, anchored := false, qualCount := 0 } }
  else s

/-- TAI, the angle and the cycle number are loaded at a start (R41, R50, R432). -/
def State.loadAngle (s : State) (taiSec taiNs taiState : Nat) : State :=
  let t := taiSec * 1000000000 + taiNs
  let d : Int := (t : Int) - (s.sn 0x020F : Int)
  let ph := ((d * (s.sn 0x0205 : Int) * 65536) / 1000000000000).toNat
  s.setTiller { s.tiller with
    st := .synthetic, phase := ph * 2 ^ 40 % 2 ^ 104, loaded := true, freq := s.nominal, taiSec := taiSec, taiNs := taiNs
    taiFrac := 0, taiState := taiState }

end Sys2Proof.Machine
end

