-- ==== Sys2Proof/Machine/GateCore.lean ====
section
/-! DEFINITION. Keys, replay windows, permit bodies and the permit table, and the gate's ledger records (R263 to R276, R286). -/

namespace Sys2Proof.Machine

/-! ### Keys (R265, R266) -/

/-- A key as a check needs it. -/
structure KeyInfo where
  pub : Bytes
  roles : Nat
  profiles : Nat
  owner : Bool
  notBefore : Nat
  notAfter : Nat
deriving DecidableEq, Repr

/-- Owner key in slot `k`: the last row written for the slot, if it is in use (R265, Table 18-1). -/
def State.ownerKey (s : State) (k : Nat) : Option Bytes :=
  match s.trust.otp.rows.reverse.find? (fun (x : Nat × Bool × Bytes) => x.1 == k) with
  | some (_, true, b) => some b
  | _ => none

/-- The key of an ID, if it is present (R265). -/
def State.keyOf (s : State) (id : Nat) : Option KeyInfo :=
  if 0xFF00 ≤ id ∧ id ≤ 0xFF03 then
    (s.ownerKey (id - 0xFF00)).map (fun b => ⟨b, 2 ^ 32 - 1, 2 ^ 64 - 1, true, 0, 2 ^ 64⟩)
  else match Tab.find? s.gate.ring id with
    | some r => if (leAt r 2 2).testBit 0 then
        some ⟨slice r 32 32, leAt r 4 4, leAt r 8 8, false, leAt r 16 8, leAt r 24 8⟩ else none
    | none => none

/-- A key is within its validity (R266). -/
def State.keyTime (s : State) (k : KeyInfo) : Bool :=
  k.owner || decide (k.notBefore * 1000000000 ≤ s.tai ∧ s.tai ≤ k.notAfter * 1000000000)

/-- The key of an ID, if it is valid (R266). -/
def State.validKey (s : State) (id : Nat) : Option KeyInfo := (s.keyOf id).filter s.keyTime

/-- Roles of Table 11-6. -/
def rolePermit : Nat := 0
def roleMulti : Nat := 1
def roleShut : Nat := 2
def roleReopen : Nat := 3
def roleConfigure : Nat := 4
def roleExpert : Nat := 5
def roleLedger : Nat := 6
/-- A key holds a role; an owner key holds every role (R374). -/
def KeyInfo.has (k : KeyInfo) (r : Nat) : Bool := k.owner || k.roles.testBit r

/-! ### Permit bodies (Table 11-4) -/

/-- Fields of a permit body. -/
def bodyType (b : Bytes) : Nat := beAt b 5 1
def bodyKey (b : Bytes) : Nat := beAt b 8 2
def bodyFlags (b : Bytes) : Nat := beAt b 10 2
def bodyUses (b : Bytes) : Nat := beAt b 12 4
def bodySeq (b : Bytes) : Nat := beAt b 16 8
def bodySelector (b : Bytes) : Bytes := slice b 24 40
def bodyNotBefore (b : Bytes) : Nat := beAt b 64 8
def bodyNotAfter (b : Bytes) : Nat := beAt b 72 8
def bodyDigest (b : Bytes) : Bytes := slice b 96 32
def bodyPair (b : Bytes) : Bool := (bodyFlags b).testBit 0
def allZero (b : Bytes) : Bool := b.all (fun x => x == 0)

/-- Check 1 of Table 11-7: the body is well made. -/
def bodyWellMade (b : Bytes) : Bool :=
  decide (b.length = 192) && beAt b 0 4 == 0x474C554D && beAt b 4 1 == 1 && decide (1 ≤ bodyType b ∧ bodyType b ≤ 3) &&
  beAt b 6 2 == 192 && decide (bodyFlags b < 4) && bodySeq b != 0 &&
  (if bodyType b = 1 then bodyUses b != 0
   else allZero (bodySelector b) && allZero (bodyDigest b) && bodyUses b == 0) &&
  decide (bodyNotBefore b < 2 ^ 48) && decide (bodyNotAfter b < 2 ^ 48)

/-- Check 3: the key is valid and may sign the body. -/
def State.bodyKeyOk (s : State) (b : Bytes) : Bool :=
  match s.validKey (bodyKey b) with
  | none => false
  | some k =>
    if bodyType b = 1 then
      k.has rolePermit && (bodyUses b ≤ 1 || k.has roleMulti) && (k.owner || k.profiles.testBit (beAt b 43 1))
    else if bodyType b = 2 then k.has roleShut
    else k.has roleReopen

/-- Check 4: the times of the body (R271). A shut or reopen body has nothing to stand below while no boot floor is fixed. -/
def State.bodyTimeOk (s : State) (b : Bytes) : Bool :=
  s.tiller.taiState != 0 && decide (s.tiller.taiSec < bodyNotAfter b) &&
  decide ((bodyNotAfter b - bodyNotBefore b) * 1000000000 ≤ s.sn 0x0B06) &&
  (match s.gate.floor with
   | some f => decide (f ≤ bodyNotBefore b * 1000000000)
   | none => bodyType b != 1) &&
  !((bodyFlags b).testBit 1 && decide (beAt b 88 8 < beAt b 80 8))

/-- Replay window of a key. -/
def State.windowOf (s : State) (key : Nat) : Window64 := Tab.get {} s.gate.windows key

/-- A sequence passes a replay window (R269). -/
def Window64.passes (w : Window64) (q : Nat) : Bool :=
  decide (w.high < q) || (decide (q < w.high ∧ w.high ≤ q + 64) && !(w.bitmap.testBit (w.high - q - 1)))

/-- A window takes an accepted sequence (R269). -/
def Window64.take (w : Window64) (q : Nat) : Window64 :=
  if w.high < q then
    let d := q - w.high
    let shifted := if d ≤ 64 then (w.bitmap <<< d) % 2 ^ 64 else 0
    ⟨q, if d ≤ 64 then shifted ||| (1 <<< (d - 1)) else shifted⟩
  else { w with bitmap := w.bitmap ||| (1 <<< (w.high - q - 1)) }

/-- The key's window takes a sequence. -/
def State.takeSeq (s : State) (key q : Nat) : State :=
  { s with gate := { s.gate with windows := Tab.put {} s.gate.windows key ((s.windowOf key).take q) } }

/-- Every body that waits, is verified or is under verification. -/
def State.intakes (s : State) : List Intake := s.gate.queue ++ Tab.values s.gate.verifying ++ s.gate.waiting

/-- Check 5: the sequence is fresh. -/
def State.bodySeqOk (s : State) (b : Bytes) : Bool :=
  (s.windowOf (bodyKey b)).passes (bodySeq b) &&
  !(s.intakes.any (fun i => bodyKey i.body == bodyKey b && bodySeq i.body == bodySeq b))

/-- Checks 1 to 5 of Table 11-7 in order: the cause of the first that fails. -/
def State.bodyCause (s : State) (b : Bytes) : Option Nat :=
  if !bodyWellMade b then some 16
  else if s.gate.isShut ∧ bodyType b ≠ 3 then some s.gate.cause
  else if !s.bodyKeyOk b then some 17
  else if !s.bodyTimeOk b then some 19
  else if !s.bodySeqOk b then some 7
  else none

/-! ### Ledger records of the gate (Table 11-12) -/

/-- A permit decision: code 1 accepted, 2 refused. -/
def State.permitRecord (s : State) (b : Bytes) (source code cause : Nat) : State :=
  if s.owned then
    s.record { type := 3, code := code, cause := cause, flags := 2 * b2n (bodyPair b) + 4 * b2n (source == 0x300),
               source := source, key := bodyKey b, seq := bodySeq b, selector := bodySelector b, digest := bodyDigest b,
               detailA := bodyUses b }
  else { s with gate := { s.gate with unowned := s.gate.unowned + b2n (code == 2) } }

/-- A refusal at checks 1 to 5 joins the aggregate of its source, cause and second (R267). -/
def State.aggregate (s : State) (source cause : Nat) : State :=
  if s.owned then
    let now := s.now / sec 1
    let hit (a : Aggregate) : Bool := a.source == source && a.cause == cause && a.sec == now
    let l := s.gate.aggregates
    let l2 : List Aggregate :=
      if l.any hit then l.map (fun a => if hit a then { a with count := a.count + 1 } else a)
      else l ++ [{ source := source, cause := cause, count := 1, sec := now }]
    { s with gate := { s.gate with aggregates := l2 } }
  else { s with gate := { s.gate with unowned := s.gate.unowned + 1 } }

/-- Held packets whose PDU has a selector and digest meet a reason (R279). -/
def State.meetReason (s : State) (sel dig : Bytes) (code cause : Nat) : State :=
  (Tab.values s.packets |>.zip (Tab.keys s.packets)).foldl (fun s (x : Packet × Nat) =>
    if (x.1.stage = .held ∨ x.1.stage = .behind) ∧ x.1.pdus.any (fun u => u.selector == sel && u.digest == dig) then
      s.setPkt x.2 { x.1 with reasons := x.1.reasons ++ [(code, cause)] }
    else s) s

/-- A permit body is refused: held packets of its selector and digest learn the cause (R279). -/
def State.refuseBody (s : State) (b : Bytes) (cause : Nat) : State :=
  if bodyType b = 1 then s.meetReason (bodySelector b) (bodyDigest b) (if cause = 7 then 4 else 2) cause else s

/-! ### The permit table (R273 to R275) -/

/-- Candidate buckets of a selector (R273). -/
def State.permitBuckets (s : State) (sel : Bytes) : Nat × Nat :=
  let b1 := (crc32c (BitVec.ofNat 32 (s.sn 0x0B0A 0 0)) sel).toNat % 2 ^ 22
  let b2 := (crc32h (BitVec.ofNat 32 (s.sn 0x0B0A 0 1)) sel).toNat % 2 ^ 22
  (b1, if b2 % 128 = b1 % 128 then b2 ^^^ 64 else b2)

/-- Entry at an index 4·bucket + slot. -/
def State.permitAt (s : State) (i : Nat) : Option PermitEntry := Tab.find? s.gate.permits i
/-- Free slots of a bucket, lowest first. -/
def State.permitFree (s : State) (b : Nat) : List Nat :=
  ((List.range 4).map (fun k => 4 * b + k)).filter (fun i => (s.permitAt i).isNone)
/-- Indexes of the entries of a bucket. -/
def State.permitUsed (s : State) (b : Nat) : List Nat :=
  ((List.range 4).map (fun k => 4 * b + k)).filter (fun i => (s.permitAt i).isSome)

/-- The slot that a new entry takes: in the less full candidate, or in b1 (R273). -/
def State.permitSlot (s : State) (sel : Bytes) : Option Nat :=
  let (b1, b2) := s.permitBuckets sel
  let f1 := s.permitFree b1
  let f2 := s.permitFree b2
  if f1.length < f2.length then f2.head? else f1.head?

/-- Entries of a selector, with their indexes, in both candidate buckets. -/
def State.permitsOf (s : State) (sel : Bytes) : List (Nat × PermitEntry) :=
  let (b1, b2) := s.permitBuckets sel
  (s.permitUsed b1 ++ s.permitUsed b2).filterMap (fun i => (s.permitAt i).bind (fun e =>
    if slice e.bytes 0 40 = sel then some (i, e) else none))

/-- Fields of an entry (Table 11-9). -/
def entryDigest (b : Bytes) : Bytes := slice b 40 32
def entryKey (b : Bytes) : Nat := leAt b 72 2
def entryFlags (b : Bytes) : Nat := leAt b 74 2
def entryUses (b : Bytes) : Nat := leAt b 76 4
def entrySeq (b : Bytes) : Nat := leAt b 80 8
def entryState (b : Bytes) : Nat := leAt b 120 4
def entryPending (b : Bytes) : Bool := (entryState b).testBit 30

/-- Source field of an entry: 0 wire, 1 mailbox, 2 bale, 3 twin (Table 11-9). -/
def entrySource (source : Nat) : Nat :=
  if source < 96 then 0 else if source = 0x200 then 2 else if source = 0x300 then 3 else 1

/-- The 128 bytes of the entry of a permit body (Table 11-9). -/
def entryOf (b : Bytes) (source : Nat) : Bytes :=
  bodySelector b ++ bodyDigest b ++ natLe 2 (bodyKey b) ++ natLe 2 (bodyFlags b) ++ natLe 4 (bodyUses b) ++ natLe 8 (bodySeq b) ++
  natLe 8 (bodyNotBefore b) ++ natLe 8 (bodyNotAfter b) ++ natLe 8 (beAt b 80 8) ++ natLe 8 (beAt b 88 8) ++
  natLe 4 (2 ^ 31 + entrySource source * 2 ^ 28) ++ natLe 4 0

/-- The entry is committed, and in force (R283, R291). -/
def PermitEntry.inForce (e : PermitEntry) : Bool := e.bale.isNone && !e.waits

/-- Entries of the permit table. -/
def State.permitCount (s : State) : Nat := (Tab.values s.gate.permits).foldl (fun n e => if e.inForce then n + 1 else n) 0

/-- The occupancy thresholds are compared again, and crossings reported (R273). -/
def State.permitLevel (s : State) : State :=
  [(0, 80), (1, 90)].foldl (fun s (x : Nat × Nat) =>
    let above := decide (x.2 * 16777216 ≤ s.permitCount * 100)
    if above = s.gate.above.testBit x.1 then s
    else ({ s with gate := { s.gate with above := s.gate.above ^^^ (1 <<< x.1) } }).raise 0x0603 srcDevice
      (natLe 1 x.2 ++ natLe 1 (b2n above))) s

/-- Puts an entry. -/
def State.putPermit (s : State) (i : Nat) (e : PermitEntry) : State :=
  ({ s with gate := { s.gate with permits := Tab.insert s.gate.permits i e } }).permitLevel
/-- Removes an entry. -/
def State.erasePermit (s : State) (i : Nat) : State :=
  ({ s with gate := { s.gate with permits := Tab.erase s.gate.permits i } }).permitLevel
/-- Removes the entries that a test names. -/
def State.dropPermits (s : State) (gone : PermitEntry → Bool) : State :=
  ({ s with gate := { s.gate with permits := s.gate.permits.filter (fun (x : Nat × PermitEntry) => !gone x.2) } }).permitLevel

/-- The permits of a key can be consumed no more (R266). -/
def State.killPermits (s : State) (key : Nat) : State :=
  { s with gate := { s.gate with permits := s.gate.permits.map (fun x => (x.1, { x.2 with dead := x.2.dead || entryKey x.2.bytes == key })) } }
/-- A key ID now names `new` where it named `old`: unless it is the same public key, valid and with the permit role, the permits of the key
are dead from this tick onward (R266). -/
def State.rekeyPermits (s : State) (id : Nat) (old new : Option KeyInfo) : State :=
  match old, new with
  | some k, some k1 => if k.pub = k1.pub ∧ s.keyTime k1 ∧ k1.has rolePermit then s else s.killPermits id
  | some _, none => s.killPermits id
  | none, _ => s

/-- An entry takes effect: its selector and digest are no longer spent (R279). -/
def State.unspend (s : State) (b : Bytes) : State :=
  { s with gate := { s.gate with spent := s.gate.spent.filter (fun x => x != bodySelector b ++ bodyDigest b) } }

/-! ### Intake (R267, R268) -/

/-- Seal pair `sp` is in service. -/
def State.sealOk (s : State) (sp : Nat) : Bool := Tab.get 0 s.gate.sealSt sp == 0
/-- Seal pairs in service and free, lowest first. -/
def State.sealFree (s : State) : List Nat :=
  (List.range 32).filter (fun sp => s.sealOk sp && (Tab.find? s.gate.verifying sp).isNone)
/-- Not every seal pair is retired (R268). -/
def State.sealAny (s : State) : Bool := (List.range 32).any (fun sp => Tab.get 0 s.gate.sealSt sp != 2)

/-- The free pair with the lowest number takes the oldest body that it has not disagreed over, as long as one can (R268). -/
def State.feedSeals : Nat → State → State
  | 0, s => s
  | n + 1, s =>
    match s.sealFree.findSome? (fun sp => (s.gate.queue.find? (fun i => !i.tried.contains sp)).map (fun i => (sp, i))) with
    | none => s
    | some (sp, i) =>
      let g := s.gate
      State.feedSeals n { s with gate := { g with queue := g.queue.erase i, verifying := Tab.insert g.verifying sp i } }

/-- The same body came by a higher line port on this clock (Table 11-16). -/
def State.sameClock (s : State) (b : Bytes) (source : Nat) : Option Intake :=
  s.intakes.find? (fun i => i.body == b && i.at_ == s.now && decide (source < i.source ∧ i.source < 96))
/-- What is taken in of a body is known as its port's (Table 11-16). -/
def Intake.from (source : Nat) (b : Bytes) (i : Intake) : Intake := if i.body = b then { i with source := source } else i
/-- A body that came by a higher port on this clock is the lower port's, and the other is refused (Table 11-16). -/
def State.lowerPort (s : State) (b : Bytes) (source other : Nat) : State :=
  let g := s.gate
  let f := Intake.from source b
  ({ s with gate := { g with
      queue := g.queue.map f
      verifying := g.verifying.map (fun (x : Nat × Intake) => (x.1, f x.2))
      waiting := g.waiting.map f } }).aggregate other 7

/-- A body arrives: checks 1 to 6 run, and it enters the intake queue (R267, R268). The cause of a refusal is answered; check 6
answers 0. -/
def State.takeBody (s : State) (b : Bytes) (source : Nat) : Option Nat × State :=
  match s.sameClock b source, s.bodyCause b with
  | some i, _ => (none, s.lowerPort b source i.source)
  | none, some c => (some c, (s.aggregate source c).refuseBody b c)
  | none, none =>
    if 16384 ≤ s.gate.queue.length then (some 0, { s with gate := { s.gate with intakeFull := s.gate.intakeFull + 1 } })
    else if !s.sealAny then (some 21, (s.permitRecord b source 2 21).refuseBody b 21)
    else
      let i : Intake := { body := b, source := source, at_ := s.now }
      (none, State.feedSeals 32 { s with gate := { s.gate with queue := s.gate.queue ++ [i] } })

/-- PERMIT_FRAME_RECEIVE (R263, R267): the frame has passed its policer and is consumed. -/
def execPermitFrameReceive (p : PortId) (body : Bytes) (s : State) : Res :=
  if (s.port p).isUp ∧ s.son 0x0B05 p then done (s.takeBody body p).2 else done s

/-- The record of an aggregate is written, once the ledger queue has room for it (R267, R288). -/
def State.writeAggregate (s : State) (a : Aggregate) : State :=
  if s.owned ∧ s.ledgerFull then s
  else
    let s1 := s.record { type := 4, cause := a.cause, source := a.source, detailA := a.count }
    { s1 with gate := { s1.gate with aggregates := s1.gate.aggregates.erase a } }

/-- AGGREGATE_REFUSAL_RECORD (R267): one record for each source and cause of each second that has ended. -/
def execAggregateRefusalRecord (s : State) : Res :=
  let ended (a : Aggregate) : Bool := decide (a.sec < s.now / sec 1)
  done ((s.gate.aggregates.filter ended).foldl State.writeAggregate s)

end Sys2Proof.Machine
end

