-- ==== Sys2Proof/Machine/PortBlocks.lean ====
section
/-! DEFINITION. Translation pools and their port-block allocators, and the checkpoints that translation offers to the twin (R217 to
R219, R220, R355). -/

namespace Sys2Proof.Machine

/-- A translation pool (R217, Table 16-5). -/
structure PoolConf where
  first : Nat
  count : Nat
  lo : Nat
  hi : Nat
  /-- block size B -/
  size : Nat
  maxBlocks : Nat
  /-- block hold time, s -/
  hold : Nat
deriving DecidableEq, Repr

/-- A pool from its record. -/
def poolConfOf (r : Bytes) : PoolConf :=
  ⟨beAt r 4 4, leAt r 8 4, leAt r 12 2, leAt r 14 2, leAt r 16 2, leAt r 18 1, leAt r 20 4⟩

/-- Pool `n` under epoch `e`. -/
def State.poolConf (s : State) (n e : Nat) : Option PoolConf := (s.objAt (objKey .transPool n) e).map poolConfOf

/-- Blocks that each address carries (R217). -/
def PoolConf.blocks (c : PoolConf) : Nat := if c.size = 0 then 0 else (c.hi - c.lo + 1) / c.size

/-- The free blocks of a pool as they are first filled: by block index, and within each by ascending address (R217). -/
def PoolConf.fill (c : PoolConf) : List Nat :=
  ((List.range c.blocks).map (fun b => (List.range c.count).map (fun a => 65536 * (c.first + a) + b))).flatten

/-- The pair ID; 0 while no twin is configured (R352). -/
def State.pairId (s : State) : Nat := (List.range 8).foldl (fun n k => n + s.sn 0x0E01 0 k * 256 ^ k) 0

/-- This device may bind a block: its own half of the pool while a twin is configured, and no block that the twin has bound (R355). -/
def State.mayBind (s : State) (a : PoolAlloc) (block : Nat) : Bool :=
  decide (s.pairId = 0 ∨ block % 2 = s.sheaf.rank % 2) && !a.twinBound.contains block

/-- Port at position `i` of a binding, as 65,536 · address + port. -/
def PoolConf.portAt (c : PoolConf) (b : Binding) (i : Nat) : Nat :=
  let block := b.blocks.getD (i / c.size) 0
  65536 * (block / 65536) + (c.lo + block % 65536 * c.size + i % c.size)

/-- Block of a port. -/
def PoolConf.blockOfPort (c : PoolConf) (u : Nat) : Nat :=
  65536 * (u / 65536) + (if c.size = 0 then 0 else (u % 65536 - c.lo) / c.size)

/-- An address of the pool. -/
def PoolConf.holds (c : PoolConf) (addr : Nat) : Bool := decide (c.first ≤ addr ∧ addr < c.first + c.count)
/-- Two pools cut their ports into the same blocks. -/
def PoolConf.sameCut (a b : PoolConf) : Bool := a.lo == b.lo && a.hi == b.hi && a.size == b.size

/-- Blocks that are bound, here or by the twin, and blocks of the ports in use. -/
def PoolAlloc.taken (a : PoolAlloc) (c : PoolConf) : List Nat :=
  (a.bindings.flatMap (·.blocks)) ++ a.twinBound ++ a.used.map c.blockOfPort

/-- A pool that becomes `y` keeps every block that is taken: at its address, and cut as before (R217, R236). -/
def PoolAlloc.fits (a : PoolAlloc) (x y : PoolConf) : Bool :=
  (a.taken x).isEmpty || (x.sameCut y && (a.taken x).all (fun u => y.holds (u / 65536)))

/-- The allocator of a pool that becomes `y` (R217): blocks of addresses that left it go, blocks of new addresses join the FIFO at its
tail in the order of the first fill; a pool cut into other blocks is filled anew. -/
def PoolAlloc.become (a : PoolAlloc) (x y : PoolConf) : PoolAlloc :=
  if !a.filled then a
  else if x.sameCut y then
    { a with free := a.free.filter (fun u => y.holds (u / 65536)) ++ y.fill.filter (fun u => !x.holds (u / 65536)) }
  else { refused := a.refused }

/-- The first free port at or after the cursor, once round the binding's blocks: its position (R217). -/
def PoolConf.findPort (c : PoolConf) (a : PoolAlloc) (b : Binding) : Option Nat :=
  let n := b.blocks.length * c.size
  ((List.range n).map (fun k => (b.cursor + k) % n)).find? (fun i => !a.used.contains (c.portAt b i))

/-- Bindings and bound blocks of all pools (R217). -/
def State.bound (s : State) : Nat × Nat :=
  (Tab.values s.svc.pools).foldl (fun (x : Nat × Nat) (a : PoolAlloc) =>
    (x.1 + a.bindings.length, x.2 + a.bindings.foldl (fun n b => n + b.blocks.length) 0)) (0, 0)

/-- Puts a pool's allocator, its FIFO filled on first use. -/
def State.filledAlloc (s : State) (n : Nat) (c : PoolConf) : PoolAlloc :=
  let a := s.alloc n
  if a.filled then a else { a with free := c.fill, filled := true }

/-- What an allocation answers: a port, with the block it newly bound, or the cause of the refusal: 0 pool exhausted, 1 quota,
2 allocator full (R219). -/
inductive PortResult where
  | port (u : Nat) (newBlock : Option Nat)
  | refused (cause : Nat)
deriving DecidableEq, Repr

/-- The binding takes the port at position `i`. -/
def takePort (c : PoolConf) (a : PoolAlloc) (b : Binding) (i : Nat) : Nat × PoolAlloc :=
  let u := c.portAt b i
  let others := a.bindings.filter (fun x => !(x.src == b.src && x.zone == b.zone))
  (u, { a with
    bindings := others ++ [{ b with cursor := i + 1 }]
    used := u :: a.used
    holding := Tab.erase a.holding (c.blockOfPort u) })

/-- A creation finds no port in pool `n`: counted by cause, with the event at most once per second and pool (R219). -/
def State.refusePort (s : State) (n cause : Nat) : State :=
  let a := s.alloc n
  (s.setAlloc n { a with refused := a.refused.mapIdx (fun i v => if i = cause then v + 1 else v) }).raiseLimited 0x0506 (src 11 n) (sec 1)
    (natLe 1 cause ++ [0, 0, 0]) 4

/-- A creation takes a port of pool `n` for an internal source and zone (R217, R219). -/
def State.takePort (s : State) (n : Nat) (c : PoolConf) (source zone : Nat) : PortResult × State :=
  let a := s.filledAlloc n c
  let isNew := !(a.bindings.any (fun x => x.src == source && x.zone == zone))
  let b := (a.bindings.find? (fun x => x.src == source && x.zone == zone)).getD { src := source, zone := zone }
  match c.findPort a b with
  | some i =>
    let (u, a') := Machine.takePort c a b i
    (.port u none, s.setAlloc n a')
  | none =>
    let refuse (cause : Nat) : PortResult × State := (.refused cause, (s.setAlloc n a).refusePort n cause)
    match a.free.find? (s.mayBind a) with
    | none => refuse 0
    | some block =>
      let (bs, bl) := s.bound
      if c.maxBlocks ≤ b.blocks.length then refuse 1
      else if (isNew ∧ 262144 ≤ bs) ∨ min 262144 (2 ^ 26 / c.size) ≤ bl then refuse 2
      else
        let i := b.blocks.length * c.size
        let (u, a') := Machine.takePort c { a with free := a.free.erase block } { b with blocks := b.blocks ++ [block] } i
        (.port u (some block), s.setAlloc n a')

/-- A port returns to its binding; a block with no port in use begins its hold time (R218). -/
def State.givePort (s : State) (n u : Nat) (c : PoolConf) : State :=
  let a := s.alloc n
  if a.used.contains u then
    let used := a.used.erase u
    let block := c.blockOfPort u
    let idle := used.all (fun x => c.blockOfPort x != block)
    s.setAlloc n { a with used := used, holding := if idle then Tab.insert a.holding block (s.now + sec c.hold) else a.holding }
  else s

/-- Cursor of a binding once its block at place `i` is gone. -/
def cursorAfter (size i cursor : Nat) : Nat :=
  if i < cursor / size then cursor - size else if i = cursor / size then i * size else cursor

/-- A block leaves its binding and returns to the tail of the FIFO; a binding with no blocks goes (R218). -/
def releaseBlock (c : PoolConf) (a : PoolAlloc) (block : Nat) : PoolAlloc :=
  let strip (b : Binding) : Binding :=
    { b with blocks := b.blocks.erase block, cursor := cursorAfter c.size (b.blocks.idxOf block) b.cursor }
  { a with
    free := a.free ++ [block]
    holding := Tab.erase a.holding block
    bindings := (a.bindings.map (fun b => if b.blocks.contains block then strip b else b)).filter (fun b => !b.blocks.isEmpty) }

/-- The binding that holds a block. -/
def PoolAlloc.holder (a : PoolAlloc) (block : Nat) : Option Binding := a.bindings.find? (fun b => b.blocks.contains block)

/-- A checkpoint is offered to the twin off the frame path (R220, R355): it queues while the twin is present, unless checkpoints are
off or the queue is full. -/
def State.offer (s : State) (c : Checkpoint) : State :=
  if s.sheaf.twin = 1 ∧ s.son 0x0E04 then
    if s.sheaf.outq.length < 65536 then { s with sheaf := { s.sheaf with outq := s.sheaf.outq ++ [c] } }
    else { s with sheaf := { s.sheaf with dropped := s.sheaf.dropped + 1 } }
  else s

end Sys2Proof.Machine
end

