-- ==== Sys2Proof/Machine/Export.lean ====
section
/-! DEFINITION. IPFIX records, export staging and the bytes of messages, and the flow archive (R231 to R235). -/

namespace Sys2Proof.Machine

/-! ### Fields of a record (Table 6-2, Table 6-3) -/

/-- The 40 key bytes. -/
def recKey (b : Bytes) : Bytes := slice b 0 40
def recSrc (b : Bytes) : Nat := beAt b 0 16
def recDst (b : Bytes) : Nat := beAt b 16 16
def recSport (b : Bytes) : Nat := leAt b 32 2
def recDport (b : Bytes) : Nat := leAt b 34 2
def recProto (b : Bytes) : Nat := leAt b 36 1
def recProfile (b : Bytes) : Nat := leAt b 37 1
def recZone (b : Bytes) : Nat := leAt b 38 2
def recState (b : Bytes) : Nat := leAt b 40 4
def recFirst (b : Bytes) : Nat := leAt b 48 8
def recLast (b : Bytes) : Nat := leAt b 56 8
def recPair (b : Bytes) : Nat := leAt b 96 4
def recTcp (b : Bytes) : Nat := leAt b 101 1
def recW4 (b : Bytes) : Nat := leAt b 120 4
def recW5 (b : Bytes) : Nat := leAt b 124 4
/-- Bits of the state word. -/
def bitHit : Nat := 30
def bitStale : Nat := 29
def bitPinned : Nat := 28
def bitHost : Nat := 27
def bitOverflow : Nat := 26
def bitPaired : Nat := 25
def bitArchive : Nat := 24
/-- Sweep class. -/
def recClass (b : Bytes) : Nat := bits (recState b) 23 21
/-- A bit of the state word. -/
def recBit (b : Bytes) (i : Nat) : Bool := (recState b).testBit i
/-- `n` with bit `i` set or cleared. -/
def setBit (n i : Nat) (v : Bool) : Nat := if n.testBit i = v then n else n ^^^ (1 <<< i)
/-- Writes a little-endian field. -/
def recPut (b : Bytes) (off size v : Nat) : Bytes := patch b off (natLe size v)
/-- Sets or clears a bit of the state word. -/
def recSetBit (b : Bytes) (i : Nat) (v : Bool) : Bytes := recPut b 40 4 (setBit (recState b) i v)
/-- Assigns the sweep class. -/
def recSetClass (b : Bytes) (c : Nat) : Bytes := recPut b 40 4 (recState b - 2 ^ 21 * recClass b + 2 ^ 21 * (c % 8))
/-- The IPv4 address of a mapped address. -/
def v4Of (a : Nat) : Nat := a % 2 ^ 32
/-- The address is IPv4 (R138). -/
def isV4 (a : Nat) : Bool := a / 2 ^ 32 == 0xFFFF

/-- A record holds the translation of its own direction, whatever its profile has become: an IPv4-mapped address or the destination kind, and
not reverse (Table 9-1, R218). -/
def translated (b : Bytes) : Bool :=
  let w := recW4 b
  !w.testBit 26 && (w.testBit 27 || slice b 104 12 == List.replicate 10 0 ++ [0xFF, 0xFF])

/-- The record holds a source translation (Table 9-1). -/
def sourceTranslated (b : Bytes) : Bool := translated b && !(recW4 b).testBit 27

/-! ### IPFIX (R231, R232) -/

/-- The time now in UNIX seconds: TAI less the UTC offset (R52, RFC 7011). -/
def State.unixTime (s : State) : Nat := unsigned 32 ((s.tiller.taiSec : Int) - s.tiller.utcOffset)

/-- dateTimeNanoseconds of a TAI time in ns (R231). -/
def State.ipfixTime (s : State) (t : Nat) : Bytes :=
  let secs : Int := (t / 1000000000 : Nat) - s.tiller.utcOffset + 2208988800
  natBe 4 (unsigned 32 secs) ++ natBe 4 (t % 1000000000 * 2 ^ 32 / 1000000000)

/-- The data record of a flow record: template and bytes (Table 9-3). -/
def State.flowData (s : State) (b hist : Bytes) (reason : Nat) : Nat × Bytes :=
  let v4 := isV4 (recSrc b)
  let addr (a : Nat) : Bytes := if v4 then natBe 4 (v4Of a) else natBe 16 a
  let nat : Bytes :=
    if !v4 then [] else if sourceTranslated b then natBe 4 (beAt b 116 4) ++ natBe 2 (recW4 b % 65536) else natBe 6 0
  (if v4 then 256 else 257,
   addr (recSrc b) ++ addr (recDst b) ++ natBe 2 (recSport b) ++ natBe 2 (recDport b) ++ natBe 1 (recProto b) ++
   natBe 2 (leAt b 100 1) ++ natBe 4 (leAt b 44 4 % 128) ++ natBe 8 (leAt b 64 8) ++ natBe 8 (leAt b 72 8) ++
   s.ipfixTime (recFirst b) ++ s.ipfixTime (recLast b) ++ natBe 1 reason ++ nat ++ natBe 2 (recZone b) ++
   natBe 1 (recProfile b) ++ natBe 4 (leAt b 80 4) ++ natBe 4 (leAt b 84 4) ++ hist ++ natBe 8 s.angle)

/-- The data record of a port block (Table 9-3): natEvent 16 allocated, 17 released. -/
def State.blockData (s : State) (c : PoolConf) (b : Binding) (block ev : Nat) : Nat × Bytes :=
  let lo := c.lo + block % 65536 * c.size
  (258, natBe 4 (v4Of b.src) ++ natBe 2 b.zone ++ natBe 4 (block / 65536) ++ natBe 2 lo ++ natBe 2 (lo + c.size - 1) ++
    natBe 1 ev ++ s.ipfixTime (s.tiller.taiSec * 1000000000 + s.tiller.taiNs))

/-- Bytes of the export staging region (R231, Table 13-7). -/
def State.stagingBytes (s : State) : Nat := s.regionBytes 3

/-- A data record is staged, or dropped when the region is full (R231); a staged record is its template and its bytes. -/
def State.stage (s : State) (r : Nat × Bytes) : State :=
  let used := s.svc.staging.foldl (fun n (x : Bytes) => n + x.length) 0
  let rec_ := natBe 2 r.1 ++ r.2
  if used + rec_.length ≤ s.stagingBytes then
    { s with svc := { s.svc with staging := s.svc.staging ++ [rec_], stageAt := s.svc.stageAt + rec_.length } }
  else { s with svc := { s.svc with exportDropped := s.svc.exportDropped + 1 } }

/-- Staged records with byte `a` of the staging region in one of their 64-byte units, in error: they are zeros from then on. The region is
written round, and the newest record ends at `end_` (Table 13-4, assumption 255). -/
def loseStaged (size a end_ : Nat) : List Bytes → List Bytes
  | [] => []
  | x :: xs =>
    let start := end_ - (x :: xs).foldl (fun n (y : Bytes) => n + y.length) 0
    (if (List.range x.length).any (fun i => (start + i) % size / 64 == a / 64) then List.replicate x.length 0 else x) :: loseStaged size a end_ xs
/-- An uncorrectable error in export staging (Table 13-4). -/
def State.lostStaging (s : State) (a : Nat) : State :=
  { s with svc := { s.svc with staging := loseStaged s.stagingBytes a s.svc.stageAt s.svc.staging } }
/-- Staged records that errors have taken, at the head of those staged, are passed over: their sequence numbers are the gap that a collector
reads (Table 13-4, R231). -/
def State.skipLost (s : State) : State :=
  let n := (s.svc.staging.takeWhile (fun x => beAt x 0 2 == 0)).length
  { s with svc := { s.svc with staging := s.svc.staging.drop n, exportSeq := s.svc.exportSeq + n, exportDropped := s.svc.exportDropped + n } }

/-- A flow record is exported with an end reason, unless export is shed: then a record that is removed counts as such, and a periodic export
does not (R233, R235). -/
def State.exportRecord (s : State) (pr : Profile) (b hist : Bytes) (reason : Nat) : State :=
  if !pr.flags.testBit 6 then s
  else if 1 ≤ s.power.level then
    (if reason = 2 then s else { s.countProfile (recProfile b) 16 with svc := { s.svc with exportShed := s.svc.exportShed + 1 } })
  else s.stage (s.flowData b hist reason)

/-- A port block that a binding took or gave up is exported (R219). -/
def State.exportBlock (s : State) (c : PoolConf) (b : Binding) (block ev : Nat) : State :=
  if 1 ≤ s.power.level then { s with svc := { s.svc with exportShed := s.svc.exportShed + 1 } }
  else s.stage (s.blockData c b block ev)

/-- A template record: ID, and its fields as element ID, length and enterprise bit (Table 9-3). -/
def templateBytes (id : Nat) (fields : List (Nat × Nat × Bool)) : Bytes :=
  natBe 2 id ++ natBe 2 fields.length ++
  (fields.map (fun f => if f.2.2 then natBe 2 (32768 + f.1) ++ natBe 2 f.2.1 ++ natBe 4 Config.enterpriseNumber
    else natBe 2 f.1 ++ natBe 2 f.2.1)).flatten

/-- The three templates (R232). -/
def templates : Bytes :=
  let tail : List (Nat × Nat × Bool) :=
    [(7, 2, false), (11, 2, false), (4, 1, false), (6, 2, false), (10, 4, false), (86, 8, false), (85, 8, false), (156, 8, false),
     (157, 8, false), (136, 1, false)]
  let ent : List (Nat × Nat × Bool) := [(1, 2, true), (2, 1, true), (3, 4, true), (4, 4, true), (5, 64, true), (6, 8, true)]
  templateBytes 256 ([(8, 4, false), (12, 4, false)] ++ tail ++ [(225, 4, false), (227, 2, false)] ++ ent) ++
  templateBytes 257 ([(27, 16, false), (28, 16, false)] ++ tail ++ ent) ++
  templateBytes 258 [(8, 4, false), (1, 2, true), (225, 4, false), (361, 2, false), (362, 2, false), (230, 1, false), (325, 8, false)]

/-- An IPFIX message around its sets (RFC 7011): version 10, length, export time in UNIX seconds, sequence, observation domain. -/
def State.ipfixMessage (s : State) (sets : Bytes) : Bytes :=
  natBe 2 10 ++ natBe 2 (16 + sets.length) ++ natBe 4 s.unixTime ++
  natBe 4 s.svc.exportSeq ++ natBe 4 (s.sn 0x090C) ++ sets

/-- A set of an IPFIX message: ID, length, records. -/
def ipfixSet (id : Nat) (recs : Bytes) : Bytes := natBe 2 id ++ natBe 2 (4 + recs.length) ++ recs

/-- Staged records of one template, oldest first, that fit into `room` bytes: their bytes, how many, and the rest. -/
def takeStaged (id : Nat) : Nat → List Bytes → Bytes × Nat × List Bytes
  | _, [] => ([], 0, [])
  | room, x :: xs =>
    if beAt x 0 2 = id ∧ x.length - 2 ≤ room then
      let (bs, n, rest) := takeStaged id (room - (x.length - 2)) xs
      (x.drop 2 ++ bs, n + 1, rest)
    else ([], 0, x :: xs)

/-- Export goes to the host ring (choice 0), or to collectors (R231). -/
def State.toRing (s : State) : Bool := s.sn 0x090A 0 0 == 0
/-- Number of collectors set (R231). -/
def State.collectors (s : State) : Nat := s.sn 0x090A 0 1

/-- The export ring takes an entry: message length, export sequence, message (R366). -/
def State.ringExport (s : State) (seq : Nat) (msg : Bytes) : Option State :=
  let g := s.ringOf 2
  if g.enable ∧ (g.prod + 2 ^ 32 - g.cons) % 2 ^ 32 < 2 ^ g.log2 then
    let s1 := s.emit (.dma 2 (g.prod % 2 ^ g.log2) (natLe 4 msg.length ++ natLe 4 0 ++ natLe 8 seq ++ msg))
    let s2 := s1.setRing 2 { g with prod := (g.prod + 1) % 2 ^ 32 }
    some (s2.interrupt 10 g.interrupt)
  else none

/-! ### Archive (R234) -/

/-- Entries that the archive region holds (R234, R339). -/
def State.archiveSize (s : State) : Nat := s.regionBytes 1 / 256

/-- The 256 bytes of an archive entry (Table 9-5). -/
def State.archiveEntry (s : State) (b hist : Bytes) (reason seq : Nat) : Bytes :=
  padTo 128 b ++ padTo 64 hist ++ s.stamp.bytes ++ natLe 8 seq ++ natLe 1 reason ++
  natLe 1 (b2n ((leAt b 88 4).testBit 31) + 2 * b2n (recBit b bitPaired)) ++ List.replicate 30 0

/-- An entry that overwrites another counts it as lost (R234). -/
def State.archiveLoss (s : State) (n : Nat) : State := if s.svc.archiveBase + s.archiveSize ≤ n then s.countDevice 7 else s
/-- Writes entry `n` of the archive in its slot (R234). -/
def State.archivePut (s : State) (i n : Nat) (e : Bytes) : State :=
  { s with svc := { s.svc with archive := Tab.insert s.svc.archive i e, archiveSeq := n + 1 } }

/-- A removed record is archived, unless the archive is shed (R234, R235). -/
def State.archive (s : State) (b hist : Bytes) (reason : Nat) : State :=
  if !recBit b bitArchive then s
  else if 2 ≤ s.power.level ∨ s.archiveSize = 0 then s.countProfile (recProfile b) 17
  else
    let n := s.svc.archiveSeq
    (s.archiveLoss n).archivePut (n % s.archiveSize) n (s.archiveEntry b hist reason n)

end Sys2Proof.Machine
end

