-- ==== Sys2Proof/Machine/FlowTable.lean ====
section
/-! DEFINITION. Flow records: where they lie, how they are found, created, removed, swept and moved (06_flow_table.md), and the
pattern set under which scan states are judged (R254). -/

namespace Sys2Proof.Machine

/-! ### Hashes and places (R141 to R145) -/

/-- H1 and H2 of a key. -/
def State.flowH1 (s : State) (key : Bytes) : Nat := (crc32c (BitVec.ofNat 32 (s.sn 0x060A 0 0)) key).toNat
def State.flowH2 (s : State) (key : Bytes) : Nat := (crc32h (BitVec.ofNat 32 (s.sn 0x060A 0 1)) key).toNat
/-- Candidate buckets of a key (R141). -/
def State.flowBuckets (s : State) (key : Bytes) : Nat × Nat :=
  let b1 := s.flowH1 key % 2 ^ 28
  let b2 := s.flowH2 key % 2 ^ 28
  (b1, if b2 % 128 = b1 % 128 then b2 ^^^ 64 else b2)
/-- Overflow set, and set of the flow cache (R145, R147). -/
def State.flowSet (s : State) (key : Bytes) : Nat := bits (s.flowH1 key) 31 17
/-- Signature of a key (R141). -/
def State.flowSig (s : State) (key : Bytes) : Nat :=
  let x := s.flowH1 key ^^^ s.flowH2 key
  if x = 0 then 1 else x

/-- Record at a place. -/
def State.recAt (s : State) (loc : Nat) : Option FlowRec := Tab.find? s.flow.records loc
/-- Puts a record at a place. -/
def State.setRec (s : State) (loc : Nat) (r : FlowRec) : State :=
  { s with flow := { s.flow with records := Tab.insert s.flow.records loc r } }
/-- Changes the bytes of the record at a place. -/
def State.modRec (s : State) (loc : Nat) (f : Bytes → Bytes) : State :=
  match s.recAt loc with
  | some r => s.setRec loc { r with bytes := f r.bytes }
  | none => s

/-- Slots of a bucket, and ways of an overflow set. -/
def bucketSlots (b : Nat) : List Nat := (List.range 4).map (fun k => 4 * b + k)
def overflowWays (set : Nat) : List Nat := (List.range 8).map (fun k => flowOverflow + 8 * set + k)

/-- A valid record, not a slot that a bale, a superseded version, a commit that waits or a routine's reservation holds (R154, R179). -/
def FlowRec.live (r : FlowRec) : Bool := r.bale.isNone && r.husk.isNone && r.reserved.isNone && r.due.isNone
/-- A record is one that epoch `e` finds (R154). -/
def FlowRec.visible (r : FlowRec) (e : Nat) : Bool :=
  r.live && decide (r.from_ ≤ e) && r.till.all (fun t => decide (e ≤ t))

/-- Offsets of the versioned fields of a host record: pair, service and scan, beside the state bits (R154). -/
def versionedFields : List (Nat × Nat) := [(96, 4), (104, 24), (92, 4)]
/-- Versioned bits of the state word. -/
def versionedBits : List Nat := [28, 24, 23, 22, 21]
/-- `b` with the versioned fields of `v` (R154). -/
def withVersion (b v : Bytes) : Bytes :=
  let b1 := versionedFields.foldl (fun b (f : Nat × Nat) => patch b f.1 (slice v f.1 f.2)) b
  versionedBits.foldl (fun b i => recSetBit b i (recBit v i)) b1

/-- The record as epoch `e` reads it (R154). -/
def FlowRec.at (r : FlowRec) (e : Nat) : Bytes :=
  match r.old with
  | some (last, v) => if e ≤ last then withVersion r.bytes v else r.bytes
  | none => r.bytes

/-- Places that a lookup reads, in order: the slots of b1 and b2, then the overflow ways, whose signature matches (R143). A block
that is absent holds nothing (R338). -/
def State.candidates (s : State) (key : Bytes) (e : Nat) : List Nat :=
  let (b1, b2) := s.flowBuckets key
  let sig := s.flowSig key
  let tags (k : Bytes) := (s.flowH2 k, s.flowH1 k % 65536)
  let inBucket (b : Nat) : List Nat := if s.bucketAbsent b then [] else
    (bucketSlots b).filter (fun l => (s.recAt l).any (fun r => r.visible e && s.flowSig (recKey r.bytes) == sig))
  inBucket b1 ++ inBucket b2 ++
    (if s.setAbsent (s.flowSet key) then [] else overflowWays (s.flowSet key)).filter (fun l =>
      (s.recAt l).any (fun r => r.visible e && tags (recKey r.bytes) == tags key))

/-- The place of the record with a key, as epoch `e` finds it (R143). -/
def State.findRec (s : State) (key : Bytes) (e : Nat) : Option Nat :=
  (s.candidates key e).find? (fun l => (s.recAt l).any (fun r => recKey r.bytes == key))

/-! ### The flow cache (R147) -/

/-- Lines of a set of the flow cache, least recently used first. -/
def State.cacheSet (s : State) (k : Nat) : List CacheLine := Tab.get [] s.flow.cache k
/-- Puts a set. -/
def State.setCache (s : State) (k : Nat) (ls : List CacheLine) : State :=
  { s with flow := { s.flow with cache := Tab.put [] s.flow.cache k ls } }
/-- The record of a place is cached. -/
def State.cached (s : State) (loc : Nat) : Bool :=
  match s.recAt loc with
  | some r => (s.cacheSet (s.flowSet (recKey r.bytes))).any (fun c => c.loc == loc)
  | none => false

/-- The key of a place has a pending operation in the sequencer (R146, R147). -/
def State.pendingAt (s : State) (loc : Nat) : Bool :=
  match s.recAt loc with
  | some r => s.flow.ops.any (fun o => o.key == recKey r.bytes)
  | none => false

/-- The 128 bytes of a record are written to its place in HBM (R143, R147). -/
def State.writeRec (s : State) (loc : Nat) : State := s.issueWrite (s.placePc loc) (s.placeAddr loc) 4
/-- The directory entry of a record's bucket is written; the signatures of the overflow store are on die (R142, R145). -/
def State.writeDirectory (s : State) (loc : Nat) : State :=
  if loc < flowOverflow then s.issueWrite (s.bucketPc (loc / 4)) (s.directoryAddr (loc / 4)) else s

/-- A record comes into the flow cache, or becomes its set's most recently used line; the line it displaces is written back if it is
dirty. Where every line of the set has a pending operation, none is displaced and a changed record is written through
(R147, assumption 223). -/
def State.install (s : State) (loc : Nat) (dirty : Bool) : State :=
  match s.recAt loc with
  | none => s
  | some r =>
    let k := s.flowSet (recKey r.bytes)
    let ls := s.cacheSet k
    let was := ls.any (fun c => c.loc == loc && c.dirty)
    let others := ls.filter (fun c => c.loc != loc)
    let line : CacheLine := { loc := loc, dirty := dirty || was }
    if others.length < 16 then s.setCache k (others ++ [line])
    else match others.find? (fun c => !s.pendingAt c.loc) with
      | none => if line.dirty then s.writeRec loc else s
      | some v =>
        let s1 := if v.dirty then s.writeRec v.loc else s
        s1.setCache k (others.erase v ++ [line])

/-- A record leaves the flow cache without a write-back. -/
def State.uncache (s : State) (loc : Nat) : State :=
  match s.recAt loc with
  | none => s
  | some r =>
    let k := s.flowSet (recKey r.bytes)
    s.setCache k ((s.cacheSet k).filter (fun c => c.loc != loc))

/-- A record that is not cached is read from HBM (R147). -/
def State.fetchRec (s : State) (loc : Nat) : State :=
  if s.cached loc then s else s.queueBursts (s.placePc loc) (s.placeAddr loc) 4 false
/-- A change of a record, on its cached copy (R147). -/
def State.touchRec (s : State) (loc : Nat) (f : Bytes → Bytes) : State := ((s.fetchRec loc).modRec loc f).install loc true
/-- A change by a sweep visit: in the cached copy when the record is cached, and otherwise in HBM, where the burst that holds the state
word is written back (R151). -/
def State.sweepRec (s : State) (loc : Nat) (f : Bytes → Bytes) : State :=
  if s.cached loc then s.touchRec loc f
  else
    let s1 := s.modRec loc f
    if s1.recAt loc = s.recAt loc then s1 else s1.issueWrite (s.placePc loc) (s.placeAddr loc + 32)

/-- A record that names a lost histogram entry names none from its next packet or sweep visit on (Table 13-4). -/
def State.dropHist (s : State) (loc : Nat) : State :=
  match s.recAt loc with
  | none => s
  | some r =>
    let h := leAt r.bytes 88 4
    if h.testBit 31 ∧ s.flow.lostHist.contains (h % 2 ^ 24) then
      let s1 := s.sweepRec loc (fun b => recPut b 88 4 0)
      { s1 with flow := { s1.flow with lostHist := s1.flow.lostHist.filter (· != h % 2 ^ 24) } }
    else s

/-! ### Occupancy (R155) -/

/-- Valid records, and those in the overflow store. -/
def State.recordCount (s : State) : Nat := s.flow.records.foldl (fun n (x : Nat × FlowRec) => if x.2.live then n + 1 else n) 0
def State.overflowCount (s : State) : Nat :=
  s.flow.records.foldl (fun n (x : Nat × FlowRec) => if x.2.live ∧ flowOverflow ≤ x.1 then n + 1 else n) 0

/-- One threshold is compared with 1 % hysteresis: bit of `above`, table, threshold, occupancy and capacity. -/
def State.threshold (s : State) (i table pct n cap : Nat) : State :=
  let isAbove := s.flow.above.testBit i
  let now := if isAbove then decide ((pct - 1) * cap ≤ n * 100) else decide (pct * cap ≤ n * 100)
  if now = isAbove then s
  else ({ s with flow := { s.flow with above := setBit s.flow.above i now } }).raise 0x0502 srcDevice
    (natLe 1 table ++ natLe 1 pct ++ natLe 1 (b2n now))

/-- The thresholds of R155 are compared again. -/
def State.occupancyCheck (s : State) : State :=
  let n := s.recordCount
  let o := s.overflowCount
  (((s.threshold 0 0 (s.sn 0x0608 0 0) n (2 ^ 30)).threshold 1 0 (s.sn 0x0608 0 1) n (2 ^ 30)).threshold 2 1 50 o 262144).threshold
    3 1 90 o 262144

/-! ### Histograms (R230) -/

/-- Entries that the histogram store holds (R230, R337). -/
def State.histCapacity (s : State) : Nat := 16777216 - 131072 * s.mem.retired
/-- The first histogram entry from `n` on that does not lie on a retired pseudo-channel, and that no record still names as lost (R337). -/
def State.histSkip (s : State) : Nat → Nat → Nat
  | 0, n => n
  | fuel + 1, n => if (s.munit (n % 128)).state = 2 ∨ s.flow.lostHist.contains n then State.histSkip s fuel (n + 1) else n
/-- How far a search for a free entry may have to go. -/
def State.histFuel (s : State) : Nat := 128 + s.flow.lostHist.length
/-- The lowest free histogram entry. -/
def State.histFree (s : State) : Nat :=
  s.flow.hist.foldl (fun n (x : Nat × List Nat) => if x.1 = n then s.histSkip s.histFuel (n + 1) else n) (s.histSkip s.histFuel 0)
/-- The 64 bytes of a record's histogram; zero when it has none. -/
def State.histBytes (s : State) (b : Bytes) : Bytes :=
  let h := leAt b 88 4
  if h.testBit 31 then padTo 64 ((Tab.get [] s.flow.hist (h % 2 ^ 24)).map (natLe 4)).flatten else List.replicate 64 0

/-- A new record gets a histogram entry, or is counted short (R230). -/
def State.histAlloc (s : State) (b : Bytes) : Bytes × State :=
  if s.histCapacity ≤ s.flow.hist.length then (b, { s with flow := { s.flow with histShort := s.flow.histShort + 1 } })
  else
    let i := s.histFree
    (recPut b 88 4 (2 ^ 31 + i), { s with flow := { s.flow with hist := Tab.insert s.flow.hist i (List.replicate 16 0) } })

/-! ### Removal (R152, R211, R233) -/

/-- The checkpoint of a translated pair, by its forward record (R355): none for a record that holds no translation. -/
def State.pairCheckpoint (s : State) (create : Bool) (b : Bytes) : Option Checkpoint :=
  if !translated b then none
  else
    let addr := slice b 104 16
    let pool := bits (recW4 b) 25 16
    let port := recW4 b % 65536
    let block := match s.poolConf pool s.bales.epoch with
      | some c => c.blockOfPort (65536 * v4Of (beNat addr) + port) % 65536
      | none => 0
    some { create := create, key := recKey b, addr := addr, port := port, pool := pool, block := block,
           group := bits (recW5 b) 31 22, member := bits (recW5 b) 21 16 }

/-- The port of a source-translated record returns, and its removal is offered to the twin (R218, R220). -/
def State.untranslate (s : State) (b : Bytes) : State :=
  match s.pairCheckpoint false b with
  | none => s
  | some k =>
    let s1 := match sourceTranslated b, s.poolConf k.pool s.bales.epoch with
      | true, some c => s.givePort k.pool (65536 * v4Of (beNat k.addr) + k.port) c
      | _, _ => s
    s1.offer k

/-- The place that a pair field names. -/
def pairLoc (f : Nat) : Option Nat :=
  if !f.testBit 31 then none
  else if f.testBit 30 then some (flowOverflow + f % 2 ^ 18) else some (f % 2 ^ 30)
/-- The pair field that names a place. -/
def pairField (loc : Nat) : Nat :=
  if flowOverflow ≤ loc then 2 ^ 31 + 2 ^ 30 + (loc - flowOverflow) else 2 ^ 31 + loc

/-- The record at a place leaves the table: a scan of a segment of its flow saves no state (Table 10-6). -/
def State.loseScan (s : State) (loc : Nat) : State :=
  let names (n : Nat) : Bool := (s.pkt? n).any (fun p => p.record == .found loc || p.record == .created loc)
  { s with awn := { s.awn with
      lanes := s.awn.lanes.map (fun x => (x.1, { x.2 with lost := x.2.lost || names x.2.pkt }))
      rescans := s.awn.rescans.map (fun x => (x.1, { x.2 with lost := x.2.lost || names x.1 })) } }

/-- One record leaves its place, whose signature is cleared: it is exported and archived unless it is lost, its port returns and its
histogram entry is freed (R142, R152, R230, R233, R234). -/
def State.removeOne (s : State) (loc reason : Nat) (lost : Bool) : State :=
  match (s.recAt loc).filter (·.live) with
  | none => s
  | some r =>
    let b := r.bytes
    let pr := s.profile (recProfile b) s.bales.epoch
    let hist := s.histBytes b
    let s1 := if lost then { s with flow := { s.flow with lostRecords := s.flow.lostRecords + 1 } }
      else (s.exportRecord pr b hist reason).archive b hist reason
    let s2 := (s1.loseScan loc).untranslate b
    let s3 := (s2.uncache loc).writeDirectory loc
    let h := leAt b 88 4
    { s3 with flow := { s3.flow with
        records := Tab.erase s3.flow.records loc
        hist := if h.testBit 31 then Tab.erase s3.flow.hist (h % 2 ^ 24) else s3.flow.hist
        lostHist := if h.testBit 31 then s3.flow.lostHist.filter (· != h % 2 ^ 24) else s3.flow.lostHist
        removals := Tab.modify 0 s3.flow.removals (recClass b) (· + 1) } }

/-- A record is removed, and its paired record with it as one operation (R152, R161). -/
def State.removeRec (s : State) (loc reason : Nat) (lost : Bool := false) : State :=
  match (s.recAt loc).filter (·.live) with
  | none => s
  | some r =>
    let s1 := s.removeOne loc reason lost
    let s2 := match pairLoc (recPair r.bytes) with
      | some q => if q = loc then s1 else s1.removeOne q reason lost
      | none => s1
    s2.occupancyCheck

/-! ### Creation limits (R150) -/

/-- Scale of the tokens: tokens times 72·10^9, so that an eighth of a limit adds whole units in each unit of time. -/
def creationUnit : Nat := 72000000000
/-- The bucket of capacity `c` after it has filled up to now by `eighths` of a token per second; a bucket starts full. The tokens beyond
its capacity are the second result. -/
def Bucket.fill (b : Bucket) (eighths c now : Nat) : Bucket × Nat :=
  if !b.started then ({ tokens := c, at_ := now, started := true }, 0)
  else
    let n := b.tokens + eighths * (now - b.at_)
    ({ b with tokens := min c n, at_ := now }, n - c)
/-- One token is there. -/
def Bucket.has (b : Bucket) : Bool := decide (creationUnit ≤ b.tokens)
/-- Takes one token. -/
def Bucket.take (b : Bucket) : Bucket := { b with tokens := b.tokens - creationUnit }

/-- The device creation limit in force: the setting, and from sag level 3 the lower of the two (R150, Table 19-9). -/
def State.creationLimit (s : State) : Nat :=
  if 3 ≤ s.power.level then min (s.sn 0x0607 0 0) (s.sn 0x1305) else s.sn 0x0607 0 0

/-- All share buckets fill; what arrives at a full one goes to the common pool (R150). -/
def State.fillShares (s : State) : State :=
  let d := s.creationLimit
  let burst := s.sn 0x0607 0 1
  let step (x : Tab Bucket × Nat) (k : Nat) : Tab Bucket × Nat :=
    let (b, over_) := (Tab.get {} x.1 k).fill d (burst * (creationUnit / 8)) s.now
    (Tab.put {} x.1 k b, x.2 + over_)
  let (shares, spill) := (List.range 8).foldl step (s.flow.shares, 0)
  let held := (List.range 8).foldl (fun n k => n + (Tab.get ({} : Bucket) shares k).tokens) 0
  let cap := burst * creationUnit - held
  { s with flow := { s.flow with shares := shares, pool := { tokens := min cap (s.flow.pool.tokens + spill), at_ := s.now, started := true } } }

/-- The cap bucket of slice `k`, filled up to now (R150). -/
def State.capBucket (s : State) (k : Nat) : Bucket :=
  ((Tab.get {} s.flow.caps k).fill (2 * s.creationLimit) (s.sn 0x0607 0 1 * (creationUnit / 4)) s.now).1
/-- The bucket of profile `pr`, filled at its rate up to now (R150). -/
def State.profileBucket (s : State) (pr rate : Nat) : Bucket :=
  ((Tab.get {} s.flow.profiles pr).fill (8 * rate) (max 1 (ceilDiv (rate * 5) 1000) * creationUnit) s.now).1
/-- Every bucket of the device limit is filled under the limit that has stood, before another one stands (R150). -/
def State.settleCreation (s : State) : State :=
  let s1 := s.fillShares
  { s1 with flow := { s1.flow with caps := (List.range 8).foldl (fun t k => Tab.put {} t k (s1.capBucket k)) s1.flow.caps } }

/-- Slice `k` creates a record under profile `pr`: a token from each bucket, or the cause of the refusal: 1 device, 2 slice,
3 profile (R150). -/
def State.spendCreation (s : State) (k pr rate : Nat) : Option Nat × State :=
  let s1 := s.fillShares
  let cap := s1.capBucket k
  let prof := s1.profileBucket pr rate
  let share := Tab.get {} s1.flow.shares k
  let f := s1.flow
  if rate ≠ 0 ∧ !prof.has then (some 3, s1)
  else if !cap.has then (some 2, s1)
  else if !share.has ∧ !f.pool.has then (some 1, s1)
  else
    (none, { s1 with flow := { f with
      caps := Tab.put {} f.caps k cap.take
      profiles := if rate = 0 then f.profiles else Tab.put {} f.profiles pr prof.take
      shares := if share.has then Tab.put {} f.shares k share.take else f.shares
      pool := if share.has then f.pool else f.pool.take
      lastSlice := if share.has then f.lastSlice else k } })

/-- A creation is refused: counted per profile and cause, with the event at most once per second and profile (R150). -/
def State.refuseCreation (s : State) (pr cause : Nat) : State :=
  let s1 := s.countProfile pr cause
  let s2 := { s1 with flow := { s1.flow with refused := s1.flow.refused.mapIdx (fun i v => if i + 1 = cause then v + 1 else v) } }
  s2.raiseLimited 0x0501 (src 6 pr) (sec 1) (natLe 1 (cause - 1) ++ [0, 0, 0]) 4

/-! ### Placement (R144, R146) -/

/-- Free slots of a bucket, lowest first; an absent block has none (R338). -/
def State.bucketFree (s : State) (b : Nat) : List Nat :=
  if s.bucketAbsent b then [] else (bucketSlots b).filter (fun l => (s.recAt l).isNone)
/-- Free place for a key: the less full bucket's lowest slot, then the lowest free overflow way (R144). -/
def State.freePlace (s : State) (key : Bytes) : Option Nat :=
  let (b1, b2) := s.flowBuckets key
  let f1 := s.bucketFree b1
  let f2 := s.bucketFree b2
  let first := if f1.length < f2.length then f2.head? else f1.head?
  match first with
  | some l => some l
  | none => if s.setAbsent (s.flowSet key) then none else (overflowWays (s.flowSet key)).find? (fun l => (s.recAt l).isNone)

/-- A pending operation stands on a record or on the one that is paired with it: the two are removed as one operation (R146, R161, R179). -/
def State.pairPending (s : State) (loc : Nat) : Bool :=
  s.pendingAt loc || (((s.recAt loc).bind (fun r => pairLoc (recPair r.bytes))).any s.pendingAt)

/-- A record may be evicted: not pinned, not placed by bale, no pending operation (R146). -/
def State.evictable (s : State) (loc : Nat) : Bool :=
  match s.recAt loc with
  | some r => !recBit r.bytes bitPinned && !recBit r.bytes bitHost && r.live && !s.pairPending loc
  | none => false

/-- Draws the LFSR until it names an eligible record. -/
def drawVictim (ok : Nat → Bool) : Nat → Nat → Option (Nat × Nat)
  | 0, _ => none
  | n + 1, x =>
    let y := lfsrDraw x
    if ok (y % 8) then some (y % 8, y) else drawVictim ok n y

/-- The victim of a creation and the LFSR after the draw (R146). -/
def State.flowVictim (s : State) (key : Bytes) (oldest : Bool) : Option (Nat × Nat) :=
  let (b1, b2) := s.flowBuckets key
  let places := (if s.bucketAbsent b1 then [] else bucketSlots b1) ++ (if s.bucketAbsent b2 then [] else bucketSlots b2)
  let eligible := places.filter s.evictable
  if eligible.isEmpty then none
  else if oldest then
    let seen (l : Nat) : Nat := match s.recAt l with | some r => recLast r.bytes | none => 0
    let best := eligible.foldl (fun (b : Option Nat) l => match b with
      | none => some l
      | some j => if seen l < seen j then some l else some j) none
    best.map (fun l => (l, s.flow.lfsr))
  else
    let place (v : Nat) : Nat := if v < 4 then 4 * b1 + v else 4 * b2 + (v - 4)
    (drawVictim (fun v => eligible.contains (place v)) 65536 s.flow.lfsr).map (fun x => (place x.1, x.2))

/-- The oldest rule reads the first 64 bytes of the records of both buckets (R146). -/
def State.readAges (s : State) (key : Bytes) : State :=
  let (b1, b2) := s.flowBuckets key
  (bucketSlots b1 ++ bucketSlots b2).foldl (fun s l =>
    if (s.recAt l).isSome ∧ !s.cached l then s.queueBursts (s.placePc l) (s.placeAddr l) 2 false else s) s

/-- A place for a new record of a key, by eviction if it must be (R144, R146); none is cause 4, no victim. -/
def State.placeFor (s : State) (key : Bytes) (pr : Nat) (oldest : Bool) : Option Nat × State :=
  match s.freePlace key with
  | some l => (some l, s)
  | none => match s.flowVictim key oldest with
    | none => (none, s)
    | some (l, x) =>
      let s0 := if oldest then s.readAges key else s
      let s1 := { s0 with flow := { s0.flow with lfsr := x } }
      (some l, (s1.removeRec l 5).countProfile pr 5)

/-- The bytes of a new record (R149). -/
def newRec (key : Bytes) (cls : Nat) (archive : Bool) (tai len : Nat) : Bytes :=
  key ++ natLe 4 (2 ^ 31 + 2 ^ 30 + b2n archive * 2 ^ 24 + cls % 8 * 2 ^ 21) ++ natLe 4 0 ++ natLe 8 tai ++ natLe 8 tai ++
  natLe 8 1 ++ natLe 8 len ++ List.replicate 48 0

/-- A record goes into a place, in the cache and dirty, and its signature into the directory (R142, R144, R147). -/
def State.placeRec (s : State) (loc : Nat) (b : Bytes) : State :=
  let b1 := recSetBit b bitOverflow (decide (flowOverflow ≤ loc))
  let r : FlowRec := { bytes := b1, placed := s.flow.passes }
  (((s.setRec loc r).install loc true).writeDirectory loc).occupancyCheck

/-! ### Pattern sets (R254) -/

/-- The pattern set that epoch `e` uses. -/
def State.patternAt (s : State) (e : Nat) : Option PatternSet :=
  s.awn.sets.find? (fun x => x.from_.any (fun f => decide (f ≤ e)) && x.till.all (fun t => decide (e ≤ t)))
/-- A saved state lies in the range of the set that epoch `e` uses; 0 always does. -/
def State.scanInRange (s : State) (st e : Nat) : Bool :=
  st == 0 || (s.patternAt e).any (fun x => decide (x.base ≤ st ∧ st < x.base + x.size))

/-! ### The sweep (R151 to R153) -/

/-- Profiles with a record mode other than none use these sweep classes (R151). -/
def State.usedClasses (s : State) : List Nat :=
  (List.range 256).filterMap (fun p =>
    let pr := s.profile p s.bales.epoch
    if pr.mode = 0 then none else some pr.cls)
/-- Pass period and evaluation spacing that the settings ask for (R151). -/
def State.sweepPlan (s : State) : Nat × List Nat :=
  let used := s.usedClasses
  let least := used.foldl (fun (m : Option Nat) c => match m with
    | none => some (s.sn 0x0603 0 c)
    | some x => some (min x (s.sn 0x0603 0 c))) none
  let p := max (s.sn 0x0605) (least.getD 0)
  (p, (List.range 8).map (fun c => ceilDiv (s.sn 0x0603 0 c) p))
/-- Class `c` is evaluated in the present pass (R151). -/
def State.evaluates (s : State) (c : Nat) : Bool :=
  let e := s.flow.passEval.getD c 1
  e == 0 || s.flow.pass % e == 0

/-- A bale holds a new version of the record of a key (R154). -/
def State.shadowed (s : State) (key : Bytes) : Bool :=
  s.flow.records.any (fun (x : Nat × FlowRec) => (x.2.bale.isSome || x.2.due.isSome) && recKey x.2.bytes == key)

/-- End reason of an aged record (Table 9-4). -/
def agedReason (b : Bytes) : Nat :=
  let t := recTcp b
  if t.testBit 6 ∨ (t.testBit 4 ∧ t.testBit 5) then 3 else 1

/-- The scan state of a record with the state itself cleared. -/
def clearScan (b : Bytes) : Bytes := recPut b 92 4 (leAt b 92 4 / 2 ^ 20 * 2 ^ 20)
/-- A visit sets a scan state outside the set in force to 0 (R254). -/
def State.sweepScan (s : State) (loc : Nat) : State :=
  match s.recAt loc with
  | none => s
  | some r => if s.scanInRange (leAt r.bytes 92 4 % 2 ^ 20) s.bales.epoch then s else s.sweepRec loc clearScan
/-- The pass that ends has seen every record: none is left unvisited with a scan state outside the set in force (R254). -/
def State.scansSwept (s : State) : Bool :=
  s.flow.records.all (fun (x : Nat × FlowRec) => !x.2.live || x.2.visited == s.flow.passes ||
    s.scanInRange (leAt x.2.bytes 92 4 % 2 ^ 20) s.bales.epoch)

/-- The slice whose service engines sweep a place (R151). -/
def sweepOwner (loc : Nat) : Nat :=
  if loc < flowOverflow then bits (loc / 4) 27 25 else bits ((loc - flowOverflow) / 8) 14 12

/-- A visit to a record whose class the pass evaluates (R152, R233). -/
def State.evaluateRec (s : State) (l : Nat) (r : FlowRec) : State :=
  let b := r.bytes
  let pr := s.profile (recProfile b) s.bales.epoch
  let hit := recBit b bitHit
  let export_ (s : State) : State := if pr.flags.testBit 7 then s.exportRecord pr b (s.histBytes b) 2 else s
  if !s.son 0x0604 ∨ recBit b bitPinned ∨ s.shadowed (recKey b) ∨ r.till.isSome then export_ s
  else if !hit ∧ recBit b bitStale then s.removeRec l (agedReason b)
  else export_ (s.sweepRec l (fun b => recSetBit (recSetBit b bitHit false) bitStale (!hit)))

/-- The sweep visits the record at a place (R151, R152). -/
def State.sweepVisit (s : State) (l : Nat) : State :=
  match (s.recAt l).filter (·.live) with
  | none => s
  | some r =>
    let s1 := ((s.setRec l { r with visited := s.flow.passes }).sweepScan l).dropHist l
    let s2 := match s1.recAt l with
      | some x => if s1.evaluates (recClass x.bytes) then s1.evaluateRec l x else s1
      | none => s1
    s2.safePoint (sweepOwner l)

/-- An operation of a service engine is issued to the sequencer with the present stamp, and waits for its turn there (R148, R161). -/
def State.issueVisit (s : State) (l : Nat) (r : FlowRec) (kind : VisitKind) : State :=
  let v : Visit := { key := recKey r.bytes, loc := l, stamp := s.angle, kind := kind }
  if s.flow.visits.any (fun x => x.loc == l && x.key == v.key && x.kind == kind) then s
  else { s with flow := { s.flow with visits := s.flow.visits ++ [v] } }

/-- FLOW_SWEEP_VISIT (R148, R151, R152, R161): once in each pass, by the service engines of the place's slice. The sequencer carries the visit
out after the clock, once no earlier operation stands on the record. -/
def execFlowSweepVisit (loc : FlowLoc) (s : State) : Res :=
  let l := flowIndex loc
  match (s.recAt l).filter (·.live) with
  | none => done s
  | some r =>
    if r.visited = s.flow.passes ∨ !s.sweeps (sweepOwner l) then done s
    else done (s.issueVisit l r .sweep)

/-- FLOW_SWEEP_PASS_END (R151, R153, R254): a pass takes its pass period. The next pass takes the pace that the settings ask for, from
pass 0 if it has changed; the entries of a replaced pattern set become free when the pass began after its epoch drained. -/
def execFlowSweepPassEnd (s : State) : Res :=
  if s.now < s.flow.passAt + ns s.flow.passNs then done s
  else
  let (p, ev) := s.sweepPlan
  let changed := decide (p ≠ s.flow.passNs ∨ ev ≠ s.flow.passEval)
  let sets := if s.scansSwept then s.awn.sets.filter (fun x => !(x.till.any (fun t => decide (t < s.flow.passDrained)))) else s.awn.sets
  done { s with
    flow := { s.flow with
      pass := if changed then 0 else s.flow.pass + 1
      passNs := p
      passEval := ev
      passDrained := s.bales.drained
      passes := s.flow.passes + 1
      passAt := s.now }
    awn := { s.awn with sets := sets } }

/-- A pair field elsewhere that names place `a` now names `b`. -/
def State.repair (s : State) (a b : Nat) : State :=
  match s.recAt b with
  | some r => match pairLoc (recPair r.bytes) with
    | some q => if q = b then s else s.sweepRec q (fun x => if pairLoc (recPair x) = some a then recPut x 96 4 (pairField b) else x)
    | none => s
  | none => s

/-- A record moves from place `a` to the free place `b`, in the table, the cache, and wherever it is named: it is written to the new
place, whose signature is set, and then the old signature is cleared (R142, R153). -/
def State.moveRec (s : State) (a b : Nat) : State :=
  match s.recAt a with
  | none => s
  | some r =>
    let r1 := { r with bytes := recSetBit r.bytes bitOverflow (decide (flowOverflow ≤ b)), placed := s.flow.passes }
    let k := s.flowSet (recKey r.bytes)
    let s1 := s.setCache k ((s.cacheSet k).map (fun c => if c.loc = a then { c with loc := b, dirty := false } else c))
    let s2 := { s1 with
      flow := { s1.flow with records := Tab.insert (Tab.erase s1.flow.records a) b r1 }
      packets := s1.packets.map (fun (x : Nat × Packet) => (x.1, { x.2 with record := match x.2.record with
        | .found l => if l = a then .found b else .found l
        | .created l => if l = a then .created b else .created l
        | y => y })) }
    ((((s2.repair a b).writeRec b).writeDirectory b).writeDirectory a).occupancyCheck

/-- An overflow record moves into a free slot of its candidates, if there is one (R153). -/
def State.moveOverflow (s : State) (a : Nat) : State :=
  match (s.recAt a).filter (·.live) with
  | none => s
  | some r =>
    let (b1, b2) := s.flowBuckets (recKey r.bytes)
    match s.bucketFree b1 ++ s.bucketFree b2 with
    | b :: _ => (s.moveRec a b).safePoint (sweepOwner a)
    | [] => s

/-- OVERFLOW_RELOCATION_MOVE (R148, R153): one sequenced operation, after the end of the pass in which the record came to the store. -/
def execOverflowRelocationMove (idx : Nat) (s : State) : Res :=
  let a := flowOverflow + idx % 262144
  match (s.recAt a).filter (·.live) with
  | none => done s
  | some r =>
    if !s.son 0x0606 ∨ s.flow.passes ≤ r.placed ∨ !s.sweeps (sweepOwner a) then done s
    else done (s.issueVisit a r .move)

/-! ### Host records (R154) -/

/-- Place and record of a key in force. -/
def State.recInForce (s : State) (key : Bytes) : Option (Nat × FlowRec) :=
  List.find? (fun (x : Nat × FlowRec) => x.2.live && x.2.till.isNone && recKey x.2.bytes == key) s.flow.records
/-- A place of the flow table becomes free. -/
def State.eraseRec (s : State) (loc : Nat) : State := { s with flow := { s.flow with records := Tab.erase s.flow.records loc } }

/-- A host record (R154): the record in force goes on in the slot of the bale's version, with the bale's versioned fields and the older
version beside them, and its old slot stays taken until the old epoch has drained; or the bale's record comes into force. -/
def State.commitFlow (s : State) (e : Nat) (held : Option Nat) (key : Bytes) (removes : Bool) : State :=
  match s.recInForce key, held.bind s.recAt with
  | some (l, r), some n =>
    match held with
    | none => s
    | some h =>
      if removes then (s.eraseRec h).setRec l { r with till := some (e - 1) }
      else
        let v := recSetBit (recSetBit (withVersion r.bytes n.bytes) bitHost true) 25 ((recPair n.bytes).testBit 31)
        let s1 := (s.eraseRec h).moveRec l h
        let s2 := s1.setRec l { r with husk := some (e - 1) }
        match s2.recAt h with
        | some x => (s2.setRec h { x with bytes := recSetBit v bitOverflow (decide (flowOverflow ≤ h)), old := some (e - 1, r.bytes) }).install h true
        | none => s2
  | some (l, r), none => if removes then s.setRec l { r with till := some (e - 1) } else s
  | none, some n =>
    match held with
    | none => s
    | some h =>
      if removes then s.eraseRec h
      else
        let v := recSetBit n.bytes bitOverflow (decide (flowOverflow ≤ h))
        let r : FlowRec := { bytes := v, from_ := e, placed := s.flow.passes }
        (((s.setRec h r).install h true).writeDirectory h).occupancyCheck
  | none, none => s

/-- BLOCK_HOLD_EXPIRY (R218). -/
def execBlockHoldExpiry (pool : Fin 1024) (block : Nat) (s : State) : Res :=
  let a := s.alloc pool
  match Tab.find? a.holding block, s.poolConf pool s.bales.epoch with
  | some t, some c =>
    if s.now < t ∨ a.used.any (fun u => c.blockOfPort u == block) then done s
    else
      let s1 := match a.holder block with
        | some b => s.exportBlock c b block 17
        | none => s
      done (s1.setAlloc pool (releaseBlock c (s1.alloc pool) block))
  | _, _ => done s

end Sys2Proof.Machine
end

