-- ==== Sys2Proof/Machine/Services.lean ====
section
/-! DEFINITION. The flow services: what Larzenu's routines do with a packet and its record, and the creation of records and pairs
(09_flow_services.md, R149, R150). -/

namespace Sys2Proof.Machine

/-- A profile runs a service: 0 load balancing, 1 translation, 2 filter, 3 PRP (Table 16-5). -/
def Profile.runs (pr : Profile) (k : Nat) : Bool := pr.services.testBit k
/-- The profile translates destinations. -/
def Profile.destKind (pr : Profile) : Bool := pr.runs 1 && pr.services.testBit 4
/-- The profile translates sources. -/
def Profile.srcKind (pr : Profile) : Bool := pr.runs 1 && !pr.services.testBit 4
/-- The profile makes pairs. -/
def Profile.pairs (pr : Profile) : Bool := pr.runs 1 || pr.runs 2

/-- The ingress TAI stamp of a packet in ns. -/
def Packet.tai (p : Packet) : Nat := p.stamp.tai
/-- Frame length without FCS. -/
def Packet.len (p : Packet) : Nat := p.bytes.length - 4

/-! ### Load balancing (R212 to R215) -/

/-- A member of a group (R212). -/
structure Member where
  state : Nat
  addr : Nat
  port : Nat
  hop : Nat
  weight : Nat
deriving DecidableEq, Repr

/-- Member `m` of group `g` under epoch `e`. -/
def State.member (s : State) (g m e : Nat) : Option Member :=
  (s.objAt (objKey .lbMember (64 * g + m)) e).map (fun r => ⟨leAt r 3 1, beAt r 4 16, leAt r 20 2, leAt r 22 2, leAt r 24 1⟩)

/-- Seed, field set and orphan action of a group under an epoch (R212). -/
def State.lbGroup (s : State) (g e : Nat) : Nat × Nat × Nat :=
  match s.objAt (objKey .lbGroup g) e with
  | some r => (leAt r 4 4, leAt r 2 1, leAt r 3 1)
  | none => (0xFFFFFFFF, 0, 0)

/-- Slots of a group under an epoch: member + 1, or 0 (R213). -/
def State.lbSlotsAt (s : State) (g e : Nat) : List Nat := (verAt (Tab.get [] s.svc.lbSlots g) e).getD []

/-- The slot of a flow key in a group (R213). -/
def State.lbSlot (s : State) (g e : Nat) (key : Bytes) : Nat :=
  let (seed, fields, _) := s.lbGroup g e
  let bs := if fields = 1 then slice key 0 16
    else slice key 0 32 ++ slice key 36 1 ++ natBe 2 (leAt key 32 2) ++ natBe 2 (leAt key 34 2)
  bits (crc32c (BitVec.ofNat 32 seed) bs).toNat 25 16

/-- The active member that a flow key's slot names (R213, R214). -/
def State.slotMember (s : State) (g e : Nat) (key : Bytes) : Option (Nat × Member) :=
  match (s.lbSlotsAt g e).getD (s.lbSlot g e key) 0 with
  | 0 => none
  | m + 1 => (s.member g m e).map (fun x => (m, x))

/-- The group has an active member under an epoch (R214). -/
def State.lbActive (s : State) (g e : Nat) : Bool := (List.range 64).any (fun m => (s.member g m e).any (fun x => x.state == 0))

/-- w5 of a binding (Table 9-1). -/
def lbWord (g m : Nat) : Nat := 2 ^ 22 * g + 2 ^ 16 * m

/-! ### Dealing the slots (R213) -/

/-- Sum of the weights. -/
def lbTotal (ws : List (Nat × Nat)) : Nat := (ws.map (·.2)).sum
/-- The deficit of a member, scaled by the sum of weights: target 1,024 · w / Σw less its slots. -/
def lbDeficit (ws : List (Nat × Nat)) (slots : List Nat) (m : Nat) : Int :=
  let total := lbTotal ws
  let w := ((ws.find? (fun x => x.1 == m)).map (·.2)).getD 0
  (1024 * w : Nat) - (total * slots.count (m + 1) : Nat)
/-- The active member with the largest deficit, the lower number on a tie. -/
def lbTaker (ws : List (Nat × Nat)) (slots : List Nat) : Option Nat :=
  ws.foldl (fun (best : Option Nat) (x : Nat × Nat) => match best with
    | none => some x.1
    | some b => if lbDeficit ws slots b < lbDeficit ws slots x.1 ∨ (lbDeficit ws slots b = lbDeficit ws slots x.1 ∧ x.1 < b)
        then some x.1 else some b) none
/-- Slot `i` goes to the member with the largest deficit. -/
def lbDeal (ws : List (Nat × Nat)) (slots : List Nat) (i : Nat) : List Nat :=
  match lbTaker ws slots with
  | some m => slots.set i (m + 1)
  | none => slots.set i 0
/-- Slots whose member is no longer active are dealt again in ascending order; with no slots yet, all are. -/
def lbRedeal (ws : List (Nat × Nat)) (slots : List Nat) : List Nat :=
  let base := if slots.length = 1024 then slots else List.replicate 1024 0
  let gone := (List.range 1024).filter (fun i => !(ws.any (fun x => x.1 + 1 == base.getD i 0)))
  let cleared := gone.foldl (fun l i => l.set i 0) base
  gone.foldl (lbDeal ws) cleared
/-- A member that stands a whole slot or more above its target gives up its highest-numbered excess slots, one at a time (R213). -/
def lbLevel (ws : List (Nat × Nat)) : Nat → List Nat → List Nat
  | 0, slots => slots
  | n + 1, slots =>
    match ws.find? (fun x => decide (lbDeficit ws slots x.1 ≤ -(lbTotal ws : Int))) with
    | none => slots
    | some x =>
      match ((List.range 1024).reverse).find? (fun i => slots.getD i 0 == x.1 + 1) with
      | none => slots
      | some i => match lbTaker ws slots with
        | some m => if m ≠ x.1 then lbLevel ws n (slots.set i (m + 1)) else slots
        | none => slots

/-! ### The stateful filter (R221 to R224) -/

/-- TCP flags. -/
def flagFin : Nat := 0
def flagSyn : Nat := 1
def flagRst : Nat := 2
def flagAck : Nat := 4

/-- A judgement of the filter: pass, bits for the own record, bits for the peer, and whether est was set. -/
structure FilterJudge where
  pass : Bool
  own : Nat
  peer : Nat
  est : Bool
deriving DecidableEq, Repr

/-- R223: the packet's TCP flags against the record's tcp_state. -/
def filterJudge (st flags : Nat) : FilterJudge :=
  let invalid : FilterJudge := ⟨false, 1, 0, false⟩
  let fin (j : FilterJudge) : FilterJudge :=
    if j.pass ∧ flags.testBit flagFin then { j with own := j.own ||| 16, peer := j.peer ||| 32 } else j
  let ok : FilterJudge := ⟨true, 0, 0, false⟩
  if flags.testBit flagRst then fin ⟨true, 64, 64, false⟩
  else if st.testBit 6 then invalid
  else if st.testBit 7 then
    if !st.testBit 2 ∧ !flags.testBit flagSyn then invalid
    else if st.testBit 2 ∧ !st.testBit 3 ∧ flags.testBit flagAck then fin ⟨true, 8, 8, true⟩
    else fin ok
  else if !st.testBit 2 then
    if flags.testBit flagSyn ∧ flags.testBit flagAck then fin ⟨true, 4, 4, false⟩ else invalid
  else fin ok

/-- The filter's class `i` of a profile: 0 opening, 1 established, 2 closing, 3 non-TCP (Table 16-5). -/
def Profile.filterClass (pr : Profile) (i : Nat) : Nat := bits pr.classes (4 * i + 3) (4 * i) % 8

/-- The sweep class that a change of tcp_state assigns to both records, if it does (R224). -/
def Profile.classAfter (pr : Profile) (st : Nat) (j : FilterJudge) : Option Nat :=
  let own := st ||| j.own
  if (j.own.testBit 6 ∧ !st.testBit 6) ∨ (own.testBit 4 ∧ own.testBit 5 ∧ own ≠ st) then some (pr.filterClass 2)
  else if j.est then some (pr.filterClass 1) else none

/-- A packet with no record may create a pair (R222): 8 initiation, 9 no state, none when it may. A TCP packet whose flags begin nothing, and
any other packet from the zone that answers, are of no state, as a packet of a lost pair's reverse direction is (R211, assumption 230). -/
def filterStart (pr : Profile) (h : Parsed) (zone : Nat) : Option Nat :=
  let begins : Bool := h.tcpFlags.testBit flagSyn && !h.tcpFlags.testBit flagAck && !h.tcpFlags.testBit flagRst && !h.tcpFlags.testBit flagFin
  if h.proto = 6 ∧ !begins then some 9
  else if pr.flags.testBit 2 ∧ zone ≠ pr.initZone then (if h.proto ≠ 6 ∧ pr.flags.testBit 1 ∧ zone = pr.respZone then some 9 else some 8)
  else none

/-! ### Translation (R216, R220) -/

/-- One's-complement sum of 16-bit words in network order. -/
def sum16 (bs : Bytes) : Nat :=
  (List.range ((bs.length + 1) / 2)).foldl (fun n i => n + beAt bs (2 * i) 2) 0
/-- Folded to 16 bits. -/
def fold16 : Nat → Nat → Nat
  | 0, x => x % 65536
  | k + 1, x => if x < 65536 then x else fold16 k (x % 65536 + x / 65536)
/-- RFC 1624: the checksum after bytes `a` have become `b`. -/
def csumUpdate (hc : Nat) (a b : Bytes) : Nat :=
  let notWords (bs : Bytes) : Nat := (List.range ((bs.length + 1) / 2)).foldl (fun n i => n + (65535 - beAt bs (2 * i) 2)) 0
  65535 - fold16 8 ((65535 - hc) + notWords a + sum16 b)

/-- Offset of the transport checksum, if the protocol has one (R220). -/
def csumOff (h : Parsed) : Option Nat :=
  if h.proto = 6 then some (h.l4 + 16) else if h.proto = 17 then some (h.l4 + 6)
  else if h.proto = 1 ∨ h.proto = 58 then some (h.l4 + 2) else none

/-- ICMP and ICMPv6 echo, whose identifier takes the place of the port. -/
def isEcho (h : Parsed) : Bool := (h.proto == 1 || h.proto == 58) && h.payload == h.l4 + 8
/-- The packet carries ports, or an identifier in their place (R220). -/
def hasPorts (h : Parsed) : Bool := !h.laterFrag && (h.proto == 6 || h.proto == 17 || h.proto == 132 || isEcho h)

/-- The edits that rewrite the source (`true`) or destination address and port of a frame, with the checksums (R220). -/
def translateEdits (bs : Bytes) (h : Parsed) (source : Bool) (addr port : Nat) : List Edit :=
  let (aoff, alen) := if h.ver = 4 then (h.l3 + (if source then 12 else 16), 4) else (h.l3 + (if source then 8 else 24), 16)
  let poff := if isEcho h then h.l4 + 4 else if source then h.l4 else h.l4 + 2
  let aOld := slice bs aoff alen
  let aNew := natBe alen (addr % 2 ^ (8 * alen))
  let pOld := slice bs poff 2
  let pNew := natBe 2 (port % 65536)
  let ip : List Edit := if h.ver = 4 then [{ off := h.l3 + 10, bytes := natBe 2 (csumUpdate (beAt bs (h.l3 + 10) 2) aOld aNew) }] else []
  let pseudo := h.proto == 6 || h.proto == 17 || h.proto == 58
  let l4 : List Edit := match csumOff h with
    | some o =>
      let hc := beAt bs o 2
      if h.laterFrag ∨ (h.proto = 17 ∧ h.ver = 4 ∧ hc = 0) then []
      else
        let c1 := if pseudo then csumUpdate hc aOld aNew else hc
        [{ off := o, bytes := natBe 2 (if hasPorts h then csumUpdate c1 pOld pNew else c1) }]
    | none => []
  [{ off := aoff, bytes := aNew }] ++ ip ++ (if hasPorts h then [{ off := poff, bytes := pNew }] else []) ++ l4

/-- The record of the reply direction holds its translation as reverse (Table 9-1). -/
def isReverse (b : Bytes) : Bool := (recW4 b).testBit 26

/-- Service words of a record: translated address, port, pool, reverse, kind, and binding (Table 9-1). -/
def serviceWords (addr port pool : Nat) (reverse dest : Bool) (w5 : Nat) : Bytes :=
  natBe 16 addr ++ natLe 4 (port % 65536 + 2 ^ 16 * (pool % 1024) + b2n reverse * 2 ^ 26 + b2n dest * 2 ^ 27) ++ natLe 4 w5

/-- The key of the reply direction, given the addresses and ports after translation (R209). -/
def reverseKey (pr : Profile) (key : Bytes) (src sport dst dport : Nat) : Bytes :=
  let proto := recProto key
  let echo := proto == 1 || proto == 58
  let zone := if pr.flags.testBit 1 then pr.respZone else recZone key
  addrBytes dst ++ addrBytes src ++ natLe 2 (if echo then sport else dport) ++ natLe 2 (if echo then 0 else sport) ++
  natLe 1 proto ++ natLe 1 (recProfile key) ++ natLe 2 zone

/-- The destination of a packet lies in the profile's pool, so it is of the reply direction of a source translation. -/
def State.towardPool (s : State) (pr : Profile) (dst e : Nat) : Bool :=
  match s.poolConf pr.pool e with
  | some c => isV4 dst && c.holds (v4Of dst)
  | none => false
/-- The source of a packet is a member of the profile's group, so it is of the reply direction of a destination translation. -/
def State.fromMember (s : State) (pr : Profile) (src sport e : Nat) : Bool :=
  (List.range 64).any (fun m => (s.member pr.lb m e).any (fun x => x.addr == src && x.port == sport))

/-- Addresses and ports of a packet after translation to an address and port; an echo's identifier takes the place of the port
(R209, R220). -/
def translatedTuple (pr : Profile) (h : Parsed) (addr port : Nat) : Nat × Nat × Nat × Nat :=
  if pr.destKind then
    (h.src, if isEcho h then port else h.sport, addr, if hasPorts h ∧ !isEcho h then port else h.dport)
  else (addr, if hasPorts h then port else h.sport, h.dst, h.dport)
/-- The virtual or internal address and port that the reply direction is rewritten back to (R220). -/
def backTo (pr : Profile) (h : Parsed) : Nat × Nat :=
  if pr.destKind then (h.dst, if isEcho h then h.sport else h.dport) else (h.src, h.sport)

/-- A source translation applies to the packet: IPv4 only (R216). -/
def natApplies (pr : Profile) (h : Parsed) : Bool := pr.runs 1 && (pr.destKind || h.ver == 4)

/-! ### Creation (R149, R209, R217, R355) -/

/-- What a miss under lookup and create leads to. -/
inductive Created where
  /-- a record at this place -/
  | made (loc : Nat)
  /-- no record is to be created: a service discards the packet, or the mode does not create -/
  | notWanted
  /-- refused under R150, with its cause -/
  | refused (cause : Nat)
  /-- refused under R219 -/
  | exhausted
deriving DecidableEq, Repr

/-- A service forbids the creation (R214, R220, R222); a member of another address family is none for a destination translation (R216,
assumption 230). -/
def State.noCreation (s : State) (p : Packet) (pr : Profile) (h : Parsed) : Bool :=
  let e := p.epoch
  (pr.runs 2 && (filterStart pr h (recZone p.key)).isSome) ||
  (pr.runs 1 && h.laterFrag) ||
  (pr.srcKind && s.towardPool pr h.dst e) ||
  (pr.destKind && s.fromMember pr h.src h.sport e) ||
  (pr.destKind && (s.slotMember pr.lb e p.key).all (fun x => isV4 x.2.addr != isV4 h.dst))

/-- A checkpoint that the twin left for a key (R355). -/
def State.checkpointOf (s : State) (key : Bytes) : Option Checkpoint := s.sheaf.store.find? (fun c => c.key == key)

/-- The translation of a new pair: translated address and port, and the state with the port taken; `none` when R219 refuses it. -/
def State.translation (s : State) (p : Packet) (pr : Profile) (h : Parsed) : Option (Nat × Nat) × State :=
  match s.checkpointOf p.key with
  | some c =>
    let a := s.alloc c.pool
    let s1 := match s.poolConf c.pool p.epoch with
      | some k => if pr.srcKind then s.setAlloc c.pool { a with used := (65536 * v4Of (beNat c.addr) + c.port) :: a.used } else s
      | none => s
    (some (beNat c.addr, c.port), s1)
  | none =>
    if pr.destKind then
      match s.slotMember pr.lb p.epoch p.key with
      | some (_, m) => (some (m.addr, m.port), s)
      | none => (none, s)
    else match s.poolConf pr.pool p.epoch with
      | none => (none, s.refusePort pr.pool 0)
      | some c =>
        match s.takePort pr.pool c (h.src) (recZone p.key) with
        | (.port u nb, s1) =>
          let s2 := match nb with
            | some block => match (s1.alloc pr.pool).holder block with
              | some b => s1.exportBlock c b block 16
              | none => s1
            | none => s1
          (some (mapped + u / 65536, u % 65536), s2)
        | (.refused _, s1) => (none, s1)

/-- A token and a place for a new record, or the cause of the refusal (R144, R146, R150). -/
def State.creationPlace (s : State) (k pr : Nat) (prof : Profile) (key : Bytes) : Except Nat (Nat × State) :=
  match s.spendCreation k pr prof.rate with
  | (some c, _) => .error c
  | (none, s1) => match s1.placeFor key pr (prof.evict == 1) with
    | (none, _) => .error 4
    | (some loc, s2) => .ok (loc, s2)
/-- A new record goes into its place, with its histogram, and is counted (R149, R230). -/
def State.enterRec (s : State) (pr : Nat) (prof : Profile) (loc : Nat) (b : Bytes) : State :=
  let (b1, s1) := if prof.flags.testBit 5 then s.histAlloc b else (b, s)
  (s1.placeRec loc b1).countProfile pr 0
/-- One record of a creation: a token, a place, and the record in it (R144 to R150). -/
def State.makeRec (s : State) (k pr : Nat) (prof : Profile) (b : Bytes) : Except Nat (Nat × State) :=
  match s.creationPlace k pr prof (recKey b) with
  | .error c => .error c
  | .ok (loc, s1) => .ok (loc, s1.enterRec pr prof loc b)
/-- A creation inside the routine of packet `n` reserves its slot when the lock is taken (R179). -/
def State.reserveRec (s : State) (n k pr : Nat) (prof : Profile) (b : Bytes) : Except Nat (Nat × State) :=
  match s.creationPlace k pr prof (recKey b) with
  | .error c => .error c
  | .ok (loc, s1) => .ok (loc, s1.setRec loc { bytes := b, reserved := some n })
/-- Slots that packet `n` has reserved, with their records. -/
def State.reservedBy (s : State) (n : Nat) : List (Nat × FlowRec) :=
  s.flow.records.filter (fun (x : Nat × FlowRec) => x.2.reserved == some n)
/-- The slot that packet `n` has reserved for a key. -/
def State.reservedFor (s : State) (n : Nat) (key : Bytes) : Option Nat :=
  ((s.reservedBy n).find? (fun x => recKey x.2.bytes == key)).map (·.1)
/-- The reservations of packet `n` are given up. -/
def State.dropReserved (s : State) (n : Nat) : State :=
  { s with flow := { s.flow with records := s.flow.records.filter (fun (x : Nat × FlowRec) => x.2.reserved != some n) } }
/-- One reservation becomes a record, unless a bale has meanwhile placed one for its key. -/
def State.openOne (s : State) (x : Nat × FlowRec) : State :=
  let pr := recProfile x.2.bytes
  if (s.findRec (recKey x.2.bytes) s.bales.epoch).isSome then
    { s with flow := { s.flow with records := Tab.erase s.flow.records x.1 } }
  else s.enterRec pr (s.profile pr s.bales.epoch) x.1 x.2.bytes
/-- The records that the routine of packet `n` has created come into the table with its packet bale (R178, R179). -/
def State.openReserved (s : State) (n : Nat) : State := (s.reservedBy n).foldl (fun s x => s.openOne x) s

/-- The class of a new record (R149, R224). -/
def newClass (pr : Profile) (h : Parsed) : Nat :=
  if pr.runs 2 then (if h.proto = 6 then pr.filterClass 0 else pr.filterClass 3) else pr.cls

/-- The bytes of a packet's new forward record (R149, R209, R221). -/
def forwardRec (p : Packet) (pr : Profile) (h : Parsed) (svc : Bytes) : Bytes :=
  let b := newRec p.key (newClass pr h) (pr.flags.testBit 0) p.tai p.len
  let b1 := if pr.runs 2 then recPut b 101 1 (128 + (if h.proto = 6 then 2 else 0)) else b
  patch b1 104 svc

/-- The bytes of the reverse record (R209). -/
def reverseRec (key : Bytes) (p : Packet) (pr : Profile) (h : Parsed) (svc : Bytes) : Bytes :=
  patch (recPut (recPut (recPut (newRec key (newClass pr h) (pr.flags.testBit 0) p.tai 0) 64 8 0) 72 8 0) 48 8 0) 104 svc

/-- The profile makes a pair for a packet, not a single record (R209, R216). -/
def Profile.makesPair (pr : Profile) (h : Parsed) : Bool := pr.pairs && (pr.runs 2 || natApplies pr h)
/-- Translated address and port of a new pair, 0 where nothing is translated, and the state with the port taken; `none` when R219 refuses it. -/
def State.newMapping (s : State) (p : Packet) (pr : Profile) (h : Parsed) : Option (Nat × Nat) × State :=
  if natApplies pr h then s.translation p pr h else (some (0, 0), s)
/-- Key of the reverse record of a new pair with this translation (R209). -/
def newReverseKey (p : Packet) (pr : Profile) (h : Parsed) (m : Nat × Nat) : Bytes :=
  let (src, sp, dst, dp) := if natApplies pr h then translatedTuple pr h m.1 m.2 else (h.src, h.sport, h.dst, h.dport)
  reverseKey pr p.key src sp dst dp
/-- The creation for a packet that missed may go on to its record: its profile creates, and no service forbids it. -/
def State.creates (s : State) (p : Packet) (h : Parsed) : Bool :=
  let pr := s.profile p.profile p.epoch
  pr.mode == 2 && !s.noCreation p pr h
/-- Key of the reverse record that the creation for a packet needs beside its own. -/
def State.reverseOf (s : State) (p : Packet) : Option Bytes :=
  let h := parse p.bytes
  let pr := s.profile p.profile p.epoch
  if s.creates p h ∧ pr.makesPair h then (s.newMapping p pr h).1.map (newReverseKey p pr h) else none

/-- Two records name each other (R209). -/
def State.pairUp (s : State) (a b : Nat) : State :=
  let join (x : Bytes) (q : Nat) : Bytes := recSetBit (recPut x 96 4 (pairField q)) bitPaired true
  (s.modRec a (fun x => join x b)).modRec b (fun x => join x a)

/-- The creation for a packet that missed under lookup and create: its record, its pair and its translation as one operation
(R149, R150, R208, R209). -/
def State.createFor (s : State) (p : Packet) : Created × State :=
  let h := parse p.bytes
  let pr := s.profile p.profile p.epoch
  let k := sliceOf p.port
  if !s.creates p h then (.notWanted, s)
  else if !pr.makesPair h then
    match s.makeRec k p.profile pr (forwardRec p pr h (List.replicate 24 0)) with
    | .ok (loc, s1) => (.made loc, s1)
    | .error c => (.refused c, s.refuseCreation p.profile c)
  else
    let nat := natApplies pr h
    let w5 := if pr.runs 0 then ((s.slotMember pr.lb p.epoch p.key).map (fun x => lbWord pr.lb x.1)).getD 0 else 0
    match s.newMapping p pr h with
    | (none, s1) => (.exhausted, s1)
    | (some (addr, port), s1) =>
      let fsvc := if nat then serviceWords addr port pr.pool false pr.destKind w5 else List.replicate 20 0 ++ natLe 4 w5
      let rk := newReverseKey p pr h (addr, port)
      let (ra, rp) := backTo pr h
      let rsvc := if nat then serviceWords ra rp pr.pool true pr.destKind w5 else List.replicate 20 0 ++ natLe 4 w5
      match s1.makeRec k p.profile pr (forwardRec p pr h fsvc) with
      | .error c => (.refused c, s.refuseCreation p.profile c)
      | .ok (a, s2) => match s2.makeRec k p.profile pr (reverseRec rk p pr h rsvc) with
        | .error c => (.refused c, s.refuseCreation p.profile c)
        | .ok (b, s3) =>
          let s4 := s3.pairUp a b
          let block := match s.poolConf pr.pool p.epoch with
            | some c => c.blockOfPort (65536 * v4Of addr + port) % 65536
            | none => 0
          (.made a, if nat then s4.offer { create := true, key := p.key, addr := addrBytes addr, port := port, pool := pr.pool, block := block,
                                           group := w5 / 2 ^ 22, member := w5 / 2 ^ 16 % 64 } else s4)

/-! ### The routine (R207, R227 to R230) -/

/-- What Larzenu's services do with one packet. -/
structure Plan where
  staged : List Staged := []
  edits : List Edit := []
  /-- next hop in place of the routing result (R214) -/
  hop : Option Nat := none
  discard : Bool := false
  /-- the routine holds the record (R187) -/
  hold : Bool := false
  cutPrp : Bool := false
deriving DecidableEq, Repr

/-- The packet is discarded under a count of its profile. -/
def Plan.stop (q : Plan) (n : Nat) : Plan := { q with discard := true, staged := q.staged ++ [.counted n] }

/-- The 16-bit sequence of a PRP trailer, if the frame carries a valid one (R225, IEC 62439-3). -/
def prpSeq (bs : Bytes) (h : Parsed) : Option Nat :=
  let n := bs.length
  if n < h.l3 + 10 ∨ beAt bs (n - 6) 2 ≠ 0x88FB then none
  else if beAt bs (n - 8) 2 % 4096 = n - 4 - h.l3 then some (beAt bs (n - 10) 2) else none

/-- PRP duplicate discard: the window test is staged for the sequencer. A frame without a record, as one that is not IP, is left as it is
(R225, R226). -/
def planPrp (pr : Profile) (bs : Bytes) (h : Parsed) (rec_ : Option Bytes) (q : Plan) : Plan :=
  if !pr.runs 3 ∨ rec_.isNone then q
  else match prpSeq bs h with
    | some n => { q with staged := q.staged ++ [.prp n], cutPrp := pr.flags.testBit 3 }
    | none => q

/-- The stateful filter (R221 to R224). -/
def planFilter (p : Packet) (pr : Profile) (h : Parsed) (rec_ : Option Bytes) (q : Plan) : Plan :=
  if q.discard ∨ !pr.runs 2 then q
  else match rec_, p.record with
    | none, _ => q.stop ((filterStart pr h (recZone p.key)).getD 9)
    | some _, .created _ => { q with hold := true }
    | some b, _ =>
      if h.proto ≠ 6 then q
      else
        let st := recTcp b
        let j := filterJudge st h.tcpFlags
        let cls := pr.classAfter st j
        let rtt : List Staged := if j.est ∧ pr.flags.testBit 4 then
          [.store 0 80 (natLe 4 (min (2 ^ 32 - 1) (p.tai - recFirst b)))] else []
        let own : List Staged := if j.own = 0 then [] else [.merge 0 .or 101 1 j.own]
        let pair : List Staged := if j.peer = 0 ∧ cls.isNone then [] else [.pair j.peer cls]
        let clsOwn : List Staged := match cls with | some c => [.store 0 40 [BitVec.ofNat 8 c]] | none => []
        let q1 := { q with staged := q.staged ++ own ++ clsOwn ++ pair ++ rtt, hold := q.hold || decide (st ||| j.own ≠ st) }
        if j.pass then q1 else q1.stop 10

/-- A record is of the reply direction: its translation is reverse, or it is paired and did not initiate. -/
def replySide (pr : Profile) (b : Bytes) : Bool :=
  isReverse b || (pr.runs 2 && recBit b bitPaired && !(recTcp b).testBit 7)

/-- The active member of a flow key's slot to which a packet can go: for a destination translation one of its own address family (R213, R216,
assumption 230). -/
def State.memberFor (s : State) (pr : Profile) (e : Nat) (key : Bytes) (h : Parsed) : Option (Nat × Member) :=
  (s.slotMember pr.lb e key).filter (fun x => !pr.destKind || isV4 x.2.addr == isV4 h.dst)

/-- Load balancing (R214, R215). -/
def State.planLb (s : State) (p : Packet) (pr : Profile) (rec_ : Option Bytes) (q : Plan) : Plan :=
  let e := p.epoch
  if q.discard ∨ !pr.runs 0 then q
  else if rec_.any (replySide pr) then q
  else if !s.lbActive pr.lb e then q.stop 11
  else
    let fresh := s.memberFor pr e p.key (parse p.bytes)
    let bind (m : Nat × Member) (q : Plan) : Plan :=
      { q with staged := q.staged ++ [.store 0 124 (natLe 4 (lbWord pr.lb m.1))], hop := some m.2.hop, hold := true }
    match rec_ with
    | none => match fresh with
      | some m => { q with hop := some m.2.hop }
      | none => q.stop 11
    | some b =>
      let g := recW5 b / 2 ^ 22
      let bound := s.member g (recW5 b / 2 ^ 16 % 64) e
      let first := (match p.record with | .created _ => true | _ => false) || g != pr.lb
      if first then (match fresh with | some m => bind m q | none => q.stop 11)
      else match bound with
        | some m =>
          if m.state < 2 then { q with hop := some m.hop }
          else if (s.lbGroup g e).2.2 = 1 then q.stop 11
          else (match fresh with
            | some x => { bind x q with staged := (bind x q).staged ++ [.counted 12] }
            | none => q.stop 11)
        | none => (match fresh with | some x => { bind x q with staged := (bind x q).staged ++ [.counted 12] } | none => q.stop 11)

/-- The member that a plan has newly bound, if it has. -/
def Plan.bound (q : Plan) : Option Nat :=
  q.staged.findSome? (fun x => match x with | .store 0 124 bs => some (leNat bs / 2 ^ 16 % 64) | _ => none)

/-- Address translation (R216, R220); a destination translation whose binding has changed takes the new member (R215). The packet that
creates the pair holds it (Table 8-1). No packet of the profile passes without a record, translated or not (R208). -/
def State.planNat (s : State) (p : Packet) (pr : Profile) (h : Parsed) (rec_ : Option Bytes) (q : Plan) : Plan :=
  if q.discard ∨ !pr.runs 1 then q
  else match rec_ with
    | none => q.stop 13
    | some b =>
      if !natApplies pr h then q
      else if recW4 b % 2 ^ 26 = 0 ∧ leAt b 104 8 = 0 ∧ leAt b 112 8 = 0 then q.stop 13
      else
        let rev := isReverse b
        let addr := beAt b 104 16
        let port := recW4 b % 65536
        let rebound := !rev && pr.destKind && (match p.record with | .created _ => false | _ => true)
        match (if rebound then q.bound.bind (fun m => s.member pr.lb m p.epoch) else none) with
        | some m =>
          let w5 := lbWord pr.lb (q.bound.getD 0)
          let (src, sp, dst, dp) := translatedTuple pr h m.addr m.port
          let rk := reverseKey pr p.key src sp dst dp
          let (ra, rp) := backTo pr h
          { q with
            edits := q.edits ++ translateEdits p.bytes h false m.addr m.port
            staged := q.staged ++ [.store 0 104 (serviceWords m.addr m.port pr.pool false true w5),
              .reverse rk (serviceWords ra rp pr.pool true true w5)] }
        | none =>
          let made : Bool := match p.record with | .created _ => true | _ => false
          { q with edits := q.edits ++ translateEdits p.bytes h (pr.srcKind != rev) addr port, hold := q.hold || made }

/-- Jitter and histogram (R229, R230). The packet that makes a record, or is the first of a reverse record, merges no jitter. The spacing T
is that of the present output rate, any slew included (R58), in whole ns (assumption 230). -/
def State.planTelemetry (s : State) (p : Packet) (pr : Profile) (rec_ : Option Bytes) (q : Plan) : Plan :=
  match rec_ with
  | none => q
  | some b =>
    let made : Bool := match p.record with | .created _ => true | _ => false
    let a : Int := (p.tai : Int) - recLast b
    let t : Int := (5 * 2 ^ 56 / (9 * s.advance.1 * pr.jitter) : Nat)
    let jit : List Staged := if pr.jitter = 0 ∨ made ∨ leAt b 64 8 = 0 ∨ q.discard then [] else
      [.merge 0 .avg 84 4 (min (a - t).natAbs 0x7FFFFFFF)]
    let hist : List Staged := if pr.flags.testBit 5 ∧ !q.discard then [.histogram (bits p.stamp.angle 15 12)] else []
    let hit : List Staged := if recBit b bitPaired then [.pair 0 none] else []
    { q with staged := q.staged ++ jit ++ hist ++ hit ++ [.telemetry] }

/-- The services of a packet's profile in their order (R207). A later fragment under a translation profile is discarded as such, whatever
other service it meets (R220). -/
def State.plan (s : State) (p : Packet) (rec_ : Option Bytes) : Plan :=
  let h := parse p.bytes
  let pr := s.profile p.profile p.epoch
  let q := planPrp pr p.bytes h rec_ {}
  s.planTelemetry p pr rec_
    (if pr.runs 1 ∧ h.laterFrag then q.stop 14 else s.planNat p pr h rec_ (s.planLb p pr rec_ (planFilter p pr h rec_ q)))

/-- The plan writes the paired record by more than a pair update: it has just created the pair, or puts a new reverse record in it
(R179, R209, R210, R215). -/
def Plan.locksPair (q : Plan) (p : Packet) : Bool :=
  (match p.record with | .created _ => true | _ => false) || q.staged.any (fun w => match w with | .reverse _ _ => true | _ => false)

/-- The record of a packet as its epoch reads it. -/
def State.recOf (s : State) (p : Packet) : Option Bytes :=
  match p.record with
  | .found l | .created l => (s.recAt l).map (·.at p.epoch)
  | _ => none

/-- An RST sets reset on both records of a pair (R280). -/
def State.resetPair (s : State) (p : Packet) : State :=
  let pr := s.profile p.profile p.epoch
  let mark (s : State) (l : Nat) : State := s.touchRec l (fun b => recPut b 101 1 (recTcp b ||| 64))
  if !pr.runs 2 then s
  else match p.record with
    | .found l | .created l =>
      let s1 := mark s l
      match (s.recAt l).bind (fun r => pairLoc (recPair (r.at p.epoch))) with
      | some q => mark s1 q
      | none => s1
    | _ => s

end Sys2Proof.Machine
end

