-- ==== Sys2Proof/Machine/Sequencer.lean ====
section
/-! DEFINITION. The flow sequencer, the record lookup of step 5, memory replies, and the profiled-work queue that a packet joins on its
way (R28, R143, R148, R158 to R160, R183, R332). -/

namespace Sys2Proof.Machine

/-! ### Profiled work (R28, R249) -/

/-- Queue of profiled work of slice `k`. -/
def State.workQueue (s : State) (k : Nat) : List Nat := Tab.get [] s.awn.queue k
/-- Puts the queue of profiled work of slice `k`. -/
def State.setWork (s : State) (k : Nat) (q : List Nat) : State :=
  { s with awn := { s.awn with queue := Tab.put [] s.awn.queue k q } }

/-- A packet is dropped as profiled work (R28, R29). -/
def State.dropWork (s : State) (n : Nat) : State :=
  match s.pkt? n with
  | none => s
  | some p =>
    let k := sliceOf p.port
    ((s.countSlice k 10).raiseLimited 0x0509 (src 5 k) (sec 1) [] 4).endPacket n false true

/-- A packet whose segment is to be scanned or hashed joins its slice's queue of 1,024 entries, or is dropped (R28). -/
def State.joinWork (s : State) (n : Nat) : State :=
  match s.pkt? n with
  | none => s
  | some p =>
    let k := sliceOf p.port
    let q := s.workQueue k
    if 1024 ≤ q.length then s.dropWork n
    else (s.setWork k (q ++ [n])).setPkt n { p with stage := .queued }

/-! ### The SHA-512 engines (R28, R262) -/

/-- An engine in service with no work. -/
def State.freeHash (s : State) : Option Nat :=
  (List.range 16).find? (fun h => Tab.get 0 s.gate.hashSt h == 0 && (Tab.find? s.gate.hashing h).isNone)

/-- The oldest hash work that waits in a slice's queue. -/
def State.nextHash (s : State) : Option Nat :=
  let firsts := (List.range 8).filterMap (fun k => (s.workQueue k).find? (fun n => (s.pkt? n).any (fun p => p.stage == .digest)))
  firsts.foldl (fun (b : Option Nat) n => match b with
    | none => some n
    | some m => some (min m n)) none

/-- A free engine takes the oldest work, which leaves its queue. -/
def State.giveHash (s : State) : State :=
  match s.freeHash, s.nextHash with
  | some h, some n =>
    let q := (s.awn.queue).map (fun (x : Nat × List Nat) => (x.1, x.2.filter (· != n)))
    { s with awn := { s.awn with queue := q.filter (fun x => !x.2.isEmpty) }, gate := { s.gate with hashing := Tab.insert s.gate.hashing h n } }
  | _, _ => s

/-- Engines whose work is over or has left the device, and idle ones, take what waits (R28). -/
def State.giveHashes (s : State) : State :=
  let busy := s.gate.hashing.filter (fun (x : Nat × Nat) => (s.pkt? x.2).any (fun p => p.stage == .digest))
  (List.range 16).foldl (fun s _ => s.giveHash) { s with gate := { s.gate with hashing := busy } }

/-- A packet's PDUs are in an engine. -/
def State.isHashing (s : State) (n : Nat) : Bool := s.gate.hashing.any (fun x => x.2 == n)

/-- A packet whose PDUs are to be hashed joins its slice's queue, or is dropped where that is full (R28). -/
def State.joinHash (s : State) (n : Nat) (p : Packet) : State :=
  let k := sliceOf p.port
  let q := s.workQueue k
  if 1024 ≤ q.length then s.dropWork n
  else ((s.setWork k (q ++ [n])).setPkt n { p with stage := .digest }).giveHashes

/-- An engine leaves service: the work in it goes to another, ahead of what waits (R28, R395). -/
def State.loseHash (s : State) (h : Nat) : State :=
  match Tab.find? s.gate.hashing h with
  | none => s
  | some n =>
    let s1 := { s with gate := { s.gate with hashing := Tab.erase s.gate.hashing h } }
    match s1.pkt? n with
    | some p => (s1.setWork (sliceOf p.port) (n :: s1.workQueue (sliceOf p.port))).giveHashes
    | none => s1.giveHashes

/-- The pattern set of a packet's epoch holds an Awn profile (R249). -/
def State.hasAwn (s : State) (awn e : Nat) : Bool := (s.patternAt e).any (fun x => (Config.dfaStart x.image awn).isSome)

/-- Bytes of the transport payload of a frame (R249). -/
def segmentOf (bs : Bytes) : Bytes :=
  let h := parse bs
  if h.laterFrag ∨ (h.proto ≠ 6 ∧ h.proto ≠ 17) then [] else slice bs h.payload (h.payEnd - h.payload)

/-- The profile runs a routine at step 6 (R20, R184). -/
def Profile.hasRoutine (pr : Profile) : Bool := pr.mode != 0 || pr.services != 0 || pr.entry != 0

/-- A packet whose step 5 is over, or that needs none, goes on: a scan before step 6 (R249), its routine (R184), or step 7. -/
def State.toStep6 (s : State) (n : Nat) : State :=
  match s.pkt? n with
  | none => s
  | some p =>
    let pr := s.profile p.profile p.epoch
    let on := if pr.hasRoutine then PktStage.ready else PktStage.step7
    let named : Bool := match p.record with | .found _ | .created _ => true | _ => false
    if named ∧ pr.awn ≠ 0 ∧ pr.command = 0 ∧ !p.scan.scanned ∧ segmentOf p.bytes ≠ [] then
      if !s.hasAwn pr.awn p.epoch then (s.countProfile p.profile 18).setPkt n { p with stage := on }
      else
        let s1 := s.setPkt n { p with stage := .waitFrame, sf := true }
        if p.complete then s1.joinWork n else s1
    else s.setPkt n { p with stage := on }

/-! ### Order (R148, R189) -/

/-- An operation comes before another on the same key: by stamp, then by port (R148). -/
def SeqOp.before (a b : SeqOp) : Bool := decide (a.stamp < b.stamp ∨ (a.stamp = b.stamp ∧ a.port < b.port))
/-- What waits in the sequencer, as an operation: no packet's. -/
def Visit.op (v : Visit) : SeqOp := { key := v.key, pkt := 0, stamp := v.stamp, port := v.port }
/-- The operation keeps its place before later ones until its bale is applied: all but a pair update that only sets the hit bit, which comes to
the same whenever it is applied (R210). -/
def SeqOp.ordered (o : SeqOp) : Bool := o.lock || o.pair != some false

/-- The operation of a packet on a key. -/
def opOf (n : Nat) (p : Packet) (key : Bytes) : SeqOp := { key := key, pkt := n, stamp := p.stamp.angle, port := p.port }

/-- A packet's operation is issued to the sequencer (R148). -/
def State.issueOp (s : State) (n : Nat) (p : Packet) (key : Bytes) : State :=
  { s with flow := { s.flow with ops := s.flow.ops ++ [opOf n p key] } }

/-- A drained slice has left the release condition (R148, R401). -/
def State.sliceOut (s : State) (k : Nat) : Bool := s.fault.drain.any (fun d => d.slice == k && d.drained)

/-- Every slice has issued all operations with stamps up to a packet's: each issues those of its packets as they come in, so that its
stamp is the present one, and trails its ingress by no more than 175 ns (R148). -/
def State.allIssued (s : State) (p : Packet) : Bool :=
  (List.range 8).all (fun k => s.sliceOut k || decide (p.stamp.angle < s.angle)) || decide (p.at_ + ns 175 ≤ s.now)

/-- An earlier operation, a visit or a lock on the key stands before a packet's operation (R148, R179). An operation whose lookup is over
no longer holds up other lookups; a pair update that changes the filter's state does until it is applied (R210, Table 9-6). -/
def State.seqBlocked (s : State) (n : Nat) (p : Packet) (key : Bytes) : Bool :=
  s.flow.ops.any (fun o => o.pkt != n && o.key == key && (o.lock || ((!o.looked || o.pair == some true) && o.before (opOf n p key)))) ||
  s.flow.visits.any (fun v => v.key == key && v.op.before (opOf n p key))

/-- The operation of packet `n` on a key is over. -/
def State.endOp (s : State) (n : Nat) (key : Bytes) : State :=
  { s with flow := { s.flow with ops := s.flow.ops.filter (fun o => !(o.pkt == n && o.key == key)) } }
/-- The operation of packet `n` on a key becomes a lock, held until its routine ends (R179, R188). -/
def State.lockOp (s : State) (n : Nat) (key : Bytes) : State :=
  { s with flow := { s.flow with ops := s.flow.ops.map (fun o => if o.pkt = n ∧ o.key = key then { o with lock := true } else o) } }
/-- The lookup of packet `n` on a key is over, or not yet: its operation stands until its packet bale is applied (R146, R148). -/
def State.lookedOp (s : State) (n : Nat) (key : Bytes) (looked : Bool := true) : State :=
  { s with flow := { s.flow with ops := s.flow.ops.map (fun o => if o.pkt = n ∧ o.key = key then { o with looked := looked } else o) } }
/-- The filter's judgement of a packet changes the state of the paired record too (R221, R223). -/
def State.changesPair (s : State) (p : Packet) (b : Bytes) : Bool :=
  let h := parse p.bytes
  (s.profile p.profile p.epoch).runs 2 && h.proto == 6 && (filterJudge (recTcp b) h.tcpFlags).peer != 0
/-- The pair update of a packet whose record lies at `loc` is issued for the paired record's key (R148, R210). -/
def State.issuePair (s : State) (n : Nat) (p : Packet) (loc : Nat) : State :=
  match (s.recAt loc).map (·.at p.epoch) with
  | none => s
  | some b => match (pairLoc (recPair b)).bind s.recAt with
    | none => s
    | some r =>
      let o : SeqOp := { opOf n p (recKey r.bytes) with looked := true, pair := some (s.changesPair p b) }
      if o.key = p.key ∨ s.flow.ops.any (fun x => x.pkt == n && x.key == o.key) then s
      else { s with flow := { s.flow with ops := s.flow.ops ++ [o] } }
/-- Every lock of packet `n` is released. -/
def State.releaseLocks (s : State) (n : Nat) : State :=
  { s with flow := { s.flow with ops := s.flow.ops.filter (fun o => o.pkt != n) } }

/-! ### Holds (R302) -/

/-- The held account of a port exceeds its limit (R302). -/
def State.holdFull (s : State) (p : Nat) : Bool := decide (s.sn 0x0C07 p < s.heldOf p)

/-! ### The lookup (R143, R147, R159) -/

/-- Both directory entries are read, in parallel, from the pseudo-channels that can be read (R143, R159). -/
def State.readDirectory (s : State) (key : Bytes) (owner : ReadOwner) : State :=
  let (b1, b2) := s.flowBuckets key
  [b1, b2].foldl (fun s b =>
    if s.bucketAbsent b ∨ s.fenced (s.bucketPc b) then s else s.issueRead (s.bucketPc b) (s.directoryAddr b) b true owner) s

/-- The first place, in the order of R143, that a lookup has not compared and that can be read (R143, R159). -/
def State.nextPlace (s : State) (key : Bytes) (e : Nat) (tried : List Nat) : Option Nat :=
  (s.candidates key e).find? (fun x => !tried.contains x && !s.fenced (s.placePc x))

/-- A candidate bucket of a key lies on a fenced pseudo-channel (R159). -/
def State.bucketsFenced (s : State) (key : Bytes) : Bool :=
  let (b1, b2) := s.flowBuckets key
  [b1, b2].any (fun b => !s.bucketAbsent b && s.fenced (s.bucketPc b))
/-- A lookup that has found its record nowhere else needs a fenced pseudo-channel (R159). -/
def State.needsFence (s : State) (key : Bytes) (e : Nat) (tried : List Nat) : Bool :=
  s.bucketsFenced key ||
  (s.candidates key e).any (fun x => !tried.contains x && s.fenced (s.placePc x))

/-- The record at a place has the key. -/
def State.keyAt (s : State) (loc : Nat) (key : Bytes) : Bool := (s.recAt loc).any (fun r => recKey r.bytes == key)

/-- The record that a packet's own record is paired with, by its key, as the packet's epoch has it (R188, R209). -/
def State.pairKey (s : State) (p : Packet) : Option Bytes :=
  (((s.recOf p).bind (fun b => pairLoc (recPair b))).bind s.recAt).map (fun r => recKey r.bytes)
/-- Order of the locks of a routine: ascending H1 of the keys, then the key bytes as a number (R179). -/
def State.lockBefore (s : State) (a b : Bytes) : Bool :=
  decide (s.flowH1 a < s.flowH1 b ∨ (s.flowH1 a = s.flowH1 b ∧ beNat a ≤ beNat b))
/-- Keys that the services of a packet lock: its own, and its pair's (R179, R188). -/
def State.lockKeys (s : State) (p : Packet) : List Bytes :=
  match s.pairKey p with
  | some q => if q = p.key then [p.key] else if s.lockBefore q p.key then [q, p.key] else [p.key, q]
  | none => [p.key]

/-- Locks are taken in their order, up to the first that an earlier operation or a lock stands before; the packet's operation then waits
on that key (R148, R179). -/
def State.takeLocks (n : Nat) (p : Packet) : List Bytes → State → List Bytes × State
  | [], s => ([], s)
  | key :: rest, s =>
    let mine := s.flow.ops.any (fun o => o.pkt == n && o.key == key)
    let s1 := if mine then s else s.issueOp n p key
    if s1.seqBlocked n p key then (key :: rest, s1.lookedOp n key false) else State.takeLocks n p rest (s1.lockOp n key)

/-- A packet holds the lock of a key (R179, R188). -/
def State.holdsLock (s : State) (n : Nat) (key : Bytes) : Bool := s.flow.ops.any (fun o => o.pkt == n && o.key == key && o.lock)
/-- A packet's services hold their locks: a paired record that they have locked is read from HBM where it is not cached, and then the packet
goes on to step 6 (R147, R179, R188). -/
def State.readPair (s : State) (n : Nat) (p : Packet) : State :=
  match (s.recOf p).bind (fun b => pairLoc (recPair b)) with
  | some q =>
    if s.cached q ∨ !((s.recAt q).any (fun r => s.holdsLock n (recKey r.bytes))) then (s.setPkt n p).toStep6 n
    else (s.setPkt n { p with stage := .waitRecord, exempt := true, waitAt := none }).issueRead (s.placePc q) (s.placeAddr q) q false (.record n) 4
  | none => (s.setPkt n p).toStep6 n

/-- A packet goes on to step 6 once its services hold their locks (R179). -/
def State.withLocks (s : State) (n : Nat) : State :=
  match s.pkt? n with
  | none => s
  | some p =>
    let (left, s1) := State.takeLocks n p p.locks s
    if left.isEmpty then s1.readPair n { p with locks := [] }
    else s1.setPkt n { p with locks := left, stage := .waitRecord, exempt := true, waitAt := none }

/-- The plan of a packet whose record is known decides between locks and a release, and the packet goes on (R187, R188, R195). -/
def State.settleRecord (s : State) (n : Nat) : State :=
  match s.pkt? n with
  | none => s
  | some p =>
    let pr := s.profile p.profile p.epoch
    let plan := s.plan p (s.recOf p)
    let named : Bool := match p.record with | .found _ | .created _ => true | _ => false
    let keys := if plan.hold ∧ plan.locksPair p then s.lockKeys p
      else if plan.hold ∨ (pr.entry ≠ 0 ∧ pr.custMode = 1) then [p.key] else []
    let s1 := if named then (match p.record with | .found l => (s.lookedOp n p.key).issuePair n p l | _ => s.lookedOp n p.key) else s.endOp n p.key
    if named ∧ keys ≠ [] then (s1.setPkt n { p with locks := keys }).withLocks n else s1.toStep6 n

/-- Time on fenced pseudo-channels does not count toward a packet's deadline (R29). -/
def Packet.offFence (p : Packet) (now : Nat) : Packet :=
  { p with fenceAt := none, fenced := p.fenced + (p.fenceAt.map (fun t => now - t)).getD 0 }
/-- The waits on a fence that ends are over (R29, R159). -/
def State.endFenceWaits (s : State) : State :=
  { s with packets := s.packets.map (fun (x : Nat × Packet) => (x.1, x.2.offFence s.now)) }

/-- Step 5 ends with the record at a place (R143). -/
def State.foundRecord (s : State) (n loc : Nat) : State :=
  match s.pkt? n with
  | none => s
  | some p => ((s.install loc false).setPkt n { p.offFence s.now with record := .found loc, waitAt := none, tried := [] }).settleRecord n

/-- A miss is settled: the record is created, refused, or not wanted (R149, R150, R208, R219). -/
def State.createRec (s : State) (n : Nat) : State :=
  match s.pkt? n with
  | none => s
  | some q =>
    let p := { q.offFence s.now with waitAt := none, tried := [], pairRead := none }
    let pr := s.profile p.profile p.epoch
    match s.createFor p with
    | (.made loc, s1) => (s1.setPkt n { p with record := .created loc }).settleRecord n
    | (.notWanted, s1) => (s1.setPkt n { p with record := .missed }).settleRecord n
    | (.exhausted, s1) => s1.discard n
    | (.refused _, s1) =>
      if pr.refusal = 1 ∨ pr.pairs then s1.discard n
      else (s1.setPkt n { p with record := .missed }).settleRecord n

/-- A creation of a pair needs the second record's buckets as well: it waits where one lies on a fenced pseudo-channel, and reads their directory
entries, before both records are made (R143, R159). -/
def State.createNow (s : State) (n : Nat) : State :=
  match s.pkt? n with
  | none => s
  | some p =>
    let q := { p with stage := .waitRecord, exempt := true, waitAt := none }
    match s.reverseOf p with
    | none => s.createRec n
    | some rk =>
      if s.bucketsFenced rk then s.setPkt n { q with fenceAt := if p.fenceAt.isSome then p.fenceAt else some s.now }
      else if p.pairRead = some rk then s.createRec n
      else
        let s1 := (s.setPkt n { q with pairRead := some rk }).readDirectory rk (.record n)
        if (s1.readsOf n).isEmpty then s1.createRec n else s1

/-- The share bucket of slice `k` lacks the tokens of `need` records (R150). -/
def State.shareLacks (s : State) (k need : Nat) : Bool :=
  decide ((Tab.get ({} : Bucket) s.fillShares.flow.shares k).tokens < need * creationUnit)
/-- The creation of a packet draws on the common pool: its slice's share bucket lacks the tokens of its records (R150). -/
def State.drawsPool (s : State) (p : Packet) : Bool :=
  let h := parse p.bytes
  s.creates p h && s.shareLacks (sliceOf p.port) (if (s.profile p.profile p.epoch).makesPair h then 2 else 1)
/-- A packet joins those whose creation draws on the common pool on this clock (R150). -/
def State.joinPool (s : State) (n : Nat) : State := { s with flow := { s.flow with poolWait := s.flow.poolWait ++ [n] } }

/-- Step 5 ends with a miss. A creation that draws on the common pool is served on the core clock, in its turn among the slices
(R150). -/
def State.missedRecord (s : State) (n : Nat) : State :=
  match s.pkt? n with
  | none => s
  | some p =>
    if s.drawsPool p then
      (s.setPkt n { p with stage := .waitRecord, exempt := true, waitAt := none }).joinPool n
    else s.createNow n

/-- A packet waits in the record wait of R158, from which step 7 admits it without checks 2 to 4 (R301); where the wait is timed, its limit runs
from the beginning. A packet that enters it beyond the held limit is dropped (R302). -/
def State.waitForRecord (s : State) (n : Nat) (p : Packet) (timed : Bool) : State :=
  if p.stage = .waitRecord then
    s.setPkt n { p with waitAt := if timed then (if p.waitAt.isSome then p.waitAt else some s.now) else none }
  else if s.holdFull p.port then s.drop n (fun s => s.countPort p.port 12)
  else s.setPkt n { p with stage := .waitRecord, exempt := false, exemptAdmit := true, waitAt := if timed then some s.now else none }

/-- A packet waits for a fence to lift, exempt from the record-wait limit (R159). -/
def State.waitFence (s : State) (n : Nat) (p : Packet) : State :=
  s.setPkt n { p with stage := .waitRecord, exempt := true, waitAt := none, fenceAt := if p.fenceAt.isSome then p.fenceAt else some s.now }

/-- The lookup of a packet reads the next place, waits for a fence to lift, or is a miss (R143, R159). -/
def State.lookOn (s : State) (n : Nat) (p : Packet) : State :=
  match s.nextPlace p.key p.epoch p.tried with
  | some l => s.issueRead (s.placePc l) (s.placeAddr l) l false (.record n) 4
  | none =>
    if s.needsFence p.key p.epoch p.tried then s.waitFence n p else s.missedRecord n

/-- A free hardware context of engine `e` of slice `k`, the lowest (R183). -/
def State.freeHw (s : State) (k e : Nat) : Option Nat :=
  (List.range 8).find? (fun i => !s.packets.any (fun (x : Nat × Packet) =>
    sliceOf x.2.port == k && x.2.ctx.any (fun c => c.engine == e && c.hw == some i)))
/-- A context whose memory operation is over holds a hardware context of its engine again, as soon as one is free (R183). -/
def State.backInHw (s : State) (k : Nat) (c : Context) : Context :=
  { c with waiting := none, tried := [], hw := if c.hw.isSome then c.hw else s.freeHw k c.engine }

/-- What a staged write does is done to the record of handle `m` instead of handle `h`. -/
def Staged.toHandle (h m : Nat) : Staged → Staged
  | .store k off bs => .store (if k = h then m else k) off bs
  | .merge k op off size v => .merge (if k = h then m else k) op off size v
  | w => w
/-- Handle `h` is about to hold another record: staged writes to the one that it held go on naming that one, under a number of its own
(R178). -/
def Context.parkHandle (c : Context) (h : Nat) : Context :=
  match Tab.find? c.handles h with
  | none => c
  | some key =>
    let m := c.handles.foldl (fun n (x : Nat × Bytes) => max n (x.1 + 1)) 4
    if key = c.key then c else { c with handles := Tab.insert c.handles m key, staged := c.staged.map (Staged.toHandle h m) }

/-- A rec.lock ends with a record at a place, locked into its handle (R179, R188); the record is one that the routine creates, or one
that is there. -/
def State.lockFound (s : State) (n : Nat) (p : Packet) (c : Context) (h loc : Nat) (made : Bool) : State :=
  let snap := ((s.recAt loc).map (·.at p.epoch)).getD []
  let c0 := c.parkHandle h
  let c1 := { c0 with handles := Tab.insert c0.handles h c.key, snaps := Tab.insert c0.snaps h snap }
  let own : Bool := match p.record with | .created _ => true | _ => false
  let old := c1.condsNext.getD c1.conds
  let c2 := { s.backInHw (sliceOf p.port) c1 with
    condsNext := some { old with found := !made, absent := false, refused := false, created := made || own } }
  ((if made then s else s.install loc false).lockOp n c.key).setPkt n { p with ctx := some c2 }

/-- A rec.lock ends without a record: none is there, or its creation has been refused. -/
def State.lockAbsent (s : State) (n : Nat) (p : Packet) (c : Context) (refused : Bool) : State :=
  let old := c.condsNext.getD c.conds
  let own : Bool := match p.record with | .created _ => true | _ => false
  let c1 := { s.backInHw (sliceOf p.port) c with condsNext := some { old with found := false, absent := true, refused := refused, created := own } }
  (s.endOp n c.key).setPkt n { p with ctx := some c1 }
/-- The creation of a rec.lock, within the limits of R150 (Table 8-6, R179). -/
def State.lockCreate (s : State) (n : Nat) (p : Packet) (c : Context) (h : Nat) : State :=
  let prId := recProfile c.key
  let pr := s.profile prId p.epoch
  match s.reserveRec n (sliceOf p.port) prId pr (newRec c.key pr.cls (pr.flags.testBit 0) p.tai p.len) with
  | .ok (loc, s1) => s1.lockFound n p c h loc true
  | .error k => (s.refuseCreation prId k).lockAbsent n p c true
/-- A rec.lock ends with a miss: the record is created if that is asked, and in its turn among the slices where it draws on the common pool
(R150). -/
def State.lockMissed (s : State) (n : Nat) (p : Packet) (c : Context) (create : Bool) (h : Nat) : State :=
  if !create then s.lockAbsent n p c false
  else if s.shareLacks (sliceOf p.port) 1 then (s.setPkt n { p with ctx := some c }).joinPool n
  else s.lockCreate n p c h

/-- A creation that draws on the common pool has its turn: that of a rec.lock, or that of a packet's own record (R150). -/
def State.createTurn (s : State) (n : Nat) : State :=
  match (s.pkt? n).bind (·.ctx), ((s.pkt? n).bind (·.ctx)).bind (·.waiting), s.pkt? n with
  | some c, some (.lock h _), some p => s.lockCreate n p c h
  | _, _, _ => s.createNow n

/-- The lookup of a rec.lock reads the next place, waits for a fence to lift, or is a miss. -/
def State.lockOn (s : State) (n : Nat) (p : Packet) (c : Context) (create : Bool) (h : Nat) : State :=
  match s.nextPlace c.key p.epoch c.tried with
  | some l => s.issueRead (s.placePc l) (s.placeAddr l) l false (.lock n) 4
  | none => if s.needsFence c.key p.epoch c.tried then s else s.lockMissed n p c create h

/-- The operation of a rec.lock that waits runs, unless an earlier one on its key stands or it is not its turn for a transaction of its
slice, for which it waits as a packet's own lookup does. One that goes to HBM leaves its hardware context; a slot that the packet has
reserved before is created again for a rerun (R148, R158, R179, R180, R183). -/
def State.lockStart (s : State) (n : Nat) (p : Packet) (c : Context) (h : Nat) (create : Bool) : State :=
  if s.seqBlocked n p c.key then s
  else
    let p1 := { p with waitAt := none }
    match s.reservedFor n c.key, (s.findRec c.key p.epoch).filter s.cached with
    | some l, _ => s.lockFound n p1 c h l true
    | none, some l => (s.pmuPkt n 3).lockFound n p1 c h l false
    | none, none =>
      let c1 := { c with hw := none }
      if !s.transactionFree (sliceOf p.port) n then
        if p.waitAt.isNone ∧ s.holdFull p.port then s.drop n (fun s => s.countPort p.port 12)
        else s.setPkt n { p with ctx := some c1, exemptAdmit := true, waitAt := if p.waitAt.isSome then p.waitAt else some s.now }
      else
        let p2 := { p1 with ctx := some c1 }
        let s2 := ((s.setPkt n p2).pmuPkt n 4).readDirectory c.key (.lock n)
        if (s2.readsOf n).isEmpty then s2.lockOn n p2 c1 create h else s2

/-- Place of a slice in the round robin of the common pool: the slice after the one served last comes first (R150). -/
def State.poolTurn (s : State) (n : Nat) : Nat :=
  match s.pkt? n with
  | some p => (sliceOf p.port + 7 - s.flow.lastSlice) % 8
  | none => 0
/-- The creation that is served next: that of the slice whose turn comes first, its oldest packet. -/
def State.poolNext (s : State) : Option Nat :=
  s.flow.poolWait.foldl (fun (b : Option Nat) n => match b with
    | none => some n
    | some m => if s.poolTurn n < s.poolTurn m ∨ (s.poolTurn n = s.poolTurn m ∧ n < m) then some n else some m) none
/-- One creation that waits for the common pool is settled. -/
def State.servePool (s : State) : State :=
  match s.poolNext with
  | none => s
  | some n => ({ s with flow := { s.flow with poolWait := s.flow.poolWait.filter (· != n) } }).createTurn n
/-- The lookup of step 5 begins, or begins again after a fence: from the cache, or from HBM once a transaction is there
(R143, R147, R158). -/
def State.lookStart (s : State) (n : Nat) (p : Packet) : State :=
  match (s.findRec p.key p.epoch).filter s.cached with
  | some l => (s.pmuPkt n 3).foundRecord n l
  | none =>
    if !p.exempt ∧ !s.transactionFree (sliceOf p.port) n then s.waitForRecord n p true
    else
      let q := { p.offFence s.now with stage := .waitRecord, waitAt := none, exempt := true }
      let s1 := ((if p.exempt then s else s.pmuPkt n 4).setPkt n q).readDirectory p.key (.record n)
      if (s1.readsOf n).isEmpty then s1.lookOn n q else s1

/-! ### Operations that wait in the sequencer (R148, R161, R210) -/

/-- The version of a host record that the packet's epoch selected is no longer the one in force: a bale has changed the record or removed
it (R178). -/
def State.staleVersion (s : State) (loc e : Nat) : Bool :=
  (s.recAt loc).any (fun r => (recBit r.bytes bitHost && r.old.any (fun v => decide (e ≤ v.1))) || r.till.isSome)

/-- A write to a versioned field: applied, or discarded and counted (R154, R178). -/
def State.versionedWrite (s : State) (loc e off len : Nat) (f : Bytes → Bytes) : State :=
  let versioned := decide (off = 40) || versionedFields.any (fun (v : Nat × Nat) => decide (off < v.1 + v.2 ∧ v.1 < off + len))
  if versioned ∧ s.staleVersion loc e then { s with bales := { s.bales with staleWrites := s.bales.staleWrites + 1 } }
  else s.touchRec loc f

/-- Hit and tcp_state bits of a pair update (R210). -/
def pairOn (tcp : Nat) (b : Bytes) : Bytes := recSetBit (recPut b 101 1 (recTcp b ||| tcp)) bitHit true

/-- The pair update of R210 on the record at `q`, under epoch `e`: hit, tcp_state bits and sweep class. -/
def State.applyPair (s : State) (q tcp : Nat) (cls : Option Nat) (e : Nat) : State :=
  let s1 := s.touchRec q (pairOn tcp)
  match cls with
  | some c => s1.versionedWrite q e 40 4 (fun b => recSetClass b c)
  | none => s1

/-- The pair update of packet `n` on the record that is paired with its own at `loc`: at once, or where an earlier operation on the other record
stands and the update changes its state, in its turn after that. It takes no lock, and the packet does not wait for it (R148, R210). -/
def State.pairUpdate (s : State) (n : Nat) (p : Packet) (loc tcp : Nat) (cls : Option Nat) : State :=
  match (s.recAt loc).bind (fun r => pairLoc (recPair (r.at p.epoch))) with
  | none => s
  | some q => match s.recAt q with
    | none => s
    | some r =>
      let key := recKey r.bytes
      let me := opOf n p key
      if (tcp ≠ 0 ∨ cls.isSome) ∧ (s.flow.ops.any (fun o => o.pkt != n && o.key == key && o.ordered && o.before me) ||
          s.flow.visits.any (fun v => v.key == key && v.op.before me)) then
        { s with flow := { s.flow with visits := s.flow.visits ++
          [{ key := key, loc := q, stamp := me.stamp, port := me.port, kind := .pair tcp cls p.epoch }] } }
      else s.applyPair q tcp cls p.epoch

/-- An operation that waits may be carried out: none with an earlier stamp stands on its key, nor a lock, which holds up all but a pair
update; and where it may remove a record with its pair, none on the pair's key (R148, R161, R179, R210). -/
def State.visitReady (s : State) (v : Visit) : Bool :=
  let free (key : Bytes) : Bool :=
    s.flow.ops.all (fun o => o.key != key || !(o.before v.op || o.lock)) && s.flow.visits.all (fun w => w.key != key || !w.op.before v.op)
  match v.kind with
  | .pair _ _ _ =>
    s.flow.ops.all (fun o => o.key != v.key || !(o.ordered && o.before v.op)) && s.flow.visits.all (fun w => w.key != v.key || !w.op.before v.op)
  | .sweep => free v.key && (((s.recAt v.loc).bind (fun r => pairLoc (recPair r.bytes))).bind s.recAt).all (fun r => free (recKey r.bytes))
  | _ => free v.key
/-- What an operation that waits does where its record stands at its place (R151, R153, R210). -/
def State.doVisit (s : State) (v : Visit) : State :=
  match v.kind with
  | .sweep => s.sweepVisit v.loc
  | .move => s.moveOverflow v.loc
  | .pair tcp cls e => s.applyPair v.loc tcp cls e
  | .commit _ _ => s
/-- An operation that waits is carried out; one on a record that is no longer at its place is over. A bale's action takes the version that
has waited for it (R154). -/
def State.runVisit (s : State) (v : Visit) : State :=
  let s1 := { s with flow := { s.flow with visits := s.flow.visits.filter (· != v) } }
  match v.kind with
  | .commit e removes =>
    s1.commitFlow e ((List.find? (fun (x : Nat × FlowRec) => x.2.due == some e && recKey x.2.bytes == v.key) s1.flow.records).map (·.1)) v.key removes
  | _ => if (s1.recAt v.loc).any (fun r => r.live && recKey r.bytes == v.key) then s1.doVisit v else s1
/-- Every operation whose turn has come is carried out. -/
def State.runVisits (s : State) : State := s.flow.visits.foldl (fun s v => if s.visitReady v then s.runVisit v else s) s

/-- What the flow sequencer does on a core clock: the creations that draw on the common pool are served in turn, and visits whose turn
has come are carried out (R148, R150, R161). -/
def State.sequencerClock (s : State) : State := (s.flow.poolWait.foldl (fun s _ => s.servePool) s).runVisits

/-- FLOW_SEQUENCER_RELEASE (R148, R179): once every slice has issued all operations with smaller stamps, the operation of a packet's step
5, of the locks that its services take, or of its routine's rec.lock that waits, runs, unless an earlier one on its key stands. -/
def execFlowSequencerRelease (n : Nat) (s : State) : Res :=
  match s.pkt? n with
  | none => done s
  | some p =>
    if !(s.readsOf n).isEmpty ∨ s.flow.poolWait.contains n ∨ !s.allIssued p then done s
    else if p.locks ≠ [] then done (s.withLocks n)
    else match p.ctx, p.ctx.bind (·.waiting) with
      | some c, some (.lock h create) => done (s.lockStart n p c h create)
      | _, _ =>
        if p.record ≠ .wanted ∨ !(p.stage = .lookedUp ∨ p.stage = .waitRecord) then done s
        else if s.seqBlocked n p p.key then
          let s1 := if p.stage = .lookedUp then s.pmuPkt n 6 else s
          done (s1.waitForRecord n p false)
        else done (s.lookStart n p)

/-- FLOW_RECORD_WAIT_TIMEOUT (R158): a packet that waits for a transaction, and every packet of its flow queued behind it, is dropped as a
flow-state overload. -/
def execFlowRecordWaitTimeout (n : Nat) (s : State) : Res :=
  match s.pkt? n with
  | none => done s
  | some p =>
    if p.waitAt.any (fun t => decide (t + ns (s.sn 0x0609) < s.now)) then
      let key := p.waitKey
      let behind := (s.packets.filter (fun (x : Nat × Packet) => x.2.waitKey == key && (x.2.record == .wanted || x.2.waitsLock) && x.1 != n &&
        (opOf n p key).before (opOf x.1 x.2 key))).map (·.1)
      done ((n :: behind).foldl (fun s m => match s.pkt? m with
        | some q =>
          let k := sliceOf q.port
          ((s.countSlice k 8).raiseLimited 0x0504 (src 5 k) (sec 1) [] 4).endPacket m false true
        | none => s) s)
    else done s

/-! ### Errors in what is read (R160, R275) -/

/-- The burst that a read names. -/
def State.readAddr (s : State) (r : MemRead) : Nat :=
  match r.owner with
  | .object _ => s.objectAddr r.unit r.place
  | .permit b => s.permitAddr b
  | .mirror _ _ _ => r.place
  | _ => if r.directory then s.directoryAddr r.place else s.placeAddr r.place

/-- A read is over: it is corrected and written back, or its error is reported (R332). -/
def State.endRead (s : State) (r : MemRead) (res : ReadResult) : State :=
  let s1 := { s with mem := { s.mem with reads := s.mem.reads.filter (fun x => x.id != r.id) } }
  match res with
  | .ok => s1
  | .corrected => (s1.corrected r.unit).issueWrite r.unit (s.readAddr r)
  | .uncorrectable => s1.uncorrectable r.unit (s.readAddr r)

/-- An uncorrectable error in a record loses it and its pair (R160). -/
def State.loseRecord (s : State) (u loc : Nat) : State :=
  let (kind, i) := if flowOverflow ≤ loc then (1, loc - flowOverflow) else (0, loc / 4)
  (s.removeRec loc 0 true).raise 0x0505 (srcUnit u) (natLe 1 kind ++ [0, 0, 0] ++ natLe 4 i)
/-- An uncorrectable error in a directory entry loses all four records of its bucket (R160). -/
def State.loseBucket (s : State) (u b : Nat) : State :=
  ((bucketSlots b).foldl (fun s l => s.removeRec l 0 true) s).raise 0x0505 (srcUnit u) ([0, 0, 0, 0] ++ natLe 4 b)

/-- An uncorrectable error in a permit bucket removes its entries (R275). -/
def State.losePermits (s : State) (u b : Nat) : State :=
  let gone := s.permitUsed b
  (({ s with gate := { s.gate with permits := s.gate.permits.filter (fun (x : Nat × PermitEntry) => !gone.contains x.1) } }).permitLevel).raise
    0x0604 (srcUnit u) (natLe 4 b ++ natLe 1 gone.length)

/-! ### Replies to a routine (R183, R194) -/

/-- A reply to a rec.lock (R183). -/
def State.lockReply (s : State) (n : Nat) (r : MemRead) (res : ReadResult) : State :=
  let s1 := s.endRead r res
  match s1.pkt? n with
  | none => s1
  | some p => match p.ctx, p.ctx.bind (·.waiting) with
    | some c, some (.lock h create) =>
      if res = .uncorrectable then
        let s2 := if r.directory then s1.loseBucket r.unit r.place else s1.loseRecord r.unit r.place
        ({ s2 with mem := { s2.mem with reads := s2.mem.reads.filter (fun x => ownerPkt x.owner != some n) } }).lockMissed n p c create h
      else if r.directory then
        if (s1.readsOf n).isEmpty then s1.lockOn n p c create h else s1
      else if s1.keyAt r.place c.key then s1.lockFound n p c h r.place false
      else
        let c1 := { c with tried := c.tried ++ [r.place] }
        let p1 := { p with ctx := some c1 }
        ((s1.pmuPkt n 7).setPkt n p1).lockOn n p1 c1 create h
    | _, _ => s1

/-- Bytes of the customer object region as an epoch reads them (R196). -/
def State.objectBytes (s : State) (a len e : Nat) : Bytes :=
  (List.range len).map (fun i => ((verAt (Tab.get [] s.eng.objects (a + i)) e).getD 0))

/-- An obj.ld ends: with the bytes, or with object_error (R193, R194). -/
def State.objectAnswer (s : State) (n place : Nat) (bad : Bool) : State :=
  match s.pkt? n with
  | none => s
  | some p => match p.ctx, p.ctx.bind (·.waiting) with
    | some c, some (.object _ reg len) =>
      let v := BitVec.ofNat 64 (leNat (s.objectBytes place len p.epoch))
      let g := if bad ∨ reg = 0 then c.regs.g else Tab.put 0 c.regs.g reg v
      let old := c.condsNext.getD c.conds
      let c1 := s.backInHw (sliceOf p.port) c
      s.setPkt n { p with ctx := some { c1 with condsNext := some { old with objError := bad }, regs := { c.regs with g := g } } }
    | _, _ => s

/-- The read of an obj.ld goes to the copy that serves its partition; with none left it meets an error at once (R337, assumption 256). -/
def State.readObject (s : State) (n a : Nat) : State :=
  match s.policyServe (objectPart a) with
  | some c => s.issueRead (s.policyPlace c).1 ((s.policyPlace c).2 + objectOffset a) a false (.object n)
  | none => s.objectAnswer n a true

/-- A reply to an obj.ld (R194): the bytes, or object_error; an object in error is then read from its mirror and rewritten (Table 13-4). -/
def State.objectReply (s : State) (n : Nat) (r : MemRead) (res : ReadResult) : State :=
  let s1 := (s.endRead r res).objectAnswer n r.place (decide (res = .uncorrectable))
  if res = .uncorrectable then s1.lostPolicy r.unit (s.readAddr r) else s1

/-- A reply to the read of a paired record that a packet's services have locked: the packet goes on with it in the cache, or without its record,
which an error in the other has taken with it (R147, R160). -/
def State.pairReply (s : State) (n : Nat) (p : Packet) (r : MemRead) (res : ReadResult) : State :=
  if res = .uncorrectable then
    (((s.loseRecord r.unit r.place).releaseLocks n).setPkt n { p with record := .missed }).toStep6 n
  else (s.install r.place false).toStep6 n

/-- A reply to the record lookup of step 5 (R143, R160). -/
def State.recordReply (s : State) (n : Nat) (r : MemRead) (res : ReadResult) : State :=
  let s1 := s.endRead r res
  match s1.pkt? n with
  | none => s1
  | some p =>
    if p.record ≠ .wanted then s1.pairReply n p r res
    else if res = .uncorrectable then
      let s2 := if r.directory then s1.loseBucket r.unit r.place else s1.loseRecord r.unit r.place
      ({ s2 with mem := { s2.mem with reads := s2.mem.reads.filter (fun x => ownerPkt x.owner != some n) } }).missedRecord n
    else if r.directory then
      if (s1.readsOf n).isEmpty then s1.lookOn n p else s1
    else if s1.keyAt r.place p.key then s1.foundRecord n r.place
    else
      let q := { p with tried := p.tried ++ [r.place] }
      ((s1.pmuPkt n 7).setPkt n q).lookOn n q

/-- The reply to the fresh read of a cache line in error: the record comes into the cache again, or is lost (R147, R160). -/
def State.refillReply (s : State) (r : MemRead) (res : ReadResult) : State :=
  let s1 := s.endRead r res
  if res = .uncorrectable then s1.loseRecord r.unit r.place else s1.install r.place false

/-- An error in the cache line of a place (R147, R160): a single-bit error is corrected; a double-bit error in a clean line causes a
fresh read, and in a dirty line loses the record. -/
def State.cacheError (s : State) (loc : Nat) (double : Bool) : State :=
  match s.recAt loc with
  | none => s
  | some r =>
    match (s.cacheSet (s.flowSet (recKey r.bytes))).find? (fun c => c.loc == loc) with
    | none => s
    | some c =>
      if !double then s.noteFault 1
      else if c.dirty then (s.noteFault 1).loseRecord (s.placePc loc) loc
      else ((s.noteFault 1).uncache loc).issueRead (s.placePc loc) (s.placeAddr loc) loc false .refill 4

/-- MEMORY_READ_COMPLETE (R332): a read that has left its unit's queue returns, and goes to what waits for it. -/
def execMemoryReadComplete (rd : Nat) (res : ReadResult) (s : State) : Res :=
  match s.mem.reads.find? (fun r => r.id == rd) with
  | none => done s
  | some r =>
    if !s.readIssued r then done s
    else match r.owner with
      | .record n => done (s.recordReply n r res)
      | .lock n => done (s.lockReply n r res)
      | .object n => done (s.objectReply n r res)
      | .permit b =>
        let s1 := s.endRead r res
        done (if res = .uncorrectable then s1.losePermits r.unit b else s1)
      | .refill => done (s.refillReply r res)
      | .mirror u a i => done ((s.endRead r res).mirrorDone u a i (decide (res = .uncorrectable)))

end Sys2Proof.Machine
end

