-- ==== Sys2Proof/Machine/SheafTx.lean ====
section
/-! DEFINITION. Messages to the twin: their slots and their queueing (R347, R350, R351). -/

namespace Sys2Proof.Machine

/-- Type of a message (Table 14-5). -/
def Msg.type : Msg → Nat
  | .heartbeat _ _ _ _ => 1
  | .pairing _ => 2
  | .reservation _ _ => 3
  | .result _ _ _ => 4
  | .permitCopy _ _ => 5
  | .consumption _ _ _ => 6
  | .ack _ _ => 7
  | .windows _ => 8
  | .delay _ _ _ _ _ => 9
  | .checkpoint _ => 10
  | .guolo _ => 11
  | .resyncDone _ => 12

/-- A TAI stamp on the wire: 6 bytes of seconds, then 4 of nanoseconds (R57). -/
def wireTai (t : Nat) : Bytes := natBe 6 (t / 1000000000) ++ natBe 4 (t % 1000000000)

/-- Body of a message, network order, its fields in the order of Table 14-5, which gives them no layout (assumption 41). -/
def Msg.body : Msg → Bytes
  | .heartbeat g t a r => natBe 1 g ++ natBe 1 t ++ natBe 1 a ++ natBe 1 r
  | .pairing bs => bs
  | .reservation k q => natBe 2 k ++ natBe 8 q
  | .result k q g => natBe 2 k ++ natBe 8 q ++ natBe 1 (b2n g)
  | .permitCopy b st => b ++ natBe 4 st
  | .consumption k q u => natBe 2 k ++ natBe 8 q ++ natBe 4 u
  | .ack k q => natBe 2 k ++ natBe 8 q
  | .windows ws => ws.flatMap (fun w => natBe 2 w.key ++ natBe 8 w.high ++ natBe 8 w.bitmap)
  | .delay _ a b c d => wireTai a ++ wireTai b ++ wireTai c ++ wireTai d
  | .checkpoint c => natBe 1 (b2n c.create) ++ c.key ++ c.addr ++ natBe 2 c.port ++ natBe 2 c.pool ++ natBe 4 c.block ++ natBe 2 c.group ++
      natBe 1 c.member
  | .guolo bs => bs
  | .resyncDone n => natBe 4 n

/-- Slots of a message (Table 14-5). -/
def Msg.slots (m : Msg) : Nat :=
  match m with
  | .pairing _ | .permitCopy _ _ => 4
  | .windows _ | .checkpoint _ => 2
  | .guolo bs => max 1 (ceilDiv bs.length 52)
  | _ => 1

/-- A message is sent on both links while both are in service (Table 14-5). -/
def Msg.both : Msg → Bool
  | .reservation _ _ | .result _ _ _ | .permitCopy _ _ | .consumption _ _ _ | .ack _ _ | .windows _ => true
  | _ => false

/-- A slot (Table 14-4). -/
def slotOf (type flags num : Nat) (body : Bytes) : Bytes :=
  let b := natBe 1 type ++ natBe 1 flags ++ natBe 2 body.length ++ natBe 4 num ++ padTo 52 body
  b ++ natBe 4 (crc32c crcOnes b).toNat

/-- The idle slot: K28.5 is its first symbol on every lane, and it has no body (R345, Table 14-5). The symbols after the first are those of a slot
of type 0 (assumption 258). -/
def idleSlot : List Symbol := List.replicate 8 .comma ++ ((slotOf 0 0 0 []).drop 8).map Symbol.data

/-- The symbols of data lane `k` in a superframe: the frame-start pattern, and every eighth symbol of the payload from number k on (R347). -/
def laneSymbols (payload : List Symbol) (k : Nat) : List Symbol :=
  ([0xF6, 0x28, 0x9A, BitVec.ofNat 8 (0x50 + k)] : Bytes).map Symbol.data ++
    (payload.zipIdx.filter (fun x => x.2 % 8 == k)).map (fun x => x.1)

/-- `n` bytes of PRBS7, by x^7 + x^6 + 1, least significant bit first, from a state of its register (R346, assumption 258). -/
def prbs7 : Nat → BitVec 7 → Bytes
  | 0, _ => []
  | n + 1, st =>
    let step (x : BitVec 7 × Byte) (i : Nat) : BitVec 7 × Byte :=
      let b := x.1.getLsbD 6 ^^ x.1.getLsbD 5
      ((x.1 <<< 1) ||| (BitVec.ofBool b).setWidth 7, if b then x.2 ||| (1#8 <<< i) else x.2)
    let r := (List.range 8).foldl step (st, 0)
    r.2 :: prbs7 n r.1
/-- A training frame: four K28.5 commas, a control field of 8 bytes, and a PRBS7 fill (R345, R346). -/
def trainingFrame (control : W64) (st : BitVec 7) : List Symbol :=
  List.replicate 4 .comma ++ (natBe 8 control.toNat ++ prbs7 244 st).map Symbol.data

/-- The slots of a message under its number; `both` when it goes on both links. -/
def Msg.slotsOf (m : Msg) (num : Nat) (both : Bool) : List Bytes :=
  let n := m.slots
  (List.range n).map (fun i => slotOf m.type (b2n (i == 0) + 2 * b2n (i + 1 == n) + 4 * b2n both) num ((m.body.drop (52 * i)).take 52))

/-- A message joins a link's transmit queue. -/
def State.enqueueMsg (s : State) (n num : Nat) (m : Msg) (both : Bool := false) : State :=
  let l := s.link n
  s.setLink n { l with txq := l.txq ++ m.slotsOf num both }

/-- Links in service on which the twin's pairing was accepted, the one with the shorter transmit queue first (R344, R350). -/
def State.linksUp (s : State) : List Nat :=
  let up := ([0, 1] : List Nat).filter (fun n => (s.link n).up && (s.link n).paired)
  if (s.link 1).txq.length < (s.link 0).txq.length then up.reverse else up

/-- A numbered message goes out: on both links, or on the one with the shorter queue (R350). -/
def State.sendMsg (s : State) (num : Nat) (m : Msg) : State :=
  let up := s.linksUp
  let via := if m.both then up else up.take 1
  via.foldl (fun s n => s.enqueueMsg n num m (decide (1 < via.length))) s

/-- A numbered message is queued to the twin, and kept until the twin's ack covers it (R350). -/
def State.tell (s : State) (m : Msg) : State :=
  let num := s.sheaf.txNum
  let x : Sent := { num := num, msg := m, at_ := s.now }
  let s1 := { s with sheaf := { s.sheaf with
    txNum := num + 1
    unacked := s.sheaf.unacked ++ [x] } }
  s1.sendMsg num m

/-- A numbered message is queued to the twin on link `n`, and kept until the twin's ack covers it (R350, Table 14-5). -/
def State.tellOn (s : State) (n : Nat) (m : Msg) : State :=
  let num := s.sheaf.txNum
  let x : Sent := { num := num, msg := m, at_ := s.now }
  let s1 := { s with sheaf := { s.sheaf with
    txNum := num + 1
    unacked := s.sheaf.unacked ++ [x] } }
  s1.enqueueMsg n num m

end Sys2Proof.Machine
end

