-- ==== Sys2Proof/Machine/Hold.lean ====
section
/-! DEFINITION. The judging of commands, the hold, and shutting and reopening the gate (11_glume_gate.md, R276 to R285). -/

namespace Sys2Proof.Machine

/-! ### The packet as it will leave -/

/-- Bytes with header edits applied, in order (R194). -/
def applyEdits (bs : Bytes) (es : List Edit) : Bytes := es.foldl (fun b e => patch b e.off e.bytes) bs

/-- Verdict names of Table 11-10. -/
def vPass : Nat := 1
def vUnsealed : Nat := 2
def vExpired : Nat := 3
def vReplay : Nat := 4
def vMismatch : Nat := 5
def vShut : Nat := 6
def vDropHold : Nat := 7

/-- Adds to count of a command profile: verdict and cause (Table 20-2, block 9). -/
def State.countVerdict (s : State) (profile code cause : Nat) : State := s.count 9 (256 * profile + 32 * (code - 1) + cause)

/-! ### Verdict records (Table 11-12) -/

/-- The selector of a segment that has no PDU: destination, protocol, profile and zone, with no station (Table 11-3). -/
def bareSelector (p : Packet) : Bytes :=
  let h := parse (applyEdits p.bytes p.edits)
  addrBytes h.dst ++ natBe 2 h.dport ++ natBe 1 h.proto ++ natBe 1 p.judged ++ natBe 2 (recZone p.key) ++ List.replicate 18 0

/-- After step 2 of level 5, a discard-shut verdict is counted and not written (R437). -/
def State.countsShut (s : State) (code : Nat) : Bool := s.power.level5At.isSome && code == vShut

/-- The records of a packet's verdict: one for each command PDU, or one for an unsealable segment (R286). -/
def State.verdictRecords (s : State) (p : Packet) (code cause : Nat) : State :=
  let h := parse p.bytes
  let held := match p.holdAt with | some t => toNs (s.now - t) / 1000 | none => 0
  let one (sel dig : Bytes) (len : Nat) (used : Option (Nat × Nat × Nat × Nat)) : LedgerRec :=
    let (key, seq, left, flags) := used.getD (0xFFFF, 0, 0, 0)
    { type := 5, code := code, cause := cause, flags := 2 * (flags % 2), source := p.port, key := key, seq := seq,
      selector := sel, digest := dig, detailA := held % 2 ^ 32 + 2 ^ 32 * left,
      detailB := addrBytes h.src ++ natLe 2 h.sport ++ natLe 2 len }
  let s1 := if s.countsShut code then { s with gate := { s.gate with lateShut := s.gate.lateShut + max 1 p.pdus.length } }
    else if p.pdus.isEmpty then s.record (one (bareSelector p) (List.replicate 32 0) 0 none)
    else p.pdus.foldl (fun s (u : Pdu) => s.record (one u.selector u.digest u.len u.used)) s
  s1.countVerdict p.judged code cause

/-- The ledger queue has room for the records of a packet's verdict (R288). -/
def State.verdictRoom (s : State) (p : Packet) : Bool :=
  !s.owned || decide (s.ledger.queue.length + max 1 p.pdus.length ≤ 8192)

/-! ### Resets (R280) -/

/-- An RST segment: addresses and ports from `src` to `dst`, and the sequence number (R280); hop limit 64. -/
def rstSegment (ver src dst sport dport seq : Nat) : Bytes :=
  let tcp (sum : Nat) : Bytes := natBe 2 sport ++ natBe 2 dport ++ natBe 4 seq ++ natBe 4 0 ++ [0x50, 0x04] ++ natBe 2 0 ++ natBe 2 sum ++ natBe 2 0
  let alen := if ver = 4 then 4 else 16
  let a := natBe alen (src % 2 ^ (8 * alen)) ++ natBe alen (dst % 2 ^ (8 * alen))
  let t := tcp (65535 - fold16 8 (sum16 (a ++ natBe 4 6 ++ natBe 4 20) + sum16 (tcp 0)))
  if ver = 4 then
    let ip (sum : Nat) : Bytes := [0x45, 0] ++ natBe 2 40 ++ natBe 2 0 ++ natBe 2 0 ++ [64, 6] ++ natBe 2 sum ++ a
    ip (65535 - fold16 8 (sum16 (ip 0))) ++ t
  else [0x60, 0, 0, 0] ++ natBe 2 20 ++ [6, 64] ++ a ++ t

/-- A frame of the device's own: layer-2 header, payload padded to 60 bytes, and FCS. -/
def ownFrame (l2 body : Bytes) : Bytes :=
  let b := padTo (max 60 (l2.length + body.length)) (l2 ++ body)
  b ++ fcsBytes (fcs b)

/-- A frame of the device's own is inserted at egress: it takes a buffer and goes to step 7 (R280). -/
def State.inject (s : State) (p : Packet) (bytes : Bytes) (dests : List Nat) (route : Option (Nat × Nat × Nat)) : State :=
  match (List.range 6).find? (fun i => decide (bytes.length ≤ bufSize i ∧ 0 < s.poolFree i)) with
  | none => s
  | some i =>
    let x : Packet := { port := p.port, bytes := bytes, stamp := p.stamp, at_ := s.now, epoch := s.bales.epoch, stage := .step7,
                        complete := true, hint := bytes.length, pool := i, vid := p.vid, pcp := p.pcp, tagged := p.tagged, inCls := p.inCls,
                        cls := p.cls, dests := dests, route := route, exemptAdmit := true, epochDone := true, privMask := s.sn 0x0C03 }
    { (s.takeBuffer i).setPkt s.nextPkt (s.carryVlan x) with nextPkt := s.nextPkt + 1 }

/-- The two RST segments of a discarded TCP segment, each end with the addresses that it uses, and the pair's reset bits (R280). -/
def State.sendResets (s : State) (p : Packet) : State :=
  let out := applyEdits p.bytes p.edits
  let h := parse p.bytes
  let o := parse out
  let seq := beAt p.bytes (h.l4 + 4) 4
  let ack := beAt p.bytes (h.l4 + 8) 4
  let toDevice := ownFrame (slice out 0 o.l3) (rstSegment o.ver o.src o.dst o.sport o.dport seq)
  let toSender := ownFrame (natBe 6 h.smac ++ natBe 6 h.dmac ++ slice p.bytes 12 (h.l3 - 12)) (rstSegment h.ver h.dst h.src h.dport h.sport ack)
  ((s.inject p toDevice p.dests p.route).inject p toSender [p.port] none).resetPair p

/-! ### Discard -/

/-- Packets of a flow passed over by a held one, in arrival order (R277). -/
def State.behindOf (s : State) (key : Bytes) : List Nat :=
  (s.packets.filter (fun (x : Nat × Packet) => x.2.stage == .behind && x.2.key == key)).map (·.1)

/-- A command packet is discarded with its verdict, without resets (R279). -/
def State.discardPlain (s : State) (n : Nat) (p : Packet) (code cause : Nat) : State := (s.verdictRecords p code cause).discard n

/-- A packet behind a discarded command goes with it (R279, R280). -/
def State.discardBehind (s : State) (m code cause : Nat) : State :=
  match s.pkt? m with
  | some q => if q.pdus.isEmpty then s.discard m else s.discardPlain m q code cause
  | none => s

/-- A command packet is discarded with its verdict, and its flow treated as its profile says (R280). `again` is a retransmission within
the reset window. -/
def State.discardCmd (s : State) (n : Nat) (code cause : Nat) (again : Bool := false) : State :=
  match s.pkt? n with
  | none => s
  | some p =>
    let gp := s.cmdProfile p
    let tcp := (parse p.bytes).proto == 6
    let s1 := s.discardPlain n p code cause
    if !tcp then s1
    else if gp.tcp = 2 ∨ again then
      let s2 := s1.sendResets p
      ((s2.behindOf p.key).filter (fun m => decide (n < m))).foldl (fun s m => s.discardBehind m code cause) s2
    else if gp.tcp = 1 then
      let new := p.pdus.map (fun (u : Pdu) => ({ key := p.key, digest := u.digest, verdict := code, at_ := s.now } : Discard))
      let l := s1.gate.recent ++ new
      { s1 with gate := { s1.gate with recent := l.drop (l.length - 4096) } }
    else s1

/-- The recent discard that a segment repeats within its profile's reset window (R280). -/
def State.recentOf (s : State) (p : Packet) : Option Discard :=
  let gp := s.cmdProfile p
  if (parse p.bytes).proto ≠ 6 ∨ gp.tcp ≠ 1 then none
  else s.gate.recent.reverse.find? (fun (d : Discard) => d.key == p.key && p.pdus.any (fun u => u.digest == d.digest) &&
    decide (s.now ≤ d.at_ + ms gp.resetMs))

/-! ### The lookup (R276, R278) -/

/-- An entry is within its times (R276). -/
def State.entryTime (s : State) (e : Bytes) : Bool :=
  decide (leAt e 88 8 * 1000000000 ≤ s.tai + s.sn 0x0B07 ∧ s.tai ≤ leAt e 96 8 * 1000000000)
/-- The cycle window of an entry is open (R276). -/
def State.entryWindow (s : State) (gp : GateProfile) (e : Bytes) : Bool :=
  !(entryFlags e).testBit 1 || (decide (leAt e 104 8 ≤ s.angle ∧ s.angle ≤ leAt e 112 8) && gp.states.testBit s.tiller.st.code)
/-- The key of an entry is valid, and may sign permits (R266). -/
def State.entryKeyOk (s : State) (e : Bytes) : Bool := (s.validKey (entryKey e)).any (fun k => k.has rolePermit)
/-- The twin, if the entry requires it, is present, and the windows of one that has returned are merged (R276, R285). -/
def State.entryTwin (s : State) (e : Bytes) : Bool := !(entryFlags e).testBit 0 || (s.sheaf.twin == 1 && !s.sheaf.merging)

/-- An entry is usable (R276, R284). -/
def State.usable (s : State) (gp : GateProfile) (e : Bytes) : Bool :=
  s.entryKeyOk e && s.entryTime e && s.entryWindow gp e && s.entryTwin e && !entryPending e &&
  (!gp.pairForced || (entryFlags e).testBit 0)

/-- An entry granted to a PDU. -/
structure Grant where
  /-- place of the entry -/
  at_ : Nat
  /-- the entry's key, sequence, uses left after it, and flags -/
  key : Nat
  seq : Nat
  left : Nat
  flags : Nat
deriving DecidableEq, Repr

/-- Lowest key ID, then lowest sequence (R276). -/
def betterEntry (a b : Nat × Bytes) : Bool :=
  decide (entryKey a.2 < entryKey b.2 ∨ (entryKey a.2 = entryKey b.2 ∧ entrySeq a.2 < entrySeq b.2))

/-- The entry that a PDU would consume, when `taken` have gone to earlier PDUs of its packet. -/
def State.grantFor (s : State) (gp : GateProfile) (u : Pdu) (taken : List Grant) : Option Grant :=
  let left (i : Nat) (e : Bytes) : Nat := entryUses e - (taken.filter (fun g => g.at_ == i)).length
  let ok := ((s.permitsOf u.selector).filter (fun (x : Nat × PermitEntry) => x.2.inForce && !x.2.dead && entryDigest x.2.bytes == u.digest &&
    s.usable gp x.2.bytes && decide (0 < left x.1 x.2.bytes))).map (fun x => (x.1, x.2.bytes))
  let best := ok.foldl (fun (b : Option (Nat × Bytes)) x => match b with
    | none => some x
    | some y => if betterEntry x y then some x else some y) none
  best.map (fun x => { at_ := x.1, key := entryKey x.2, seq := entrySeq x.2, left := left x.1 x.2 - 1, flags := entryFlags x.2 })

/-- One entry for each PDU of a packet, or none (R259). -/
def State.grants (s : State) (gp : GateProfile) : List Pdu → List Grant → Option (List Grant)
  | [], acc => some acc
  | u :: us, acc => match s.grantFor gp u acc with
    | some g => State.grants s gp us (acc ++ [g])
    | none => none

/-- The reason that an entry with a PDU's selector and digest gives for holding it (Table 11-10): another command has consumed it, or it
is not usable by key, time or window; one that only lacks the twin is no refused permit (R279). -/
def State.entryReason (s : State) (gp : GateProfile) (x : PermitEntry) : Nat × Nat :=
  let e := x.bytes
  if entryPending e then (vReplay, 8)
  else if x.dead ∨ !s.entryKeyOk e ∨ leAt e 96 8 * 1000000000 < s.tai then (vExpired, 6)
  else if !s.entryTime e ∨ !s.entryWindow gp e then (vExpired, 5)
  else (vUnsealed, 1)

/-- The reasons that a lookup of a PDU gives for holding it (Table 11-10). -/
def State.reasonsOf (s : State) (gp : GateProfile) (u : Pdu) : List (Nat × Nat) :=
  let es := ((s.permitsOf u.selector).filter (fun (x : Nat × PermitEntry) => x.2.inForce)).map (·.2)
  let same := es.filter (fun e => entryDigest e.bytes == u.digest)
  if s.gate.spent.contains (u.selector ++ u.digest) then [(vReplay, 8)]
  else if !same.isEmpty then same.map (s.entryReason gp)
  else if es.isEmpty then [(vUnsealed, 1)]
  else [(vMismatch, 9)]

/-- Reasons of a lookup join those met before. -/
def addReasons (old new : List (Nat × Nat)) : List (Nat × Nat) :=
  new.foldl (fun l r => if l.getLast? = some r then l else l ++ [r]) old

/-- The verdict that the reasons met give (R279). -/
def finalVerdict (rs : List (Nat × Nat)) : Nat × Nat :=
  let last (c : Nat) : Option (Nat × Nat) := rs.reverse.find? (fun r => r.1 == c)
  if rs.contains (vReplay, 7) then (vReplay, 7)
  else match last vReplay with
    | some r => r
    | none => match last vExpired with
      | some r => r
      | none => match last vMismatch with
        | some r => r
        | none => (rs.reverse.find? (fun r => r.1 == vUnsealed && r.2 != 1)).getD (vUnsealed, 1)

/-- A grant is taken: an ordinary entry loses a use, and goes with its last; a pair-required one is marked pending and the twin is
told (R276, R284). -/
def State.takeGrant (s : State) (n : Nat) (g : Grant) : State :=
  match s.permitAt g.at_ with
  | none => s
  | some e =>
    if g.flags.testBit 0 then
      let s1 := s.putPermit g.at_ { e with bytes := patch e.bytes 120 (natLe 4 (entryState e.bytes ||| (1 <<< 30))) }
      ({ s1 with gate := { s1.gate with consuming := s1.gate.consuming ++ [(n, g.key, g.seq)] } }).tell (.consumption g.key g.seq 1)
    else if g.left = 0 then
      let s1 := s.erasePermit g.at_
      { s1 with gate := { s1.gate with spent := (slice e.bytes 0 72) :: s1.gate.spent } }
    else s.putPermit g.at_ { e with bytes := patch e.bytes 76 (natLe 4 g.left) }

/-- A packet passes: its verdict records are queued and it rejoins step 7 (R276, R288). -/
def State.passCmd (s : State) (n : Nat) : State :=
  match s.pkt? n with
  | none => s
  | some p => (s.verdictRecords p vPass 0).setPkt n { p with stage := .step7, verdict := some (vPass, 0), passedAt := some s.now, noRoom := false, acked := false }

/-- A command waits for the twin's acknowledgement (R284). -/
def State.isConsuming (s : State) (n : Nat) : Bool := s.gate.consuming.any (fun x => x.1 == n)

/-- Flows with a held packet (R277). -/
def State.heldFlows (s : State) : Nat :=
  ((s.packets.filter (fun (x : Nat × Packet) => x.2.stage == .held)).map (fun x => x.2.key)).dedup.length

/-- A packet that finds a held packet of its flow before it queues behind it, within the profile's held frames (R277). -/
def State.goBehind (s : State) (n : Nat) (p : Packet) : State :=
  let gp := s.cmdProfile p
  if gp.heldFrames ≤ (s.behindOf p.key).length then s.drop n (fun s => s.countPort p.port 12)
  else if s.holdFull p.port then
    if p.pdus.isEmpty then s.drop n (fun s => s.countPort p.port 12)
    else ((s.countPort p.port 12).verdictRecords p vDropHold 15).endPacket n false true
  else s.setPkt n { p with stage := .behind, epochDone := true, holdAt := if p.pdus.isEmpty then none else some s.now }

/-- Later packets of a flow that have come to step 7 before the packet that is held now queue behind it, in arrival order (R26). -/
def State.pushBehind (s : State) (n : Nat) (key : Bytes) : State :=
  (s.packets.filter (fun (x : Nat × Packet) => decide (n < x.1) && key != [] && x.2.key == key && x.2.stage == .step7)).foldl
    (fun s (x : Nat × Packet) => s.goBehind x.1 x.2) s

/-- A packet enters the hold, and the later ones of its flow queue behind it (R26, R30). -/
def State.holdPkt (s : State) (n : Nat) (p : Packet) : State :=
  (s.setPkt n { p with stage := .held, epochDone := true }).pushBehind n p.key

/-- A packet with no usable entry enters the hold, or receives drop-hold (R277, R302). -/
def State.enterHold (s : State) (n : Nat) (p : Packet) (rs : List (Nat × Nat)) : State :=
  let p1 := { p with reasons := addReasons p.reasons rs, holdAt := some (p.holdAt.getD s.now), noRoom := !s.verdictRoom p }
  if p.stage = .held then s.setPkt n p1
  else if 16384 ≤ s.heldFlows then ((s.countDevice 9).verdictRecords p vDropHold 15).endPacket n false true
  else if p.stage ≠ .behind ∧ s.holdFull p.port then ((s.countPort p.port 12).verdictRecords p vDropHold 15).endPacket n false true
  else s.holdPkt n p1

/-- The hold limit of a packet has passed (R279); on the clock of its end a lookup comes first (Table 11-16). -/
def State.holdOver (s : State) (p : Packet) : Bool :=
  p.holdAt.any (fun t => decide (t + ms (s.cmdProfile p).holdMs < s.now))

/-- The lookup of a packet's PDUs: shut, pass, hold, or its verdict when its own limit has passed (R276 to R281, R288). -/
def State.lookupCmd (s : State) (n : Nat) : State :=
  match s.pkt? n with
  | none => s
  | some p =>
    let gp := s.cmdProfile p
    if s.gate.isShut then s.discardCmd n vShut s.gate.cause
    else if !s.verdictRoom p then s.enterHold n p []
    else if p.acked then s.passCmd n
    else match s.grants gp p.pdus [] with
      | some gs =>
        let pdus := (p.pdus.zip gs).map (fun (x : Pdu × Grant) => { x.1 with used := some (x.2.key, x.2.seq, x.2.left, x.2.flags) })
        let s1 := gs.foldl (fun s g => s.takeGrant n g) (s.setPkt n { p with pdus := pdus, holdAt := some (p.holdAt.getD s.now) })
        if s1.isConsuming n then (match s1.pkt? n with | some q => s1.holdPkt n q | none => s1)
        else s1.passCmd n
      | none =>
        let rs := (p.pdus.map (s.reasonsOf gp)).flatten
        if s.holdOver p then
          let v := finalVerdict (addReasons p.reasons rs)
          s.discardCmd n v.1 v.2
        else s.enterHold n p rs

/-- A packet of the flow is held. -/
def State.flowHeld (s : State) (key : Bytes) : Bool :=
  s.packets.any (fun (x : Nat × Packet) => x.2.stage == .held && x.2.key == key)

/-- The packets behind a released one follow in order, until one of them becomes the head of the hold (R278). -/
def State.releaseFlow (s : State) (key : Bytes) : State :=
  (s.behindOf key).foldl (fun s n =>
    if s.flowHeld key then s
    else match s.pkt? n with
      | some p => if p.pdus.isEmpty then s.setPkt n { p with stage := .step7 } else s.lookupCmd n
      | none => s) s

/-- Held packets that a test names are looked up again (R278). -/
def State.relookup (s : State) (which : Packet → Bool) : State :=
  (s.packets.filter (fun (x : Nat × Packet) => x.2.stage == .held && which x.2)).foldl (fun s (x : Nat × Packet) =>
    if s.isConsuming x.1 then s
    else
      let s1 := s.lookupCmd x.1
      if (s1.pkt? x.1).any (fun q => q.stage == .held) then s1 else s1.releaseFlow x.2.key) s

/-- Held packets of a selector are looked up again (R278). -/
def State.relookupSel (s : State) (sel : Bytes) : State := s.relookup (fun p => p.pdus.any (fun u => u.selector == sel))

/-- An earlier packet of the flow has not yet been judged. -/
def State.earlierOnPath (s : State) (n : Nat) (p : Packet) : Bool :=
  p.key != [] && s.packets.any (fun (x : Nat × Packet) => decide (x.1 < n) && x.2.key == p.key &&
    (match x.2.stage with | .inQueues | .step7 | .moveHold | .held | .behind => false | _ => true))

/-- A packet with no command PDU goes on to step 7, behind what is held (R259, R277). -/
def State.noCommand (s : State) (n : Nat) : State :=
  match s.pkt? n with
  | none => s
  | some p => if p.key ≠ [] ∧ s.flowHeld p.key then s.goBehind n p else s.setPkt n { p with stage := .step7 }

/-- An unsealable segment receives its verdict at once (R259). -/
def State.unsealed (s : State) (n cause : Nat) : State :=
  match s.pkt? n with
  | none => s
  | some p => (s.setPkt n { p with pdus := [] }).discardCmd n vUnsealed cause

/-- An earlier command stands at step C3 for a selector of this one: by stamp, then by lower port (Table 11-16, R148). -/
def State.earlierCommand (s : State) (n : Nat) (p : Packet) : Bool :=
  s.packets.any (fun (x : Nat × Packet) => x.1 != n && x.2.stage == .judge && (opOf x.1 x.2 []).before (opOf n p []) &&
    x.2.pdus.any (fun u => p.pdus.any (fun v => u.selector == v.selector)))

/-- PERMIT_TABLE_LOOKUP (R276): step C3 of a packet, in its flow's order, and after the earlier commands for its selectors. -/
def execPermitTableLookup (n : Nat) (s : State) : Res :=
  match s.pkt? n with
  | none => done s
  | some p =>
    if p.stage ≠ .judge ∨ s.earlierOnPath n p ∨ s.earlierCommand n p ∨ s.mem.reads.any (fun r => match r.owner with
        | .permit b => p.pdus.any (fun u => (s.permitBuckets u.selector).1 == b || (s.permitBuckets u.selector).2 == b)
        | _ => false) then done s
    else match s.recentOf p with
      | some d => if s.gate.isShut ∧ d.verdict ≠ vShut then done (s.lookupCmd n) else done (s.discardCmd n d.verdict 14 true)
      | none =>
        if s.flowHeld p.key ∧ !s.gate.isShut then done (s.goBehind n p) else done (s.lookupCmd n)

/-- HOLD_LIMIT_EXPIRY (R279): the verdict of the reasons met; the packets behind are released. -/
def execHoldLimitExpiry (n : Nat) (s : State) : Res :=
  match s.pkt? n with
  | none => done s
  | some p =>
    if p.stage = .held ∧ s.holdOver p ∧ !s.isConsuming n then
      let v := finalVerdict p.reasons
      done ((s.discardCmd n v.1 v.2).releaseFlow p.key)
    else done s

/-! ### Shutting and reopening (R271, R281, R282) -/

/-- A gate-state record and its event. -/
def State.gateState (s : State) (shut : Bool) (cause source key flushed : Nat) : State :=
  let s1 := s.record { type := 6, code := b2n shut, cause := cause, source := source, key := key, detailA := flushed }
  if shut then s1.raise 0x0601 srcDevice (natLe 1 cause) else s1.raise 0x0602 srcDevice (natLe 2 key)

/-- Every held packet receives discard-shut, and what stood behind it follows (R281). -/
def State.dropHeld (s : State) (cause : Nat) : State :=
  let held := (s.packets.filter (fun (x : Nat × Packet) => x.2.stage == .held)).map (fun x => (x.1, x.2.key))
  let s1 := held.foldl (fun s (x : Nat × Bytes) => s.discardCmd x.1 vShut cause) s
  held.foldl (fun s (x : Nat × Bytes) => s.releaseFlow x.2) s1

/-- The gate shuts (R281): the permit table is flushed when the setting says so. -/
def State.shutGate (s : State) (cause source key : Nat) : State :=
  let flush := s.son 0x0B08
  let n := if flush then s.permitCount else 0
  let s1 := { s with gate := { s.gate with isShut := true, cause := cause } }
  let s2 := if flush then s1.dropPermits (fun e => e.inForce) else s1
  ((s2.gateState true cause source key n).dropHeld cause).noteStatus

/-- The gate reopens (R282); the first opening after a start fixes the boot floor (R271). -/
def State.openGate (s : State) (source key : Nat) : State :=
  let floor := s.gate.floor.getD (s.tai + s.sn 0x0B07)
  let s1 := { s with gate := { s.gate with isShut := false, floor := some floor } }
  (s1.gateState false 0 source key 0).noteStatus

/-- Records that the ledger region holds (R289, R339). -/
def State.ledgerRing (s : State) : Nat := s.regionBytes 0 / 512
/-- The ledger ring holds nothing but unacknowledged records (R289). -/
def State.ringFull (s : State) : Bool := s.owned && decide (s.ledgerRing ≤ s.ledger.next - s.ledger.mark)

/-- Ledger stripe of a record, and the units that hold it: Dk and D(k+8) (R339). -/
def stripeOf (i : Nat) : Nat := i % 8
def stripeUnits (k : Nat) : Nat × Nat := (128 + k, 136 + k)

/-- A rebuilt mirror, or one being rebuilt, takes the records of a stripe (R340). -/
def State.newMirror (s : State) (k : Nat) : Bool := s.mem.rebuilt.contains k || (Tab.find? s.mem.rebuilding k).isSome

/-- A copy of a record of stripe `k` can be written: to a channel in use, or to the new mirror (R339, R340). DDR5 in self-refresh takes
none (Table 19-4). -/
def State.ledgerTakes (s : State) (k : Nat) : Bool :=
  let (a, b) := stripeUnits k
  !s.mem.selfRefresh && ((s.munit a).state == 0 || (s.munit b).state == 0 || s.newMirror k)

/-- The oldest record that waits, or else the next one, can be written (R289). -/
def State.ledgerOpen (s : State) : Bool :=
  !s.owned || s.ledgerTakes (stripeOf (match s.ledger.queue with | r :: _ => leAt r 0 8 | [] => s.ledger.next))

/-- What keeps the gate shut whoever would reopen it: the safe state, sag level 5, a ledger that takes no record, or succession (R281,
R289, R425). -/
def State.staysShut (s : State) : Bool :=
  s.fault.safe || decide (s.power.level = 5) || s.ledgerFull || s.ringFull || !s.ledgerOpen || s.trust.otp.succeeded

/-- A signed reopen is refused: the pin is asserted, or the safe state, sag level 5 or a full ledger stands, or the device is succeeded
(R282, R289, R397, R425). -/
def State.reopenBlocked (s : State) : Option Nat :=
  if s.gate.pin then some 0x0602
  else if s.staysShut then some 0x0304
  else none

/-- Commands that the gate has passed on this very clock, and that have not yet gone on (Table 11-16). -/
def State.passedNow (s : State) : List Nat :=
  (s.packets.filter (fun (x : Nat × Packet) => x.2.stage == .step7 && x.2.verdict == some (vPass, 0) && x.2.passedAt == some s.now)).map (·.1)

/-- The pin shuts the gate, and takes back what is being released (R281, Table 11-16); on a gate that is shut already, whatever shut it,
its toggle is counted (R282). -/
def State.pinShut (s : State) : State :=
  if s.gate.isShut then { s with gate := { s.gate with pin := true, releasedAt := none, toggles := s.gate.toggles + 1 } }
  else
    let s1 := ({ s with gate := { s.gate with pin := true, releasedAt := none } }).shutGate 10 0xFFFF 0xFFFF
    s.passedNow.foldl (fun s n => s.discardCmd n vShut 10) s1

/-- GATE_SHUT_ASSERT (R281): the pin has stayed asserted past its deglitch time. -/
def execGateShutAssert (s : State) : Res := if s.gate.pin then done s else done s.pinShut

/-- GATE_SHUT_DEASSERT (R282): the release time starts. -/
def execGateShutDeassert (s : State) : Res :=
  done { s with gate := { s.gate with pin := false, releasedAt := some s.now } }

/-- GATE_SHUT_RELEASE (R282): in level mode, the gate that the pin shut reopens after the release time. -/
def execGateShutRelease (s : State) : Res :=
  if s.sn 0x0B09 0 0 = 1 ∧ !s.gate.pin ∧ s.gate.isShut ∧ s.gate.cause = 10 ∧ !s.staysShut ∧
      s.gate.releasedAt.any (fun t => decide (t + ns (s.sn 0x0B09 0 2) ≤ s.now)) then
    done (s.openGate 0xFFFF 0xFFFF)
  else done s

end Sys2Proof.Machine
end

