-- ==== Sys2Proof/Machine/Mailbox.lean ====
section
/-! DEFINITION. Mailboxes: the checks that every Guolo request passes, and its completion (15_mailboxes_and_host_interface.md, R368 to R377). -/

namespace Sys2Proof.Machine

/-! ### Messages (Table 15-12) -/

/-- A Guolo header of an opcode: flags, sequence, payload length, bale, class, status, boot and counter. -/
def guoloHeader (code flags seq len bale cls status boot counter : Nat) : Bytes :=
  natLe 2 code ++ natLe 2 flags ++ natLe 4 seq ++ natLe 4 len ++ natLe 4 bale ++ natLe 1 cls ++ [0] ++ natLe 2 status ++ natLe 4 boot ++
  natLe 4 counter ++ natLe 4 0

/-- Opcode of a request in its form (R383). -/
def reqCode (r : Request) (op : Nat) : Nat := op + 32768 * b2n r.expert

/-- What a request's signature covers (R372). -/
def reqCovered (r : Request) (op : Nat) : Bytes :=
  natLe 8 Config.serial ++ guoloHeader (reqCode r op) r.flags r.seq r.payload.length r.bale r.authClass 0 r.boot r.counter ++ r.payload

/-- A response, or an event, as a message: with the completion or event flag, and a trailer of the identity key when it is signed (R371,
R376). -/
def guoloOut (flags code seq status : Nat) (payload : Bytes) (sign : Bool) : Bytes :=
  let h (st : Nat) := guoloHeader code (flags + b2n sign) seq payload.length 0 0 st 0 0
  let trailer := if sign then natLe 2 0xFFFE ++ List.replicate 6 0 ++ edSign Config.identitySeed (natLe 8 Config.serial ++ h 0 ++ payload) else []
  h status ++ payload ++ trailer

/-- Bytes of a message in one MGMT frame, so that the largest message has at most 65,535 fragments (R371, R375, assumption 190). -/
def fragmentSize : Nat := Config.mgmtFragment + 257
/-- Fragments of a message (Table 15-17). -/
def fragmentsOf (m : Bytes) : Nat := max 1 (ceilDiv m.length fragmentSize)

/-- The frames of a message: each the prefix and one fragment (R375, Table 15-17). -/
def mgmtFrames (mb : Nat) (m : Bytes) : List Bytes :=
  (List.range (fragmentsOf m)).map (fun i =>
    natBe 2 0x4755 ++ [1] ++ natBe 1 mb ++ natBe 2 i ++ natBe 2 (fragmentsOf m) ++ natBe 4 m.length ++
      (m.drop (fragmentSize * i)).take fragmentSize)

/-- MGMT responses and events are signed (R376). -/
def State.mgmtSigned (s : State) : Bool := s.son 0x0F03

/-- Fewer than 2,000 signed frames have left in the last second (R376). -/
def State.mgmtSlot (s : State) : Bool := decide ((s.host.mgmtSent.filter (fun t => decide (s.now < t + sec 1))).length < 2000)

/-- Signed frames leave, oldest first, as far as the rate limit lets them (R376). -/
def State.mgmtDrain : Nat → State → State
  | 0, s => s
  | n + 1, s =>
    match s.host.mgmtOut with
    | [] => s
    | x :: rest =>
      if s.mgmtSlot then
        State.mgmtDrain n (({ s with host := { s.host with
          mgmtOut := rest
          mgmtSent := s.now :: s.host.mgmtSent.filter (fun t => decide (s.now < t + sec 1)) } }).emit (.mgmt x.1 x.2))
      else s

/-- A message leaves by MGMT for a destination; its frames wait for the rate limit when they are signed (R375, R376). -/
def State.mgmtSend (s : State) (dst : Bytes) (mb : Nat) (m : Bytes) : State :=
  let fs := mgmtFrames mb m
  if s.mgmtSigned then
    let s1 := { s with host := { s.host with mgmtOut := s.host.mgmtOut ++ fs.map (fun f => (dst, f)) } }
    State.mgmtDrain s1.host.mgmtOut.length s1
  else fs.foldl (fun (s : State) f => s.emit (.mgmt dst f)) s

/-- On each clock, signed frames that waited leave as the second passes (R376). -/
def State.mgmtClock (s : State) : State := State.mgmtDrain s.host.mgmtOut.length s
/-- The configured supervisor address (Table 15-20). -/
def State.supervisor (s : State) : Bytes := (List.range 16).map (fun i => BitVec.ofNat 8 (s.sn 0x0F01 0 (17 + i)))

/-! ### Completions (R369 to R371, R376) -/

/-- The completion ring of a PCIe mailbox is full (R369). -/
def MbRegs.full (m : MbRegs) : Bool := (m.cplProd + 2 ^ 32 - m.cplCons % 2 ^ 32) % 2 ^ 32 == 256
/-- The mailbox can write no completion. -/
def State.cplFull (s : State) (mb : Nat) : Bool := decide (mb < 8) && (s.mbRegs mb).full

/-- A completion descriptor (Table 15-11). -/
def Completion.bytes (c : Completion) (flags : Nat) : Bytes :=
  natLe 4 c.tag ++ natLe 4 c.seq ++ natLe 2 c.status ++ natLe 2 flags ++ natLe 4 c.resp.length ++ natLe 4 c.detail ++ natLe 4 0 ++ c.stamp.bytes ++
  natLe 8 c.tick ++ natLe 8 0

/-- Writes bytes into the window of a PCIe mailbox, within its 1 MiB (R363). -/
def State.windowWrite (s : State) (mb off : Nat) (bs : Bytes) : State :=
  { s with host := { s.host with windows := Tab.putBytes s.host.windows (2 ^ 20 * mb + off) (bs.take (2 ^ 20 - off)) } }

/-- A completion of a PCIe mailbox: the response where its descriptor asks for it, then the completion, then CPL_PROD (R369). -/
def State.pcieComplete (s : State) (mb : Nat) (c : Completion) (again : Bool) : State :=
  let b := s.box mb
  let t := b.taken.find? (fun t => t.seq == c.seq)
  let s1 := match t with
    | some t =>
      let bs := c.resp.take t.respMax
      if bs.isEmpty then s else if t.respAddr ≠ 0 then s.emit (.hostWrite t.respAddr bs) else s.windowWrite mb t.respOff bs
    | none => s
  let cut := t.any (fun t => decide (t.respMax < c.resp.length))
  let m := s1.mbRegs mb
  let s2 := s1.windowWrite mb (0x4000 + 64 * (m.cplProd % 256)) (c.bytes (b2n cut + 2 * b2n again))
  let s3 := (s2.setMbRegs mb { m with cplProd := (m.cplProd + 1) % 2 ^ 32 }).setBox mb { b with taken := b.taken.filter (fun t => t.seq != c.seq) }
  s3.interrupt mb m.interrupt

/-- A completion leaves by its mailbox's transport. -/
def State.transport (s : State) (mb : Nat) (c : Completion) (again : Bool) : State :=
  if mb < 8 then s.pcieComplete mb c again
  else
    let b := s.box mb
    let src := match b.taken.find? (fun t => t.seq == c.seq) with | some t => t.src | none => s.supervisor
    let s1 := s.setBox mb { b with taken := b.taken.filter (fun t => t.seq != c.seq) }
    if mb < 12 then s1.mgmtSend src mb (guoloOut 2 c.opcode c.seq c.status c.resp s.mgmtSigned)
    else if mb < 14 then (if s.sheaf.twin = 1 then s1.tell (.guolo (guoloOut 2 c.opcode c.seq c.status c.resp false)) else s1)
    else s1

/-- A completion is written and kept for the resend of R376. -/
def State.deliver (s : State) (mb : Nat) (c : Completion) : State :=
  let b := s.box mb
  (s.setBox mb { b with done := (c :: b.done).take 256 }).transport mb c false

/-- Completions leave in request order, while there is room (R369, R370). -/
def State.flushLine (mb : Nat) : Nat → State → State
  | 0, s => s
  | n + 1, s =>
    match (s.box mb).line with
    | [] => s
    | x :: rest => match x.answer with
      | none => s
      | some c =>
        if s.cplFull mb then s.setMbRegs mb { s.mbRegs mb with stalled := true }
        else
          let b := s.box mb
          State.flushLine mb n ((s.setBox mb { b with line := rest }).deliver mb c)

/-- A request that was dispatched is answered; a request that is no longer in the mailbox's line is answered to no one (R362, R357). -/
def State.answer (s : State) (mb seq status detail : Nat) (resp : Bytes) (tick : Nat) : State :=
  let b := s.box mb
  let give (x : Owed) : Owed :=
    if x.seq = seq ∧ x.answer.isNone then
      let c : Completion := { seq := x.seq, opcode := x.opcode, status := status, detail := detail, tag := x.tag, resp := resp, stamp := s.stamp, tick := tick }
      { x with answer := some c }
    else x
  let s1 := s.setBox mb { b with line := b.line.map give }
  State.flushLine mb (b.line.length + 1) s1

/-- A happening that requests wait for has come: each that waits for nothing else is answered (R379). -/
def State.endLong (s : State) (kind idx status detail : Nat) (resp : Bytes) (tick : Nat) : State :=
  let hit (x : LongReq) : Bool := x.kind == kind && x.idx == idx
  let mine := s.host.longs.filter hit
  let s1 := { s with host := { s.host with longs := s.host.longs.filter (fun x => !hit x) } }
  mine.foldl (fun s (x : LongReq) =>
    if s.host.longs.any (fun y => y.mb == x.mb && y.seq == x.seq) ∧ status = 0 then s
    else
      let s2 := { s with host := { s.host with longs := s.host.longs.filter (fun y => !(y.mb == x.mb && y.seq == x.seq)) } }
      s2.answer x.mb x.seq status detail resp tick) s1

/-! ### Checks (R370 to R377) -/

/-- What a command answers to its request. -/
structure Ans where
  status : Nat := 0
  detail : Nat := 0
  resp : Bytes := []
  tick : Nat := 0
  /-- A later happening answers: its kind and index (see `LongReq`). -/
  later : List (Nat × Nat) := []
deriving DecidableEq, Repr

/-- The class that a request must carry (R374, R386): an expert form is class 2, but for the expert ledger settings, and for a commit,
which carries its bale's class. -/
def effClass (op cls : Nat) (expert : Bool) : Nat :=
  if expert then (if op = 0x0605 then 6 else if op = 0x0702 then max 2 cls else 2) else cls

/-- What is wrong with a request's header: 0 for nothing (R371, R374, Table 15-9). -/
def headerStatus (op cls : Nat) (r : Request) : Nat :=
  if 16 ≤ r.flags ∨ r.flags.testBit 1 ∨ r.flags.testBit 2 ∨ r.flags.testBit 0 ≠ r.trailer.isSome then 0x0101
  else if r.authClass ≠ effClass op cls r.expert ∨ (r.mb.val = 12 ∧ r.expert) ∨ (r.mb.val = 13 ∧ !r.expert) then 0x0103
  else if 2 ^ 24 < r.payload.length then 0x0104
  else 0

/-- The role that a class needs (Table 15-15, R386). -/
def KeyInfo.mayClass (k : KeyInfo) (op cls : Nat) (expert : Bool) : Bool :=
  match cls with
  | 0 => true
  | 1 => k.has roleConfigure
  | 2 => k.has roleExpert
  | 3 => k.owner
  | 4 => k.has roleShut
  | 5 => k.has roleReopen
  | 6 => k.has roleLedger && (!(expert && op == 0x0605) || k.has roleExpert)
  | _ => false

/-- A request of class `cls` must be signed (Table 15-9, Table 15-15). -/
def State.mustSign (s : State) (mb cls : Nat) : Bool :=
  cls != 0 || mb == 12 || mb == 13 || (decide (8 ≤ mb ∧ mb ≤ 11) && s.son 0x0F02 && s.owned)

/-- The signature of a request is checked (R372, R373): the status of its refusal, or the key that signed it. Verification is part of the command:
a gate shut that finds every pair busy displaces the permit of the lowest-numbered one, which returns to the head of the intake queue and
is the first that the pair takes again, so that the state is as it was. -/
def State.checkSignature (s : State) (op cls : Nat) (r : Request) : Except Nat Nat :=
  match r.trailer with
  | none => .error 0x0201
  | some (id, sig) =>
    if !s.sealAny then .error 0x0208
    else match s.keyOf id with
      | none => .error 0x0203
      | some k =>
        if !edVerify k.pub (reqCovered r op) sig then .error 0x0202
        else if r.boot ≠ s.keeper.boot % 2 ^ 32 ∨ r.counter < Tab.get 0 s.host.counters id then .error 0x0205
        else if !s.keyTime k then .error 0x0203
        else if !k.mayClass op cls r.expert then .error 0x0204
        else .ok id

/-- The key's highest counter becomes the request's (R372). -/
def State.spendCounter (s : State) (id counter : Nat) : State :=
  { s with host := { s.host with counters := Tab.put 0 s.host.counters id (counter + 1) } }

/-- Under the boot ROM of R414 only these commands are served. -/
def bootRomServes (op : Nat) : Bool := op == 0x0101 || op == 0x0B05 || op == 0x0B07 || op == 0x0B08

/-- A request in order is checked and carried out (R370). `read_` marks a read, which an unowned device serves unsigned (R377). -/
def State.dispatch (s : State) (op cls : Nat) (read_ : Bool) (r : Request) (run : Option Nat → State → Ans × State) : Ans × State :=
  let c := effClass op cls r.expert
  let bad := headerStatus op cls r
  if bad ≠ 0 then ({ status := bad }, s)
  else if s.trust.recovery = 1 ∧ !bootRomServes op then ({ status := 0x0304 }, s)
  else if !s.owned ∧ !(read_ ∧ c = 0 ∧ r.mb.val ≠ 12 ∧ r.mb.val ≠ 13) then ({ status := 0x0206 }, s)
  else if s.mustSign r.mb c then
    match s.checkSignature op c r with
    | .error e => ({ status := e }, s)
    | .ok id => run (some id) (s.spendCounter id r.counter)
  else run none s

/-- A request whose sequence is the next of its mailbox, or starts it anew (R371). -/
def Mailbox.inOrder (b : Mailbox) (r : Request) : Bool :=
  r.seq == b.next || (r.flags.testBit 3 && b.line.isEmpty && b.gap.isEmpty)

/-- A request joins its mailbox's line, and the next sequence is expected. -/
def State.openLine (s : State) (op : Nat) (r : Request) : State :=
  let b := s.box r.mb
  let gap := b.gap.filter (fun t => t.seq != r.seq)
  let x : Owed := { seq := r.seq, opcode := reqCode r op, tag := r.tag }
  s.setBox r.mb { b with next := (r.seq + 1) % 2 ^ 32, line := b.line ++ [x], gap := gap, gapAt := if gap.isEmpty then none else b.gapAt }

/-- The answer of a command completes its request, or leaves it executing (R370, R379). -/
def State.conclude (s : State) (op : Nat) (r : Request) (a : Ans) : State :=
  if a.later.isEmpty then s.answer r.mb r.seq a.status a.detail a.resp a.tick
  else
    let xs := a.later.map (fun (k : Nat × Nat) => ({ mb := r.mb.val, seq := r.seq, opcode := reqCode r op, kind := k.1, idx := k.2, at_ := s.now } : LongReq))
    { s with host := { s.host with longs := s.host.longs ++ xs } }

/-- A request out of order (R376): a completed one is answered again, one up to 255 ahead is held, any other is refused and counted. -/
def State.outOfOrder (s : State) (op : Nat) (r : Request) : State :=
  let b := s.box r.mb
  match b.done.find? (fun c => c.seq == r.seq) with
  | some c => s.transport r.mb c true
  | none =>
    let ahead := (r.seq + 2 ^ 32 - b.next % 2 ^ 32) % 2 ^ 32
    if b.line.any (fun x => x.seq == r.seq) then s
    else if 1 ≤ ahead ∧ ahead ≤ 255 then
      if b.gap.any (fun t => t.seq == r.seq) then s
      else
        let t : Taken := { seq := r.seq, opcode := reqCode r op, tag := r.tag }
        s.setBox r.mb { b with gap := b.gap ++ [t], gapAt := some (b.gapAt.getD s.now) }
    else
      let c : Completion := { seq := r.seq, opcode := reqCode r op, status := 0x0105, tag := r.tag, stamp := s.stamp }
      (s.setBox r.mb { b with badSeq := b.badSeq + 1 }).transport r.mb c false

/-- Nobody posts to a mailbox now: no master does to MB15, and only the paired twin to MB12 and MB13 (R368). -/
def State.noMaster (s : State) (mb : Nat) : Bool := mb == 15 || ((mb == 12 || mb == 13) && s.sheaf.twin != 1)

/-- A Guolo request reaches Scemas (R369 to R377), which checks and carries it out by `run`. Nothing is served before Scemas is ready, while
no management-core pair is in service (R378), or while mailboxes are quiesced (R379), and a PCIe mailbox whose completion ring is full stalls. -/
def State.serve (s : State) (op : Nat) (r : Request) (run : State → Ans × State) : State :=
  if !s.trust.ready ∨ !s.scemasRuns ∨ s.noMaster r.mb ∨ (s.trust.recovery = 1 ∧ r.mb.val ≠ 0 ∧ r.mb.val ≠ 14) ∨
      s.quiesced then s
  else if s.cplFull r.mb then s.setMbRegs r.mb { s.mbRegs r.mb with stalled := true }
  else if (s.box r.mb).inOrder r then
    let (a, s1) := run (s.openLine op r)
    s1.conclude op r a
  else s.outOfOrder op r

/-- A request under the checks that hold for every command but a claim and an import (R370). -/
def State.request (s : State) (op cls : Nat) (read_ : Bool) (r : Request) (run : Option Nat → State → Ans × State) : State :=
  s.serve op r (fun s => s.dispatch op cls read_ r run)

/-- A read: it changes nothing but its mailbox, and names the last commit tick (R381). -/
def State.readReq (s : State) (op cls : Nat) (r : Request) (f : State → Ans) : Res :=
  done (s.request op cls true r (fun _ s => ({ f s with tick := s.bales.lastTick }, s)))

/-- The master of a mailbox, coded as in Table 16-4. -/
def masterOf (mb : Nat) : Nat := if mb < 8 then 1 else if mb < 12 then 0 else if mb < 14 then 2 else if mb = 14 then 3 else 4

end Sys2Proof.Machine
end

