-- ==== Sys2Proof/Machine/Ports.lean ====
section
/-! DEFINITION. Line ports and lanes: attempts, link down, damping, taps, lane power, recalibration, received pause
(03_line_ports.md). -/

namespace Sys2Proof.Machine

/-! ### Causes (assumption 20) -/

/-- Causes of port events: the rows of Table 3-3, then those of R80 and of the other chapters. -/
def causeNegTimeout : Nat := 1
def causePageFlood : Nat := 2
def causeTrainTimeout : Nat := 3
def causeRequestFlood : Nat := 4
def causeNoCommonMode : Nat := 5
def causeNoSignal : Nat := 6
def causeLossOfSignal : Nat := 7
def causeCommanded : Nat := 8
def causeSliceReset : Nat := 9
def causeSag : Nat := 10
def causeClientPcs : Nat := 11
/-- An OTN defect by its row of Table 4-2, 1 to 12; dLOS is the loss of signal (R104). -/
def causeDefect (row : Nat) : Nat := if row = 1 then causeLossOfSignal else 16 + row

/-! ### Modes -/

/-- Mode set for a port: 0 disabled, 1 200G to 5 10G, 6 OTU4 (Table 16-4). -/
def State.portMode (s : State) (p : Nat) : Nat := s.sn 0x0301 p
/-- The port negotiates: OTU4 ports do not (R77). -/
def State.negotiates (s : State) (p : Nat) : Bool := s.son 0x0302 p && s.portMode p != 6
/-- A mode uses both lanes of the port (Table 3-1). -/
def twoLane (m : Nat) : Bool := m == 1 || m == 6
/-- Lanes of port `p` in mode `m` (Table 3-1). -/
def lanesOf (p m : Nat) : List Nat := if twoLane m then [2 * p, 2 * p + 1] else [2 * p]
/-- A mode runs PAM4 (Table 3-1). -/
def isPam4 (m : Nat) : Bool := m != 4 && m != 5
/-- Data rate of a mode, b/s (Table 3-1, R96). -/
def rateOf (m : Nat) : Nat := [0, 200, 100, 50, 25, 10, 100].getD m 0 * 1000000000
/-- Time that `n` bytes take on a port, in the state's units. -/
def State.wireTime (s : State) (p n : Nat) : Nat :=
  let r := rateOf (s.port p).runMode
  if r = 0 then 0 else ceilDiv (n * 8 * 9000000000) r
/-- Ethernet modes that the port advertises, fastest first, by code: those of the advertised set no faster than the set mode
(R77). -/
def State.advertised (s : State) (p : Nat) : List Nat :=
  [1, 2, 3, 4, 5].filter (fun m => (s.sn 0x0302 p 1).testBit (m - 1) && decide (s.portMode p ≤ m))
/-- State of the attempt that a port begins (R81). -/
def State.startState (s : State) (p : Nat) : PortState := if s.negotiates p then .negotiating else .training

/-! ### Attempts (R77 to R81) -/

/-- The wait after the `n`-th consecutive failure, in s (Table 3-4). -/
def retryWait (n : Nat) : Nat := [0, 0, 1, 2, 4, 8, 16, 32].getD n 32

/-- The attempt of port `p` fails (R81). -/
def State.failAttempt (s : State) (p cause : Nat) : State :=
  let q := s.port p
  let n := q.failures + 1
  let s1 := s.raise 0x0203 (src 1 p) (natLe 1 cause ++ natLe 1 (min n 255))
  let s2 := s1.setPort p { q with
    failures := n, attempt := false, cause := cause
    st := if n < 8 then s.startState p else .suspended
    waitUntil := s.now + (if n < 8 then sec (retryWait n) else ns (s.sn 0x0306 p)) }
  if n = 8 then s2.raise 0x0204 (src 1 p) [] else s2

/-- Port `p` begins an attempt (R77, R79). -/
def State.beginAttempt (s : State) (p : Nat) : State :=
  let m := s.portMode p
  let s1 := (lanesOf p m).foldl (fun s l => s.modLane l (fun x => { x with pendingReq := none, lastAnswer := none })) s
  let s2 := s1.modPort p (fun q => { q with
    st := s.startState p, attempt := true, attemptAt := s.now, pages := 0, requests := 0
    runMode := if s.negotiates p then q.runMode else m
    sawSignal := (lanesOf p m).any (fun l => (s.lane l).signal) })
  if s.negotiates p && (s.advertised p).isEmpty then s2.failAttempt p causeNoCommonMode else s2

/-- Port `p` waits for an attempt whose time has come, and nothing holds it down. -/
def State.attemptDue (s : State) (p : Nat) : Bool :=
  let q := s.port p
  !q.attempt && (q.st == .negotiating || q.st == .training || q.st == .suspended) && decide (q.waitUntil ≤ s.now) &&
    !q.shed && !q.sliceDown

/-- TRAINING_ATTEMPT_START (R77, R81). -/
def execTrainingAttemptStart (p : PortId) (s : State) : Res :=
  if s.attemptDue p then done (s.beginAttempt p) else done s

/-- RETRY_WAIT_EXPIRY (R81): the wait of Table 3-4 is over, and the attempt begins. -/
def execRetryWaitExpiry (p : PortId) (s : State) : Res :=
  if s.attemptDue p ∧ (s.port p).st ≠ .suspended then done (s.beginAttempt p) else done s

/-- SUSPENSION_INTERVAL_EXPIRY (R81). -/
def execSuspensionIntervalExpiry (p : PortId) (s : State) : Res :=
  if s.attemptDue p ∧ (s.port p).st = .suspended then done (s.beginAttempt p) else done s

/-- NEGOTIATION_COMPLETE (R77): the highest mode that both advertise. -/
def execNegotiationComplete (p : PortId) (partner : ModeSet) (s : State) : Res :=
  let q := s.port p
  if !q.attempt ∨ q.st ≠ .negotiating then done s
  else match (s.advertised p).find? (fun m => partner.val.testBit (m - 1)) with
    | none => done (s.failAttempt p causeNoCommonMode)
    | some m => done (s.setPort p { q with st := .training, runMode := m, attemptAt := s.now })

/-- NEGOTIATION_TIMEOUT (R79). -/
def execNegotiationTimeout (p : PortId) (s : State) : Res :=
  let q := s.port p
  if q.attempt ∧ q.st = .negotiating ∧ q.attemptAt + ns (s.sn 0x0305 p 0) ≤ s.now then
    done (s.failAttempt p (if q.sawSignal then causeNegTimeout else causeNoSignal))
  else done s

/-- Rows of Table 4-2 marked "port down" for port `p`, as bits n − 1 for row n: the TIM rows only with the TIM action on
(R99). -/
def State.downMask (s : State) (p : Nat) : Nat :=
  0b100111001111 ||| (if s.son 0x0404 p then 0b001000010000 else 0)

/-- Rank of each defect row in the list of R101. -/
def defectRank (row : Nat) : Nat := [0, 1, 2, 3, 4, 7, 9, 5, 6, 6, 7, 9, 8].getD row 9
/-- Active defect rows, highest in R101 first. DESIGN CHOICE (assumption 247): of two rows of one rank the one that stands first in Table
4-2 comes first. -/
def activeRows (mask : Nat) : List Nat :=
  ((List.range 10).map (fun r => [1, 2, 3, 4, 7, 8, 9, 5, 10, 12, 6, 11].filter (fun row =>
    defectRank row == r && mask.testBit (row - 1)))).flatten

/-- TRAINING_TIMEOUT (R79, R103): an OTU4 attempt names the highest fault cause present. -/
def execTrainingTimeout (p : PortId) (s : State) : Res :=
  let q := s.port p
  let lim := if isPam4 q.runMode then s.sn 0x0305 p 2 else s.sn 0x0305 p 3
  if q.attempt ∧ q.st = .training ∧ q.attemptAt + ns lim ≤ s.now then
    let cause := if q.runMode = 6 then
        match activeRows (s.otnOf p).defects with
        | r :: _ => causeDefect r
        | [] => causeTrainTimeout
      else if q.sawSignal then causeTrainTimeout else causeNoSignal
    done (s.failAttempt p cause)
  else done s

/-- NEXT_PAGE_RECEIVE (R79). -/
def execNextPageReceive (p : PortId) (s : State) : Res :=
  let q := s.port p
  if !q.attempt ∨ q.st ≠ .negotiating then done s
  else
    let s1 := s.setPort p { q with pages := q.pages + 1 }
    if s.sn 0x0305 p 1 < q.pages + 1 then done (s1.failAttempt p causePageFlood) else done s1

/-- Port of a lane (R70). -/
def portOfLane (l : Nat) : Nat := l / 2
/-- The port's running mode uses lane `l`. -/
def State.laneUsed (s : State) (l : Nat) : Bool := (lanesOf (portOfLane l) (s.port (portOfLane l)).runMode).contains l

/-- PARTNER_COEFFICIENT_REQUEST (R78, R79): the request is counted, and replaces one that is pending. -/
def execPartnerCoefficientRequest (l : LaneId) (q : CoefRequest) (s : State) : Res :=
  let p := portOfLane l
  let x := s.port p
  if !x.attempt ∨ x.st ≠ .training ∨ x.runMode = 6 then done s
  else
    let s1 := s.setPort p { x with requests := x.requests + 1 }
    if s.sn 0x0305 p 5 < x.requests + 1 then done (s1.failAttempt p causeRequestFlood)
    else done (s1.modLane l (fun y => { y with pendingReq := some q }))

/-- A tap that the modulation does not use has no range of its own (R78). -/
def tapBounds (m tap : Nat) : Int × Int :=
  if isPam4 m ∨ 2 ≤ tap then (Config.tapLow tap, Config.tapHigh tap) else (0, 0)

/-- Status answered to a request, and the tap after it: 0 updated, 1 maximum, 2 minimum, 3 hold (R78). -/
def answerTap (lo hi cur delta : Int) : Nat × Int :=
  if delta = 0 then (3, cur)
  else if hi < cur + delta then (1, cur)
  else if cur + delta < lo then (2, cur)
  else (0, cur + delta)

/-- The receiver of lane `l` adapts its own equaliser while its port trains, and asks an Ethernet partner to change its transmit taps; in
NRZ modes it asks for c(−1), c(0) and c(1) alone (R77, R78, R103). What it settles on and when it asks are free (assumption 216). -/
def State.adaptLane (s : State) (l : Nat) : State :=
  let q := s.port (portOfLane l)
  let y := s.lane l
  if q.attempt ∧ q.st = .training ∧ s.laneUsed l ∧ y.signal then
    let (r, s1) := s.draw
    let s2 := s1.setLane l { y with eq := r.toNat }
    match Config.tapAsk r with
    | some (tap, d) => if tap < 5 ∧ q.runMode ≠ 6 ∧ (isPam4 q.runMode ∨ 2 ≤ tap) then s2.emit (.coefRequest l tap d) else s2
    | none => s2
  else s

/-- COEFFICIENT_RESPONSE (R78, R79). -/
def execCoefficientResponse (l : LaneId) (s : State) : Res :=
  let y := s.lane l
  let p := portOfLane l
  match y.pendingReq with
  | none => done s
  | some q =>
    if y.lastAnswer.any (fun t => decide (s.now < t + ns (s.sn 0x0305 p 4))) then done s
    else
      let (lo, hi) := tapBounds (s.port p).runMode q.tap
      let (st, v) := answerTap lo hi (y.taps.getD q.tap 0) q.delta
      done ((s.setLane l { y with pendingReq := none, lastAnswer := some s.now, taps := y.taps.set q.tap v }).emit
        (.coefStatus l q.tap st))

/-- Port `p` enters the up state, or its link comes up beneath damping (R74, R81, R82). -/
def State.portUp (s : State) (p : Nat) : State :=
  let q := s.port p
  let s1 := s.setPort p { q with st := .up, attempt := false, failures := 0 }
  if q.isDamped then s1 else s1.raise 0x0201 (src 1 p) (natLe 1 q.runMode)

/-- An OTU4 port meets the conditions of R103, and no ODU lock stands (assumption 26). -/
def State.otnReady (s : State) (p : Nat) : Bool :=
  let o := s.otnOf p
  (o.defects &&& s.downMask p) == 0 && o.pcsLock && !o.pcsFault && !s.son 0x0406 p

/-- The equaliser settings of a training that has succeeded are kept, for a return from deep rest (R89). -/
def State.saveEq (s : State) (p : Nat) : State :=
  (lanesOf p (s.port p).runMode).foldl (fun s l => s.modLane l (fun y => { y with savedEq := y.eq })) s

/-- TRAINING_COMPLETE (R74, R77, R81, R89, R103). -/
def execTrainingComplete (p : PortId) (s : State) : Res :=
  let q := s.port p
  if q.attempt ∧ q.st = .training ∧ (q.runMode = 6 → s.otnReady p) then done ((s.saveEq p).portUp p) else done s

/-- SIGNAL_APPEARS (R79, R99). -/
def execSignalAppears (l : LaneId) (s : State) : Res :=
  let p := portOfLane l
  let s1 := (s.modLane l (fun y => { y with signal := true })).modPort p
    (fun q => if q.attempt then { q with sawSignal := true } else q)
  if (s1.port p).runMode = 6 ∧ (s1.lane (2 * p)).signal ∧ (s1.lane (2 * p + 1)).signal then
    done (s1.setOtn p { s1.otnOf p with sigSince := some s.now, lossAt := none, laneLossAt := [] })
  else if (s1.port p).runMode = 6 then
    done (s1.setOtn p { s1.otnOf p with laneLossAt := Tab.put none (s1.otnOf p).laneLossAt (l.1 % 2) none })
  else done s1

/-! ### Damping (R82) -/

/-- 2^(−2^(−i)) in units of 2^−32, for i = 1 to 16. -/
def halfPowers : List Nat :=
  [3037000500, 3611622603, 3938502376, 4112874773, 4202935003, 4248701965, 4271771996, 4283353945, 4289156690, 4292061010,
   4293513907, 4294240540, 4294603903, 4294785595, 4294876445, 4294921870]

/-- `v` after `d` has passed, with half-life `h`; the fraction of a half-life is taken to 16 bits (assumption 25). -/
def decay (v d h : Nat) : Nat :=
  if h = 0 then v
  else
    let r := (d % h) * 65536 / h
    ((List.range 16).foldl (fun v i => if r.testBit (15 - i) then v * halfPowers.getD i 0 / 2 ^ 32 else v) v) >>> (d / h)

/-- Damping penalty of port `p` now, in 1/1,024. -/
def State.penaltyNow (s : State) (p : Nat) : Nat :=
  decay (s.port p).penalty (s.now - (s.port p).penaltyAt) (ns (s.sn 0x0307 p))

/-- The ceiling U × 2^(Tmax / H), in 1/1,024. -/
def State.penaltyCeiling (s : State) (p : Nat) : Nat :=
  let h := s.sn 0x0307 p
  let t := s.sn 0x0309 p
  let n := ceilDiv t h
  decay (s.sn 0x0308 p 1 * 1024 * 2 ^ n) (n * h - t) h

/-- A transition from up to down adds 1,000 to the penalty. -/
def State.addPenalty (s : State) (p : Nat) : State :=
  s.modPort p (fun q => { q with penalty := min (s.penaltyCeiling p) (s.penaltyNow p + 1000 * 1024), penaltyAt := s.now })

/-- The penalty of port `p` keeps to the ceiling that its settings now give (R82). -/
def State.capPenalty (s : State) (p : Nat) : State :=
  let v := min (s.penaltyCeiling p) (s.penaltyNow p)
  s.modPort p (fun q => { q with penalty := v, penaltyAt := if v = 0 then 0 else s.now })

/-! ### Link down (R80) -/

/-- Port `p` leaves the up state: the learned entries that name it are to be removed, in all slices (R120). -/
def State.flushOwed (s : State) (p : Nat) : State :=
  if (s.port p).isUp then
    { s with bridge := { s.bridge with macs := s.bridge.macs.map (fun t => (t.1, { t.2 with
      entries := t.2.entries.map (fun x => (x.1, { x.2 with flushDue := x.2.flushDue || (!x.2.static && x.2.dest == p) })) })) } }
  else s

/-- Port `p` leaves the up state: the copies it was sending or holding are dropped and counted, received pause is cleared, its
aggregation slots move, and link-down is raised (R76, R80, R83, R132). The caller says which state follows. -/
def State.linkDown (s : State) (p cause : Nat) (commanded : Bool) : State :=
  let q := s.port p
  let s1 := (s.flushOwed p).flushPort p (fun s => s.countPort p 13)
  let s2 := match q.sending with
    | some n => ((s1.countPort p 13).dropCopies n (fun (c : Copy) => c.port == p)).modPort p (fun x => { x with sending := none })
    | none => s1
  let s3 := { s2 with core := { s2.core with paused := (List.range 8).foldl (fun t c => Tab.erase t (8 * p + c)) s2.core.paused } }
  let s4 := s3.modPort p (fun x => { x with cause := cause, attempt := false, lacpRx := false, lacp := false })
  let s5 := match s.lagOfPort p with
    | some g => s4.memberStops g p
    | none => s4
  if q.isUp then s5.raise 0x0202 (src 1 p) (natLe 1 cause ++ natLe 1 (b2n commanded)) else s5

/-- Port `p` is taken down (R80); a down that neither a command nor sag caused adds the damping penalty (R82). What was not up
only loses its queues and its attempt. -/
def State.portDown (s : State) (p cause : Nat) (commanded : Bool) : State :=
  let was := (s.port p).st == .up
  let s1 := s.linkDown p cause commanded
  let s2 := s1.modPort p (fun x => { x with st := if was then s.startState p else x.st, waitUntil := s.now })
  if was ∧ !commanded then s2.addPenalty p else s2

/-- The penalty of port `p` is evaluated, capped at the ceiling in force (R82). DESIGN CHOICE (assumption 217): a port that is damped
when damping is switched off leaves the damped state at the next evaluation with the undamped event, and downs go on adding to p while it
is off. DESIGN CHOICE (assumption 238): what is queued to a port that becomes damped stays queued until it is undamped. -/
def State.evaluateDamping (s : State) (p : Nat) : State :=
  let q := s.port p
  let v := min (s.penaltyCeiling p) (s.penaltyNow p)
  let s1 := s.setPort p { q with penalty := v, penaltyAt := if v = 0 then 0 else s.now }
  if q.isDamped then
    if v ≤ s.sn 0x0308 p 1 * 1024 ∨ !s.son 0x030A p then
      (s1.modPort p (fun x => { x with isDamped := false })).raise 0x0206 (src 1 p) (natLe 4 (v / 1024))
    else s1
  else if s.son 0x030A p ∧ s.sn 0x0308 p 0 * 1024 ≤ v then
    let s2 := ((s1.flushOwed p).modPort p (fun x => { x with isDamped := true })).raise 0x0205 (src 1 p) (natLe 4 (v / 1024))
    match s.lagOfPort p with
    | some g => if s.distributing g p then s2.memberStops g p else s2
    | none => s2
  else s1

/-- DAMPING_EVALUATION (R82): every 100 ms, at the multiples of 100 ms since reset (assumption 217). -/
def execDampingEvaluation (s : State) : Res :=
  if s.recal.dampAt + ms 100 ≤ s.now then
    done ((Tab.keys s.ports).foldl (fun s p => s.evaluateDamping p)
      { s with recal := { s.recal with dampAt := s.now - s.now % ms 100 } })
  else done s

/-! ### Lane power (R88, R89) -/

/-- The state that the lanes' power leaves a port in: 1 deep rest, 2 lane idle. -/
def State.restState (s : State) (p : Nat) : Option PortState :=
  let ps := (lanesOf p (s.portMode p)).map (fun l => (s.lane l).power)
  if ps.contains 2 then some .deepRest else if ps.contains 1 then some .laneIdle else none

/-- Port `p` rests: it is taken down by command, and reports the rest state (R89). -/
def State.restPort (s : State) (p cause : Nat) : State :=
  match s.restState p with
  | none => s
  | some st => (s.portDown p cause true).modPort p (fun x => { x with st := st })

/-- A power state as it is entered: deep rest keeps no equaliser settings running, and leaving it brings back those of the last successful
training (R89, Table 3-8). -/
def Lane.rest (y : Lane) (w : Nat) : Lane :=
  { y with power := w, exitAt := none, eq := if w = 2 then 0 else if y.power = 2 then y.savedEq else y.eq }

/-- The port's mode leaves lane `l` unused: it stays in deep rest (R72). -/
def State.laneSpare (s : State) (l : Nat) : Bool := s.portMode (portOfLane l) != 0 && !(lanesOf (portOfLane l) (s.portMode (portOfLane l))).contains l

/-- Loops and patterns of a port stop as it leaves the test state otherwise than by their command (R86, assumption 218). -/
def State.endTests (s : State) (p : Nat) : State :=
  { s with settings := Tab.erase (Tab.erase s.settings (0x0310 * 65536 + 2 * p)) (0x0310 * 65536 + (2 * p + 1)) }

/-- Lane `l` is ordered into a power state (R88, Table 3-8); one that the mode leaves unused keeps the order, and rests (R72). -/
def State.orderLane (s0 : State) (l w : Nat) : State :=
  let p := portOfLane l
  let y := s0.lane l
  let s := if w = 0 ∨ (s0.port p).st ≠ .test ∨ s0.laneSpare l then s0 else s0.endTests p
  if (s.port p).shed ∨ s.laneSpare l then s.setLane l { y with ordered := if w = 0 then none else some w }
  else if w = 0 then
    if y.power = 0 then s.setLane l { y with ordered := none }
    else if !(lanesOf p (s.portMode p)).contains l ∨ s.portMode p = 0 then s.setLane l { y with ordered := none }
    else s.setLane l { y with ordered := none, exitAt := some s.now }
  else
    let s1 := s.setLane l { y.rest w with ordered := some w }
    if (lanesOf p (s.portMode p)).contains l ∧ s.portMode p ≠ 0 then s1.restPort p causeCommanded else s1

/-- LANE_POWER_EXIT_DONE (R88, R89): negotiation restarts once every lane of the port is active, with the equaliser settings held, or
after deep rest with those of the last successful training. -/
def execLanePowerExitDone (l : LaneId) (s : State) : Res :=
  let p := portOfLane l
  let y := s.lane l
  match y.exitAt with
  | none => done s
  | some _ =>
    let s1 := s.setLane l (y.rest 0)
    let q := s1.port p
    if (s1.restState p).isNone ∧ (q.st = .laneIdle ∨ q.st = .deepRest) ∧ !q.shed ∧ !q.sliceDown ∧ s.portMode p ≠ 0 then
      done (s1.beginAttempt p)
    else done s1

/-! ### Port mode and test (R74, R86) -/

/-- The lanes of port `p` take the power of its mode: unused ones rest (R72, R88). DESIGN CHOICE (assumption 216): the set mode decides
which lanes are used, so that lane 2nn+1 stays active where negotiation resolves a two-lane mode to a single-lane one. -/
def State.powerLanes (s : State) (p : Nat) : State :=
  let m := s.portMode p
  [2 * p, 2 * p + 1].foldl (fun s l => s.modLane l (fun y =>
    y.rest (if m ≠ 0 ∧ (lanesOf p m).contains l ∧ !(s.port p).shed then y.ordered.getD 0 else 2))) s

/-- Framing as a search begins: every stage out since now (R98); the defects stand until they clear (R99), the counts go on (R450), and so do
the seconds held for the ten-second rule (R108). -/
def Otn.starting (o : Otn) (now : Nat) : Otn :=
  { lane := { since := now }, frame := { since := now }, multi := { since := now }, pm := o.pm, defects := o.defects, sigSince := o.sigSince
    iae := o.iae, biae := o.biae, jcBad := o.jcBad }

/-- What is left of the framing of a port that is in OTU4 mode no longer, or shed: its counts (R450). -/
def Otn.ended (o : Otn) : Otn := { iae := o.iae, biae := o.biae, jcBad := o.jcBad }

/-! ### Seconds of OTN performance (R107, R108) -/

/-- A finished second (R107): at least 128,458 errored blocks, or a defect, is severely errored. -/
def PmSecond.classify (x : PmSecond) : PmClass :=
  let ses := x.defect || decide (128458 ≤ x.blocks)
  { blocks := x.blocks, ses := ses, es := ses || decide (0 < x.blocks), defect := x.defect }

/-- A second joins the ten held; the oldest leaves, with the availability that it had (R108). -/
def PmEnd.hold (e : PmEnd) (c : PmClass) (active : Bool) : PmEnd × Option (PmClass × Bool) :=
  let held := c :: e.held
  let out := if held.length = 11 then held.getLast?.map (fun c => (c, e.unavailable || c.shed)) else none
  let kept := held.take 10
  let full := kept.length == 10
  let un := if full && kept.all (·.ses) then true else if full && kept.all (fun c => !c.ses) then false else e.unavailable
  ({ now := { blocks := 0, defect := active }, held := kept, unavailable := un }, out)

/-- A second is added to the totals of end `i` of port `p`: ES, SES, BBE and UAS (R107, R108). -/
def State.addSecond (s : State) (p i : Nat) (c : PmClass) (un : Bool) : State :=
  let base := 256 * p + 4 * i
  if un then s.count 3 (base + 3)
  else
    let s1 := if c.es then s.count 3 base else s
    if c.ses then s1.count 3 (base + 1) else s1.count 3 (base + 2) c.blocks

/-- A classified second of a layer and end is counted, but for a far end while its near end has a severe defect (R107, R108). -/
def State.closeSecond (s : State) (p i : Nat) (masked : Bool) (x : Option (PmClass × Bool)) : State :=
  match x with
  | none => s
  | some (c, un) => if masked then s else s.addSecond p i c un

/-- Seconds that leave the hold of the four ends together are counted (R107, R108). -/
def State.closeSeconds (s : State) (p : Nat) (out : List (Option (PmClass × Bool))) : State :=
  let near (i : Nat) := (out.getD (i / 2 * 2) none).any (fun x => x.1.ses && x.1.defect && !x.1.shed)
  out.zipIdx.foldl (fun s x => s.closeSecond p x.2 (x.2 % 2 == 1 && near x.2) x.1) s

/-- The seconds that a port still holds are counted as it leaves OTU4 mode, oldest first, with the availability in force (R108). -/
def State.flushSeconds (s : State) (p : Nat) : State :=
  let pm := (s.otnOf p).pm
  ((List.range 10).reverse).foldl (fun s k => s.closeSeconds p (pm.map (fun e => (e.held[k]?).map (fun c => (c, e.unavailable || c.shed))))) s

/-- The defects of a port that leaves OTU4 mode clear, each with its event (R99). -/
def State.clearDefects (s : State) (p : Nat) : State :=
  (activeRows (s.otnOf p).defects).foldl (fun s r => s.raise 0x020A (src 1 p) (natLe 1 r)) s

/-- A port mode command has changed the mode, negotiation or the advertised modes (R74, Table 3-9). -/
def State.remode (s : State) (p : Nat) : State :=
  let s1 := (s.endTests p).portDown p causeCommanded true
  let s2 := (s1.powerLanes p).modPort p (fun q => { q with failures := 0 })
  let s3 := if s.portMode p = 6 then s2.setOtn p ((s.otnOf p).starting s.now)
    else ((s2.clearDefects p).flushSeconds p).setOtn p (s.otnOf p).ended
  if (s.port p).shed then s3.modPort p (fun q => { q with st := if s.portMode p = 0 then .disabled else .deepRest })
  else if (s.port p).sliceDown then s3
  else if s.portMode p = 0 then s3.modPort p (fun q => { q with st := .disabled, runMode := 0 })
  else match s3.restState p with
    | some st => s3.modPort p (fun q => { q with st := st })
    | none => s3.beginAttempt p

/-- A test of lane `l` is on: a loop, a pattern, or the generator or checker. -/
def State.inTest (s : State) (l : Nat) : Bool :=
  s.sn 0x0310 l 0 != 0 || s.sn 0x0310 l 2 != 0 || s.son 0x0310 l 3 || s.son 0x0310 l 4

/-- Lane rate of a mode, kb/s (Table 3-1). -/
def laneRate (m : Nat) : Nat := [0, 106250000, 106250000, 53125000, 25781250, 10312500, 55904000].getD m 0

/-- The lanes of port `p` that are tested run at the lane rate of its mode (R72, R87). DESIGN CHOICE (assumption 216): no command names
another rate. -/
def State.rateTests (s : State) (p : Nat) : State :=
  [2 * p, 2 * p + 1].foldl (fun s l => s.modLane l (fun y => { y with testRate := if s.inTest l then laneRate (s.portMode p) else 0 })) s

/-- A lane test command has been carried out on port `p` (R86, R87): it enters the test state as a commanded down, or leaves it
once no lane is tested, to rest where its lanes do (R89); on a port that sag has shed, loops and patterns stop (Table 3-9). -/
def State.retest (s0 : State) (p : Nat) : State :=
  let on := s0.inTest (2 * p) || s0.inTest (2 * p + 1)
  let st := (s0.port p).st
  let s := s0.rateTests p
  if on ∧ (s.port p).shed then s.endTests p
  else if on ∧ st ≠ .test then (s.portDown p causeCommanded true).modPort p (fun q => { q with st := .test })
  else if !on ∧ st = .test then
    if s.portMode p = 0 then s.modPort p (fun q => { q with st := .disabled })
    else match s.restState p with
      | some w => s.modPort p (fun q => { q with st := w })
      | none => s.beginAttempt p
  else s

/-- A Port training set command reaches port `p` (R81). DESIGN CHOICE (assumption 217): a port that the watchdog's recovery time or a
full recalibration holds down waits between attempts as well, and starts its attempt at once. -/
def State.resetRetry (s : State) (p : Nat) : State :=
  let q := s.port p
  let s1 := s.setPort p { q with failures := 0 }
  if !q.attempt ∧ (q.st = .negotiating ∨ q.st = .training ∨ q.st = .suspended) ∧ !q.shed ∧ !q.sliceDown then
    s1.beginAttempt p
  else s1

/-! ### Recalibration (R90, R91) -/

/-- Lanes that a pass visits: the active ones, lowest first. -/
def State.activeLanes (s : State) : List Nat :=
  (List.range 192).filter (fun l => (s.lane l).power == 0)

/-- A pass over all lanes begins; one with no active lane is complete at once, and raises its event (R90). -/
def State.startPass (s : State) : State :=
  let r : Recal := { s.recal with left := s.activeLanes, changed := 0, lastPass := s.now, again := false }
  if s.activeLanes.isEmpty then ({ s with recal := { r with running := false } }).raise 0x0208 srcDevice (natLe 1 0)
  else { s with recal := { r with running := true } }

/-- A pass is asked for by a command or by a lane's temperature: at once, or once the running pass ends (R90, assumption 219). -/
def State.askPass (s : State) : State :=
  if s.recal.running then { s with recal := { s.recal with again := true } } else s.startPass

/-- A pass goes on with `left` after `n` changed lanes, or ends with its event, and the next one begins if one is asked for (R90). -/
def State.goPass (s : State) (left : List Nat) (n : Nat) : State :=
  let s1 := { s with recal := { s.recal with left := left, changed := n, running := !left.isEmpty } }
  if !left.isEmpty then s1
  else
    let s2 := s1.raise 0x0208 srcDevice (natLe 1 n)
    if s2.recal.again then s2.startPass else s2

/-- RECALIBRATION_PASS_START (R90): when the period has passed. -/
def execRecalibrationPassStart (s : State) : Res :=
  if !s.recal.running ∧ s.recal.lastPass + ns (s.sn 0x0312) ≤ s.now then done s.startPass else done s

/-- LANE_TEMPERATURE_STEP (R90). -/
def execLaneTemperatureStep (l : LaneId) (temp : Int) (s : State) : Res :=
  let y := s.lane l
  if (s.sn 0x0313 : Int) ≤ (temp - y.calTemp).natAbs then
    done (s.setLane l { y with calTemp := temp, calDue := true }).askPass
  else done s

/-- Lane `l` negotiates or trains, so recalibration waits (Table 3-9). -/
def State.calDeferred (s : State) (l : Nat) : Bool := (s.port (portOfLane l)).attempt

/-- LANE_RECALIBRATION_DONE (R90, Table 3-9): the pass moves to the next lane, leaving behind those that negotiate or train, which
stay due. -/
def execLaneRecalibrationDone (l : LaneId) (better : Bool) (s : State) : Res :=
  match s.recal.left with
  | [] => if (s.lane l).calDue ∧ !s.calDeferred l then done (s.modLane l (fun y => { y with calDue := false })) else done s
  | _ =>
    let skipped := s.recal.left.takeWhile (fun k => s.calDeferred k)
    let rest := s.recal.left.drop skipped.length
    let s1 := skipped.foldl (fun s k => s.modLane k (fun y => { y with calDue := true })) s
    match rest with
    | [] => done (s1.goPass [] s.recal.changed)
    | k :: ks =>
      if k = l.val then
        done ((s1.modLane k (fun y => { y with calDue := false })).goPass ks (s.recal.changed + b2n better))
      else done (s1.goPass rest s.recal.changed)

/-! ### Received pause (R83) -/

/-- Received pause of a port and class. -/
def State.pauseRx (s : State) (p c : Nat) : PauseRx := Tab.get {} s.core.paused (8 * p + c)
/-- Puts received pause. -/
def State.setPauseRx (s : State) (p c : Nat) (x : PauseRx) : State :=
  { s with core := { s.core with paused := Tab.put {} s.core.paused (8 * p + c) x } }

/-- The class is held by received pause: a pause stands, and no watchdog recovery ignores it (R83). -/
def State.heldByPause (s : State) (p c : Nat) : Bool :=
  let x := s.pauseRx p c
  x.until_.isSome && x.recovery.isNone

/-- Classes on which the port honours a received frame: 0 off, 1 pause, 2 PFC per class (Table 3-10). -/
def State.honours (s : State) (p c : Nat) (f : PauseFrame) : Bool :=
  let mode := s.sn 0x030B p 0
  if f.pfc then mode == 2 && (s.sn 0x030B p 1).testBit c && f.enable.testBit c else mode == 1

/-- A pause of `quanta` on a class begins, or ends with quanta 0 (R83). -/
def State.pauseClass (s : State) (p c quanta : Nat) : State :=
  let x := s.pauseRx p c
  if quanta = 0 then s.setPauseRx p c { x with until_ := none, held := 0 }
  else s.setPauseRx p c { x with until_ := some (s.now + s.wireTime p (quanta * 64)) }

/-- PAUSE_FRAME_RECEIVE (R83): consumed by the port, never policed. -/
def execPauseFrameReceive (p : PortId) (f : PauseFrame) (s : State) : Res :=
  if (s.port p).isUp then
    done ((List.range 8).foldl (fun s c =>
      if s.honours p c f then s.pauseClass p c (f.quanta.getD (if f.pfc then c else 0) 0) else s) s)
  else done s

/-- PAUSE_QUANTA_EXPIRY (R83). -/
def execPauseQuantaExpiry (p : PortId) (c : ClassId) (s : State) : Res :=
  match (s.pauseRx p c).until_ with
  | some t => if t ≤ s.now then done (s.setPauseRx p c { s.pauseRx p c with until_ := none, held := 0 }) else done s
  | none => done s

/-- The watchdog of a class trips, and its action starts (R83, Table 3-5). -/
def State.tripWatchdog (s : State) (p c : Nat) : State :=
  let act := s.sn 0x030E p
  let s1 := (s.setPauseRx p c { s.pauseRx p c with recovery := some (s.now + ns (s.sn 0x030D p)), held := 0, reachedAt := none }).countPort p 19
  let s2 := s1.raise 0x0207 (src 1 p) (natLe 1 c ++ natLe 1 act)
  if act = 1 then s2.flushQueue (8 * p + c) (fun s => s)
  else if act = 2 then
    let s3 := s2.portDown p causeCommanded true
    s3.modPort p (fun q => { q with waitUntil := s.now + ns (s.sn 0x030D p) })
  else s2

/-- PAUSE_WATCHDOG_TRIP (R83): once the clock on which the watchdog time was reached has passed, so that a loss of signal on that clock
comes first (Table 3-9); a release of the class on the next clock takes nothing back. -/
def execPauseWatchdogTrip (p : PortId) (c : ClassId) (s : State) : Res :=
  let x := s.pauseRx p c
  if x.recovery.isNone ∧ x.reachedAt.any (fun t => decide (t < s.now)) ∧ (s.port p).isUp then done (s.tripWatchdog p c) else done s

/-- PAUSE_WATCHDOG_RECOVERY_END (R83). -/
def execPauseWatchdogRecoveryEnd (p : PortId) (c : ClassId) (s : State) : Res :=
  match (s.pauseRx p c).recovery with
  | some t => if t ≤ s.now then done (s.setPauseRx p c { s.pauseRx p c with recovery := none, held := 0, reachedAt := none }) else done s
  | none => done s

/-! ### Policers (R84, R85) -/

/-- Parameters of a policer: enabled, in frames, committed and peak rate, committed and peak burst. -/
structure PolicerSet where
  enabled : Bool
  frames : Bool
  cr : Nat
  pr : Nat
  cb : Nat
  pb : Nat
deriving DecidableEq, Repr

/-- Parameters of policer `i` of port `p`. -/
def State.policerSet (s : State) (p i : Nat) : PolicerSet :=
  let f (k : Nat) := s.sn 0x030F p (6 * i + k)
  ⟨f 0 != 0, f 1 == 1, f 2, f 3, f 4, f 5⟩

/-- A unit, a byte or a frame, as tokens. -/
def tokenUnit : Nat := 72000000000

/-- The tokens of a port's shaper as they stand now (R307). -/
def State.portTokens (s : State) (p : Nat) : Int :=
  let q := s.port p
  min ((s.sn 0x0C0C p 1 * tokenUnit : Nat) : Int) (q.tokens + ((s.now - q.tokensAt) * s.sn 0x0C0C p 0 : Nat))

/-- A port shaper was set: what it held stands, within its new burst, and a shaper that was off begins full (R307). DESIGN CHOICE
(assumption 231). -/
def State.setShaper (s pre : State) (p : Nat) : State :=
  let held : Int := if pre.sn 0x0C0C p 0 = 0 then ((s.sn 0x0C0C p 1 * tokenUnit : Nat) : Int) else pre.portTokens p
  s.modPort p (fun q => { q with tokens := held, tokensAt := s.now })

/-- The buckets of a policer as they stand now (R84): full at first, then filled at their rates to their bursts. -/
def State.fillPolicer (s : State) (q : PolicerSet) (x : Policer) : Policer :=
  if !x.started then { tc := q.cb * tokenUnit, tp := q.pb * tokenUnit, at_ := s.now, started := true }
  else
    let d := s.now - x.at_
    let k := if q.frames then 8 else 1
    { tc := min (q.cb * tokenUnit) (x.tc + q.cr * d * k), tp := min (q.pb * tokenUnit) (x.tp + q.pr * d * k), at_ := s.now,
      started := true }

/-- The colour of RFC 2698, colour-blind: 0 green, 1 yellow, 2 red, and the buckets after it (R84, R85). -/
def colour (q : PolicerSet) (x : Policer) (n : Nat) : Nat × Policer :=
  let need := n * tokenUnit
  if (q.cr = 0 ∧ q.cb = 0) ∨ x.tp < need then (2, x)
  else if x.tc < need then (1, { x with tp := x.tp - need })
  else (0, { x with tc := x.tc - need, tp := x.tp - need })

/-- Policer `i` of port `p` judges a packet of `len` bytes (R84). -/
def State.judgePolicer (s : State) (p i len : Nat) : Nat × State :=
  let q := s.policerSet p i
  let x := Tab.get {} (s.port p).policers i
  let (c, x') := colour q (s.fillPolicer q x) (if q.frames then 1 else len)
  (c, s.modPort p (fun y => { y with policers := Tab.put {} y.policers i x' }))

/-- Policer `i` takes new parameters (R85): its buckets are filled under `old`, then clipped to the bursts of `q`. -/
def State.clipPolicer (s : State) (p i : Nat) (old q : PolicerSet) : State :=
  let x := Tab.get {} (s.port p).policers i
  if old = q then s
  else
    let y := s.fillPolicer old x
    let y' : Policer := { y with tc := min y.tc (q.cb * tokenUnit), tp := min y.tp (q.pb * tokenUnit) }
    s.modPort p (fun z => { z with policers := Tab.put {} z.policers i y' })

end Sys2Proof.Machine
end

