-- ==== Sys2Proof/Machine/FaultCore.lean ====
section
/-! DEFINITION. The fault controller: logs, the escalation ladder, the safe state, and slice drain and reset
(17_faults_and_ordered_recovery.md). -/

namespace Sys2Proof.Machine

/-! ### Units and logs (R394) -/

/-- Number of an escalation unit. -/
def unitNo : FaultUnit → Nat
  | .actionEngines k => k.val
  | .serviceEngines k => 8 + k.val
  | .sealPair p => 16 + p.val
  | .hash h => 48 + h.val
  | .awn a => 64 + a.val
  | .mcPair q => 96 + q.val

/-- Fault class of a unit (Table 17-1). -/
def unitClass (u : Nat) : Nat :=
  if u < 8 then 7 else if u < 16 then 8 else if u < 48 then 5 else if u < 64 then 6 else if u < 96 then 9 else 10

/-- Entries of a unit's log that are in handling or settling. -/
def State.logOf (s : State) (u : Nat) : List LogEntry := Tab.get [] s.fault.logs u
/-- Puts a unit's log. -/
def State.setLog (s : State) (u : Nat) (l : List LogEntry) : State := { s with fault := { s.fault with logs := Tab.put [] s.fault.logs u l } }

/-- The first other unit of the same class with an open entry (R395). -/
def State.otherUnit (s : State) (u : Nat) : Option (Nat × List LogEntry) :=
  List.find? (fun (x : Nat × List LogEntry) => x.1 != u && unitClass x.1 == unitClass u && !x.2.isEmpty) s.fault.logs
/-- The older entry of that unit. -/
def State.otherOpen (s : State) (u : Nat) : Option LogEntry := (s.otherUnit u).bind (fun x => x.2.head?)

/-- The slice of a unit of classes 7 and 8 drains or resets (R406). -/
def State.drainingUnit (s : State) (u : Nat) : Bool := decide (u < 16) && s.fault.drain.any (fun d => d.slice == u % 8)

/-- A unit of the same class and a higher number whose fault opened its log on this clock: of the two the lower is at rung 1 (R406). -/
def State.outranked (s : State) (u : Nat) : Option Nat :=
  match s.otherUnit u with
  | some x => if (s.logOf u).isEmpty ∧ u < x.1 ∧ x.2.all (fun e => e.at_ == s.now && e.rung == 1) then some x.1 else none
  | none => none

/-- The rung that a fault of a unit reaches, with the safe-state cause at rung 3 (R395, R401, R406). A second slice that would drain is cause
1 (assumption 182). -/
def State.rungOf (s : State) (u : Nat) : Nat × Nat :=
  if s.drainingUnit u ∨ (s.outranked u).isSome then (1, 0)
  else if (s.otherOpen u).isSome then (3, 1)
  else if 2 ≤ (s.logOf u).length then (3, 6)
  else if (s.logOf u).isEmpty then (1, 0)
  else if u < 16 ∧ s.fault.drain.isSome then (3, 1)
  else (2, 0)

/-- Faults of a class since reset. -/
def State.faultCount (s : State) (cls : Nat) : Nat := Tab.get 0 s.fault.counts cls

/-- The fault-report event (Table 17-8). -/
def State.faultReport (s : State) (cls action rung cause detail source related : Nat) : State :=
  s.raise 0x0107 source (natLe 1 cls ++ natLe 1 action ++ natLe 1 rung ++ natLe 1 cause ++ natLe 4 detail ++ natLe 8 related ++
    natLe 8 (s.faultCount cls))

/-! ### The safe state (R397) -/

/-- Classes that step 7 admits in the safe state. -/
def State.safeClass (s : State) (c : Nat) : Bool := (s.sn 0x1103).testBit c

/-- Entry to the safe state (Table 17-5). -/
def State.enterSafe (s : State) (cause : Nat) : State :=
  if s.fault.safe then s
  else
    let s1 := { s with fault := { s.fault with safe := true, safeCause := cause, safeStamp := s.stamp } }
    let s2 := s1.shutGate 13 0xFFFF 0xFFFF
    let s3 := s2.clearQueues s.safeClass 17
    (s3.raise 0x0108 srcDevice (natLe 1 cause)).noteStatus

/-- FAULT_N is asserted from a retirement when the setting says so (R400). -/
def State.noteRetire (s : State) : State :=
  if s.son 0x1104 then ({ s with fault := { s.fault with retireN := true } }).noteStatus else s

/-! ### Slice drain and reset (R401, R402) -/

/-- Ports of a slice. -/
def slicePorts (k : Nat) : List Nat := (List.range 12).map (fun i => 12 * k + i)

/-- Step 1 of Table 17-6, for a fault of class `cls`; one that a command orders is reported under class 7 (assumption 262). -/
def State.startDrain (s : State) (k cls : Nat) : State :=
  let up := (slicePorts k).filter (fun p => (s.port p).isUp)
  let s1 := (slicePorts k).foldl (fun s p => (s.linkDown p causeSliceReset true).modPort p (fun q => { q with sliceDown := true })) s
  ({ s1 with fault := { s1.fault with drain := some { slice := k, at_ := s.now, cls := cls, ports := up } } }).faultReport cls 7 2 0 k (src 5 k) 0

/-- A slice is ordered to drain and reset; it waits while another resets (R401). -/
def State.orderDrain (s : State) (k : Nat) (cls : Nat := 7) : State :=
  match s.fault.drain with
  | none => s.startDrain k cls
  | some d => if d.slice = k ∨ s.fault.ordered.contains k then s else { s with fault := { s.fault with ordered := s.fault.ordered ++ [k] } }

/-! ### Opening and closing of entries -/

/-- The fault of unit `v` on this clock is found to be at rung 3, a lower unit having met one too (R406): it is reported so, and the safe
state is entered. -/
def State.outrank (s : State) (v : Nat) : State :=
  match s.logOf v with
  | [] => s
  | e :: rest =>
    let s1 := s.setLog v ({ e with rung := 3 } :: rest)
    (s1.faultReport e.cls (if s.fault.safe then 0 else 9) 3 e.cause e.detail srcDevice e.event).enterSafe 1

/-- A fault of a unit is logged, counted and reported, at the rung that it reaches (R394, R395, R404): `action` is what rungs 1 and 2
do. -/
def State.openFault (s : State) (u cause detail source : Nat) (action : Nat → Nat) : Nat × State :=
  let cls := unitClass u
  let (rung, sc) := s.rungOf u
  let related := match s.otherOpen u, (s.logOf u).head? with
    | some e, _ => if rung = 3 then e.event else 0
    | none, some e => e.event
    | none, none => 0
  let s1 := { s with fault := { s.fault with counts := Tab.modify 0 s.fault.counts cls (· + 1) } }
  let e : LogEntry := {
    cls := cls, cause := cause, rung := rung, detail := detail, stamp := s.angle, event := s.host.eventIndex, at_ := s.now }
  let s2 := if (s1.logOf u).length < 2 then s1.setLog u (s1.logOf u ++ [e]) else s1
  let s3 := s2.faultReport cls (if rung ≠ 3 then action rung else if s.fault.safe then action 1 else 9) rung cause detail source related
  match s.outranked u with
  | some v => (rung, if s.drainingUnit u then s3 else s3.outrank v)
  | none => (rung, if rung = 3 then s3.enterSafe sc else s3)

/-- The unit has returned or is retired: its entries settle (R393). Those of a slice that drains and resets settle once it returns. -/
def State.settle (s : State) (u : Nat) : State :=
  if s.drainingUnit u then s else s.setLog u ((s.logOf u).map (fun e => if e.st = 0 then { e with st := 1, settleAt := s.now + ns (s.sn 0x1101) } else e))

/-- SETTLE_TIME_EXPIRY (R393): entries whose settle time has passed close. -/
def execSettleTimeExpiry (u : FaultUnit) (s : State) : Res :=
  done (s.setLog (unitNo u) ((s.logOf (unitNo u)).filter (fun e => !(e.st == 1 && decide (e.settleAt ≤ s.now)))))

/-! ### Rows of the slice reset -/

/-- Packets of a slice still on their way to step 7. -/
def State.slicePackets (s : State) (k : Nat) : List Nat :=
  (s.packets.filter (fun (x : Nat × Packet) => sliceOf x.2.port == k && x.2.stage != .inQueues)).map (·.1)

/-- Steps 3 and 4 of Table 17-6: tables are rewritten from their master copies, and learned addresses are gone. -/
def State.resetSlice (s : State) (k : Nat) : State :=
  let t := s.mac k
  let t1 := t.lost.foldl (fun (t : MacTable) (x : Nat × MacEntry) => t.restore x.1 x.2)
    { t with entries := t.entries.filter (fun x => x.2.static), queue := [] }
  let s1 := s.setMac k t1
  { s1 with
    matcher := { s1.matcher with bad := s1.matcher.bad.filter (fun b => b / 65536 != k) }
    bridge := { s1.bridge with badRoutes := s1.bridge.badRoutes.filter (fun b => b % 8 != k) }
    eng := { s1.eng with
      badWords := s1.eng.badWords.filter (fun w => w / 32768 != k)
      stopped := s1.eng.stopped.filter (fun x => x.1 / 128 != k) }
    sched := { s1.sched with windowUse := s1.sched.windowUse.filter (fun x => x.1 / 4096 != k) } }

/-- A packet left in a slice at the end of its drain is discarded (R401). -/
def State.dropDrained (s : State) (n : Nat) : State :=
  match s.pkt? n with
  | some p => s.drop n (fun s => s.countPort p.port 16)
  | none => s

/-- SLICE_DRAIN_COMPLETE (R401): at the bound, or when nothing is left, what remains is dropped and the slice is reset. -/
def execSliceDrainComplete (k : SliceId) (s : State) : Res :=
  match s.fault.drain with
  | none => done s
  | some d =>
    if d.slice = k.val ∧ !d.drained ∧ (d.at_ + ms 1 ≤ s.now ∨ (s.slicePackets k).isEmpty) then
      let s1 := (s.slicePackets k).foldl (fun s n => s.dropDrained n) s
      let s2 := s1.resetSlice k
      done { s2 with fault := { s2.fault with drain := some { d with drained := true } } }
    else done s

/-- A port of a slice that has returned: if its link is up, it is raised, and joins its aggregation group (R401). -/
def State.returnPort (s : State) (p : Nat) : State :=
  let s1 := s.modPort p (fun q => { q with sliceDown := false })
  if (s1.port p).isUp then
    let s2 := s1.raise 0x0201 (src 1 p) (natLe 1 (s1.port p).runMode)
    match s2.lagOfPort p with
    | some g => s2.memberStarts g p
    | none => s2
  else s1

/-- The next slice whose drain was ordered begins it (R401). -/
def State.nextDrain (s : State) : State :=
  match s.fault.ordered with
  | [] => s
  | n :: rest => ({ s with fault := { s.fault with ordered := rest } }).startDrain n 7

/-- A slice is in service again: its settling begins, and the drain ordered next may start (R393, R401). -/
def State.sliceBack (s : State) (k cls : Nat) : State :=
  let s1 := { s with fault := { s.fault with drain := none } }
  (((s1.settle k).settle (8 + k)).faultReport cls 8 2 0 k (src 5 k) 0).nextDrain

/-- SLICE_RETURN (R401): the ports whose links are up return to the up state; the next slice ordered begins. -/
def execSliceReturn (k : SliceId) (s : State) : Res :=
  match s.fault.drain with
  | none => done s
  | some d =>
    if d.slice = k.val ∧ d.drained then
      done (((slicePorts k).foldl (fun s p => s.returnPort p) s).sliceBack k d.cls)
    else done s

/-- SLICE_RETURN_TIMEOUT (R397, R401). -/
def execSliceReturnTimeout (k : SliceId) (s : State) : Res :=
  if s.fault.drain.any (fun d => d.slice == k.val && decide (d.at_ + ms 150 ≤ s.now)) then done (s.enterSafe 5) else done s

/-! ### Packets run again (R180, R198) -/

/-- A packet is run again from the start of its routine, on another engine: its bale is discarded, its locks and its stamps are kept. -/
def State.rerun (s : State) (n : Nat) : State :=
  match s.pkt? n with
  | none => s
  | some p =>
    let s1 := { s with mem := { s.mem with reads := s.mem.reads.filter (fun r => ownerPkt r.owner != some n) } }
    let q := { p with ctx := none, stage := .ready, avoid := p.ctx.map (·.engine) }
    ((s1.setPkt n q).pmuPkt n 10).countSlice (sliceOf p.port) 11

/-- Packets whose routines run on engine `e` of slice `k`, those among them whose contexts wait for HBM (R180, assumption 228). -/
def State.residents (s : State) (k e : Nat) : List Nat :=
  (s.packets.filter (fun (x : Nat × Packet) => sliceOf x.2.port == k && x.2.ctx.any (fun c => c.engine == e && !c.ended))).map (·.1)

/-- Service state of an engine: 0 in service, 1 fenced, 2 retired. -/
def State.engineState (s : State) (i : Nat) : Nat := Tab.get 0 s.eng.state i
/-- Puts the service state of an engine. -/
def State.setEngine (s : State) (i v : Nat) : State := { s with eng := { s.eng with state := Tab.put 0 s.eng.state i v } }
/-- Source field of an engine (Table 16-1, kind 13). -/
def srcEngine (i : Nat) : Nat := src 13 i

/-! ### Management cores (R395, R396) -/

/-- Service state of management-core pair `q`. -/
def State.mcState (s : State) (q : Nat) : Nat := Tab.get 0 s.fault.mc q
/-- Puts the service state of a management-core pair; with both out of service, the safe state is entered (Table 17-4). -/
def State.setMc (s : State) (q v : Nat) : State :=
  let s1 := { s with fault := { s.fault with mc := Tab.put 0 s.fault.mc q v } }
  if s1.mcState 0 ≠ 0 ∧ s1.mcState 1 ≠ 0 then s1.enterSafe 2 else s1

/-- Requests that were executing on the pair that resets return "retry": which of those that wait ran on it is a free value
(assumption 64). An armed commit stays with its tick, and a clear of the safe state with its clock (R380, R406). -/
def State.returnRetry (s : State) : State :=
  (s.host.longs.filter (fun x => x.kind != 0 && x.kind != 3 && x.kind != 5)).foldl (fun (s : State) (x : LongReq) =>
    let (w, s1) := s.draw
    if w.getLsbD 0 ∧ s1.host.longs.contains x then
      let rest := s1.host.longs.filter (fun y => !(y.mb == x.mb && y.seq == x.seq))
      ({ s1 with host := { s1.host with longs := rest } }).answer x.mb x.seq 0x0001 0 [] 0
    else s1) s

/-- MC_LOCKSTEP_MISMATCH (R380, R395): rung 1 resets the pair, rung 2 retires it. -/
def execMcLockstepMismatch (q : Fin 2) (s : State) : Res :=
  if s.mcState q = 2 then done s
  else
    let (rung, s1) := s.openFault (96 + q.val) 1 q.val srcDevice (fun r => if r = 2 then 4 else 6)
    let s2 := s1.returnRetry
    if rung = 2 then done (((s2.setMc q 2).settle (96 + q.val)).noteRetire) else done (s2.setMc q 1)

/-- MC_PAIR_SELF_TEST_DONE (R396): the pair takes threads back, or is retired. -/
def execMcPairSelfTestDone (q : Fin 2) (pass : Bool) (s : State) : Res :=
  if s.mcState q ≠ 1 then done s
  else if pass then done (((s.setMc q 0).settle (96 + q.val)).faultReport 10 3 1 1 q.val srcDevice 0)
  else done ((((s.setMc q 2).settle (96 + q.val)).faultReport 10 4 1 2 q.val srcDevice 0).noteRetire)

/-! ### SYSCLK (R398, R399) -/

/-- SYSCLK_LOSS (R398): class 15 is reported, the TAI clock enters holdover, and the safe state is entered with cause 4. -/
def execSysclkLoss (s : State) : Res :=
  if !s.fault.sysclk then done s
  else
    let s1 := { s with
      fault := { s.fault with sysclk := false, counts := Tab.modify 0 s.fault.counts 15 (· + 1) }
      tiller := { s.tiller with taiState := 4 } }
    done ((s1.faultReport 15 (if s.fault.safe then 0 else 9) 3 0 0 srcDevice 0).enterSafe 4)

/-- SYSCLK_RETURN (R399). -/
def execSysclkReturn (s : State) : Res := done { s with fault := { s.fault with sysclk := true } }

/-- The clear of the safe state is refused: a log entry is in handling, no pair is in service, or SYSCLK is absent (R399). -/
def State.clearBlocked (s : State) : Bool :=
  s.fault.logs.any (fun (x : Nat × List LogEntry) => !x.2.isEmpty) || (s.mcState 0 != 0 && s.mcState 1 != 0) || !s.fault.sysclk

/-- The safe state ends; the gate stays shut (R399). -/
def State.clearSafe (s : State) : State :=
  ({ s with fault := { s.fault with safe := false, safeCause := 0, safeStamp := {} } }).noteStatus.faultReport 0 10 3 0 0 srcDevice 0

/-- A clear that a tick of this clock has taken: a fault of the clock has been taken first, and blocks it (R399, Table 17-10). -/
def State.endClear (s : State) : State :=
  if !s.fault.clearing then s
  else
    let s1 := { s with fault := { s.fault with clearing := false } }
    if s1.clearBlocked then s1.endLong 5 0 0x0304 0 [] 0 else s1.clearSafe.endLong 5 0 0 0 [] s.bales.lastTick

end Sys2Proof.Machine
end

