-- ==== Sys2Proof/Machine/Flags.lean ====
section
/-! DEFINITION. The flags Z, C, N and V of an ALU result (R193). -/

namespace Sys2Proof.Machine

/-- Z and N of a result. -/
def flagZ (r : W64) : Bool := r == 0
def flagN (r : W64) : Bool := r.msb

/-- Carry of a + b, and borrow of a − b. -/
def carryAdd (a b : W64) : Bool := decide (2 ^ 64 ≤ a.toNat + b.toNat)
def borrowSub (a b : W64) : Bool := decide (a.toNat < b.toNat)

/-- Signed overflow of a + b, and of a − b. -/
def overflowAdd (a b : W64) : Bool := a.msb == b.msb && (a + b).msb != a.msb
def overflowSub (a b : W64) : Bool := a.msb != b.msb && (a - b).msb != a.msb

/-- Flags of an addition. -/
def flagsAdd (a b : W64) : Flags := { z := flagZ (a + b), c := carryAdd a b, n := flagN (a + b), v := overflowAdd a b }
/-- Flags of a subtraction. -/
def flagsSub (a b : W64) : Flags := { z := flagZ (a - b), c := borrowSub a b, n := flagN (a - b), v := overflowSub a b }
/-- Flags of any other result: R193 gives C and V for add and sub alone, so here they are free values (assumption 30). -/
def State.flagsOther (s : State) (r : W64) : Flags × State :=
  let (w, s1) := s.draw
  ({ z := flagZ r, c := w.getLsbD 0, n := flagN r, v := w.getLsbD 1 }, s1)

end Sys2Proof.Machine
end

