-- ==== Sys2Proof/Machine/Forward.lean ====
section
/-! DEFINITION. From a destination to egress ports: dest fields, aggregation slots, next hops and multipath (R113, R124, R126, R131). -/

namespace Sys2Proof.Machine

/-- Egress port of a dest field in epoch `e`, and the aggregation slot of the choice (R30, R113, R131). -/
def State.resolveDest (s : State) (d : Nat) (h : Parsed) (vid e : Nat) : List Nat × Option Nat :=
  match destOf d with
  | .port q => (if q < 96 then [q] else [], none)
  | .group g =>
    let slot := h.slot vid (s.sn 0x050C g 0)
    match s.memberOf g slot e with
    | some q => ([q], some (256 * g + slot))
    | none => ([], none)

/-- A packet takes the ports and the aggregation slot that a dest field gave it (R27, R131). A slot of an older epoch than the group's last
build is none of the present ones: the packet keeps the port of its choice (R30). -/
def State.chosen (s : State) (p : Packet) (r : List Nat × Option Nat) : Packet :=
  { p with
    dests := r.1
    lagSlot := r.2.filter (fun v => !(s.lag (v / 256)).before p.epoch)
    flood := false
    lagGen := match r.2 with | some v => (s.lag (v / 256)).gen | none => 0 }

/-- A packet takes a next hop: its egress port, and the rewrite of MACs and VLAN (R126). -/
def State.takeHop (s : State) (p : Packet) (i : Nat) : Packet :=
  match s.nextHop i p.epoch with
  | none => s.carryVlan { s.chosen p ([], none) with route := none }
  | some nh =>
    s.carryVlan { s.chosen p (s.resolveDest nh.dest (parse p.bytes) nh.vid p.epoch) with
      route := some (nh.mac, (s.routerMac nh.router p.epoch).getD 0, nh.vid) }

end Sys2Proof.Machine
end

