-- ==== Sys2Proof/Machine/Operands.lean ====
section
/-! DEFINITION. Operand forms of the three slots of a word: registers, the ALU's second operand, effective addresses and conditions
(R192, R193, Table 8-4, Table 8-6). -/

namespace Sys2Proof.Machine

/-- Register `i` as it stood at the start of the word; g00 reads 0 (R192, R193). -/
def Context.reg (c : Context) (i : Fin 32) : W64 := if i = 0 then 0 else Tab.get 0 c.start.g i

/-- Writes register `i`; a write to g00 is ignored (R193). -/
def Context.setReg (c : Context) (i : Fin 32) (v : W64) : Context :=
  if i = 0 then c else { c with regs := { c.regs with g := Tab.put 0 c.regs.g i v } }

/-- Operand a of the ALU slot. -/
def aluA (c : Context) (x : AluSlot) : W64 := c.reg x.a
/-- Operand b of the ALU slot: a register, or the immediate, zero-extended (Table 8-3). -/
def aluB (c : Context) (x : AluSlot) : W64 := if x.bsel then x.imm.zeroExtend 64 else c.reg x.b

/-- Bit position imm[5:0] and width imm[13:8] of ext and ins (Table 8-5). -/
def fieldPos (x : AluSlot) : Nat := bits x.imm.toNat 5 0
def fieldWidth (x : AluSlot) : Nat := bits x.imm.toNat 13 8

/-- The data register of the memory slot. -/
def memData (c : Context) (x : MemSlot) : W64 := c.reg x.mreg
/-- Effective address: mbase + moff (Table 8-3). -/
def memAddr (c : Context) (x : MemSlot) : Nat := (c.reg x.mbase + x.moff.zeroExtend 64).toNat
/-- Bytes of the access: msize + 1, of 1 to 8 (Table 8-3). -/
def memLen (x : MemSlot) : Nat := x.msize.val % 8 + 1
/-- Field selected by moff[7:0]. -/
def memField (x : MemSlot) : Nat := bits x.moff.toNat 7 0
/-- Handle moff[1:0] of a rec.lock, and its creation bit moff[8]. -/
def lockHandle (x : MemSlot) : Nat := bits x.moff.toNat 1 0
def lockCreates (x : MemSlot) : Bool := x.moff.toNat.testBit 8
/-- Handle moff[9:8] and offset moff[6:0] of a record access. -/
def recHandle (x : MemSlot) : Nat := bits x.moff.toNat 9 8
def recOffset (x : MemSlot) : Nat := bits x.moff.toNat 6 0

/-- The three slots of a word as Table 8-3 lays them out: the ALU slot in its bits 191 to 128, the memory slot in bits 127 to 64, and
the branch slot in bits 63 to 0, with the reserved fields and the safe bit 0. -/
def aluSpelling (op : Nat) (x : AluSlot) : Nat :=
  op * 2 ^ 56 + x.dst.val * 2 ^ 51 + x.a.val * 2 ^ 46 + x.b.val * 2 ^ 41 + x.bsel.toNat * 2 ^ 40 + x.cond.val * 2 ^ 36 +
    x.setf.toNat * 2 ^ 35 + x.imm.toNat
def memSpelling (op : Nat) (x : MemSlot) : Nat :=
  op * 2 ^ 56 + x.mreg.val * 2 ^ 51 + x.mbase.val * 2 ^ 46 + x.msize.val * 2 ^ 40 + x.cond.val * 2 ^ 36 + x.moff.toNat
def brSpelling (op : Nat) (x : BrSlot) : Nat := op * 2 ^ 60 + x.cond.val * 2 ^ 56 + x.target.val * 2 ^ 42
/-- The slots of a word (Table 8-3). -/
def wordAlu (w : Nat) : Nat := w / 2 ^ 128 % 2 ^ 64
def wordMem (w : Nat) : Nat := w / 2 ^ 64 % 2 ^ 64
def wordBr (w : Nat) : Nat := w % 2 ^ 64
/-- The word that a context is at, from the bank of its epoch (R190, R204). -/
def State.wordOf (s : State) (c : Context) : Nat := Tab.get 0 s.eng.store (16384 * c.bank + c.pc)

/-- A condition of Table 8-4, on the flags at the start of the word. -/
def Context.holds (c : Context) (cond : Fin 16) : Bool :=
  let f := c.start.f
  match cond.val with
  | 0 => true
  | 1 => f.z
  | 2 => !f.z
  | 3 => f.c
  | 4 => !f.c
  | 5 => f.n != f.v
  | 6 => f.n == f.v
  | 7 => !f.c && !f.z
  | 8 => f.c || f.z
  | 9 => c.conds.found
  | 10 => c.conds.absent
  | 11 => c.conds.refused
  | 12 => c.conds.created
  | 13 => c.conds.editsFull
  | 14 => c.conds.objError
  | _ => false

end Sys2Proof.Machine
end

