-- ==== Sys2Proof/Machine/Engines.lean ====
section
/-! DEFINITION. Action engines: contexts, dispatch, the slots of a word, packet bales and machine checks (08_action_engines.md,
R178 to R180). -/

namespace Sys2Proof.Machine

/-! ### Contexts (R183, R184) -/

/-- Index of action engine `n` and of service engine `n` of slice `k` (Table 16-1, kind 13). -/
def aeIndex (k n : Nat) : Nat := 128 * k + n
def svIndex (k n : Nat) : Nat := 128 * k + 64 + n

/-- An action engine may be chosen: in service, not stopped at a bad word, and not parked by sag level 3 (R184, R186, Table 8-7). -/
def State.engineOk (s : State) (k n : Nat) : Bool :=
  s.engineState (aeIndex k n) == 0 && !(decide (3 ≤ s.power.level ∧ 32 ≤ n)) && !s.eng.stopped.any (fun x => x.1 == aeIndex k n)

/-- Packet contexts in use in slice `k`: a routine that has ended has given its own back (R183). -/
def State.contexts (s : State) (k : Nat) : Nat :=
  s.packets.foldl (fun n (x : Nat × Packet) => if sliceOf x.2.port = k ∧ x.2.ctx.any (fun c => !c.ended) then n + 1 else n) 0

/-- Free hardware contexts of an engine: those whose context waits for HBM do not hold one (R183). -/
def State.freeContexts (s : State) (k n : Nat) : Nat :=
  8 - s.packets.foldl (fun m (x : Nat × Packet) =>
    if sliceOf x.2.port = k ∧ x.2.ctx.any (fun c => c.engine == n && c.hw.isSome) then m + 1 else m) 0

/-- The engine with the most free hardware contexts, the lower number on a tie; not the one that failed under the packet (R184, R198). -/
def State.pickEngine (s : State) (k : Nat) (avoid : Option Nat) : Option Nat :=
  (List.range 64).foldl (fun (b : Option Nat) n =>
    if avoid = some n ∨ !s.engineOk k n ∨ s.freeContexts k n = 0 then b
    else match b with
      | none => some n
      | some m => if s.freeContexts k m < s.freeContexts k n then some n else some m) none

/-- An earlier packet of slice `k` than `n` waits for a context and could have one: packets that wait are dispatched in arrival order
(R184). -/
def State.dispatchAhead (s : State) (k n : Nat) : Bool :=
  s.packets.any (fun (x : Nat × Packet) => decide (x.1 < n) && sliceOf x.2.port == k && x.2.stage == .ready && (s.pickEngine k x.2.avoid).isSome)

/-- Control-store bank of an epoch (R190). -/
def State.bankAt (s : State) (e : Nat) : Nat := (verAt s.eng.bankSel e).getD 0
/-- Index of a control-store word in the list of bad ones. -/
def wordIndex (k bank word : Nat) : Nat := 32768 * k + 16384 * bank + word

/-- Puts the context of packet `n`. -/
def State.setCtx (s : State) (n : Nat) (c : Context) : State :=
  match s.pkt? n with
  | some p => s.setPkt n { p with ctx := some c }
  | none => s

/-- No slot of the context's present word has executed. -/
def Context.atStart (c : Context) : Bool := !c.aluDone && !c.memDone
/-- A context holds a hardware context, and its word can be fetched (R183, R191). -/
def State.fetches (s : State) (k : Nat) (c : Context) : Bool :=
  c.hw.isSome && !c.ended && !s.eng.badWords.contains (wordIndex k c.bank c.pc) && !s.eng.stopped.any (fun x => x.1 == aeIndex k c.engine)
/-- A ready hardware context: it can issue its next word (R185). -/
def State.readyCtx (s : State) (k : Nat) (c : Context) : Bool := c.atStart && c.waiting.isNone && s.fetches k c
/-- Context `d` issued less recently than `c`. DESIGN CHOICE (assumption 228): of two that never issued, the lower hardware context comes
first. -/
def issuedBefore (d c : Context) : Bool := decide (d.issuedAt < c.issuedAt ∨ (d.issuedAt = c.issuedAt ∧ d.hw.getD 8 < c.hw.getD 8))
/-- The engine of a context issues a word of it now: one word per core clock, from the ready hardware context that issued least recently. A
word whose first slot has executed has been issued (R185). -/
def State.issues (s : State) (k : Nat) (c : Context) : Bool :=
  !c.atStart ||
    (let last := Tab.get 0 s.eng.wordAt (aeIndex k c.engine)
     (last == 0 || decide (last + clk ≤ s.now + 1)) &&
     s.packets.all (fun (x : Nat × Packet) => sliceOf x.2.port != k ||
       x.2.ctx.all (fun d => d.engine != c.engine || !(s.readyCtx k d && issuedBefore d c))))
/-- A running context that issues its present word (R185, R191). -/
def State.runningCtx (s : State) (n : Nat) : Option (Packet × Context) :=
  match s.pkt? n with
  | none => none
  | some p =>
    if p.stage ≠ .running then none
    else match p.ctx with
      | none => none
      | some c => if s.fetches (sliceOf p.port) c ∧ s.issues (sliceOf p.port) c then some (p, c) else none
/-- The engine has issued a word of a context, which is counted (R185, Table 20-3). -/
def State.noteWord (s : State) (k : Nat) (c : Context) : State :=
  if c.atStart then
    { s with eng := { s.eng with wordAt := Tab.put 0 s.eng.wordAt (aeIndex k c.engine) (s.now + 1) } }.pmu k 8
  else s
/-- The context that has issued the word now. -/
def State.issued (s : State) (c : Context) : Context := if c.atStart then { c with issuedAt := s.now + 1 } else c

/-! ### Machine checks (R197 to R199) -/

/-- Code of a hardware cause (Table 8-7). -/
def hwCode : HwCause → Nat
  | .fetchParity => 1
  | .regParity => 2
  | .residue => 3
  | .contextStore => 4

/-- The cause that a machine check in the Larzenu region is taken for: a program cause is treated as code 3 (R198). -/
def larzenuCause : LarzenuFault → HwCause
  | .hw c => c
  | .program _ => .residue

/-- An engine `i`, number `e` of unit `u` in slice `k`, has taken a machine check of code `code` at word `pc`, and `again` packets run again:
codes 2 and 3 are faults of classes 7 and 8, which fence it, unless it is out of service already, and climb the ladder (R198, R395); a bad
word is of class 2 and a lost context of class 1, which move no ladder (R393, Table 17-1, assumption 235). -/
def State.engineFault (s : State) (u k i e code pc again : Nat) : State :=
  let fenced := decide (code = 2 ∨ code = 3)
  let s1 := if fenced ∧ s.engineState i = 0 then s.setEngine i 1 else s
  let s2 := s1.raise 0x0102 (srcEngine i) (natLe 1 code ++ [0] ++ natLe 2 pc ++ natLe 2 again)
  if !fenced then s2.noteFault (if code = 1 then 2 else 1)
  else
    let (rung, s3) := s2.openFault u code e (srcEngine i) (fun r => if r = 2 then 7 else 2)
    if rung = 2 then s3.orderDrain k (unitClass u) else s3

/-- A word is to be rewritten, and engine `i` has stopped at it (R191, Table 8-7, code 1). -/
def State.stopAt (s : State) (i w : Nat) : State :=
  { s with eng := { s.eng with
      badWords := if s.eng.badWords.contains w then s.eng.badWords else s.eng.badWords ++ [w]
      stopped := s.eng.stopped ++ [(i, w)] } }

/-- A hardware machine check of engine `e` of slice `k` at word `pc`, met by packet `n` (R197, R198): its packets run again on other
engines, the engine stops under cause 1 and is fenced under causes 2 and 3, and the fault is reported. -/
def State.hwCheck (s : State) (n k e bank pc : Nat) (cause : HwCause) : State :=
  let code := hwCode cause
  let again := if code = 4 then [n] else s.residents k e
  let s1 := again.foldl (fun s m => s.rerun m) s
  let s2 := if code = 1 then s1.stopAt (aeIndex k e) (wordIndex k bank pc) else s1
  s2.engineFault k k (aeIndex k e) e code pc again.length

/-- The locks and reservations that a routine has taken by rec.lock are released; those of the Larzenu services stay with their part of the
bale (R199). -/
def State.releaseCustom (s : State) (n : Nat) (p : Packet) (c : Context) : State :=
  let s1 := s.dropReserved n
  let kept (o : SeqOp) : Bool := o.pkt != n || o.key == p.key || Tab.find? c.handles 1 == some o.key
  { s1 with flow := { s1.flow with ops := s1.flow.ops.filter kept } }

/-- A program machine check in a customer routine (R199): the bale is discarded, the locks released, and the profile's fault action
taken. -/
def State.programCheck (s : State) (n : Nat) (p : Packet) (c : Context) (cause : Nat) : State :=
  let k := sliceOf p.port
  let s1 := { s with eng := { s.eng with entryFaults := Tab.modify 0 s.eng.entryFaults c.entry (· + 1) } }
  let s2 := s1.raiseLimited 0x0104 (src 5 k) (sec 1) (natLe 2 c.entry ++ natLe 1 cause ++ [0] ++ natLe 2 c.pc) 4 [] (c.entry + 1)
  let s3 := { s2 with mem := { s2.mem with reads := s2.mem.reads.filter (fun r => ownerPkt r.owner != some n) } }
  if c.faultForward then
    let c1 := { c with
      staged := c.staged.take c.larzenu, edits := c.edits.take c.larzenuEdits, desc := [], ended := true, waiting := none, hw := none }
    (s3.releaseCustom n p c).setPkt n { p with ctx := some c1, stage := .ended }
  else s3.discard n

/-! ### Dispatch (R184, R185, R195) -/

/-- What the Larzenu services decide for a packet at its dispatch. -/
def State.dispatched (s : State) (p : Packet) (plan : Plan) : Packet :=
  let p1 := match plan.hop with | some h => s.takeHop p h | none => p
  { p1 with discard := plan.discard || (p.scan.scanned && p.scan.action == 2), cutPrp := plan.cutPrp, avoid := none }

/-- The record in handle 1 of packet `n`: the paired one, if its services have locked it (R188). -/
def State.lockedPair (s : State) (n : Nat) (p : Packet) : Option (Bytes × Bytes) :=
  match s.pairKey p, ((s.recOf p).bind (fun b => pairLoc (recPair b))).bind s.recAt with
  | some key, some r => if s.holdsLock n key then some (key, r.at p.epoch) else none
  | _, _ => none

/-- A new context for packet `n` on engine `e` (R183, R188, R193, R195). -/
def State.newContext (s : State) (n : Nat) (p : Packet) (e : Nat) (plan : Plan) : Context :=
  let pr := s.profile p.profile p.epoch
  let regs : Regs := { g := Tab.put 0 (Tab.put 0 [] 1 (BitVec.ofNat 64 p.len)) 2 (BitVec.ofNat 64 p.port) }
  let runs := pr.entry != 0 && !plan.discard
  let made : Bool := match p.record with | .created _ => true | _ => false
  let rec_ := s.recOf p
  let pair := s.lockedPair n p
  { engine := e, hw := if runs then s.freeHw (sliceOf p.port) e else none, bank := s.bankAt p.epoch, start := regs, regs := regs, pc := pr.entry, hold := pr.custMode == 1,
    faultForward := pr.custFault == 1, entry := pr.entry, conds := { created := made },
    handles := (match rec_ with | some _ => [(0, p.key)] | none => []) ++ (match pair with | some x => [(1, x.1)] | none => []),
    snaps := (match rec_ with | some b => [(0, b)] | none => []) ++ (match pair with | some x => [(1, x.2)] | none => []),
    staged := plan.staged, larzenu := plan.staged.length, edits := plan.edits, larzenuEdits := plan.edits.length, ended := !runs }

/-- ROUTINE_DISPATCH (R184): the packet takes a context on an engine; Larzenu's services run, and a customer routine begins. With no
context to be had, or with an earlier packet that waits for one, the packet waits. A packet whose services have come to need its record's lock since
step 5 takes it first (R187). -/
def execRoutineDispatch (n : Nat) (fault : Option LarzenuFault) (s : State) : Res :=
  match s.pkt? n with
  | none => done s
  | some p =>
    let k := sliceOf p.port
    if p.stage ≠ .ready ∨ 4096 ≤ s.contexts k ∨ s.dispatchAhead k n then done s
    else match s.pickEngine k p.avoid with
      | none => done s
      | some e =>
        let plan := s.plan p (s.recOf p)
        if plan.hold ∧ (s.recOf p).isSome ∧ !s.holdsLock n p.key then done (s.settleRecord n)
        else
        let c := s.newContext n p e plan
        let s1 := s.setPkt n { s.dispatched p plan with ctx := some c, stage := if c.ended then .ended else .running }
        match fault with
        | none => done s1
        | some h =>
          let (w, s2) := (s1.setPkt n { p with ctx := some { c with ended := false }, stage := .running }).draw
          done (s2.hwCheck n k e c.bank (w.toNat % 12288) (larzenuCause h))

/-! ### The ALU slot (R192, R193, Table 8-5) -/

/-- The ALU slot of a context's present word: it executes once, where the word in the control store spells it (R190, R192); a fault is
taken instead. -/
def State.aluStart (s : State) (op : Nat) (x : AluSlot) (f : Context → State → State) : Res :=
  match s.runningCtx x.ctx with
  | none => done s
  | some (p, c) => match x.fault with
    | some h => done (s.hwCheck x.ctx (sliceOf p.port) c.engine c.bank c.pc h)
    | none =>
      if c.aluDone ∨ wordAlu (s.wordOf c) ≠ aluSpelling op x then done s
      else done (f { s.issued c with aluDone := true } (s.noteWord (sliceOf p.port) c))

/-- One ALU slot: it acts if its condition holds, writes its destination, and with setf the flags. -/
def State.aluSlot (s : State) (op : Nat) (x : AluSlot) (f : W64 → W64 → State → W64 × State) (fl : Option (W64 → W64 → Flags)) : Res :=
  s.aluStart op x (fun c s =>
    if !c.holds x.cond then s.setCtx x.ctx c
    else
      let a := aluA c x
      let b := aluB c x
      let (r, s1) := f a b s
      let c1 := c.setReg x.dst r
      if !x.setf then s1.setCtx x.ctx c1
      else
        let (g, s2) := match fl with
          | some q => (q a b, s1)
          | none => s1.flagsOther r
        s2.setCtx x.ctx { c1 with regs := { c1.regs with f := g } })

/-- An operation with no open value. -/
def pure2 (f : W64 → W64 → W64) : W64 → W64 → State → W64 × State := fun a b s => (f a b, s)

/-- Ones'-complement sum of the four 16-bit halves of a and of b, folded to 16 bits. -/
def csum64 (a b : W64) : W64 := BitVec.ofNat 64 (fold16 8 (sum16 (natBe 8 a.toNat) + sum16 (natBe 8 b.toNat)))
/-- The low `k` bytes of a, reversed; the others as they are. -/
def bswapLow (k : Nat) (a : W64) : W64 :=
  let bs := natLe 8 a.toNat
  BitVec.ofNat 64 (leNat ((bs.take k).reverse ++ bs.drop k))
/-- bswap: over 2, 4 or 8 bytes as b[1:0] is 1, 2 or 3; for 0 the table gives no result, and it is a free value (assumption 31). -/
def aluBswapOp (a b : W64) (s : State) : W64 × State :=
  match b.toNat % 4 with
  | 1 => (bswapLow 2 a, s)
  | 2 => (bswapLow 4 a, s)
  | 3 => (bswapLow 8 a, s)
  | _ => s.draw
/-- Bits of a field, in place. -/
def fieldMask (pos w : Nat) : W64 := BitVec.ofNat 64 ((2 ^ w - 1) * 2 ^ pos)

/-- ALU_NOP: no result, and no flags. -/
def execAluNop (x : AluSlot) (s : State) : Res := s.aluStart 0 x (fun c s => s.setCtx x.ctx c)
/-- ALU_ADD. -/
def execAluAdd (x : AluSlot) (s : State) : Res := s.aluSlot 1 x (pure2 (· + ·)) (some flagsAdd)
/-- ALU_SUB. -/
def execAluSub (x : AluSlot) (s : State) : Res := s.aluSlot 2 x (pure2 (· - ·)) (some flagsSub)
/-- ALU_MUL: the low 32 bits of both. -/
def execAluMul (x : AluSlot) (s : State) : Res :=
  s.aluSlot 3 x (pure2 (fun a b => BitVec.ofNat 64 (a.toNat % 2 ^ 32 * (b.toNat % 2 ^ 32)))) none
/-- ALU_CSUM. -/
def execAluCsum (x : AluSlot) (s : State) : Res := s.aluSlot 4 x (pure2 csum64) none
/-- ALU_AND. -/
def execAluAnd (x : AluSlot) (s : State) : Res := s.aluSlot 5 x (pure2 (· &&& ·)) none
/-- ALU_OR. -/
def execAluOr (x : AluSlot) (s : State) : Res := s.aluSlot 6 x (pure2 (· ||| ·)) none
/-- ALU_XOR. -/
def execAluXor (x : AluSlot) (s : State) : Res := s.aluSlot 7 x (pure2 (· ^^^ ·)) none
/-- ALU_SHL. -/
def execAluShl (x : AluSlot) (s : State) : Res := s.aluSlot 8 x (pure2 (fun a b => a <<< (b.toNat % 64))) none
/-- ALU_SHR. -/
def execAluShr (x : AluSlot) (s : State) : Res := s.aluSlot 9 x (pure2 (fun a b => a >>> (b.toNat % 64))) none
/-- ALU_SAR. -/
def execAluSar (x : AluSlot) (s : State) : Res := s.aluSlot 10 x (pure2 (fun a b => a.sshiftRight (b.toNat % 64))) none
/-- ALU_ROL. -/
def execAluRol (x : AluSlot) (s : State) : Res := s.aluSlot 11 x (pure2 (fun a b => a.rotateLeft (b.toNat % 64))) none
/-- ALU_MOV. -/
def execAluMov (x : AluSlot) (s : State) : Res := s.aluSlot 12 x (pure2 (fun _ b => b)) none
/-- ALU_MINU. -/
def execAluMinu (x : AluSlot) (s : State) : Res := s.aluSlot 13 x (pure2 (fun a b => if a.toNat ≤ b.toNat then a else b)) none
/-- ALU_MAXU. -/
def execAluMaxu (x : AluSlot) (s : State) : Res := s.aluSlot 14 x (pure2 (fun a b => if b.toNat ≤ a.toNat then a else b)) none
/-- ALU_BSWAP. -/
def execAluBswap (x : AluSlot) (s : State) : Res := s.aluSlot 15 x aluBswapOp none
/-- ALU_EXT: imm[13:8] bits of a from bit imm[5:0], zero-extended. -/
def execAluExt (x : AluSlot) (s : State) : Res :=
  s.aluSlot 16 x (pure2 (fun a _ => (a >>> fieldPos x) &&& fieldMask 0 (fieldWidth x))) none
/-- ALU_INS: the low imm[13:8] bits of b at bit imm[5:0] of a. -/
def execAluIns (x : AluSlot) (s : State) : Res :=
  s.aluSlot 17 x (pure2 (fun a b =>
    let m := fieldMask (fieldPos x) (fieldWidth x)
    (a &&& ~~~m) ||| ((b <<< fieldPos x) &&& m))) none
/-- ALU_SEL: a if Z is clear, else b. -/
def execAluSel (x : AluSlot) (s : State) : Res :=
  let z := match s.runningCtx x.ctx with | some (_, c) => c.start.f.z | none => false
  s.aluSlot 18 x (pure2 (fun a b => if z then b else a)) none
/-- ALU_CRC: CRC-32C over the 8 bytes of b, most significant first, from the value in a. -/
def execAluCrc (x : AluSlot) (s : State) : Res :=
  s.aluSlot 19 x (pure2 (fun a b => (crc32c (a.truncate 32) (natBe 8 b.toNat)).zeroExtend 64)) none

/-! ### The memory slot (R192 to R196, Table 8-6) -/

/-- One memory slot of a context's present word: it executes once, where the word in the control store spells it, and acts if its condition
holds (R190, R192); a fault is taken instead. -/
def State.memSlot (s : State) (op : Nat) (x : MemSlot) (f : Packet → Context → State → State) : Res :=
  match s.runningCtx x.ctx with
  | none => done s
  | some (p, c) => match x.fault with
    | some h => done (s.hwCheck x.ctx (sliceOf p.port) c.engine c.bank c.pc h)
    | none =>
      if c.memDone ∨ wordMem (s.wordOf c) ≠ memSpelling op x then done s
      else
        let c1 := { s.issued c with memDone := true }
        let s1 := (s.noteWord (sliceOf p.port) c).setCtx x.ctx c1
        if !c.holds x.cond then done s1 else done (f { p with ctx := some c1 } c1 s1)

/-- The load of a value into the data register. -/
def State.loadReg (s : State) (x : MemSlot) (c : Context) (v : W64) : State := s.setCtx x.ctx (c.setReg x.mreg v)
/-- The memory slot meets a program cause, which the word's end takes (Table 8-7, Table 8-8). -/
def State.meetCheck (s : State) (x : MemSlot) (c : Context) (cause : Nat) : State := s.setCtx x.ctx { c with check := some cause }
/-- A protection fault, cause 6 (Table 8-7). -/
def State.protect (s : State) (x : MemSlot) (c : Context) : State := s.meetCheck x c 6
/-- The low bytes of the data register, as little-endian. -/
def dataBytes (x : MemSlot) (c : Context) : Bytes := natLe (memLen x) (memData c x).toNat

/-- A merge of `v` into a field of `size` bytes that holds `old` (R189, Table 8-6). -/
def mergeField (op : Merge) (size old v : Nat) : Nat :=
  let m := 2 ^ (8 * size)
  match op with
  | .add => (old + v) % m
  | .or => (old ||| v) % m
  | .max => max old (v % m)
  | .min => min old (v % m)
  | .avg => unsigned (8 * size) (signed (8 * size) old + (signed (8 * size) v - signed (8 * size) old) / 16)

/-- The PRP window test of R225: whether the packet passes, whether it counts as out of window, and words w0 and w1 after it. -/
def prpTest (w0 w1 seq : Nat) (fresh : Bool) : Bool × Bool × Nat × Nat :=
  if fresh then (true, false, 2 ^ 16 + seq, 0)
  else
    let high := w0 % 65536
    let d := (seq + 65536 - high) % 65536
    if d = 0 then (false, false, w0, w1)
    else if d < 32768 then (true, false, 2 ^ 16 + seq, if 32 < d then 0 else (w1 <<< d) % 2 ^ 32 ||| (1 <<< (d - 1)))
    else
      let age := 65536 - d
      if 32 < age then (true, true, w0, w1)
      else if w1.testBit (age - 1) then (false, false, w0, w1)
      else (true, false, w0, w1 ||| (1 <<< (age - 1)))

/-- The PRP test of a packet against its record: whether it passes, whether it counts as out of window, and the record after it. -/
def prpOn (p : Packet) (pr : Profile) (seq : Nat) (b : Bytes) : Bool × Bool × Bytes :=
  let w0 := leAt b 104 4
  let fresh := !w0.testBit 16 || decide (recLast b + pr.forget * 1000 < p.tai)
  let (pass, out, v0, v1) := prpTest w0 (leAt b 108 4) seq fresh
  (pass, out, recPut (recPut b 104 4 v0) 108 4 v1)

/-- The base telemetry of a packet's own record (R227); a record that the packet created has its counts already (R149). -/
def telemetryOn (p : Packet) (b : Bytes) : Bytes :=
  let made : Bool := match p.record with | .created _ => true | _ => false
  let flags := (parse p.bytes).tcpFlags % 256
  let b1 := recSetBit (recPut (recPut b 44 4 (p.port % 128)) 100 1 (leAt b 100 1 ||| flags)) bitHit true
  if made then b1
  else
    let b2 := recPut (recPut b1 64 8 ((leAt b1 64 8 + 1) % 2 ^ 64)) 72 8 ((leAt b1 72 8 + p.len) % 2 ^ 64)
    let b3 := recPut b2 56 8 (max (recLast b2) p.tai)
    if recFirst b3 = 0 then recPut b3 48 8 p.tai else b3

def classOn (cls : Option Nat) (b : Bytes) : Bytes :=
  match cls with
  | some c => recSetClass b c
  | none => b

/-- One staged write on the bytes of the record that it touches. -/
def Staged.on (p : Packet) (pr : Profile) (b : Bytes) : Staged → Bytes
  | .store _ off bs => if off = 40 then recSetClass b ((bs.headD 0).toNat) else patch b off bs
  | .merge _ op off size v => recPut b off size (mergeField op size (leAt b off size) v)
  | .telemetry => telemetryOn p b
  | .prp seq => (prpOn p pr seq b).2.2
  | .pair tcp cls => classOn cls (pairOn tcp b)
  | .reverse key svc => patch (patch b 0 key) 104 svc
  | .count _ _ | .event _ | .histogram _ | .counted _ => b

/-- Bytes that a routine's own part of a bale writes into records (R196). -/
def Context.baleBytes (c : Context) : Nat :=
  (c.staged.drop c.larzenu).foldl (fun n w => match w with
    | .store _ _ bs => n + bs.length
    | .merge _ _ _ size _ => n + size
    | _ => n) 0

/-- Handle whose record a staged write touches. -/
def Staged.handle : Staged → Option Nat
  | .store h _ _ | .merge h _ _ _ _ => some h
  | .pair _ _ | .reverse _ _ => some 1
  | .prp _ | .telemetry => some 0
  | .count _ _ | .event _ | .histogram _ | .counted _ => none
/-- Two handles name one record. -/
def Context.sameRec (c : Context) (h k : Nat) : Bool := h == k || ((Tab.find? c.handles h).isSome && Tab.find? c.handles h == Tab.find? c.handles k)
/-- Bytes `b` of the record in handle `h` after the routine's own staged writes to that record, through whichever handle (R178). -/
def Context.withStaged (c : Context) (p : Packet) (pr : Profile) (b : Bytes) (h : Nat) : Bytes :=
  c.staged.foldl (fun b w => if w.handle.any (c.sameRec h) then w.on p pr b else b) b
/-- Records that a bale touches (R178). -/
def Context.records (c : Context) : Nat :=
  ((c.staged.filterMap Staged.handle).map (fun h => (Tab.find? c.handles h).getD [])).dedup.length

/-- A write joins the bale, within the customer's 256 bytes and the four records of a bale (R178, R196). -/
def State.stageWrite (s : State) (x : MemSlot) (c : Context) (w : Staged) : State :=
  let c1 := { c with staged := c.staged ++ [w] }
  if 256 < c1.baleBytes ∨ 4 < c1.records then s.meetCheck x c 5 else s.setCtx x.ctx c1

/-- A service word is one that no enabled service claims (Table 9-1). -/
def Profile.wordFree (pr : Profile) (w : Nat) : Bool :=
  decide (w < 6) && !(pr.runs 1 && decide (w < 5)) && !(pr.runs 0 && w == 5) && !(pr.runs 3 && decide (w < 2))

/-- A customer routine may write bytes of a handle: handle 0 or one it has locked, within the free service words (R188, R196). -/
def State.writable (s : State) (p : Packet) (c : Context) (h off len : Nat) : Bool :=
  let pr := s.profile (if h = 0 then p.profile else recProfile ((Tab.find? c.handles h).getD [])) p.epoch
  (h != 1) && (Tab.find? c.handles h).isSome && decide (104 ≤ off ∧ off + len ≤ 128) &&
  (List.range len).all (fun i => pr.wordFree ((off + i - 104) / 4))

/-- MEM_NONE. -/
def execMemNone (x : MemSlot) (s : State) : Res := s.memSlot 0 x (fun _ _ s => s)
/-- HDR_LD: network order, zero-extended; bytes beyond the frame's end are free values (assumption 32). -/
def execHdrLd (x : MemSlot) (s : State) : Res :=
  s.memSlot 1 x (fun p c s =>
    let a := memAddr c x
    let n := memLen x
    if 255 < a then s.protect x c
    else
      let have_ := min n (p.len - a)
      let (rest, s1) := s.drawBytes (n - have_)
      s1.loadReg x c (BitVec.ofNat 64 (beNat (slice p.bytes a have_ ++ rest))))
/-- HDR_ST: an edit within the frame that overlaps no other, up to 16 (R194). -/
def execHdrSt (x : MemSlot) (s : State) : Res :=
  s.memSlot 2 x (fun p c s =>
    let a := memAddr c x
    let n := memLen x
    let clash := c.edits.any (fun e => decide (a < e.off + e.bytes.length ∧ e.off < a + n))
    if 255 < a ∨ p.len < a + n ∨ clash ∨ 16 ≤ c.edits.length then s.protect x c
    else
      let e : Edit := { off := a, bytes := natBe n ((memData c x).toNat % 2 ^ (8 * n)) }
      let c1 := { c with edits := c.edits ++ [e] }
      let old := c1.condsNext.getD c1.conds
      s.setCtx x.ctx { c1 with condsNext := some { old with editsFull := decide (16 ≤ c1.edits.length) } })

/-- The Awn match vector (Table 10-5). -/
def matchVector (r : ScanResult) : W64 :=
  if !r.scanned then 0
  else
    let (id, off) := r.lowest.getD (0, 0)
    BitVec.ofNat 64 (2 ^ 63 + b2n r.lowest.isSome * 2 ^ 62 + b2n r.overflow * 2 ^ 61 + r.action % 16 * 2 ^ 54 + id % 4096 * 2 ^ 42 +
      off % 16384 * 2 ^ 28 + r.profile % 64 * 2 ^ 20 + r.state % 2 ^ 20)

/-- META_LD. -/
def execMetaLd (x : MemSlot) (s : State) : Res :=
  s.memSlot 3 x (fun p c s =>
    let v (n : Nat) : State := s.loadReg x c (BitVec.ofNat 64 n)
    match memField x with
    | 0 => v p.stamp.angle
    | 1 => v p.stamp.ns
    | 2 => v p.stamp.sec
    | 3 => v p.profile
    | 4 => v p.zone
    | 5 => v p.vid
    | 6 => v p.cls
    | 7 => s.loadReg x c (matchVector p.scan)
    | 8 => v (p.epoch % 256)
    | _ => s.protect x c)
/-- DESC_ST. -/
def execDescSt (x : MemSlot) (s : State) : Res :=
  s.memSlot 4 x (fun p c s =>
    if 4 < memField x then s.protect x c
    else s.setCtx x.ctx { c with desc := Tab.insert c.desc (memField x) (memData c x).toNat })
/-- KEY_ST: the 8 bytes of mreg, in memory order least significant first. -/
def execKeySt (x : MemSlot) (s : State) : Res :=
  s.memSlot 5 x (fun p c s =>
    let a := memAddr c x
    if 32 < a then s.protect x c else s.setCtx x.ctx { c with key := patch c.key a (natLe 8 (memData c x).toNat) })

/-- REC_LOCK (R179, R183): the key buffer's record is locked into handle 2 or 3; while an earlier operation stands, the pseudo-channel
is fenced or the slice's transactions are used up, the slot stalls. -/
def execRecLock (x : MemSlot) (s : State) : Res :=
  s.memSlot 6 x (fun p c s =>
    let h := lockHandle x
    let create := lockCreates x
    if h < 2 then s.protect x c
    else
      let mine := s.flow.ops.any (fun o => o.pkt == x.ctx && o.key == c.key)
      let c1 := { c with waiting := some (.lock h create), tried := [] }
      let p1 := { p with ctx := some c1 }
      let s1 := (if mine then s else s.issueOp x.ctx p c.key).setPkt x.ctx p1
      if s1.seqBlocked x.ctx p c.key then s1.pmuPkt x.ctx 6 else s1.lockStart x.ctx p1 c1 h create)
/-- REC_LOCK_REPLY (R183). -/
def execRecLockReply (n : Nat) (res : ReadResult) (s : State) : Res :=
  match s.mem.reads.find? (fun r => r.owner == .lock n && s.readIssued r) with
  | some r => done (s.lockReply n r res)
  | none => done s
/-- REC_LD: little-endian, the routine's own staged writes seen (R178). -/
def execRecLd (x : MemSlot) (s : State) : Res :=
  s.memSlot 7 x (fun p c s =>
    let h := recHandle x
    match Tab.find? c.snaps h with
    | some b =>
      if 128 < recOffset x + memLen x then s.protect x c
      else s.loadReg x c (BitVec.ofNat 64 (leAt (c.withStaged p (s.profile p.profile p.epoch) b h) (recOffset x) (memLen x)))
    | none => s.protect x c)
/-- REC_ST (R188, R196): handle 0 only in hold mode. -/
def execRecSt (x : MemSlot) (s : State) : Res :=
  s.memSlot 8 x (fun p c s =>
    let h := recHandle x
    if !s.writable p c h (recOffset x) (memLen x) ∨ (h = 0 ∧ !c.hold) then s.protect x c
    else s.stageWrite x c (.store h (recOffset x) (dataBytes x c)))
/-- A merge operation (R188, R189, R196). -/
def State.mergeSlot (s : State) (code : Nat) (x : MemSlot) (op : Merge) : Res :=
  s.memSlot code x (fun p c s =>
    let h := recHandle x
    let n := memLen x
    if !s.writable p c h (recOffset x) n ∨ (n ≠ 4 ∧ n ≠ 8) then s.protect x c
    else s.stageWrite x c (.merge h op (recOffset x) n ((memData c x).toNat % 2 ^ (8 * n))))
/-- MRG_ADD. -/
def execMrgAdd (x : MemSlot) (s : State) : Res := s.mergeSlot 9 x .add
/-- MRG_OR. -/
def execMrgOr (x : MemSlot) (s : State) : Res := s.mergeSlot 10 x .or
/-- MRG_MAX. -/
def execMrgMax (x : MemSlot) (s : State) : Res := s.mergeSlot 11 x .max
/-- MRG_MIN. -/
def execMrgMin (x : MemSlot) (s : State) : Res := s.mergeSlot 12 x .min
/-- MRG_AVG. -/
def execMrgAvg (x : MemSlot) (s : State) : Res := s.mergeSlot 13 x .avg

/-- Bytes of the customer object region (R196). -/
def objectRegion : Nat := 67108864
/-- The read of an obj.ld is issued once the slice has a transaction for it (R194). -/
def State.objectStart (s : State) (n : Nat) (p : Packet) (a : Nat) : State :=
  if 4096 ≤ s.transactions (sliceOf p.port) then s
  else s.readObject n a
/-- OBJ_LD (R183, R194, R196): a read of the region goes to HBM, and the context leaves its hardware context. While the slice's
transactions are used up, it waits for one. -/
def execObjLd (x : MemSlot) (s : State) : Res :=
  s.memSlot 14 x (fun p c s =>
    let a := memAddr c x
    let n := memLen x
    if objectRegion < a + n then s.protect x c
    else (s.setCtx x.ctx { c with waiting := some (.object a x.mreg.val n), hw := none }).objectStart x.ctx p a)
/-- On a core clock, an obj.ld that waits for a transaction begins, and a context whose reply has come takes a hardware context of its
engine, if one is free (R183, R194). -/
def State.contextClock (s : State) (n : Nat) : State :=
  match s.pkt? n with
  | none => s
  | some p => match p.ctx with
    | none => s
    | some c =>
      if c.ended then s
      else match c.waiting with
        | some (.object a _ _) => if (s.readsOf n).isEmpty then s.objectStart n p a else s
        | some (.lock _ _) => s
        | none => if c.hw.isNone then s.setCtx n (s.backInHw (sliceOf p.port) c) else s
/-- What the action engines do on a core clock, the oldest packet first. -/
def State.engineClock (s : State) : State := (Tab.keys s.packets).foldl (fun s n => s.contextClock n) s
/-- OBJ_LD_REPLY (R194). -/
def execObjLdReply (n : Nat) (res : ReadResult) (s : State) : Res :=
  match s.mem.reads.find? (fun r => r.owner == .object n && s.readIssued r) with
  | some r => done (s.objectReply n r res)
  | none => done s
/-- CNT_ADD (R196). -/
def execCntAdd (x : MemSlot) (s : State) : Res :=
  s.memSlot 15 x (fun _ c s => s.setCtx x.ctx { c with staged := c.staged ++ [.count (bits x.moff.toNat 13 0) (memData c x).toNat] })
/-- EVT (R196). -/
def execEvt (x : MemSlot) (s : State) : Res :=
  s.memSlot 16 x (fun _ c s => s.setCtx x.ctx { c with staged := c.staged ++ [.event (memData c x).toNat] })

/-! ### The branch slot (R192, R193, R195) -/

/-- A word lies in the customer region (Table 8-2). -/
def customerWord (w : Nat) : Bool := decide (0x3000 ≤ w ∧ w < 0x4000)

/-- The word ends: what its slots wrote is what the next word reads (R192). -/
def Context.endWord (c : Context) (next : Nat) : Context :=
  { c with start := c.regs, conds := c.condsNext.getD c.conds, condsNext := none, pc := next, words := c.words + 1,
           aluDone := false, memDone := false, check := none }

/-- The next word of a routine: in the customer region, and among its first 256 (R195, Table 8-7). -/
def State.goTo (s : State) (n : Nat) (p : Packet) (c : Context) (next : Nat) : State :=
  if !customerWord next then s.programCheck n p c 6
  else if 256 ≤ c.words + 1 then s.programCheck n p c 7
  else s.setCtx n (c.endWord next)

/-- The slots beside the branch slot of word `w` have executed, or do nothing. -/
def Context.slotsDone (c : Context) (w : Nat) : Bool := (c.aluDone || wordAlu w / 2 ^ 56 == 0) && (c.memDone || wordMem w / 2 ^ 56 == 0)
/-- One branch slot of a context's present word, where the word in the control store spells it: it comes after the other slots, and ends
the word; a program cause that the memory slot has met is taken there, where no slot has met a hardware one (R190, R192, Table 8-8). -/
def State.brSlot (s : State) (op : Nat) (x : BrSlot) (taken : Packet → Context → State → State) : Res :=
  match s.runningCtx x.ctx with
  | none => done s
  | some (p, c) => match x.fault with
    | some h => done (s.hwCheck x.ctx (sliceOf p.port) c.engine c.bank c.pc h)
    | none =>
      if c.waiting.isSome ∨ wordBr (s.wordOf c) ≠ brSpelling op x ∨ !c.slotsDone (s.wordOf c) then done s
      else
        let s1 := s.noteWord (sliceOf p.port) c
        let c1 := s.issued c
        match c.check with
        | some cause => done (s1.programCheck x.ctx p c1 cause)
        | none => if c.holds x.cond then done (taken p c1 s1) else done (s1.goTo x.ctx p c1 (c.pc + 1))

/-- BR_NEXT. -/
def execBrNext (x : BrSlot) (s : State) : Res := s.brSlot 0 x (fun p c s => s.goTo x.ctx p c (c.pc + 1))
/-- BR_JUMP. -/
def execBrJump (x : BrSlot) (s : State) : Res := s.brSlot 1 x (fun p c s => s.goTo x.ctx p c x.target)
/-- BR_CALL: a call at depth 4 takes cause 7 (R193). -/
def execBrCall (x : BrSlot) (s : State) : Res :=
  s.brSlot 2 x (fun p c s =>
    if 4 ≤ c.stack.length then s.programCheck x.ctx p c 7
    else s.goTo x.ctx p { c with stack := (c.pc + 1) :: c.stack } x.target)
/-- BR_RETURN: with no return address there is no target in the region, so cause 6 (assumption 33). -/
def execBrReturn (x : BrSlot) (s : State) : Res :=
  s.brSlot 3 x (fun p c s => match c.stack with
    | a :: rest => s.goTo x.ctx p { c with stack := rest } a
    | [] => s.programCheck x.ctx p c 6)
/-- BR_END: the routine ends, and its bale goes to the flow sequencer (R178). -/
def execBrEnd (x : BrSlot) (s : State) : Res :=
  s.brSlot 4 x (fun p c s => s.setPkt x.ctx { p with ctx := some { c.endWord c.pc with ended := true, hw := none }, stage := .ended })

/-! ### The packet bale (R178, R189, R225, R227 to R230) -/

/-- Place of the record in a handle of a packet: 0 its own, 1 the paired one, 2 and 3 those it has locked. -/
def State.handleLoc (s : State) (p : Packet) (c : Context) (h : Nat) : Option Nat :=
  let own := match p.record with | .found l | .created l => some l | _ => none
  if h = 0 then own
  else if h = 1 then own.bind (fun l => (s.recAt l).bind (fun r => pairLoc (recPair (r.at p.epoch))))
  else (Tab.find? c.handles h).bind (fun key => s.findRec key p.epoch)

/-- The PRP test of a packet whose record lies at `loc`: the verdict, and the state with window and counts. -/
def State.applyPrp (s : State) (p : Packet) (loc seq : Nat) : Bool × State :=
  match s.recAt loc with
  | none => (true, s)
  | some r =>
    let (pass, out, b) := prpOn p (s.profile p.profile p.epoch) seq r.bytes
    let s1 := s.versionedWrite loc p.epoch 104 8 (fun x => patch x 104 (slice b 104 8))
    (pass, if !pass then s1.countProfile p.profile 6 else if out then s1.countProfile p.profile 7 else s1)

/-- The base telemetry of a packet's own record (R227). -/
def State.applyTelemetry (s : State) (p : Packet) (loc : Nat) : State := (s.dropHist loc).touchRec loc (telemetryOn p)

/-- A histogram bin is counted, saturating (R230). -/
def State.applyHistogram (s : State) (loc bin : Nat) : State :=
  match s.recAt loc with
  | none => s
  | some r =>
    let h := leAt r.bytes 88 4
    if !h.testBit 31 then s
    else { s with flow := { s.flow with hist := Tab.modify [] s.flow.hist (h % 2 ^ 24) (fun bins =>
      bins.mapIdx (fun i v => if i = bin then min 0xFFFFFFFF (v + 1) else v)) } }

/-- A record leaves its place for another: the cache, the directory and the table no longer hold it there. -/
def State.liftRec (s : State) (loc : Nat) : State := ((s.uncache loc).writeDirectory loc).eraseRec loc
/-- The directory entries of a key's buckets are read (R143). -/
def State.readEntries (s : State) (key : Bytes) : State :=
  let (b1, b2) := s.flowBuckets key
  [b1, b2].foldl (fun s b => if s.bucketAbsent b then s else s.queueBursts (s.bucketPc b) (s.directoryAddr b) 1 false) s
/-- The record at `q`, paired with the one at `loc`, takes a new key and new service words, and with them a place of that key; all else in
it stays (R215). With no such place it is evicted (R146). -/
def State.rekey (s : State) (p : Packet) (loc q : Nat) (r : FlowRec) (key svc : Bytes) : State :=
  match ((s.liftRec q).readEntries key).placeFor key p.profile ((s.profile p.profile p.epoch).evict == 1) with
  | (some l, s1) =>
    let b := recSetBit (patch (patch r.bytes 0 key) 104 svc) bitOverflow (decide (flowOverflow ≤ l))
    ((((s1.setRec l { r with bytes := b, placed := s.flow.passes }).install l true).writeDirectory l).pairUp loc l).occupancyCheck
  | (none, _) => (s.removeOne q 5 false).modRec loc (fun b => recSetBit (recPut b 96 4 0) bitPaired false)
/-- The pair of the record at `loc` takes the translation of a new binding: its reverse record goes under a new key, and the change is offered to the
twin (R215, R220). -/
def State.applyReverse (s : State) (p : Packet) (loc : Nat) (key svc : Bytes) : State :=
  match (s.recAt loc).map (·.at p.epoch) with
  | none => s
  | some b => match pairLoc (recPair b), (pairLoc (recPair b)).bind s.recAt with
    | some q, some r =>
      let s1 := if q = loc then s else s.rekey p loc q r key svc
      match s1.pairCheckpoint true b with
      | some k => s1.offer k
      | none => s1
    | _, _ => s

/-- One staged write of packet `n` is applied (R178). -/
def State.applyStaged (s : State) (n : Nat) (p : Packet) (c : Context) (w : Staged) : State :=
  let k := sliceOf p.port
  match w with
  | .store h off bs => match s.handleLoc p c h with
    | some l =>
      if off = 40 then s.versionedWrite l p.epoch 40 4 (fun b => recSetClass b ((bs.headD 0).toNat))
      else s.versionedWrite l p.epoch off bs.length (fun b => patch b off bs)
    | none => s
  | .merge h op off size v => match s.handleLoc p c h with
    | some l => s.versionedWrite l p.epoch off size (fun b => recPut b off size (mergeField op size (leAt b off size) v))
    | none => s
  | .count i v => s.count 7 (16384 * k + i) v
  | .event v => s.raiseLimited 0x0105 (src 5 k) (sec 1) (natLe 2 c.entry ++ [0, 0] ++ natLe 8 v) 0 [] (c.entry + 1)
  | .pair tcp cls => match s.handleLoc p c 0 with
    | some l => s.pairUpdate n p l tcp cls
    | none => s
  | .prp _ => s
  | .reverse key svc => match s.handleLoc p c 0 with
    | some l => s.applyReverse p l key svc
    | none => s
  | .histogram bin => match s.handleLoc p c 0 with
    | some l => s.applyHistogram l bin
    | none => s
  | .telemetry => match s.handleLoc p c 0 with
    | some l => s.applyTelemetry p l
    | none => s
  | .counted i => s.countProfile p.profile i

/-- The descriptor fields that a routine set (Table 8-6). -/
def State.applyDesc (s : State) (p : Packet) (c : Context) : Packet :=
  let field (i : Nat) : Option Nat := Tab.find? c.desc i
  let p1 := match field 0 with
    | some d => s.chosen p (s.resolveDest (d % 65536) (parse p.bytes) p.vid p.epoch)
    | none => p
  { p1 with
    cls := (match field 1 with | some v => v % 8 | none => p1.cls)
    yellow := (match field 2 with | some v => v != 0 | none => p1.yellow)
    discard := (match field 3 with | some v => v != 0 | none => p1.discard) || (p1.scan.scanned && p1.scan.action == 2)
    chaff := (match field 4 with | some v => if v ≠ 0 then 4 else p1.chaff | none => p1.chaff) }

/-- An operation with an earlier stamp stands on a record of the operations of packet `n`: bales are applied in stamp order. A pair update
takes no lock and delays no packet (R148, R178, R189, R210). -/
def State.earlierRoutine (s : State) (n : Nat) (p : Packet) : Bool :=
  s.flow.ops.any (fun own => own.pkt == n && (own.lock || own.pair.isNone) &&
    s.flow.ops.any (fun o => o.pkt != n && o.key == own.key && o.ordered && o.before (opOf n p own.key)))
/-- A record that the bale of a packet is to place lies in a bucket on a fenced pseudo-channel (R159). -/
def State.baleFenced (s : State) (c : Context) : Bool :=
  c.staged.any (fun w => match w with | .reverse key _ => s.bucketsFenced key | _ => false)

/-- A command segment whose whole frame is there begins step C1: it is not scanned when it has no payload or no patterns (R249, R259). -/
def State.beginC1 (s : State) (n : Nat) : State :=
  match s.pkt? n with
  | none => s
  | some p =>
    let gp := s.cmdProfile p
    if segmentOf p.bytes = [] then s.noCommand n
    else if !s.hasAwn gp.awn p.epoch then s.unsealed n 2
    else s.joinWork n

/-- After step 6 a packet goes to step 7, behind what the gate holds of its flow, or takes the command path (R25, R26, R259). Every packet of
a command-profiled flow is stored before it is forwarded, whichever way it travels (R25, R308). -/
def State.afterRoutine (s : State) (n : Nat) : State :=
  match s.pkt? n with
  | none => s
  | some p =>
    let cmd := (s.profile p.profile p.epoch).command
    let gp := s.gateProfile cmd p.epoch
    let h := parse (applyEdits p.bytes p.edits)
    if cmd = 0 ∨ gp.protocol = 0 ∨ h.dport ≠ gp.port ∨ p.discard ∨ (h.proto ≠ 6 ∧ h.proto ≠ 17) then
      (s.setPkt n { p with sf := p.sf || cmd != 0 }).noCommand n
    else
      let rec_ := (s.objAt (objKey .gateProfile cmd) p.epoch).getD (gateProfileReset cmd)
      let s1 := s.setPkt n { p with judged := cmd, gpRec := rec_, sf := true, stage := .waitFrame }
      if p.complete then s1.beginC1 n else s1

/-- What a PRP duplicate leaves of its bale: its telemetry, and the hit bit of its pair (R207, R210, R225). -/
def Staged.ofDuplicate : Staged → Option Staged
  | .telemetry => some .telemetry
  | .pair _ _ => some (.pair 0 none)
  | _ => none

/-- PACKET_BALE_APPLY (R178): in stamp order, the whole bale as one operation. A PRP duplicate is discarded. -/
def execPacketBaleApply (n : Nat) (s : State) : Res :=
  match s.pkt? n with
  | none => done s
  | some p => match p.ctx with
    | none => done s
    | some c =>
      if p.stage ≠ .ended ∨ s.earlierRoutine n p ∨ s.baleFenced c then done s
      else
        let prp := c.staged.findSome? (fun w => match w with | .prp q => some q | _ => none)
        let s0 := s.openReserved n
        let (pass, s1) := match prp, s0.handleLoc p c 0 with
          | some q, some l => s0.applyPrp p l q
          | _, _ => (true, s0)
        let writes := if pass then c.staged else c.staged.filterMap Staged.ofDuplicate
        let s2 := writes.foldl (fun s w => s.applyStaged n p c w) s1
        let p1 := if pass then s2.applyDesc p c else { p with discard := true }
        let s3 := (s2.setPkt n { p1 with edits := if pass then c.edits else [], ctx := none }).releaseLocks n
        done (s3.afterRoutine n)

/-! ### Engine tests, scrub, service engines -/

/-- Engine, number in its unit, and unit of an engine of slice `k` (R393). -/
def engineIndex (k : Nat) : SliceEngine → Nat
  | .action n => aeIndex k n.val
  | .service v => svIndex k v.val
def engineNumber : SliceEngine → Nat
  | .action n => n.val
  | .service v => v.val
def engineUnit (k : Nat) : SliceEngine → Nat
  | .action _ => k
  | .service _ => 8 + k
/-- Packets that run again when an engine fails: a service engine runs none (R198, R202). -/
def State.engineResidents (s : State) (k : Nat) : SliceEngine → List Nat
  | .action n => s.residents k n.val
  | .service _ => []

/-- A machine check while engine `e` of slice `k` runs a Larzenu routine that is no packet's: the engine stops or is fenced as for a
packet's, and what ran in it runs again, but for a lost context, which was no packet's. The word at which it occurs lies in the Larzenu
region, whose words are not known: it is free (R198, R202, Table 8-8). -/
def State.larzenuCheck (s : State) (k : Nat) (e : SliceEngine) (f : LarzenuFault) : State :=
  let code := hwCode (larzenuCause f)
  let again := if code = 4 then [] else s.engineResidents k e
  let (w, s1) := (again.foldl (fun s m => s.rerun m) s).draw
  let pc := w.toNat % 12288
  let s2 := if code = 1 then s1.stopAt (engineIndex k e) (wordIndex k (s1.bankAt s1.bales.epoch) pc) else s1
  s2.engineFault (engineUnit k e) k (engineIndex k e) (engineNumber e) code pc again.length

/-- KNOWN_ANSWER_ROUTINE (R200, R202): a fenced engine that passes returns; one that fails is retired; one that takes a machine check is
fenced, and runs the routine again (Table 8-8). -/
def execKnownAnswerRoutine (k : SliceId) (e : SliceEngine) (res : KnownAnswer) (s : State) : Res :=
  let i := engineIndex k e
  let u := engineUnit k e
  let n := engineNumber e
  let st := s.engineState i
  if st = 2 then done s
  else match res with
    | .passed => if st = 1 then done (((s.setEngine i 0).settle u).faultReport (unitClass u) 3 1 0 n (srcEngine i) 0) else done s
    | .checked f =>
      let s1 := s.larzenuCheck k e f
      done (if s1.engineState i = 0 then s1.setEngine i 1 else s1)
    | .failed =>
      let s1 := (s.engineResidents k e).foldl (fun s m => s.rerun m) s
      let s2 := ((s1.setEngine i 2).raise 0x0103 (srcEngine i) []).noteRetire
      if st = 1 then done ((s2.settle u).faultReport (unitClass u) 4 1 3 n (srcEngine i) 0)
      else
        let (rung, s3) := s2.openFault u 3 n (srcEngine i) (fun r => if r = 2 then 7 else 4)
        done (if rung = 2 then s3.orderDrain k (unitClass u) else s3.settle u)

/-- CONTROL_STORE_SCRUB (R191): a bad word is to be rewritten, and its fetches stall. -/
def execControlStoreScrub (k : SliceId) (bank : Fin 2) (word : Nat) (bad : Bool) (s : State) : Res :=
  let w := wordIndex k bank (word % 16384)
  if bad ∧ !s.eng.badWords.contains w then done { s.noteFault 2 with eng := { s.eng with badWords := s.eng.badWords ++ [w] } } else done s
/-- CONTROL_STORE_REWRITE_DONE (R191): from the master copy. -/
def execControlStoreRewriteDone (k : SliceId) (bank : Fin 2) (word : Nat) (s : State) : Res :=
  let i := 16384 * bank.val + word % 16384
  let w := wordIndex k bank (word % 16384)
  let store := Tab.put 0 s.eng.store i (Tab.get 0 s.eng.master i)
  done { s with eng := { s.eng with
    store := store
    badWords := s.eng.badWords.filter (· != w)
    stopped := s.eng.stopped.filter (fun x => x.2 != w) } }

/-- SERVICE_ENGINE_INTERRUPT (R202): at its next safe point, which the word of a change is (Table 8-8), the engine writes its checkpoint and
yields. -/
def execServiceEngineInterrupt (k : SliceId) (v : SvId) (_why : SvInterrupt) (s : State) : Res := done (s.checkpoint k v true)

/-- A service engine that takes routines: in service, and not stopped at a bad word (Table 8-7). -/
def State.svOk (s : State) (k n : Nat) : Bool := s.engineState (svIndex k n) == 0 && !s.eng.stopped.any (fun x => x.1 == svIndex k n)
/-- The routine of service engine `v` resumes from its checkpoint on its own engine, or on another of the slice when that one is out of
service (R202). -/
def State.resumeService (s : State) (k v : Nat) : State :=
  let i := 4 * k + v
  let x := Tab.get ({ runsOn := v } : Service) s.eng.services i
  match (if s.svOk k v then some v else (List.range 4).find? (s.svOk k)) with
  | none => s
  | some e => { s with eng := { s.eng with services := Tab.insert s.eng.services i { x with yielded := false, runsOn := e } } }

/-- SERVICE_ROUTINE_RESUME (R201, R202): after an interrupt, or after a failure of the engine that runs the routine: a machine check, a
program cause among them, which is treated as code 3. -/
def execServiceRoutineResume (k : SliceId) (v : SvResume) (s : State) : Res :=
  let x := Tab.get ({ runsOn := v.engine.val } : Service) s.eng.services (4 * k.val + v.engine.val)
  match v.failure with
  | none => done (s.resumeService k v.engine)
  | some f =>
    if !s.svOk k x.runsOn then done s
    else done ((s.larzenuCheck k (.service (Fin.ofNat 4 x.runsOn)) f).resumeService k v.engine)

end Sys2Proof.Machine
end

