-- ==== Sys2Proof/Machine/Otn.lean ====
section
/-! DEFINITION. OTN framing: alignment, defects, consequent actions, overhead and performance (04_otn_framing.md), and the loss of
signal that both Ethernet and OTU4 ports take. -/

namespace Sys2Proof.Machine

/-- Rows of Table 4-2 as bits: the section defects dLOS, dLOL, dLOF and dLOM; and dAIS, dOCI and dLCK. -/
def sectionBits : Nat := 0b1111
def aisBit : Nat := 0b1000000
def oduBits : Nat := 0b111000000

/-- The bits of row `row`. -/
def rowBit (row : Nat) : Nat := 1 <<< (row - 1)
/-- A defect mask has a bit of `m`. -/
def hasAny (mask m : Nat) : Bool := mask &&& m != 0

/-- Defects that make a second severely errored, for SM near, SM far, PM near and PM far (R107). -/
def sesBits : List Nat := [0b1111, 0b100000, 0b100111001111, 0b10000000000]

/-- A defect that R107 names for an end stood in the present second. -/
def markDefects (pm : List PmEnd) (mask : Nat) : List PmEnd :=
  pm.mapIdx (fun i e => if hasAny mask (sesBits.getD i 0) then { e with now := { e.now with defect := true } } else e)

/-- A row is masked when a defect higher in R101 is active. -/
def maskedIn (mask row : Nat) : Bool := (activeRows mask).any (fun r => decide (defectRank r < defectRank row))

/-- The consequence of R102: a section defect, or dTIM-SM with its action, replaces the ODU by all-ones. -/
def State.withAis (s : State) (p mask : Nat) : Bool :=
  hasAny mask sectionBits || (s.son 0x0404 p && hasAny mask (rowBit 5))

/-- The received client is replaced by local-fault ordered sets (R97, Table 4-3). DESIGN CHOICE (assumption 246): the last sentence of R97
does not narrow Table 4-3. -/
def State.clientReplaced (s : State) (p mask : Nat) : Bool :=
  hasAny mask oduBits || (s.son 0x0404 p && hasAny mask (rowBit 10)) || hasAny mask (rowBit 12)

/-- All-ones begin or cease to replace the ODU. A section defect ends the runs of frames that came before it, and the all-ones those of
the path (R99, R102). -/
def Otn.inserting (o : Otn) (ais : Bool) (now : Nat) : Otn :=
  if !ais then { o with aisSince := none }
  else if o.aisSince.isSome then o
  else { o with aisSince := some now, statRun := [], bdiRun := Tab.put 0 (Tab.put 0 o.bdiRun 2 0) 3 0 }

/-- The defects of port `p` become `mask` (R99, R101, R104, Table 4-5): events in the order of R101, and an up port goes down with the
highest of them as its cause. Table 16-10 orders the events of one clock by their codes. -/
def State.setDefects (s : State) (p mask : Nat) : State :=
  let o := (s.otnOf p).inserting (s.withAis p mask) s.now
  let gone := (activeRows o.defects).filter (fun r => !mask.testBit (r - 1))
  let new := (activeRows mask).filter (fun r => !o.defects.testBit (r - 1))
  let s1 := s.setOtn p { o with defects := mask, pm := markDefects o.pm mask }
  let s2 := gone.foldl (fun s r => s.raise 0x020A (src 1 p) (natLe 1 r) (maskedIn mask r)) s1
  let s3 := new.foldl (fun s r => s.raise 0x0209 (src 1 p) (natLe 1 r) (maskedIn mask r)) s2
  if (s.port p).st = .up ∧ hasAny mask (s.downMask p) then
    match activeRows mask with
    | r :: _ => (s3.portDown p (causeDefect r) false).beginAttempt p
    | [] => s3
  else s3

/-- The port carries OTU4 (R94). -/
def State.isOtn (s : State) (p : Nat) : Bool := s.portMode p == 6

/-! ### Loss of signal (R75, R79, R80, R99, R104) -/

/-- The multiframe in progress is not whole, so that no run of multiframes goes on through it (R100). -/
def Accept.gap (x : Accept) : Accept := { x with cur := [], fill := 0, run := 0 }

/-- Physical lane `k` of the port loses its signal at `now`: no run of frames goes on through the loss (R98, R99, R100). -/
def Otn.losing (o : Otn) (k now : Nat) : Otn :=
  { o with
    sigSince := none, lossAt := some now, laneLossAt := Tab.put none o.laneLossAt k (some now), statRun := [], bdiRun := []
    accSm := o.accSm.gap, accPm := o.accPm.gap, accPt := o.accPt.gap }

/-- Loss of signal reaches one lane: an up port goes down and begins a new attempt, and an attempt fails at once (Tables 3-3 and 3-9). -/
def State.laneLoss (s : State) (l : Nat) : State :=
  let p := portOfLane l
  let q := s.port p
  let s0 := if (s.lane l).signal then s.noteFault 12 else s
  let s1 := s0.modLane l (fun y => { y with signal := false, locked := false })
  if !s.laneUsed l ∧ l ≠ 2 * p then s1
  else if s.isOtn p then
    let o := s1.otnOf p
    let s2 := s1.setOtn p (if (s.lane l).signal then o.losing (l % 2) s.now else { o with sigSince := none })
    let s3 := s2.setDefects p (o.defects ||| rowBit 1)
    if q.attempt ∧ (s.lane l).signal then s3.failAttempt p causeNoSignal else s3
  else if q.st = .up then (s1.portDown p causeLossOfSignal false).beginAttempt p
  else if q.attempt ∧ (s.lane l).signal ∧ (q.st = .negotiating → l = 2 * p) then s1.failAttempt p causeNoSignal
  else s1

/-- LOSS_OF_SIGNAL (R80, R99). -/
def execLossOfSignal (l : LaneId) (s : State) : Res := done (s.laneLoss l)

/-- REFCLK_LINE_LOSS (R75): 32 lanes lose lock. -/
def execRefclkLineLoss (n : Fin 6) (s : State) : Res :=
  let s1 := if s.refclkLost.contains n.val then s else { s with refclkLost := s.refclkLost ++ [n.val] }
  done ((List.range 32).foldl (fun s k => if (s.lane (32 * n + k)).signal then s.laneLoss (32 * n + k) else s) s1)

/-! ### Alignment (R98) -/

/-- One logical lane at its frame position (Table 4-1); a lane is known by its marker modulo 20 (R94). One that is aligned keeps its position
through misses, and one that is not takes the position and the marker of the FAS that it finds. -/
def LogicalLane.atPosition (x : LogicalLane) (fas : Bool) (marker : Nat) : LogicalLane :=
  if fas && marker % 20 == x.marker % 20 then
    { x with pos := 0, miss := 0, good := x.good + 1, aligned := x.aligned || decide (2 ≤ x.good + 1) }
  else if x.aligned then { x with pos := 0, good := 0, miss := x.miss + 1, aligned := decide (x.miss + 1 < 5) }
  else { marker := if fas then marker else x.marker, good := b2n fas, miss := x.miss + 1 }

/-- One frame of a logical lane: its frame position comes once in 20 frames, and a lane that has found none searches in every frame (R94,
R98). -/
def LogicalLane.step (x : LogicalLane) (fas : Bool) (marker : Nat) : LogicalLane :=
  if x.aligned || x.good != 0 then
    if x.pos < 19 then { x with pos := x.pos + 1 } else x.atPosition fas marker
  else if fas then { x with marker := marker, good := 1, pos := 0, miss := 0 }
  else x

/-- A stage goes out or in at `now`. -/
def Stage.go (x : Stage) (out : Bool) (now : Nat) : Stage := if x.out = out then x else { x with out := out, since := now }

/-- A stage of frames: out after 5 misses in a row, in after 2 hits in a row (Table 4-1). -/
def Stage.step (x : Stage) (ok : Bool) (now : Nat) : Stage :=
  if ok then ({ x with miss := 0, good := x.good + 1 } : Stage).go (x.out && decide (x.good + 1 < 2)) now
  else ({ x with good := 0, miss := x.miss + 1 } : Stage).go (x.out || decide (5 ≤ x.miss + 1)) now

/-- The lane numbers are those of 20 distinct lanes. -/
def distinctLanes (ls : List LogicalLane) : Bool := (ls.map (fun x => x.marker % 20)).dedup.length == 20

/-- A run of one kind is lengthened, and that of the other ended. -/
def runs (t : Tab Nat) (yes no : Nat) (b : Bool) : Tab Nat :=
  if b then Tab.put 0 (Tab.modify 0 t yes (· + 1)) no 0 else Tab.put 0 (Tab.modify 0 t no (· + 1)) yes 0

/-- A defect with runs `yes` and `no` of `n` frames (Table 4-2). -/
def runDefect (t : Tab Nat) (yes no n : Nat) (was : Bool) : Bool :=
  if was then !decide (n ≤ Tab.get 0 t no) else decide (n ≤ Tab.get 0 t yes)

/-- A byte of a value carried over a multiframe, with MFAS 0 to `last`, arrives after a frame with MFAS `prev`; with the last one the
value is compared (R100). Bytes count only while none of the value is missing, be it in this multiframe or in one that was left out. -/
def Accept.step (x0 : Accept) (prev mfas last : Nat) (b : Byte) : Accept :=
  let e := (prev + 1) % 256
  let x := if mfas ≠ e ∧ (e ≤ last ∨ (mfas < e ∧ mfas ≠ 0)) then x0.gap else x0
  if last < mfas ∨ mfas ≠ x.fill then x
  else
    let cur := Tab.put 0 x.cur mfas b
    if mfas < last then { x with cur := cur, fill := mfas + 1 }
    else
      let v := Tab.getBytes cur 0 (last + 1)
      let n := if v = x.last ∧ 0 < x.run then x.run + 1 else 1
      { cur := [], fill := 0, last := v, run := n, value := if 3 ≤ n then some v else x.value }

/-- TTIs differ in what the detection compares: 1 SAPI, 2 DAPI, 3 both (R100). -/
def ttiDiffers (mode : Nat) (a b : Bytes) : Bool :=
  (mode.testBit 0 && (slice a 0 16 != slice b 0 16)) || (mode.testBit 1 && (slice a 16 16 != slice b 16 16))

/-- Expected TTI of a port: 0 SM, 1 PM. -/
def State.expectedTti (s : State) (p k : Nat) : Bytes :=
  (List.range 64).map (fun i => BitVec.ofNat 8 (s.sn 0x0402 p (64 * k + i)))

/-- A defect that compares an accepted value (R100, Table 4-2). -/
def comparedDefect (acc : Option Bytes) (on : Bool) (differs : Bytes → Bool) : Bool :=
  match acc with
  | none => false
  | some v => on && differs v

/-- The bits of a mask with row `row` as `b`. -/
def setRow (mask row : Nat) (b : Bool) : Nat :=
  if b then mask ||| rowBit row else if mask.testBit (row - 1) then mask - rowBit row else mask

/-- dTIM-SM, dTIM-PM and dPLM as the accepted values and the settings give them. -/
def State.compared (s : State) (p : Nat) (o : Otn) (mask : Nat) : Nat :=
  let tim (k : Nat) (a : Accept) :=
    comparedDefect a.value (s.sn 0x0403 p k != 0) (fun v => ttiDiffers (s.sn 0x0403 p k) v (s.expectedTti p k))
  let plm := comparedDefect o.accPt.value true (fun v => leAt v 0 1 != s.sn 0x0405 p)
  setRow (setRow (setRow mask 5 (tim 0 o.accSm)) 10 (tim 1 o.accPm)) 12 plm

/-- One frame's blocks join the present second: 0 SM near, 1 SM far, 2 PM near, 3 PM far (R107). -/
def addBlocks (pm : List PmEnd) (f : OtuFrame) : List PmEnd :=
  let bad : List Bool := [f.smBip != 0, decide (1 ≤ f.smBei ∧ f.smBei ≤ 8), f.pmBip != 0, decide (1 ≤ f.pmBei ∧ f.pmBei ≤ 8)]
  pm.mapIdx (fun i e => if bad.getD i false then { e with now := { e.now with blocks := e.now.blocks + 1 } } else e)

/-- What the path sees of a frame whose ODU is replaced by all-ones: its BIP-8 differs in every bit from that of an all-ones OPU, which
is 0 (R102, assumption 147). -/
def replacedFrame (f : OtuFrame) : OtuFrame :=
  { f with pmTti := 0xFF, pmBip := 8, pmBei := 15, pmBdi := true, pmStat := 7, psi := 0xFF, jcBad := true }

/-- The framing of a port after one frame, before its defects (R97, R98, R100, R102, R105). `cm` is the Cm that the justification control
gives, a free value; one that cannot be corrected leaves Cm as it is. -/
def State.otnFrame (s : State) (p cm : Nat) (f0 : OtuFrame) : Otn :=
  let o := s.otnOf p
  let f := if o.aisSince.isSome then replacedFrame f0 else f0
  let ls := o.lanes.mapIdx (fun i x => let y := f.lanes.getD i (false, 0); x.step y.1 y.2)
  let laneOk := ls.all (·.aligned) && distinctLanes ls && decide (f.skewNs ≤ 250)
  let r7 := runs o.statRun 0 1 (f.pmStat.val == 7)
  let r6 := runs r7 2 3 (f.pmStat.val == 6)
  let r5 := runs r6 4 5 (f.pmStat.val == 5)
  let multi := o.multi.step (f.mfas.val == (o.mfas + 1) % 256) s.now
  let im := !multi.out
  { o with
    lanes := ls
    lane := o.lane.go (!laneOk) s.now
    frame := o.frame.step f.fas s.now
    multi := multi
    mfas := f.mfas
    statRun := r5
    bdiRun := runs (runs o.bdiRun 0 1 f.smBdi) 2 3 f.pmBdi
    accSm := if im then o.accSm.step o.mfas f.mfas 63 f.smTti else o.accSm.gap
    accPm := if im then o.accPm.step o.mfas f.mfas 63 f.pmTti else o.accPm.gap
    accPt := if im then o.accPt.step o.mfas f.mfas 0 f.psi else o.accPt.gap
    smBeiTx := min 8 f.smBip
    pmBeiTx := min 8 f.pmBip
    iae := o.iae + b2n f.smIae
    biae := o.biae + b2n f.smBiae
    jcBad := o.jcBad + b2n f0.jcBad
    cm := if f.jcBad then o.cm else cm
    pcsLock := f.pcsLock
    pcsLostAt := if o.pcsLock ∧ !f.pcsLock then some s.now else o.pcsLostAt
    pcsFault := f.pcsFault || s.clientReplaced p o.defects
    pm := addBlocks o.pm f }

/-- The defects that one frame may declare or clear. -/
def State.frameDefects (s : State) (p : Nat) (o : Otn) : Nat :=
  let m := o.defects
  let was (row : Nat) := m.testBit (row - 1)
  let m1 := setRow m 7 (runDefect o.statRun 0 1 3 (was 7))
  let m2 := setRow m1 8 (runDefect o.statRun 2 3 3 (was 8))
  let m3 := setRow m2 9 (runDefect o.statRun 4 5 3 (was 9))
  let m4 := setRow m3 6 (runDefect o.bdiRun 0 1 5 (was 6))
  let m5 := setRow m4 11 (runDefect o.bdiRun 2 3 5 (was 11))
  s.compared p o m5

/-- OTU4_FRAME_RECEIVE (R98 to R107). A loss of the client PCS's lock takes the port down when the clock has passed, so that a loss of signal
on that clock comes first (R104, Table 4-5). -/
def execOtu4FrameReceive (p : PortId) (f : OtuFrame) (s : State) : Res :=
  if !s.isOtn p ∨ (s.port p).shed then done s
  else
    let (r, s0) := s.draw
    let o := s.otnFrame p (r.toNat % 16384) f
    let s1 := ((s0.count 3 (256 * p + 16) f.fecBits).count 3 (256 * p + 17) f.fecSymbols).count 3 (256 * p + 18) f.fecUncorrectable
    done ((s1.setOtn p o).setDefects p (s1.frameDefects p o))

/-- The payload of the next frame is the LCK pattern (R102). -/
def State.sendsLck (s : State) (p : Nat) : Bool := decide ((s.port p).st = .test) || s.son 0x0406 p

/-- BIP-8 of the OPU4 of the next frame: the LCK pattern is 0x55 in all of its 15,240 bytes, and the client's bits decide that of any other,
a free value (Table 4-4, assumption 221). -/
def State.opuBip (s : State) (p : Nat) (r : W64) : Byte := if s.sendsLck p then 0 else r.truncate 8

/-- What a port puts into the next OTU4 frame (R97, R102, R105, Tables 4-3 and 4-4). The 64 bytes of a TTI repeat through the multiframe,
and the lane marker counts 0 to 239 (assumption 221). Both BIP-8 are those of the OPU4 two frames before, a free value while the device has
sent no such frame. `r` is a free value. -/
def State.otuSent (s : State) (p : Nat) (r : W64) : OtuSent :=
  let o := s.otnOf p
  let m := o.defects
  let lck := s.sendsLck p
  let bip := ((o.opuBips[1]?).getD ((r >>> 8).truncate 8)).toNat
  { marker := o.txMarker
    mfas := o.txMfas
    smTti := s.sn 0x0401 p (o.txMfas % 64)
    pmTti := s.sn 0x0401 p (64 + o.txMfas % 64)
    smBip := bip
    pmBip := bip
    smBei := if hasAny m sectionBits then 0 else o.smBeiTx
    smBdi := s.withAis p m
    pmBei := if hasAny m oduBits then 0 else o.pmBeiTx
    pmBdi := s.clientReplaced p m
    pmStat := if lck then 5 else if (s.port p).st = .disabled then 6 else 1
    psi := if lck then 0x55 else if o.txMfas = 0 then 7 else 0
    jc := if lck then List.replicate 6 0x55 else natBe 6 (r.toNat / 65536)
    lck := lck
    remoteFault := s.clientReplaced p m }

/-! ### Loops (R86, Table 3-7) -/

/-- What is sent on a lane, or reaches its receiver, under Tables 3-7 and 3-8: the lane's own transmitted data, the same by the analog path,
the partner's, a test pattern, or nothing. -/
inductive LaneSource where
  | own
  | ownAnalog
  | partner
  | pattern
  | nothing
deriving DecidableEq, Repr

/-- Loop of lane `l` in force: 0 none, 1 near-end serial, 2 near-end parallel, 3 far-end; none outside the test state, and none in deep rest
(R86, Table 3-8). -/
def State.loopOf (s : State) (l : Nat) : Nat :=
  if (s.port (portOfLane l)).st = .test ∧ (s.lane l).power ≠ 2 then s.sn 0x0310 l 0 else 0

/-- Data toward the device (Table 3-7). -/
def State.towardDevice (s : State) (l : Nat) : LaneSource :=
  match s.loopOf l with
  | 1 => .ownAnalog
  | 2 => .own
  | 3 => .nothing
  | _ => .partner

/-- A lane of the test state sends a pattern of its generator (R87). -/
def State.generates (s : State) (l : Nat) : Bool :=
  (s.port (portOfLane l)).st == .test && s.son 0x0310 l 3 && s.sn 0x0310 l 2 != 0

/-- Data toward the partner (Tables 3-7 and 3-8): a lane that rests is in electrical idle, and so is a near-end serial loop unless its item
asks for the same data. -/
def State.towardPartner (s : State) (l : Nat) : LaneSource :=
  let own : LaneSource := if s.generates l then .pattern else .own
  if (s.lane l).power ≠ 0 then .nothing
  else match s.loopOf l with
    | 1 => if s.son 0x0310 l 1 then own else .nothing
    | 3 => .partner
    | _ => own

/-- OTU4_FRAME_TRANSMIT (R97, R102, R105, Table 4-3). The frame leaves while both lanes send the device's own data (R86, R88). -/
def execOtu4FrameTransmit (p : PortId) (s : State) : Res :=
  if !s.isOtn p then done s
  else
    let (r, s1) := s.draw
    let o := s.otnOf p
    let s2 := if s.towardPartner (2 * p) = .own ∧ s.towardPartner (2 * p + 1) = .own then s1.emit (.otuOverhead p (s.otuSent p r)) else s1
    done (s2.setOtn p { o with
      txMfas := (o.txMfas + 1) % 256, txMarker := (o.txMarker + 1) % 240, opuBips := s.opuBip p r :: o.opuBips.take 1 })

/-- A stage's defect after its state has held for 3 ms (Table 4-1). -/
def Stage.persist (x : Stage) (now : Nat) (was : Bool) : Bool := if x.since + ms 3 ≤ now then x.out else was

/-- OTN_PERSISTENCE_EXPIRY (R98, R99, R103, R104). -/
def execOtnPersistenceExpiry (p : PortId) (s : State) : Res :=
  if !s.isOtn p ∨ (s.port p).shed then done s
  else
    let o := s.otnOf p
    let m := o.defects
    let m1 := setRow m 2 (o.lane.persist s.now (m.testBit 1))
    let m2 := setRow m1 3 (o.frame.persist s.now (m.testBit 2))
    done (s.setDefects p (setRow m2 4 (o.multi.persist s.now (m.testBit 3))))

/-- DLOS_CLEAR_TIMEOUT (R99). -/
def execDlosClearTimeout (p : PortId) (s : State) : Res :=
  let o := s.otnOf p
  match o.sigSince with
  | some t => if t + ms 1 ≤ s.now ∧ s.isOtn p then done (s.setDefects p (setRow o.defects 1 false)) else done s
  | none => done s

/-! ### Performance (R107, R108) -/

/-- The second of an end as its port has it: classified, or unavailable while the port is shed (R107, Table 4-5). -/
def PmEnd.ended (e : PmEnd) (shed : Bool) : PmClass :=
  if shed then { blocks := 0, ses := true, es := true, defect := false, shed := true } else e.now.classify

/-- The second of one port ends (R107 to R109). -/
def State.endSecond (s : State) (p : Nat) : State :=
  let o := s.otnOf p
  let rs := o.pm.mapIdx (fun i e => e.hold (e.ended (s.port p).shed) (hasAny o.defects (sesBits.getD i 0)))
  (s.setOtn p { o with pm := rs.map (·.1) }).closeSeconds p (rs.map (·.2))

/-- OTN_SECOND_END (R107, R108): of every port in OTU4 mode. -/
def execOtnSecondEnd (s : State) : Res :=
  done ((List.range 96).foldl (fun s p => if s.isOtn p then s.endSecond p else s) s)

/-- The comparison of accepted values is made again after a command changed what is expected (R100, R110). -/
def State.recompare (s : State) (p : Nat) : State :=
  if s.isOtn p then s.setDefects p (s.compared p (s.otnOf p) (s.otnOf p).defects) else s

/-- An ODU lock command reaches port `p` (R102, Table 4-5). -/
def State.oduLock (s : State) (p : Nat) : State :=
  if s.isOtn p ∧ s.son 0x0406 p ∧ (s.port p).st = .up then (s.portDown p causeCommanded true).beginAttempt p else s

/-! ### What passes with time alone (R78, R87, R98, R102) -/

/-- `n` OTU4 frames of 1.167696 µs. -/
def otuTime (n : Nat) : Nat := ceilDiv (n * 1167696 * 9) 1000

/-- The frame stages go out, since `now`, for want of a signal (Table 4-1). -/
def Otn.goOut (o : Otn) (now : Nat) : Otn :=
  { o with
    lossAt := none
    frame := { o.frame.go true now with good := 0 }
    multi := { o.multi.go true now with good := 0 } }

/-- The ten logical lanes of physical lane `k` go out for want of a signal, and with them lane alignment (R94, Table 4-1). -/
def Otn.laneOut (o : Otn) (k now : Nat) : Otn :=
  { o with
    laneLossAt := Tab.put none o.laneLossAt k none
    lanes := o.lanes.mapIdx (fun i x => if i / 10 = k then { x with aligned := false, good := 0 } else x)
    lane := o.lane.go true now }

/-- A port's framing while no frame comes: five frames without a signal put the frame stages out, and five frame positions of a lane, which
come every 20 frames, the logical lanes of the physical lane that has lost it (R94, R98). -/
def Otn.silent (o : Otn) (now : Nat) : Otn :=
  let late (t : Option Nat) (n : Nat) : Bool := t.any (fun t => decide (t + otuTime n ≤ now))
  let o1 := if late o.lossAt 5 then o.goOut now else o
  [0, 1].foldl (fun o k => if late (Tab.get none o.laneLossAt k) 100 then o.laneOut k now else o) o1

/-- The client PCS lost lock on an earlier clock: a port that is still up goes down with the highest unmasked fault cause, or for want of one
with that of the client PCS (R101, R104, Table 4-5). -/
def State.pcsDown (s : State) (p : Nat) : State :=
  let o := s.otnOf p
  if o.pcsLostAt.any (fun t => decide (t < s.now)) then
    let s1 := s.setOtn p { o with pcsLostAt := none }
    if (s.port p).st = .up then
      (s1.portDown p (match activeRows o.defects with | r :: _ => causeDefect r | [] => causeClientPcs) false).beginAttempt p
    else s1
  else s

/-- One core clock of a port's framing: what a missing signal does to it, what a loss of PCS lock does to the port, and dAIS after three
frames of all-ones at the ODU termination (R98, R102, R104). -/
def State.otnClock (s : State) (p : Nat) : State :=
  let s1 := (s.setOtn p ((s.otnOf p).silent s.now)).pcsDown p
  let o := s1.otnOf p
  if s.isOtn p ∧ o.aisSince.any (fun t => decide (t + otuTime 3 ≤ s.now)) ∧ !hasAny o.defects aisBit then
    s1.setDefects p (o.defects ||| aisBit)
  else s1

/-- A pattern checker gains or loses lock, and counts bit errors while it has lock, to 48 bits (R87). DESIGN CHOICE (assumption 239): the count
is never cleared. -/
def Lane.check (y : Lane) (lock : Bool) (errs now : Nat) : Lane :=
  if !lock then { y with locked := false }
  else { y with locked := true, lockAt := if y.locked then y.lockAt else now, errs := min (2 ^ 48 - 1) (y.errs + errs) }

/-- One clock of the pattern checker of lane `l` (R87): a generator looped on the PCS side is found without errors, and no data, no pattern
or a lane that rests gives no lock (Table 3-8). What comes by an analog path is free (assumption 116). -/
def State.checkLane (s : State) (l : Nat) : State :=
  if (s.port (portOfLane l)).st ≠ .test ∨ !s.son 0x0310 l 4 then s
  else if (s.lane l).power ≠ 0 ∨ s.sn 0x0310 l 2 = 0 then s.modLane l (fun y => y.check false 0 s.now)
  else match s.towardDevice l with
    | .own => s.modLane l (fun y => y.check (s.generates l) 0 s.now)
    | .nothing => s.modLane l (fun y => y.check false 0 s.now)
    | _ =>
      let (r, s1) := s.draw
      s1.modLane l (fun y => y.check (Config.checkerLocks r) (Config.checkerErrors r) s.now)

/-- One core clock of the lanes and of OTN framing. -/
def State.laneClock (s : State) : State :=
  let s1 := (Tab.keys s.lanes).foldl (fun (s : State) (l : Nat) => (s.adaptLane l).checkLane l) s
  (Tab.keys s1.otn).foldl (fun (s : State) (p : Nat) => s.otnClock p) s1

end Sys2Proof.Machine
end

