-- ==== Sys2Proof/Machine/Framing.lean ====
section
/-! DEFINITION. Framing, normalisation, station addresses and selectors of command PDUs (R259 to R262, Table 11-2, Table 11-3). -/

namespace Sys2Proof.Machine

/-- A PDU cut from a segment: where it begins, its length, and whether it can be sealed (Table 11-2). -/
structure CutPdu where
  start : Nat
  len : Nat
  sealable : Bool
deriving DecidableEq, Repr

/-- Command-profile protocols (Table 11-1), coded in the table's order. -/
def protoIec : Nat := 1
def protoDnpTcp : Nat := 2
def protoDnpUdp : Nat := 3
def protoModbus : Nat := 4

/-- Length of the link frame of a DNP3 length octet: 10 bytes of header, and blocks of up to 16 bytes with a CRC of 2 (Table 11-2). -/
def dnpLength (len : Nat) : Nat :=
  let user := len - 5
  10 + user + 2 * ceilDiv user 16

/-- Length of the PDU that begins at an offset of a segment, and whether it can be sealed; none where framing fails (Table 11-2). A DNP3
frame whose transport octet does not carry both FIR and FIN holds a part of an application fragment. -/
def pduAt (protocol : Nat) (seg : Bytes) (off : Nat) : Option (Nat × Bool) :=
  let left := seg.length - off
  if protocol = protoIec then
    if left < 2 ∨ beAt seg off 1 ≠ 0x68 ∨ beAt seg (off + 1) 1 < 4 then none else some (2 + beAt seg (off + 1) 1, true)
  else if protocol = protoModbus then
    if left < 6 ∨ beAt seg (off + 2) 2 ≠ 0 ∨ beAt seg (off + 4) 2 < 2 then none else some (6 + beAt seg (off + 4) 2, true)
  else
    if left < 3 ∨ beAt seg off 2 ≠ 0x0564 ∨ beAt seg (off + 2) 1 < 5 then none
    else
      let len := beAt seg (off + 2) 1
      some (dnpLength len, decide (len = 5) || decide (beAt seg (off + 10) 1 / 64 = 3))

/-- A segment cut into PDUs from its first byte; none where framing fails or a PDU goes beyond the end (R259). -/
def cutPdus (protocol : Nat) (seg : Bytes) : Nat → Nat → Option (List CutPdu)
  | 0, off => if off = seg.length then some [] else none
  | fuel + 1, off =>
    if off = seg.length then some []
    else match pduAt protocol seg off with
      | none => none
      | some (n, ok) =>
        if seg.length < off + n then none
        else (cutPdus protocol seg fuel (off + n)).map (fun l => { start := off, len := n, sealable := ok } :: l)

/-- The user data of a DNP3 frame without its CRCs. -/
def dnpUser (b : Bytes) (user : Nat) : Bytes :=
  ((List.range (ceilDiv user 16)).map (fun i => slice b (10 + 18 * i) (min 16 (user - 16 * i)))).flatten

/-- A byte of `b` with the bits of a mask set to 0. -/
def clearBits (b : Bytes) (i : Nat) (mask : Byte) : Bytes := patch b i [b.getD i 0 &&& ~~~mask]

/-- A PDU after normalisation (Table 11-2). -/
def normalise (protocol : Nat) (b : Bytes) : Bytes :=
  if protocol = protoIec then (if (b.getD 2 0).getLsbD 0 then b else patch b 2 [0, 0, 0, 0])
  else if protocol = protoModbus then patch b 0 [0, 0]
  else
    let bare := slice b 0 8 ++ dnpUser b (beAt b 2 1 - 5)
    let b1 := clearBits bare 3 0x20
    if bare.length ≤ 8 then b1 else
      let b2 := clearBits b1 8 0x3F
      if bare.length ≤ 9 then b2 else clearBits b2 9 0x0F

/-- Station address of a PDU, as its octets stand on the wire; an APDU without an ASDU has none (Table 11-2). -/
def stationOf (protocol : Nat) (b : Bytes) : Bytes :=
  if protocol = protoIec then (if 12 ≤ b.length then slice b 10 2 else [0, 0])
  else if protocol = protoModbus then slice b 6 1
  else slice b 4 2

/-- The selector of a PDU, from the packet as it will leave (Table 11-3). -/
def selectorOf (p : Packet) (station : Bytes) : Bytes :=
  let h := parse (applyEdits p.bytes p.edits)
  addrBytes h.dst ++ natBe 2 h.dport ++ natBe 1 h.proto ++ natBe 1 p.judged ++ natBe 2 (recZone p.key) ++
  List.replicate (8 - station.length) 0 ++ station ++ List.replicate 10 0

/-- The command PDUs of a packet: those in which a match of a pattern with action 1 ends (R259). -/
def commandPdus (image : Bytes) (protocol : Nat) (p : Packet) (seg : Bytes) (cut : List CutPdu) : List Pdu :=
  (cut.filter (fun c => p.scan.matches_.any (fun (m : Nat × Nat) => decide (c.start ≤ m.1 ∧ m.1 < c.start + c.len) &&
    Config.dfaAction image m.2 == 1))).map (fun c =>
      let b := slice seg c.start c.len
      { norm := normalise protocol b, len := c.len, selector := selectorOf p (stationOf protocol b) })

/-- The command digest of a PDU: the first 32 bytes of SHA-512 over the normalised PDU, the profile and the selector (R262). -/
def commandDigest (profile : Nat) (u : Pdu) : Bytes := slice (sha512 (u.norm ++ natLe 1 profile ++ u.selector)) 0 32

end Sys2Proof.Machine
end

