-- ==== Sys2Proof/Machine/Awn.lean ====
section
/-! DEFINITION. The Awn engines, profiled work and command digests (10_match_arrays_and_automata.md, R249 to R256; R28, R29, R259,
R262). -/

namespace Sys2Proof.Machine

/-! ### Lanes -/

/-- Service state of an Awn engine: 0 in service, 1 fenced, 2 retired. -/
def State.awnState (s : State) (a : Nat) : Nat := Tab.get 0 s.awn.state a
/-- Puts the service state of an Awn engine. -/
def State.setAwn (s : State) (a v : Nat) : State := { s with awn := { s.awn with state := Tab.put 0 s.awn.state a v } }
/-- Source field of an Awn engine (Table 16-1, kind 13). -/
def srcAwn (a : Nat) : Nat := src 13 (0x400 + a)
/-- Free lanes of engines in service, lowest number first (R249). -/
def State.freeLanes (s : State) : List Nat :=
  (List.range 64).filter (fun l => s.awnState (l / 2) == 0 && (Tab.find? s.awn.lanes l).isNone)
/-- Flow of a packet has a segment in scan (R249). -/
def State.flowInScan (s : State) (key : Bytes) : Bool :=
  (Tab.values s.awn.lanes).any (fun x => (s.pkt? x.pkt).any (fun q => q.key == key))

/-- Awn profile of a packet's segment: its command profile's, or its flow profile's (R249, R258). -/
def State.awnProfile (s : State) (p : Packet) : Nat :=
  if p.judged ≠ 0 then (s.cmdProfile p).awn else (s.profile p.profile p.epoch).awn

/-- A packet may still have its segment scanned: it waits for that, or its routine is to come first (R249). -/
def State.scanAhead (s : State) (q : Packet) : Bool :=
  !q.scan.scanned && (match q.stage with
    | .waitFrame | .queued => true
    | .ready | .running | .ended => (s.profile q.profile q.epoch).command != 0
    | _ => false)
/-- An earlier packet of the flow, by R148, is still to be scanned (R249). -/
def State.earlierScan (s : State) (n : Nat) (p : Packet) : Bool :=
  s.packets.any (fun x => x.1 != n && x.2.key == p.key && s.scanAhead x.2 && (opOf x.1 x.2 p.key).before (opOf n p p.key))

/-- The oldest queued segment of a slice that lane `l` may take: the first of its flow, with none of its flow in scan (R249); after a lane
fault it takes another lane than before (R255). -/
def State.nextSegment (s : State) (l k : Nat) : Option Nat :=
  (s.workQueue k).find? (fun n => match s.pkt? n with
    | some p => p.stage == .queued && !s.flowInScan p.key && !s.earlierScan n p &&
        (Tab.find? s.awn.rescans n).all (fun x => x.avoid != some l) &&
        ((s.workQueue k).takeWhile (· != n)).all (fun m => (s.pkt? m).all (fun q => q.key != p.key || q.stage != .queued))
    | none => false)
/-- The oldest queued segment of any slice that lane `l` may take: segments that wait after a lane fault come first (R249, R255). -/
def State.oldestSegment (s : State) (l : Nat) : Option Nat :=
  let all := (List.range 8).filterMap (s.nextSegment l)
  let better (a b : Nat) : Bool :=
    let ra := (Tab.find? s.awn.rescans a).isSome
    let rb := (Tab.find? s.awn.rescans b).isSome
    if ra = rb then decide (a < b) else ra
  all.foldl (fun (b : Option Nat) n => match b with
    | none => some n
    | some m => if better n m then some n else some m) none

/-- Saved scan state of a packet's record: state and profile (R251). -/
def State.savedScan (s : State) (p : Packet) : Nat := match s.recOf p with | some b => leAt b 92 4 % 2 ^ 20 | none => 0

/-- The state at which a scan of a packet begins, as numbered in the automata memory; and whether a saved state was treated as 0 (R251,
R254). -/
def State.scanStart (s : State) (p : Packet) (x : PatternSet) : Nat × Bool :=
  let awn := s.awnProfile p
  let first := x.base + (Config.dfaStart x.image awn).getD 0
  let saved := s.savedScan p
  if !Config.dfaStream x.image awn ∨ saved = 0 then (first, false)
  else if s.scanInRange saved p.epoch then (saved, false)
  else (first, true)

/-- A packet's segment goes into a lane: a scan after a lane fault begins with the state that the first one began with (R249, R251, R255). -/
def State.intoLane (s : State) (n lane : Nat) : State :=
  match s.pkt? n with
  | none => s
  | some p => match s.patternAt p.epoch with
    | none => s
    | some x =>
      let k := sliceOf p.port
      let begun (sc : Scan) (s : State) : State :=
        let s1 := s.setWork k ((s.workQueue k).filter (· != n))
        { s1 with awn := { s1.awn with lanes := Tab.insert s1.awn.lanes lane sc, rescans := Tab.erase s1.awn.rescans n } }
      match Tab.find? s.awn.rescans n with
      | some r => begun { pkt := n, start := r.start, at_ := s.now, lost := r.lost } s
      | none =>
        let (st, restart) := s.scanStart p x
        begun { pkt := n, start := st, at_ := s.now } (if restart then s.countProfile p.profile 15 else s)

/-- The deadline of a queued segment has passed (R29, R255): it counts from the packet's stamp, without the time that it waited on fenced
pseudo-channels, or after a lane fault from the fault. -/
def State.workOver (s : State) (n : Nat) (p : Packet) : Bool :=
  p.stage == .queued && !(Tab.values s.awn.lanes).any (fun x => x.pkt == n) &&
  decide (((Tab.find? s.awn.rescans n).map (·.at_)).getD (p.at_ + p.fenced) + ns (s.sn 0x0A0A) < s.now)

/-- Segments whose deadline has passed are dropped with their packets (R29). -/
def State.dropLate (s : State) : State :=
  ((s.packets.filter (fun (x : Nat × Packet) => s.workOver x.1 x.2)).map (·.1)).foldl (fun s n => s.dropWork n) s

/-- SEGMENT_SCAN_START (R29, R249): the free lane with the lowest number takes the oldest segment that may begin in it; one past its deadline
no longer may. -/
def execSegmentScanStart (s0 : State) : Res :=
  let s := s0.dropLate
  match s.freeLanes.findSome? (fun l => (s.oldestSegment l).map (fun n => (l, n))) with
  | some (l, n) => done (s.intoLane n l)
  | none => done s

/-! ### A scan (R251, R252) -/

/-- One byte of a scan: states visited, state, and matches as end offset and pattern ID. -/
structure ScanRun where
  visited : List Nat
  state : Nat
  found : List (Nat × Nat)
deriving DecidableEq, Repr

/-- A segment scanned from a state, one transition per byte; the states are numbered in the automata memory (R250 to R252). -/
def scanRun (x : PatternSet) (start : Nat) (seg : Bytes) : ScanRun :=
  (seg.zipIdx).foldl (fun (r : ScanRun) (b : Byte × Nat) =>
    let st := x.base + Config.dfaNext x.image (r.state - x.base) b.1
    let ids := (Config.dfaAccept x.image (st - x.base)).mergeSort
    { visited := r.visited ++ [st], state := st, found := r.found ++ ids.map (fun i => (b.2, i)) }) ⟨[start], start, []⟩

/-- The result of a scan (R252, Table 10-5). -/
def scanResult (x : PatternSet) (awn : Nat) (r : ScanRun) : ScanResult :=
  let low := r.found.foldl (fun (b : Option (Nat × Nat)) m => match b with
    | none => some (m.2, m.1)
    | some y => if m.2 < y.1 then some (m.2, m.1) else some y) none
  { scanned := true, matches_ := r.found.take 32, overflow := decide (32 < r.found.length), beyond := r.found.length - 32, lowest := low,
    action := (match low with | some y => Config.dfaAction x.image y.1 | none => 0), profile := awn, state := r.state }

/-- End state and profile go into the record's scan field, in stream mode; a record that was lost during the scan takes none, nor does
one that has come into its place (R251, R256). -/
def State.saveScan (s : State) (p : Packet) (x : PatternSet) (lost : Bool) (r : ScanResult) : State :=
  if lost ∨ !Config.dfaStream x.image r.profile then s
  else match p.record with
    | .found l | .created l =>
      if s.keyAt l p.key then s.versionedWrite l p.epoch 92 4 (fun b => recPut b 92 4 (r.state % 2 ^ 20 + 2 ^ 20 * (r.profile % 64))) else s
    | _ => s

/-- A scanned command segment is cut into PDUs, and goes to step C2, to its verdict as unsealable, or past the gate (R259). -/
def State.locatePdus (s : State) (n : Nat) (x : PatternSet) : State :=
  match s.pkt? n with
  | none => s
  | some p =>
    let gp := s.cmdProfile p
    let seg := segmentOf p.bytes
    match cutPdus gp.protocol seg seg.length 0 with
    | none => s.unsealed n 2
    | some cut =>
      let us := commandPdus x.image gp.protocol p seg cut
      if cut.any (fun c => !c.sealable) then s.unsealed n 2
      else if p.scan.overflow ∨ 8 < us.length then s.unsealed n 3
      else if us.isEmpty then s.noCommand n
      else s.joinHash n { p with pdus := us }

/-- A scan has ended with its result (R251, R252): the packet goes to its routine, to step 7, or on along the command path. -/
def State.scanDone (s : State) (n : Nat) (x : PatternSet) (r : ScanResult) : State :=
  match s.pkt? n with
  | none => s
  | some p =>
    let on := if (s.profile p.profile p.epoch).hasRoutine then PktStage.ready else PktStage.step7
    let p1 := { p with scan := r, discard := p.discard || r.action == 2 }
    if p.judged = 0 then s.setPkt n { p1 with stage := on } else (s.setPkt n p1).locatePdus n x

/-! ### Faults (R255) -/

/-- The scan of a lane is given up, and its packet waits for another lane: at the head of its slice's queue, its deadline counted from now
(R255). -/
def State.requeue (s : State) (lane : Nat) (x : Scan) : State :=
  match s.pkt? x.pkt with
  | none => s
  | some p =>
    let k := sliceOf p.port
    let again : Rescan := { at_ := s.now, start := x.start, avoid := if s.awnState (lane / 2) = 0 then some lane else none, lost := x.lost }
    let s1 := { s with awn := { s.awn with lanes := Tab.erase s.awn.lanes lane, rescans := Tab.insert s.awn.rescans x.pkt again } }
    s1.setWork k (x.pkt :: s1.workQueue k)
/-- The segment of a lane that has failed is scanned again: in a free lane of another engine, or first in its queue (R255). -/
def State.rescanLane (lanes : List Nat) (s : State) (l : Nat) : State :=
  match Tab.find? s.awn.lanes l with
  | none => s
  | some x =>
    let s1 := s.requeue l x
    match s1.freeLanes.find? (fun m => !lanes.contains m) with
    | some m => s1.intoLane x.pkt m
    | none => s1

/-- The segments in the lanes of a list are scanned again: on a free lane outside it, or when one comes free (R255). -/
def State.rescanLanes (s : State) (lanes : List Nat) : State :=
  lanes.foldl (fun s l => s.rescanLane lanes l) s
/-- Segments in scan in the lanes of a list. -/
def State.inScan (s : State) (lanes : List Nat) : Nat := (lanes.filter (fun l => (Tab.find? s.awn.lanes l).isSome)).length

/-- The awn-fault event (R255): cause 1 lane state, 2 known-answer failure, 3 corrected and 4 uncorrectable automata entry. -/
def State.awnFault (s : State) (a cause again : Nat) : State := s.raise 0x0507 (srcAwn a) (natLe 1 cause ++ [0] ++ natLe 2 again)

/-- An engine is retired (R255). -/
def State.retireAwn (s : State) (a : Nat) : State := (((s.setAwn a 2).raise 0x0508 (srcAwn a) []).noteRetire).settle (64 + a)

/-- A fault in a scan (R255): a lane-state error fences the engine, or retires it at rung 2; an error of the automata memory fences
nothing. -/
def State.laneFault (s : State) (a lane : Nat) (f : AwnFault) : State :=
  match f with
  | .laneState =>
    let ls := [2 * a, 2 * a + 1]
    let n := s.inScan ls
    let s1 := ((s.setAwn a 1).rescanLanes ls).awnFault a 1 n
    let (rung, s2) := s1.openFault (64 + a) 1 a (srcAwn a) (fun r => if r = 2 then 4 else 2)
    if rung = 2 then s2.retireAwn a else s2
  | .memCorrected => (((s.noteFault 1).rescanLanes [lane]).awnFault a 3 (s.inScan [lane]))
  | .memUncorrectable entry =>
    let s1 := if s.awn.badEntries.contains entry then s else { s with awn := { s.awn with badEntries := s.awn.badEntries ++ [entry] } }
    ((s1.noteFault 1).rescanLanes [lane]).awnFault a 4 (s.inScan [lane])

/-- SEGMENT_SCAN_COMPLETE (R251, R252, R255): the scan of a lane ends; one that needs an entry being rewritten waits. -/
def execSegmentScanComplete (a : AwnId) (lane : Fin 2) (fault : Option AwnFault) (s : State) : Res :=
  let l := 2 * a.val + lane.val
  match Tab.find? s.awn.lanes l with
  | none => done s
  | some sc => match fault with
    | some f => done (s.laneFault a l f)
    | none => match s.pkt? sc.pkt with
      | none => done s
      | some p => match s.patternAt p.epoch with
        | none => done s
        | some x =>
          let seg := segmentOf p.bytes
          let run := scanRun x sc.start seg
          if run.visited.any (fun st => s.awn.badEntries.contains st) then done s
          else
            let r := scanResult x (s.awnProfile p) run
            let s1 := { s with awn := { s.awn with lanes := Tab.erase s.awn.lanes l } }
            done (((s1.saveScan p x sc.lost r).pmu (sliceOf p.port) 11 seg.length).scanDone sc.pkt x r)

/-- AUTOMATA_ENTRY_REWRITE (R255): from the master copy. -/
def execAutomataEntryRewrite (entry : Nat) (s : State) : Res :=
  done { s with awn := { s.awn with badEntries := s.awn.badEntries.filter (· != entry) } }

/-- AWN_KNOWN_ANSWER_SCAN (R255): a fenced engine that passes returns; an engine that fails is retired, and its segments are scanned
again. -/
def execAwnKnownAnswerScan (a : AwnId) (pass : Bool) (s : State) : Res :=
  let st := s.awnState a
  if st = 2 then done s
  else if pass then
    if st = 1 then done (((s.setAwn a 0).settle (64 + a.val)).faultReport 9 3 1 2 a (srcAwn a) 0) else done s
  else
    let ls := [2 * a.val, 2 * a.val + 1]
    let n := s.inScan ls
    let s1 := ((s.setAwn a 1).rescanLanes ls).awnFault a 2 n
    if st = 1 then done ((s1.retireAwn a).faultReport 9 4 1 2 a (srcAwn a) 0)
    else
      let (_, s2) := s1.openFault (64 + a.val) 2 a (srcAwn a) (fun _ => 4)
      done (s2.retireAwn a)

/-- PROFILED_WORK_DEADLINE_EXPIRY (R29, R255): a segment that has not begun its scan is dropped with its packet; after a lane fault the
deadline counts from the fault. A packet whose flow record is fenced has not yet begun to wait. -/
def execProfiledWorkDeadlineExpiry (n : Nat) (s : State) : Res :=
  match s.pkt? n with
  | none => done s
  | some p =>
    if s.workOver n p then done (s.dropWork n) else done s

/-! ### Step C2 (R262) -/

/-- Both buckets of each PDU are read (R273). -/
def State.readPermits (s : State) (us : List Pdu) : State :=
  us.foldl (fun s u =>
    let (b1, b2) := s.permitBuckets u.selector
    [b1, b2].foldl (fun s b => s.issueRead (s.permitPc b) (s.permitAddr b) b false (.permit b) 16) s) s

/-- COMMAND_DIGEST_COMPLETE (R28, R262): the engine that hashes a packet's PDUs is done with them, their permit buckets are read, and the
engine takes the next work. A faulty engine gives a wrong digest, which is free. -/
def execCommandDigestComplete (n : Nat) (wrong : Bool) (s : State) : Res :=
  match s.pkt? n with
  | none => done s
  | some p =>
    if p.stage ≠ .digest ∨ !s.isHashing n then done s
    else
      let (us, s1) := p.pdus.foldl (fun (x : List Pdu × State) (u : Pdu) =>
        if wrong then
          let (d, t) := x.2.drawBytes 32
          (x.1 ++ [{ u with digest := d }], t)
        else (x.1 ++ [{ u with digest := commandDigest p.judged u }], x.2)) ([], s)
      done (((s1.setPkt n { p with pdus := us, stage := .judge }).readPermits us).giveHashes)

end Sys2Proof.Machine
end

