-- ==== Sys2Proof/Machine/Match.lean ====
section
/-! DEFINITION. The match array: lookup, false hits, placement and relocation (10_match_arrays_and_automata.md, R238 to R248). -/

namespace Sys2Proof.Machine

/-- Row at physical index `i`. -/
def State.rowAt (s : State) (i : Nat) : Option MatchRow := Tab.find? s.matcher.rows i
/-- Puts a row. -/
def State.putRow (s : State) (i : Nat) (r : MatchRow) : State :=
  { s with matcher := { s.matcher with rows := Tab.insert s.matcher.rows i r } }
/-- The position `i` becomes a hole. -/
def State.eraseRow (s : State) (i : Nat) : State :=
  { s with matcher := { s.matcher with rows := Tab.erase s.matcher.rows i } }

/-- Row ID, bank, priority and order key of a record (Table 10-2). -/
def rowId (r : Bytes) : Nat := leAt r 80 2
def rowBank (r : Bytes) : Nat := leAt r 82 1
def rowPriority (r : Bytes) : Nat := leAt r 83 1 % 16
def rowOrder (r : Bytes) : Nat := leAt r 84 4
def rowAction (r : Bytes) : Nat := leAt r 88 1
def rowFlags (r : Bytes) : Nat := leAt r 89 1

/-- A row version is one that epoch `e` finds (R242). -/
def MatchRow.visible (x : MatchRow) (e : Nat) : Bool :=
  x.bale.isNone && decide (x.from_ ≤ e) && x.till.all (fun t => decide (e ≤ t))

/-- Every compared bit is equal (R239). -/
def rowMatches (r key : Bytes) : Bool :=
  (List.range 40).all (fun i => (r.getD i 0 &&& r.getD (40 + i) 0) == (key.getD i 0 &&& r.getD (40 + i) 0))

/-- Selector of bank `b` under epoch `e`: enable, value and mask; disabled until a bale sets it (R240). -/
def State.bankSelector (s : State) (b e : Nat) : Bool × Nat × Nat :=
  match s.objAt (objKey .matchBank b) e with
  | some r => (leAt r 1 1 != 0, leAt r 2 1, leAt r 3 1)
  | none => (false, 0, 0)

/-- A lookup searches bank `b` for a class byte (R240). -/
def State.bankSearched (s : State) (b e cls : Nat) : Bool :=
  let (on, v, m) := s.bankSelector b e
  on && (cls &&& m) == v

/-- Matching rows of a key under an epoch, by physical index (R242). -/
def State.matchingRows (s : State) (key : Bytes) (e : Nat) : List (Nat × MatchRow) :=
  s.matcher.rows.filter (fun x => x.2.visible e && rowMatches x.2.rec_ key && s.bankSearched (x.1 / 256) e (leAt key 0 1))

/-- The better of two rows: higher priority, then lower physical index (R242). -/
def betterRow (a b : Nat × MatchRow) : Bool :=
  decide (rowPriority b.2.rec_ < rowPriority a.2.rec_ ∨ (rowPriority a.2.rec_ = rowPriority b.2.rec_ ∧ a.1 < b.1))

/-- The winner and the row that ties with it, if one does. A row that stands twice during a relocation step ties with itself
(R246). -/
def winnerOf (rows : List (Nat × MatchRow)) : Option ((Nat × MatchRow) × Option (Nat × MatchRow)) :=
  let pick (l : List (Nat × MatchRow)) : Option (Nat × MatchRow) := l.foldl (fun b x => match b with
    | none => some x
    | some y => if betterRow x y then some x else some y) none
  match pick rows with
  | none => none
  | some w => some (w, pick (rows.filter (fun x => x.1 != w.1 && rowPriority x.2.rec_ == rowPriority w.2.rec_)))

/-- A cell of a slice's array differs from its SRAM copy: the row waits for its rewrite (R244). -/
def State.markBadRow (s : State) (k i : Nat) : State :=
  let m := 65536 * k + i
  if s.matcher.bad.contains m then s else { s.noteFault 1 with matcher := { s.matcher with bad := s.matcher.bad ++ [m] } }

/-- A false hit is skipped and reported, and its rewrite is ordered (R244). -/
def State.falseHit (s : State) (k i : Nat) : State := (s.markBadRow k i).raise 0x0408 (src 5 k) (natLe 2 i)

/-- A tie is counted, kept and reported (R242). -/
def State.noteTie (s : State) (k winner next : Nat) : State :=
  let s1 := (s.countSlice k 0).pmu k 13
  ({ s1 with matcher := { s1.matcher with lastTie := Tab.insert s1.matcher.lastTie k (winner, next) } }).raiseLimited
    0x0407 (src 5 k) (sec 1) (natLe 2 winner ++ natLe 2 next) 4

/-- The match lookup of slice `k`: the winning row, with what the lookup reports (R242, R244). `false_` are the physical indexes
that match wrongly in this lookup: each is a false hit and is passed over; `miss` are those that a corrupted cell makes miss, which no
lookup sees. -/
def State.matchLookup (s : State) (k : Nat) (key : Bytes) (e : Nat) (false_ miss : List Nat) : Option MatchRow × State :=
  let s1 := false_.foldl (fun s i => s.falseHit k i) s
  match winnerOf ((s.matchingRows key e).filter (fun x => !(false_.contains x.1 || miss.contains x.1))) with
  | none => (none, s1)
  | some (w, next) =>
    let s2 := match next with
      | some n => s1.noteTie k (rowId w.2.rec_) (rowId n.2.rec_)
      | none => s1
    (some w.2, s2.count 5 (65536 * k + rowId w.2.rec_))

/-- MATCH_ROW_REWRITE (R244): from the master copy. -/
def execMatchRowRewrite (k : SliceId) (idx : Nat) (s : State) : Res :=
  done { s with matcher := { s.matcher with bad := s.matcher.bad.filter (· != 65536 * k.val + idx) } }

/-- MATCH_ROW_SCRUB (R244): a row that differs is rewritten, and reported. -/
def execMatchRowScrub (k : SliceId) (idx : Nat) (differs : Bool) (s : State) : Res :=
  let was := s.matcher.bad.contains (65536 * k.val + idx)
  if differs ∨ was then
    let s1 := { s with matcher := { s.matcher with bad := s.matcher.bad.filter (· != 65536 * k.val + idx) } }
    done ((if was then s1 else s1.noteFault 1).raise 0x0408 (src 5 k) (natLe 2 idx))
  else done s

/-! ### Holes and relocation (R245 to R248) -/

/-- The hole interval I (R245). -/
def State.holeInterval (s : State) : Nat := s.sn 0x0A04

/-- Rows of bank `b`, any version, with their positions. -/
def State.bankRows (s : State) (b : Nat) : List (Nat × MatchRow) := s.matcher.rows.filter (fun x => x.1 / 256 == b)

/-- Committed rows of bank `b`, distinct by row ID. -/
def State.committedRows (s : State) (b : Nat) : Nat :=
  (((s.bankRows b).filter (fun x => x.2.bale.isNone && x.2.till.isNone)).map (fun x => rowId x.2.rec_)).dedup.length

/-- A free position of bank `b`, nearest to position `j`; the lower one of two at one distance. -/
def State.nearestHole (s : State) (b j : Nat) : Option Nat :=
  (List.range 256).foldl (fun best i =>
    if (s.rowAt (256 * b + i)).isSome then best
    else
      let d (x : Nat) := if x < j then j - x else x - j
      match best with
      | none => some i
      | some k => if d i < d k then some i else some k) none

/-- One relocation step: the row at `src` is copied to the free adjacent position `dst`, and then leaves its own (R246). A rewrite that was
due has come first, and the row's copy moves with it (R256). -/
def State.relocate (s : State) (src dst : Nat) : State :=
  match s.rowAt src, s.rowAt dst with
  | some r, none =>
    let s1 := (s.putRow dst r).eraseRow src
    { s1 with matcher := { s1.matcher with bad := s1.matcher.bad.filter (fun m => m % 65536 != src) } }
  | _, _ => s

/-- Rows move one by one until the hole at `h` lies at `j` (R246, R247): from `h` toward `j`. -/
def State.moveHole (s : State) (b h j : Nat) : State :=
  if h ≤ j then (List.range (j - h)).foldl (fun s i => s.relocate (256 * b + h + i + 1) (256 * b + h + i)) s
  else (List.range (h - j)).foldl (fun s i => s.relocate (256 * b + h - i - 1) (256 * b + h - i)) s

/-- A new version of a row goes where its order key requires, right after an older version of it (R247): the rows of lower order
stay below it. The distance of a hole counts from the last of those rows, as in the example of R247. -/
def State.placeRow (s : State) (r : MatchRow) : Option State :=
  let b := rowBank r.rec_
  let below := (s.bankRows b).filter (fun x => decide (rowOrder x.2.rec_ ≤ rowOrder r.rec_))
  let first := below.foldl (fun m x => max m (x.1 % 256 + 1)) 0
  match s.nearestHole b (first - 1) with
  | none => none
  | some h =>
    if h < first then
      let s1 := s.moveHole b h (first - 1)
      some (s1.putRow (256 * b + first - 1) r)
    else
      let s1 := s.moveHole b h first
      some (s1.putRow (256 * b + first) r)

/-! ### Spacing (R245, R248) -/

/-- The first position from `j` on that is no hole of the spacing. -/
def upFrom (i j : Nat) : Nat := if j % i = i - 1 then j + 1 else j
/-- The last position up to `j` that is no hole of the spacing. -/
def downFrom (i j : Nat) : Nat := if j % i = i - 1 then j - 1 else j

/-- Where rows at ascending positions may go upward: each at its own place or above it, off the holes of interval `i`, in order. `next` is
the first place still free. -/
def spreadUp (i : Nat) : Nat → List Nat → List Nat
  | _, [] => []
  | next, p :: ps => let q := upFrom i (max next p); q :: spreadUp i (q + 1) ps

/-- Places pulled back below the end of the bank, off the holes of interval `i`, in order: the places, and the first one past them. -/
def pullDown (i : Nat) : List Nat → List Nat × Nat
  | [] => ([], 256)
  | q :: qs =>
    let rest := pullDown i qs
    let r := min q (downFrom i (rest.2 - 1))
    (r :: rest.1, r)

/-- Positions of the rows of bank `b`, ascending. -/
def State.rowPlaces (s : State) (b : Nat) : List Nat := (List.range 256).filter (fun j => (s.rowAt (256 * b + j)).isSome)

/-- Every hole of the interval is free in bank `b` (R245). -/
def State.spaced (s : State) (b : Nat) : Bool := let i := s.holeInterval; (s.rowPlaces b).all (fun j => j % i != i - 1)

/-- Where relocation takes each row of bank `b`: place, and place in a spaced bank. A bank that shadow versions fill beyond its committed
rows cannot be spaced, and its rows stay (R245). -/
def State.spacing (s : State) (b : Nat) : List (Nat × Nat) :=
  let i := s.holeInterval
  let ps := s.rowPlaces b
  if 256 - 256 / i < ps.length then ps.map (fun p => (p, p)) else ps.zip (pullDown i (spreadUp i 0 ps)).1

/-- A step from `src` to `dst` brings its row nearer to its place in a spaced bank (R245). -/
def State.stepSpaces (s : State) (src dst : Nat) : Bool :=
  (s.spacing (src / 256)).any (fun x => x.1 == src % 256 && (if src < dst then decide (x.1 < x.2) else decide (x.2 < x.1)))

/-- Banks whose respacing is done leave the list, and the end of the last one is reported (R248). -/
def State.settleSpacing (s : State) : State :=
  let rest := s.matcher.respacing.filter (fun b => !s.spaced b)
  let s1 := { s with matcher := { s.matcher with respacing := rest } }
  if rest.isEmpty ∧ !s.matcher.respacing.isEmpty then s1.raise 0x0409 srcDevice (natLe 1 s.holeInterval) else s1

/-- MATCH_RELOCATION_STEP (R201, R245, R246): a service engine moves one row one position within its bank toward the spacing, which keeps
the order; each slice's engines do so in its own copy of the array. A row that waits for its rewrite does not move before it (R256). -/
def execMatchRelocationStep (src dst : Nat) (s : State) : Res :=
  if (List.range 8).any s.sweeps ∧ s.matcher.bad.all (fun m => m % 65536 != src) ∧ src / 256 = dst / 256 ∧ (src + 1 = dst ∨ dst + 1 = src) ∧
      src < 65536 ∧ dst < 65536 ∧ s.stepSpaces src dst then
    done ((List.range 8).foldl (fun (s : State) k => if s.sweeps k then s.safePoint k else s) (s.relocate src dst)).settleSpacing
  else done s

/-- A change of the hole interval begins the respacing of every bank that is not spaced (R248). -/
def State.respace (s : State) : State :=
  let banks := (List.range 256).filter (fun b => !s.spaced b)
  let s1 := { s with matcher := { s.matcher with respacing := banks } }
  if banks.isEmpty then s1.raise 0x0409 srcDevice (natLe 1 s.holeInterval) else s1

end Sys2Proof.Machine
end

