-- ==== Sys2Proof/Machine/Ingress.lean ====
section
/-! DEFINITION. The frame path from the first bit to the lookups: parse, ingress class, buffer, source and destination lookups,
policers and windows (Table 1-2 steps 1 to 4; R20, R62, R63, R84, R116, R123 to R127, R243, R295). -/

namespace Sys2Proof.Machine

/-! ### The frame check sequence -/

/-- What the FCS field of a received frame says of it (R309, R310). -/
inductive FcsState where
  | good
  | stomped
  | error
deriving DecidableEq, Repr

/-- The frame check of a frame, FCS included. -/
def fcsOf (bs : Bytes) : FcsState :=
  let c := fcs (bs.take (bs.length - 4))
  let f := bs.drop (bs.length - 4)
  if bs.length < 4 then .error
  else if f = fcsBytes c then .good
  else if f = fcsBytes (~~~c) then .stomped
  else .error

/-- The frame check of a frame is counted against its ingress port (R310). -/
def State.countFcs (s : State) (p : Nat) (bs : Bytes) : State :=
  match fcsOf bs with
  | .good => s
  | .stomped => s.countPort p 5
  | .error => s.countPort p 4

/-! ### Buffers (R295, R299) -/

/-- A class is privileged (R299). -/
def State.privileged (s : State) (c : Nat) : Bool := (s.sn 0x0C03).testBit c

/-- The pools a frame of a hint fits, smallest first (R295). -/
def poolsFor (hint : Nat) : List Nat := (List.range 6).filter (fun i => decide (hint ≤ bufSize i))

/-- A pool gives a buffer to a packet: a black pool gives none to one that is not privileged (R295, Table 12-2). -/
def State.poolGives (s : State) (priv : Bool) (i : Nat) : Bool :=
  decide (0 < s.poolFree i) && (priv || (s.poolOf i).level != 3)

/-- The pool whose buffer a packet takes, and whether it is a spill (R295). -/
def State.choosePool (s : State) (hint : Nat) (priv : Bool) : Option (Nat × Bool) :=
  let ps := poolsFor hint
  (ps.find? (s.poolGives priv)).map (fun i => (i, ps.head? != some i))

/-! ### The work on one frame -/

/-- A frame on its way through steps 3 and 4: the state, its packet and its parse; `gone` once it is discarded or dropped; `cores` is 1 for
a copy to the management cores and 2 for a packet that goes to them alone. -/
structure Work where
  s : State
  x : Packet
  h : Parsed
  gone : Bool := false
  cores : Nat := 0
deriving DecidableEq, Repr

/-- The frame is discarded after `cnt` has counted it. -/
def Work.stop (w : Work) (cnt : State → State) : Work := { w with s := cnt w.s, gone := true }

/-- The next step is taken unless the frame is gone. -/
def Work.next (w : Work) (f : Work → Work) : Work := if w.gone then w else f w

/-- The packet, or with `kind` 1 a copy of it, goes to the management cores, once its policer has judged it (R84, R126, R243). -/
def Work.toCores (w : Work) (kind : Nat) : Work := { w with cores := max kind w.cores }

/-- The dest that a learned entry of port `p` takes: its aggregation group, or the port (R113, R116). -/
def State.learnDest (s : State) (p : Nat) : Nat := match s.lagOfPort p with | some g => 0x8000 + g | none => p

/-- The source lookup, with its learn, move and violation actions (R116 to R119). -/
def Work.source (e : LookupFaults) (w : Work) : Work :=
  let p := w.x.port
  let k := sliceOf p
  let act := w.s.sn 0x0502 p
  let dest := w.s.learnDest p
  let req : LearnReq := { stamp := w.x.stamp.angle, port := p, vid := w.x.vid, mac := w.h.smac, dest := dest }
  if isGroupMac w.h.smac then w.stop (fun s => s.countPort p 20)
  else
    let hit := (w.s.mac k).lookup w.x.vid w.h.smac w.x.epoch
    let s1 := match hit with | some (i, _) => if e.macSrc then w.s.macParity k i else w.s | none => w.s
    let w1 := { w with s := s1 }
    match (if e.macSrc then none else hit) with
    | none =>
      if act = 0 then { w1 with s := s1.queueLearn k req }
      else if act = 1 then w1
      else w1.stop (fun s => s.countPort p 20)
    | some (i, m) =>
      if m.dest = dest then { w1 with s := s1.putMac k i (m.sourceHit s1.now) }
      else if act = 2 then w1.stop (fun s => s.countPort p 20)
      else if m.static then
        if w.s.sn 0x0503 p = 1 then w1.stop (fun s => s.countSlice k 7) else { w1 with s := s1.countSlice k 7 }
      else { w1 with s := s1.queueLearn k req }

/-- Port dests of a packet replaced by a dest field's (R243). -/
def Work.redirect (w : Work) (d : Nat) : Work :=
  { w with x := w.s.chosen w.x (w.s.resolveDest d w.h w.x.vid w.x.epoch) }

/-- What the match lookup's winner sets: class, profile, zone, and a Chaff request one in N_row (R243, R317). -/
def Work.rowFields (w : Work) (r : Bytes) : Work :=
  let k := sliceOf w.x.port
  let f := rowFlags r
  let x := { w.x with
    row := some (rowId r)
    cls := if f.testBit 0 then leAt r 92 1 % 8 else w.x.cls
    profile := if f.testBit 1 then leAt r 93 1 else w.x.profile
    zone := if f.testBit 2 then leAt r 94 2 else w.x.zone }
  if f.testBit 4 then
    let n := Tab.get 0 w.s.core.rowReq k + 1
    let hit := decide (w.s.sn 0x0C12 k ≤ n)
    { w with
      s := { w.s with core := { w.s.core with rowReq := Tab.put 0 w.s.core.rowReq k (if hit then 0 else n) } }
      x := { x with chaff := if hit then 3 else x.chaff } }
  else { w with x := x }

/-! ### Destinations -/

/-- A packet is for a router MAC of its ingress VLAN (R126). DESIGN CHOICE (assumption 242): one that is neither IPv4 nor IPv6 is
bridged. -/
def State.isRouted (s : State) (v : Vlan) (e : Nat) (h : Parsed) : Bool :=
  h.isIp && (List.range 256).any (fun i => v.routers.testBit i && s.routerMac i e == some h.dmac)

/-- The address by which a packet is routed, and its family. -/
def Parsed.routeKey (h : Parsed) : Nat × Nat := if h.ver = 4 then (4, h.dst % 2 ^ 32) else (6, h.dst)

/-- The entries that a route lookup reaches in slice `k`, as marks (R126, R129): the prefix, whose number is its object key, the group, and
the next hop, be it the prefix's or the group's. -/
def RouteHit.marks (hit : RouteHit) (k : Nat) (hop : Option Nat) : List Nat :=
  badRoute k 0 hit.key :: ((if hit.result = 1 then [badRoute k 2 hit.index] else []) ++ (hop.toList.map (fun i => badRoute k 1 i)))

/-- A route entry has a parity error, and stays bad until its refresh (R129). -/
def State.markRoute (s : State) (m : Nat) : State :=
  if s.bridge.badRoutes.contains m then s else { s.noteFault 1 with bridge := { s.bridge with badRoutes := s.bridge.badRoutes ++ [m] } }

/-- The packet takes next hop `i` (R126). -/
def Work.hop (w : Work) (i : Nat) : Work := { w with x := w.s.takeHop w.x i }

/-- Routing discards the packet and counts it in its slice: 0 no route, 1 TTL or hop limit, 2 parity error (R127, R129). Table 20-2 gives
these counts no identifier (assumption 149). -/
def Work.noRoute (w : Work) (kind : Nat) : Work :=
  w.stop (fun s => { s with bridge := { s.bridge with
    routeDrops := Tab.modify 0 s.bridge.routeDrops (4 * sliceOf w.x.port + kind) (fun v => countUp v 1) } })

/-- The next hop that a resolved prefix leads a packet to, through its group where it names one (R126, R131). DESIGN CHOICE (assumption
245): the multipath seed of setting 0x050C is that of group 0. -/
def Work.hopOf (w : Work) (hit : RouteHit) : Option Nat :=
  match hit.result with
  | 0 => some hit.index
  | 1 =>
    let hops := w.s.multipath hit.index w.x.epoch
    hops[w.h.slot w.x.vid (w.s.sn 0x050C 0 1) % hops.length]?
  | _ => none

/-- Routing (R126, R127, R129). DESIGN CHOICE (assumption 243): the TTL or hop limit is judged before the prefix lookup. -/
def Work.route (e : LookupFaults) (w : Work) : Work :=
  let k := sliceOf w.x.port
  if w.h.ttl ≤ 1 then
    if w.s.son 0x050B then w.toCores 2 else w.noRoute 1
  else
    let (fam, addr) := w.h.routeKey
    match w.s.routeLookup fam addr w.x.epoch with
    | none => w.noRoute 0
    | some hit =>
      let hop := w.hopOf hit
      let marks := hit.marks k hop
      let fresh := e.route.bind (fun t => marks.find? (fun m => m / 8 % 4 == routeTableNum t))
      match fresh with
      | some m => ({ w with s := w.s.markRoute m }).noRoute 2
      | none =>
        if marks.any (fun m => w.s.bridge.badRoutes.contains m) then w.noRoute 2
        else match hit.result, hop with
        | 2, _ => w.toCores 2
        | 3, _ => w.stop (fun s => s)
        | _, some i => w.hop i
        | _, none => w.stop (fun s => s)

/-- A destination entry names the packet's own ingress port or the group of it (R124). -/
def State.ownDest (s : State) (p d : Nat) : Bool :=
  match destOf d with
  | .port q => q == p
  | .group g => s.lagOfPort p == some g

/-- The packet is flooded in its VLAN (R124). -/
def Work.flood (w : Work) (v : Vlan) : Work :=
  { w with x := { w.x with dests := w.s.floodPorts v w.x.port, flood := true, lagSlot := none } }

/-- The bridging decision (R124). `redirected` tells that a match row replaces the egress, so that neither discard of R124
applies. -/
def Work.bridge (e : LookupFaults) (v : Vlan) (redirected : Bool) (w : Work) : Work :=
  let p := w.x.port
  let k := sliceOf p
  let hit := (w.s.mac k).lookup w.x.vid w.h.dmac w.x.epoch
  let s1 := match hit with | some (i, _) => if e.macDst then w.s.macParity k i else w.s | none => w.s
  let w1 := { w with s := s1 }
  match (if e.macDst then none else hit) with
  | none => w1.flood v
  | some (_, m) =>
    if redirected then w1
    else if s1.ownDest p m.dest then w1.stop (fun s => s.countPort p 23)
    else
      let (ds, slot) := s1.resolveDest m.dest w1.h w1.x.vid w1.x.epoch
      if ds.any (fun q => !v.members.testBit q) then w1.stop (fun s => s.countPort p 22)
      else { w1 with x := s1.chosen w1.x (ds, slot) }

/-! ### Policers and windows -/

/-- The policer of a packet's frame kind, if Table 3-6 gives one (R84). DESIGN CHOICE (assumption 220): where several rows of the table
fit a packet, the first that stands in it does. -/
def kindPolicer (kind : FrameKind) (x : Packet) (h : Parsed) (cores : Bool) : Option Nat :=
  match kind with
  | .slow | .lldp => some 8
  | .ptp => some 9
  | .arpNd => some 10
  | .permit => some 11
  | .pause => none
  | .plain =>
    if cores then some 12
    else if h.dmac = broadcastMac then some 13
    else if isGroupMac h.dmac then some 14
    else if x.flood then some 15
    else none

/-- The policer that judges what arrives at port `p` with class `cls`: that of its kind if it is enabled, otherwise the class's (R84). -/
def State.policerFor (s : State) (p : Nat) (kind : Option Nat) (cls : Nat) : Nat :=
  match kind with
  | some n => if (s.policerSet p n).enabled then n else cls
  | none => cls

/-- The packet is judged by exactly one policer (R84): that of its frame kind if it is enabled, otherwise that of its ingress
class, which judges all green while it is disabled. -/
def Work.police (kind : FrameKind) (w : Work) : Work :=
  let p := w.x.port
  let i := w.s.policerFor p (kindPolicer kind w.x w.h (w.cores != 0)) w.x.inCls
  if !(w.s.policerSet p i).enabled then w
  else
    let (c, s1) := w.s.judgePolicer p i w.x.bytes.length
    let w1 := { w with s := s1 }
    if c = 2 then w1.stop (fun s => s.countPort p (32 + i))
    else if c = 1 then { w1 with s := s1.countPort p (48 + i), x := { w.x with yellow := true } }
    else w1

/-- What the policer has let pass is delivered to the management cores; a packet that goes to them alone ends there (R126, R243). -/
def Work.deliver (w : Work) : Work :=
  if w.cores = 0 then w else { w with s := w.s.emit (.cores w.x.port w.x.bytes), gone := w.cores == 2 }

/-- The window opening in which an angle stamp lies, as cycle · N + k (R62). -/
def Window.openingOf (d : Window) (stamp : Nat) : Option Nat :=
  let cyc := stamp / 65536
  let a := stamp % 65536
  (List.range d.n).findSome? (fun k =>
    let o := (k * 65536 / d.n + d.offset) % 65536
    let past := (a + 65536 - o) % 65536
    if past < d.width then some ((if a < o then cyc - 1 else cyc) * d.n + k) else none)

/-- The action of a window, where its enforce mask covers the Tiller state (R63). -/
def Work.windowAct (w : Work) (d : Window) : Work :=
  if !d.mask.testBit w.s.tiller.st.code then w
  else if d.action = 0 then w.stop (fun s => s)
  else if d.action = 1 then { w with x := { w.x with cls := d.tc % 8 } }
  else w

/-- A frame is checked against a window descriptor (R62, R63). -/
def Work.window (w : Work) (i : Nat) : Work :=
  match w.s.window i w.x.epoch with
  | none => w
  | some d =>
    let idx := 4096 * sliceOf w.x.port + i
    match d.openingOf w.x.stamp.angle with
    | none => { w with s := w.s.count 6 (4 * idx + 1) }.windowAct d
    | some o =>
      let u := Tab.get {} w.s.sched.windowUse idx
      let n := if u.opening = o then u.count + 1 else 1
      let s1 := { w.s with sched := { w.s.sched with windowUse := Tab.put {} w.s.sched.windowUse idx { opening := o, count := n } } }
      if d.limit ≠ 0 ∧ d.limit < n then { w with s := s1.count 6 (4 * idx + 2) }.windowAct d
      else { w with s := s1.count 6 (4 * idx) }

/-! ### Step 4 and what follows it -/

/-- The window descriptor that a packet's match row names, or else its flow profile (R62). -/
def Work.windowOf (row : Option Bytes) (w : Work) : Option Nat :=
  match row with
  | some r => if (rowFlags r).testBit 3 then some (leAt r 96 2 % 4096) else Tab.get none w.s.sched.profileWindow w.x.profile
  | none => Tab.get none w.s.sched.profileWindow w.x.profile

/-- A packet of a scheduled stream is checked against its window (R62, R63). -/
def Work.windowed (row : Option Bytes) (w : Work) : Work :=
  match w.windowOf row with
  | some i => w.window i
  | none => w

/-- The winner's copy and redirect (R243). -/
def Work.rowAct (r : Bytes) (w : Work) : Work :=
  if w.cores = 2 then w else if rowAction r = 2 then w.toCores 1 else if rowAction r = 3 then w.redirect (leAt r 90 2) else w

/-- The lookups of step 4, in the order in which their results combine (R20, R84, R116, R123 to R127, R243). -/
def Work.lookups (e : LookupFaults) (kind : FrameKind) (w : Work) : Work :=
  let k := sliceOf w.x.port
  let v := w.s.vlan w.x.vid w.x.epoch
  let w0 := { w with x := { w.x with profile := v.profile, zone := v.zone, untagged := v.untagged } }.source e
  let (row, s1) := w0.s.matchLookup k (w.h.matchKey v.group w.x.vid w.x.pcp w.x.port) w.x.epoch e.matchFalse e.matchMiss
  let w1 := { w0 with s := s1 }
  let w2 := match row with | some r => w1.next (fun w => w.rowFields r.rec_) | none => w1
  let act := match row with | some r => rowAction r.rec_ | none => 0
  let w3 := if act = 1 then w2.next (fun w => w.stop (fun s => s)) else w2
  let w4 := w3.next (fun w => if w.s.isRouted v w.x.epoch w.h then w.route e else w.bridge e v (act == 3))
  let w5 := match row with | some r => w4.next (fun w => w.rowAct r.rec_) | none => w4
  let w6 := if w5.cores = 2 then w5 else w5.next (fun w => w.windowed (row.map (fun r => r.rec_)))
  (w6.next (fun w => w.police kind)).next Work.deliver

/-- The ingress sampler of a packet's port (R317). -/
def Work.inSampler (w : Work) : Work :=
  let p := w.x.port
  let n := w.s.sn 0x0C11 p 0
  if n = 0 then w
  else
    let q := w.s.port p
    let (hit, l, g, s1) := w.s.samplerStep n q.inLfsr q.inGap
    { w with s := s1.modPort p (fun q => { q with inLfsr := l, inGap := g })
             x := { w.x with chaff := if hit ∧ w.x.chaff = 0 then 1 else w.x.chaff } }

/-! ### Admission to a slice's contexts, and step 5 -/

/-- No context and no ingress buffer is left for a packet that needs a routine (R184). -/
def State.contextsFull (s : State) (k : Nat) : Bool :=
  decide (s.contexts k = 4096) &&
  decide (Config.ingressBuffer ≤ (s.packets.filter (fun (x : Nat × Packet) => sliceOf x.2.port == k && x.2.stage == .ready)).length)

/-- A packet past step 4: it asks for its flow record when its profile has a record mode, and goes on to step 6 otherwise (R20, R33,
R136). -/
def State.toStep5 (s : State) (n : Nat) (x : Packet) (h : Parsed) : State :=
  let pr := s.profile x.profile x.epoch
  if h.isIp ∧ pr.mode ≠ 0 ∧ x.profile ≠ 0 then
    let key := h.key x.profile x.zone
    let y := { x with key := key, record := .wanted, stage := .lookedUp }
    let s1 := (s.setPkt n y).issueOp n y key
    match s.findRec key x.epoch with
    | some l => s1.issuePair n y l
    | none => s1
  else (s.setPkt n x).toStep6 n

/-- A packet that ends at step 4 is sampled if a sample is asked for, and its buffer returns (R295, R317). -/
def Work.ended (w : Work) (n : Nat) (discarded dropped : Bool) : State :=
  let s1 := w.s.countFcs w.x.port w.x.bytes
  (if w.x.chaff = 0 then s1 else s1.takeSample n w.x 0xFF discarded dropped).giveBuffer w.x.pool

/-- The packet leaves step 4 into step 5, unless its slice has no room for its routine (R184, R295). -/
def Work.finish (w : Work) (n : Nat) : State :=
  let k := sliceOf w.x.port
  if w.gone then w.ended n true false
  else if (w.s.profile w.x.profile w.x.epoch).hasRoutine ∧ w.s.contextsFull k then
    { w with s := w.s.countSlice k 9 }.ended n false true
  else w.s.toStep5 n w.x w.h

/-! ### Frames that end at the port -/

/-- A frame that the port consumes, once the policer `kind` of its kind or that of its class has judged it (R84); what it carries comes
as a command of its own. -/
def State.consume (s : State) (p kind : Nat) (bs : Bytes) : State :=
  let i := s.policerFor p (some kind) (s.ingressClass p (parse bs))
  if (s.policerSet p i).enabled then
    let (c, s1) := s.judgePolicer p i bs.length
    if c = 2 then s1.countPort p (32 + i) else if c = 1 then s1.countPort p (48 + i) else s1
  else s

/-- The ports whose store-and-forward is on, one bit each (R74). -/
def State.storePorts (s : State) : Nat := (List.range 96).foldl (fun n q => if s.son 0x0303 q then n + 2 ^ q else n) 0

/-- The packet of a frame that arrives on a port (R20, R30, R296). -/
def State.newPacket (s : State) (p : Nat) (bs : Bytes) (hint pool : Nat) (spilled : Bool) (vid pcp : Nat) (tagged : Bool) (cls : Nat) : Packet :=
  { port := p, bytes := bs, stamp := s.stamp, at_ := s.now, epoch := s.bales.epoch, stage := .lookedUp, hint := hint
    pool := pool, spilled := spilled, vid := vid, pcp := pcp, tagged := tagged, inCls := cls, cls := cls
    sfPorts := s.storePorts, privMask := s.sn 0x0C03 }

/-- A packet takes its number and its buffer; a spill is counted (R295, R453). -/
def State.takeNumber (s : State) (p pool : Nat) (spilled : Bool) (hint : Nat) (x : Packet) : State :=
  let s1 := ({ s with nextPkt := s.nextPkt + 1 }.takeBuffer pool).pmu (sliceOf p) 2 1 (some x)
  if spilled then (s1.count 10 (256 * (poolsFor hint).headD 0)).pmu (sliceOf p) 15 1 (some x) else s1

/-- A frame takes a buffer and a packet, and goes through steps 3 and 4 (R20, R295, R296, R304). -/
def State.enterFrame (s : State) (p : Nat) (bs : Bytes) (e : LookupFaults) (h : Parsed) (kind : FrameKind) (vid pcp : Nat)
    (tagged : Bool) : State :=
  let cls := s.ingressClass p h
  let hint := h.hint (s.sn 0x0C05 p)
  match s.choosePool hint (s.privileged cls) with
  | none => (s.countPort p 11).countFcs p bs
  | some (pool, spilled) =>
    let x := s.newPacket p bs hint pool spilled vid pcp tagged cls
    let w : Work := { s := s.takeNumber p pool spilled hint x, x := x, h := h }
    (w.lookups e kind).inSampler.finish s.nextPkt

end Sys2Proof.Machine
end

