-- ==== Sys2Proof/Machine/Pressure.lean ====
section
/-! DEFINITION. Frames arrive and complete, bad frames are judged, and back-pressure is sent, refreshed and limited (R305, R309, R310,
R297). -/

namespace Sys2Proof.Machine

/-- FRAME_ARRIVAL (R20, R84, R123, R295, R296, R304, R401). -/
def execFrameArrival (p : PortId) (bytes : Bytes) (e : LookupFaults) (s : State) : Res :=
  let q := s.port p
  if q.sliceDown then done (s.countPort p 16)
  else if !q.isUp then done s
  else
    let s1 := (s.countPort p 0).countPort p 1 bytes.length
    let h := parse bytes
    match s.frameKind p s.bales.epoch bytes h with
    | .pause => done (s1.countFcs p bytes)
    | kind =>
      match s.ingressVlan p s.bales.epoch h with
      | .discard => done ((s1.countPort p 22).countFcs p bytes)
      | .vlan vid pcp tagged =>
        if kind = .slow then done ((s1.consume p 8 bytes).countFcs p bytes)
        else if kind = .permit then done ((s1.consume p 11 bytes).countFcs p bytes)
        else if kind = .ptp ∧ s.ptpPort p then done ((s1.consume p 9 bytes).countFcs p bytes)
        else done (s1.enterFrame p bytes e h kind vid pcp tagged).xoffCheck

/-! ### The end of reception (R297, R309) -/

/-- The waiting copies of a packet are voided, and `cnt` counts each at its port; with none being sent, the buffer returns (R309,
R316). -/
def State.voidWaiting (s : State) (n : Nat) (cnt : Nat → State → State) : State :=
  match s.pkt? n with
  | none => s
  | some x =>
    let s1 := (x.copies.filter (fun (c : Copy) => c.state == .waiting)).foldl (fun s (c : Copy) => cnt c.port s) s
    let copies := x.copies.map (fun (c : Copy) => if c.state = .waiting then { c with state := .voided } else c)
    if copies.any (fun (c : Copy) => c.state == .sending) then s1.setPkt n { x with copies := copies }
    else ((s1.setPkt n { x with copies := copies }).sampleFate n 4).freePacket n

/-- A frame is found bad (R309): before admission the packet is discarded, afterwards its copies that have not begun to leave are
voided, as residue where its timer ends on the same clock (Table 12-6); those that have are stomped as they end. -/
def State.foundBad (s : State) (n : Nat) : State :=
  let s := s.sampleFate n 1
  match s.pkt? n with
  | none => s
  | some x =>
    let ident := if x.residueAt.any (fun t => decide (t ≤ s.now)) then 14 else 8
    if x.stage = .inQueues then s.voidWaiting n (fun q s => s.countPort q ident)
    else (s.countPort x.port 6).discard n

/-- The frame of a packet that has left meanwhile ends: it is judged and counted all the same (R297, R310). -/
def State.endReception (s : State) (n : Nat) : State :=
  match Tab.find? s.core.receiving n with
  | none => s
  | some (p, hint, bs) =>
    let s1 := (State.countFcs { s with core := { s.core with receiving := Tab.erase s.core.receiving n } } p bs)
    if hint < bs.length then s1.countPort p 10 else s1

/-- FRAME_RECEIVE_COMPLETE (R24, R297, R309, R310): a frame longer than its hint is truncated and bad; store-and-forward waits
end. -/
def execFrameReceiveComplete (n : Nat) (codeError : Bool) (s : State) : Res :=
  match s.pkt? n with
  | none => done (s.endReception n)
  | some x =>
    if x.complete then done s
    else
      let long := decide (x.hint < x.bytes.length)
      let s1 := s.countFcs x.port x.bytes
      let s2 := if long then s1.countPort x.port 10 else s1
      let bad := long || codeError || fcsOf x.bytes != .good
      let s3 := s2.setPkt n { x with complete := true, bad := bad, truncated := long, bytes := if long then x.bytes.take x.hint else x.bytes }
      if bad then done ((if long then s3.sampleFate n 8 else s3).foundBad n)
      else if x.stage = .waitFrame then done (if x.judged ≠ 0 then s3.beginC1 n else s3.joinWork n)
      else done s3

/-! ### XOFF (R305) -/

/-- The XOFF limit of a class is reached (R305). -/
def State.xoffOver (s : State) (p c : Nat) : Bool := (s.xoffOf p c).since.any (fun t => decide (t + ns (s.sn 0x0C10 p 0) ≤ s.now))

/-- XOFF_REFRESH (R305, Table 12-6): every 80 µs while it stands, short of its limit. -/
def execXoffRefresh (p : PortId) (c : ClassId) (s : State) : Res :=
  let x := s.xoffOf p c
  if x.since.isSome ∧ x.sentAt + us 80 ≤ s.now ∧ !s.xoffOver p c then
    done ((s.setXoff p c { x with sentAt := s.now }).sendXoff p c)
  else done s

/-- XOFF of a class ends at its limit, and its back-off time begins. -/
def State.backOff (s : State) (p c : Nat) : State :=
  s.setXoff p c { since := none, sentAt := 0, backoff := some (s.now + ns (s.sn 0x0C10 p 1)) }

/-- XOFF_LIMIT_EXPIRY (R305, Table 12-6): quanta 0, the back-off time, and the event. Link-level pause has stopped every class of the port, so
every XOFF that stands on it ends with this one (assumption 253). -/
def execXoffLimitExpiry (p : PortId) (c : ClassId) (s : State) : Res :=
  if s.xoffOver p c then
    let all := (List.range 8).filter (fun d => d == c.val || (s.sn 0x0C0E p 0 == 1 && (s.xoffOf p d).since.isSome))
    done (((all.foldl (fun s d => s.backOff p d) s).sendPause p c 0).raise 0x020C (src 1 p) (natLe 1 c))
  else done s

/-- PAUSE_BACKOFF_END (R305): the class may be paused again. -/
def execPauseBackoffEnd (p : PortId) (c : ClassId) (s : State) : Res :=
  match (s.xoffOf p c).backoff with
  | some t => if t ≤ s.now then done (s.setXoff p c { s.xoffOf p c with backoff := none }).xoffCheck else done s
  | none => done s

end Sys2Proof.Machine
end

