-- ==== Sys2Proof/Machine/Admission.lean ====
section
/-! DEFINITION. Step 7: admission of a packet and its copies to the egress queues (R60, R76, R83, R133, R300 to R303, R315). -/

namespace Sys2Proof.Machine

/-! ### Order and store-and-forward -/

/-- An earlier packet of the same flow has not reached step 7, or the gate holds it (R26, R33); what an aggregation move holds has passed
it. -/
def State.flowBlocked (s : State) (n : Nat) (x : Packet) : Bool :=
  x.key != [] && s.packets.any (fun (y : Nat × Packet) => decide (y.1 < n) && y.2.key == x.key &&
    (match y.2.stage with | .inQueues | .moveHold => false | _ => true))

/-- Store-and-forward is forced for a packet (R308), by the setting of its egress ports as it stood when the packet was stamped (R74). -/
def State.storesFirst (s : State) (x : Packet) : Bool :=
  x.sf || x.dests.any (fun q => x.sfPorts.testBit q || decide (rateOf (s.port q).runMode < rateOf (s.port x.port).runMode))

/-! ### The checks of R300 -/

/-- Free space of all pools (R300). -/
def State.freeSpace (s : State) : Nat := (List.range 6).foldl (fun n i => n + s.poolFree i * bufSize i) 0

/-- Dynamic limit of a privileged queue for a packet of pool `i`: α times the free space, α halved at amber (R300, Table 12-2). -/
def State.dynamicLimit (s : State) (i : Nat) : Nat :=
  let e := s.si 0x0C04 - (if 1 ≤ (s.poolOf i).level then 1 else 0)
  if 0 ≤ e then s.freeSpace * 2 ^ e.toNat else s.freeSpace / 2 ^ (-e).toNat

/-- Limit of queue `8·q + c` for a packet of pool `i`, whose class is privileged or not (R300). -/
def State.queueLimit (s : State) (priv : Bool) (q c i : Nat) : Nat :=
  if priv then s.dynamicLimit i else s.sn 0x0C06 (8 * q + c)

/-- Check of R300 that refuses a copy at port `q`, class `c`: 2, 3 or 4. The classes that are privileged are those of the packet's stamp
(R299), and the black rule goes by its ingress class (R304). -/
def State.refusedBy (s : State) (x : Packet) (q c : Nat) : Option Nat :=
  let lv := (s.poolOf x.pool).level
  let occ := s.occupancy (8 * q + c)
  let priv := x.privMask.testBit c
  if lv = 3 ∧ !x.privMask.testBit x.inCls then some 2
  else if x.yellow ∧ (1 ≤ lv ∨ s.sn 0x0C06 (8 * q + c) < 2 * occ) then some 3
  else if s.queueLimit priv q c x.pool < occ + bufSize x.pool then some 4
  else none

/-- A command that the gate has passed (R279). -/
def Packet.passed (x : Packet) : Bool := match x.verdict with | some (1, _) => true | _ => false
/-- A packet that R301 admits without checks 2 to 4. -/
def Packet.exempted (x : Packet) : Bool := x.exemptAdmit || x.passed

/-- ECN marking of a copy (R303). -/
def State.marksCe (s : State) (x : Packet) (q c : Nat) : Bool :=
  let h := parse (applyEdits x.bytes x.edits)
  h.isIp && (h.ecn == 1 || h.ecn == 2) && s.son 0x0C08 (8 * q + c) && decide (1 ≤ (s.poolOf x.pool).level) &&
  decide (s.sn 0x0C08 (8 * q + c) 1 ≤ s.occupancy (8 * q + c))

/-- Class `c` is discarded by the sag level in force (Table 19-1). -/
def State.sagDrops (s : State) (c : Nat) : Bool :=
  (decide (3 ≤ s.power.level) && !(s.sn 0x1303).testBit c) || (decide (4 ≤ s.power.level) && !(s.sn 0x1304).testBit c)

/-- Gate bank that a copy at port `q` names: the one its epoch selects, until a superseded bank is free again (R60, R177). -/
def State.bankFor (s : State) (x : Packet) (q : Nat) : Nat :=
  let v := Tab.get [] s.sched.bankSel q
  (if (Tab.find? s.sched.bankBusy q).isSome then verAt v x.epoch else verNow v).getD 0

/-- The copy that a packet would have at port `q` (R30, R60, R124, R303). -/
def State.newCopy (s : State) (x : Packet) (q : Nat) : Copy :=
  { port := q, cls := x.cls, bank := s.bankFor x q, since := s.now
    ce := s.marksCe x q x.cls, untag := x.untagged.testBit q }

/-- One copy is admitted to its queue or dropped and counted (R76, R83, R300, R301, R397, R401, R436). -/
def State.offerCopy (s : State) (n : Nat) (x : Packet) (q : Nat) : State × Option Copy :=
  let c := x.cls
  let pt := s.port q
  let i := 8 * q + c
  if s.fault.safe ∧ !s.safeClass c then (s.countPort q 17, none)
  else if s.sagDrops c then (s.countPort q 15, none)
  else if !pt.isUp then
    ((s.countPort q (if pt.sliceDown then 16 else if pt.shed then 15 else 13)).countClass q c 2, none)
  else if (s.pauseRx q c).recovery.isSome ∧ s.sn 0x030E q = 1 then (s, none)
  else match (if x.exempted then none else s.refusedBy x q c) with
    | some k => (s.countClass q c (k + 1), none)
    | none =>
      let y := s.newCopy x q
      let s1 := if y.ce then s.countClass q c 6 else s
      (s1.setQueue i (s1.queueOf i ++ [n]), some y)

/-- Every copy of a packet is offered, in port order (R315). -/
def State.offerAll (s : State) (n : Nat) (x : Packet) : State × List Copy :=
  x.dests.foldl (fun (a : State × List Copy) q =>
    let (s1, y) := a.1.offerCopy n x q
    (s1, a.2 ++ y.toList)) (s, [])

/-- The sample of a packet that asked for one is taken as its fate at step 7 is known (R317, R318). -/
def State.sampleAt7 (s : State) (n : Nat) (x : Packet) (out : Nat) (discarded dropped : Bool) : State :=
  if x.chaff = 0 ∨ x.sampled then s else s.takeSample n x out discarded dropped

/-- A packet that a routine, service or pattern discards ends here (Table 8-6, R252). -/
def State.endDiscarded (s : State) (n : Nat) (x : Packet) : State :=
  let s1 := if x.scan.scanned ∧ x.scan.action = 2 then
      match x.scan.lowest with
      | some (_, id) => { s with awn := { s.awn with discards := Tab.modify 0 s.awn.discards id (· + 1) } }
      | none => s
    else s
  (s1.sampleAt7 n x 0xFF true false).freePacket n

/-- The aggregation slot of a packet whose group has not been built again since its choice (R27, R131). -/
def State.slotNow (s : State) (x : Packet) : Option Nat :=
  match x.lagSlot with
  | some v => if (s.lag (v / 256)).gen = x.lagGen then some v else none
  | none => none

/-- The member that the packet's aggregation slot names now, or its chosen ports (R27, R131, R132). -/
def State.destsNow (s : State) (x : Packet) : List Nat :=
  match s.slotNow x with
  | some v => (s.memberOf (v / 256) (v % 256) s.bales.epoch).toList
  | none => x.dests

/-- The packet's slot is moving to another member (R133). -/
def State.slotMoves (s : State) (x : Packet) : Bool :=
  match s.slotNow x with
  | some v => (Tab.find? (s.lag (v / 256)).moves (v % 256)).isSome
  | none => false

/-- A packet enters the move hold, or finds its port's held account full; a passed command is not dropped (R133, R301, R302). -/
def State.enterMoveHold (s : State) (n : Nat) (x : Packet) : State :=
  if s.holdFull x.port ∧ !x.passed then
    let s1 := s.countPort x.port 12
    (if x.pdus.isEmpty then s1 else s1.verdictRecords x vDropHold 15).endPacket n false true
  else s.setPkt n { x with stage := .moveHold, exemptAdmit := true }

/-- EGRESS_QUEUE_ADMISSION (R20 step 7, R33, R300 to R303, R308, R315). -/
def execEgressQueueAdmission (n : Nat) (s : State) : Res :=
  match s.pkt? n with
  | none => done s
  | some x0 =>
    if x0.stage ≠ .step7 ∨ s.flowBlocked n x0 then done s
    else if x0.discard then done (s.endDiscarded n x0)
    else
      let x := { x0 with dests := s.destsNow x0 }
      let forced := s.storesFirst x
      if forced ∧ !x.complete then done s
      else if s.slotMoves x then done (s.enterMoveHold n x)
      else
        let x1 := { x with sf := forced }
        let s1 := if forced then s.pmu (sliceOf x.port) 16 1 (some x1) else s
        let (s2, copies) := s1.offerAll n x1
        let s3 := s2.sampleAt7 n x1 (match copies with | y :: _ => y.port | [] => 0xFF) false copies.isEmpty
        let s4 := s3.setPkt n { x1 with stage := .inQueues, copies := copies, sampled := x.sampled || x.chaff != 0 }
        done (if copies.isEmpty then s4.freePacket n else s4)

end Sys2Proof.Machine
end

