-- ==== Sys2Proof/Machine/Scheduler.lean ====
section
/-! DEFINITION. Step 8: gates, guard bands, shapers and the choice of the scheduler (R60, R61, R306 to R308, R316, R317). -/

namespace Sys2Proof.Machine

/-! ### Gates (R59 to R61) -/

/-- Entry of a gate list in force at angle `a`: its index (R59). -/
def gateIndex (l : List GateEntry) (a : Nat) : Nat :=
  let n := (l.filter (fun e => decide (e.start ≤ a))).length
  if n = 0 then l.length - 1 else n - 1

/-- Start of the first entry after index `i`, in the cycle's order, at which the gate of class `c` is closed (R61). -/
def nextClose (l : List GateEntry) (i c : Nat) : Option Nat :=
  (List.range l.length).findSome? (fun k => match l[(i + 1 + k) % l.length]? with
    | some e => if e.opens.testBit c then none else some e.start
    | none => none)

/-- The accumulator's fraction of a cycle, in 2^-40 au. -/
def State.cyclePhase (s : State) : Nat := s.tiller.phase % 2 ^ 56

/-- The gate list that a bank of a port holds. -/
def State.gateList (s : State) (p bank : Nat) : List GateEntry := Tab.get [] s.sched.banks (2 * p + bank)

/-- A frame of `len` bytes fits before the close of the guard band: t_frame ≤ t_avail of R61, both times multiplied through by the port
rate and by the phase that one core clock adds. The angle from which the span is taken is the output angle, in whole au (R37). -/
def State.guardFits (s : State) (p len close : Nat) : Bool :=
  let r := rateOf (s.port p).runMode
  let inc := s.advance.1
  let dist := (close + 65536 - s.cyclePhase / 2 ^ 40) % 65536 * 2 ^ 40
  decide (((len + 20) * 72000000000 + 576 * r) * inc ≤ dist * clk * r)

/-- Class `c` of port `p` may start a frame of `len` bytes that names a gate bank (R61). -/
def State.gateAllows (s : State) (p c bank len : Nat) : Bool :=
  let l := s.gateList p bank
  let i := gateIndex l (s.cyclePhase / 2 ^ 40)
  match l[i]? with
  | none => true
  | some e => e.opens.testBit c && (!e.guarded || (match nextClose l i c with | some a => s.guardFits p len a | none => true))

/-- The gate of class `c` is open, for the bank that its head packet names. -/
def State.gateOpen (s : State) (p c bank : Nat) : Bool :=
  let l := s.gateList p bank
  match l[gateIndex l (s.cyclePhase / 2 ^ 40)]? with
  | none => true
  | some e => e.opens.testBit c

/-! ### Heads of queues -/

/-- The copy of packet `x` at port `p`. -/
def Packet.copyAt (x : Packet) (p : Nat) : Option Copy := x.copies.find? (fun (c : Copy) => c.port == p)

/-- The copy of packet `n` at port `p` waits. -/
def State.waitsAt (s : State) (p n : Nat) : Bool :=
  match s.pkt? n with
  | some x => (x.copyAt p).any (fun c => c.state == .waiting)
  | none => false

/-- The head packet of a class: voided copies before it are skipped in 0 ns (R316). -/
def State.headOf (s : State) (p c : Nat) : Option Nat := (s.queueOf (8 * p + c)).find? (s.waitsAt p)

/-- The frame length by which a head packet is judged: its own once it is complete, and its hint until then. -/
def Packet.frameLen (x : Packet) : Nat := if x.complete then x.bytes.length else x.hint

/-- Cut-through to a faster port: at least hint × (1 − r_in / r_out) bytes have completed receive decoding (R308). -/
def State.tailSafe (s : State) (p : Nat) (x : Packet) : Bool :=
  let ri := rateOf (s.port x.port).runMode
  let ro := rateOf (s.port p).runMode
  x.complete || decide (ro ≤ ri) ||
    decide (x.hint * (ro - ri) * 72000000000 ≤ (s.now - x.at_ - ns (rxLatency (s.port x.port).runMode)) * ri * ro)

/-! ### Shapers (R307) -/

/-- Scheduler values of a port and class. -/
def State.schedOf (s : State) (p c : Nat) : Sched := Tab.get {} s.core.sched (8 * p + c)
/-- Puts scheduler values. -/
def State.setSched (s : State) (p c : Nat) (x : Sched) : State :=
  { s with core := { s.core with sched := Tab.put {} s.core.sched (8 * p + c) x } }

/-- Idle slope of the credit-based shaper of a class, 0 while it is off. -/
def State.idleSlope (s : State) (p c : Nat) : Nat := s.sn 0x0C0B (8 * p + c)

/-! ### The choice (R306) -/

/-- The close before which the head packet of class `c` does not fit, as an angle with its cycle number, if there is one (R61). -/
def State.missedClose (s : State) (p c : Nat) : Option Nat :=
  match (s.headOf p c).bind s.pkt? with
  | none => none
  | some x =>
    let l := s.gateList p (((x.copyAt p).map (·.bank)).getD 0)
    let a := s.cyclePhase / 2 ^ 40
    let i := gateIndex l a
    match l[i]?, nextClose l i c with
    | some e, some close =>
      if e.opens.testBit c && e.guarded && !s.guardFits p x.frameLen close then some (s.angle + (close + 65536 - a) % 65536) else none
    | _, _ => none

/-- A class that the guard band makes ineligible at a selection stays so until its gate reopens (R61). -/
def State.latchGate (s : State) (p c : Nat) : State :=
  match s.missedClose p c with
  | some till => s.setSched p c { s.schedOf p c with shutTill := till }
  | none => s

/-- Every class of port `p` at a selection (R61). -/
def State.latchGates (s : State) (p : Nat) : State := (List.range 8).foldl (fun s c => s.latchGate p c) s

/-- The head packet of class `c` of port `p`, if the class is eligible, with its length. -/
def State.eligible (s : State) (p c : Nat) : Option (Nat × Nat) :=
  match s.headOf p c with
  | none => none
  | some n => match s.pkt? n with
    | none => none
    | some x =>
      let bank := ((x.copyAt p).map (·.bank)).getD 0
      if !s.heldByPause p c && decide ((s.schedOf p c).shutTill ≤ s.angle) && s.gateAllows p c bank x.frameLen && (s.idleSlope p c == 0 || decide (0 ≤ (s.schedOf p c).credit)) &&
         (s.sn 0x0C0C p 0 == 0 || decide (0 ≤ s.portTokens p)) && s.tailSafe p x then some (n, x.frameLen)
      else none

/-- A class is in weighted mode (R306). -/
def State.weighted (s : State) (p c : Nat) : Bool := s.sn 0x0C0A (8 * p + c) 0 == 1
/-- Quantum of a class (R306). -/
def State.quantum (s : State) (p c : Nat) : Nat := s.sn 0x0C0A (8 * p + c) 1 * 2048

/-- The weighted turn: classes in turn, each eligible one either sending or gaining its quantum. -/
def State.weightedTurn (s : State) (p : Nat) : Nat → Nat → Option (Nat × Nat × State)
  | 0, _ => none
  | fuel + 1, c =>
    match (if s.weighted p c then s.eligible p c else none) with
    | none => State.weightedTurn s p fuel ((c + 1) % 8)
    | some (n, len) =>
      let d := s.schedOf p c
      if len ≤ d.deficit then
        some (c, n, (s.setSched p c { d with deficit := d.deficit - len }).modPort p (fun q => { q with lastServed := (c + 7) % 8 }))
      else State.weightedTurn (s.setSched p c { d with deficit := d.deficit + s.quantum p c }) p fuel ((c + 1) % 8)

/-- The class and packet that the scheduler of port `p` chooses, and the deficits after it. -/
def State.choose (s : State) (p : Nat) : Option (Nat × Nat × State) :=
  match [7, 6, 5, 4, 3, 2, 1, 0].findSome? (fun c => if s.weighted p c then none else (s.eligible p c).map (fun x => (c, x.1))) with
  | some (c, n) => some (c, n, s)
  | none =>
    if (List.range 8).any (fun c => s.weighted p c && (s.eligible p c).isSome) then s.weightedTurn p 64 (((s.port p).lastServed + 1) % 8)
    else none

/-- The egress sampler of a port sees a frame that it starts to send (R317). -/
def State.outSampler (s : State) (p n : Nat) (x : Packet) : State :=
  let k := s.sn 0x0C11 p 2
  if k = 0 then s
  else
    let q := s.port p
    let (hit, l, g, s1) := s.samplerStep k q.outLfsr q.outGap
    let s2 := s1.modPort p (fun q => { q with outLfsr := l, outGap := g })
    if hit ∧ !x.sampled then
      let x1 := { x with chaff := 2, sampled := true }
      (s2.setPkt n x1).takeSample n x1 p false false
    else s2

/-- A queue that empties has deficit 0, and credit above 0 becomes 0 (R306, R307). -/
def State.emptied (s : State) (p c : Nat) : State :=
  if (s.queueOf (8 * p + c)).isEmpty then
    let d := s.schedOf p c
    s.setSched p c { d with deficit := 0, credit := min d.credit 0 }
  else s

/-- Packet `n` starts to leave port `p` in class `c` (R316). -/
def State.startSend (s : State) (p c n : Nat) : State :=
  match s.pkt? n with
  | none => s
  | some x =>
    let copies := x.copies.map (fun (y : Copy) => if y.port = p then { y with state := .sending } else y)
    let residue := if x.flood ∧ x.residueAt.isNone then some (s.now + ns (s.sn 0x0C0D (8 * p + c))) else x.residueAt
    let x1 := { x with copies := copies, residueAt := residue }
    let tokens := s.portTokens p - (x.frameLen * tokenUnit : Nat)
    let shaped := decide (s.sn 0x0C0C p 0 ≠ 0)
    let s1 := (s.setPkt n x1).setQueue (8 * p + c) (((s.queueOf (8 * p + c)).dropWhile (fun m => !s.waitsAt p m)).filter (· != n))
    let s2 := s1.modPort p (fun q => { q with sending := some n, tokens := if shaped then tokens else q.tokens,
                                              tokensAt := if shaped then s.now else q.tokensAt })
    (s2.outSampler p n x1).emptied p c

/-- SCHEDULER_SELECT (R20 step 8, R61, R306 to R308). -/
def execSchedulerSelect (p : PortId) (s : State) : Res :=
  if !(s.port p).isUp ∨ (s.port p).sending.isSome then done s
  else
    let s0 := s.latchGates p
    match s0.choose p with
    | some (c, n, s1) => done (s1.startSend p c n)
    | none => done s0

/-! ### What a core clock does to credits and to the pause watchdog (R83, R307) -/

/-- The class that port `p` is sending. -/
def State.sendingClass (s : State) (p : Nat) : Option Nat :=
  match (s.port p).sending with
  | none => none
  | some n => match s.pkt? n with
    | some x => (x.copyAt p).map (·.cls)
    | none => none

/-- Gate bank of the head packet of a class. -/
def State.headBank (s : State) (p c : Nat) : Option Nat :=
  match s.headOf p c with
  | none => none
  | some n => match s.pkt? n with
    | some x => (x.copyAt p).map (·.bank)
    | none => none

/-- Gate bank of the copy that port `p` is sending. -/
def State.sendingBank (s : State) (p : Nat) : Option Nat :=
  (s.port p).sending.bind (fun n => (s.pkt? n).bind (fun x => (x.copyAt p).map (fun c => c.bank)))

/-- The gate bank under which a class stands: that of the frame it sends or holds at its head, or else the one in force. -/
def State.bankNow (s : State) (p c : Nat) : Nat :=
  let b := if s.sendingClass p = some c then s.sendingBank p else s.headBank p c
  b.getD ((verNow (Tab.get [] s.sched.bankSel p)).getD 0)

/-- Credit of a class over one core clock while its gate is open: the send slope while it sends; otherwise the idle slope while a frame
waits, or up to 0 (R307, IEEE 802.1Q 8.6.8.2). -/
def State.creditClock (s : State) (p c : Nat) : State :=
  let d := s.schedOf p c
  let idle : Int := s.idleSlope p c
  if !s.gateOpen p c (s.bankNow p c) then s
  else if s.sendingClass p = some c then
    s.setSched p c { d with credit := d.credit + clk * (idle - (rateOf (s.port p).runMode : Nat)) }
  else if (s.headBank p c).isSome then s.setSched p c { d with credit := d.credit + clk * idle }
  else if d.credit < 0 then s.setSched p c { d with credit := min 0 (d.credit + clk * idle) }
  else s

/-- Every class with a credit-based shaper. -/
def State.shapedClasses (s : State) : List Nat :=
  ((Tab.keys s.settings).filter (fun k => k / 65536 == 0x0C0B)).map (· % 65536)

/-- The watchdog of a class counts while received pause holds it with a frame at its head and its gate open, and notes when its time is
reached (R83). -/
def State.watchdogClock (s : State) (q : Nat) : State :=
  let p := q / 8
  let c := q % 8
  if s.heldByPause p c then
    match s.headBank p c with
    | some b =>
      let x := s.pauseRx p c
      let held := x.held + clk
      if s.gateOpen p c b then s.setPauseRx p c { x with
        held := held, reachedAt := if x.reachedAt.isNone ∧ ns (s.sn 0x030C p) ≤ held then some s.now else x.reachedAt }
      else s
    | none => s
  else s

/-- One core clock of the switch core; what a queue that has emptied leaves behind goes, however it emptied. -/
def State.coreShapers (s : State) : State :=
  let s0 := (Tab.keys s.core.sched).foldl (fun s q => s.emptied (q / 8) (q % 8)) s
  let s1 := s0.shapedClasses.foldl (fun s q => s.creditClock (q / 8) (q % 8)) s0
  (Tab.keys s1.core.paused).foldl (fun s q => s.watchdogClock q) s1

end Sys2Proof.Machine
end

