-- ==== Sys2Proof/Machine/Ledger.lean ====
section
/-! DEFINITION. The ledger writer, its two mirrors, seals and levels (R286 to R289, R339, R341). -/

namespace Sys2Proof.Machine

/-- Unacknowledged records (R289). -/
def State.unacked (s : State) : Nat := s.ledger.next - s.ledger.mark

/-- The records not yet acknowledged fill `pct` percent of the ledger ring (R289). -/
def State.ledgerAbove (s : State) (pct : Nat) : Bool := decide (pct * s.ledgerRing ≤ 100 * s.unacked)
/-- The ledger ring comes to stand above a level, which is reported, or below it (R289). -/
def State.crossLevel (s : State) (bit pct : Nat) (above : Bool) : State :=
  let s1 := { s with ledger := { s.ledger with levels := s.ledger.levels ^^^ (1 <<< bit) } }
  if above then s1.raise 0x0608 srcDevice (natLe 1 pct ++ List.replicate 7 0 ++ natLe 8 s.unacked) else s1
/-- One level of the ledger ring is watched (R289). -/
def State.watchLevel (s : State) (bit pct : Nat) : State :=
  if s.ledgerAbove pct = s.ledger.levels.testBit bit then s else s.crossLevel bit pct (s.ledgerAbove pct)

/-- The 75 % and 90 % levels are compared again, and a crossing reported (R289). -/
def State.ledgerLevel (s : State) : State :=
  (s.watchLevel 0 75).watchLevel 1 90

/-- The record at the head of the queue is written to its mirrors, and one that waits takes its room (R288); the keeper takes its index and
hash (R287, R339). A fenced channel is owed its copy. -/
def State.writeRecord (s : State) (r : Bytes) (rest : List Bytes) : State :=
  let i := leAt r 0 8
  let (a, b) := stripeUnits (stripeOf i)
  let fenced := [a, b].filter s.fenced
  let ring := Tab.insert s.ledger.ring i r
  let ring1 := if s.ledgerRing ≤ i then Tab.erase ring (i - s.ledgerRing) else ring
  let s1 := { s with
    ledger := { s.ledger with queue := rest, ring := ring1 }
    mem := { s.mem with owed := s.mem.owed ++ fenced.map (fun u => (i, u)) }
    keeper := if s.keeper.vkeep then { s.keeper with tail := some (i, sha512 r) } else s.keeper }
  s1.joinLate.ledgerLevel

/-- A seal falls due: by its interval or its count (R287). -/
def State.sealDue (s : State) : Bool :=
  s.ledger.started && (decide (s.ledger.sealAt + ns (s.sn 0x0B0B 0 0) ≤ s.now) || decide (s.sn 0x0B0B 0 1 ≤ s.ledger.sinceSeal))

/-- LEDGER_SEAL (R287). -/
def execLedgerSeal (s : State) : Res :=
  if s.owned ∧ s.sealDue ∧ !s.ledgerFull then done (s.recordSigned { type := 8, detailA := s.ledger.sinceSeal }) else done s

end Sys2Proof.Machine
end

