-- ==== Sys2Proof/Machine/Intake.lean ====
section
/-! DEFINITION. Verification of permit, shut and reopen bodies, their taking effect, and the permit table's own work (R268 to R275, R278,
R283, R395). -/

namespace Sys2Proof.Machine

/-- The fields by which the twin names a body. -/
def Intake.named (i : Intake) (key seq : Nat) : Bool := bodyKey i.body == key && bodySeq i.body == seq

/-- Place of a body's decision among what requests wait for (R263). -/
def bodyWait (b : Bytes) : Nat := 2 ^ 64 * bodyKey b + bodySeq b

/-- A body that came by a mailbox is decided: its request completes, with the cause of a refusal (R263, Table 16-8). -/
def State.endSubmit (s : State) (i : Intake) (cause : Option Nat) : State :=
  if entrySource i.source ≠ 1 then s
  else s.endLong 4 (bodyWait i.body) (if cause.isSome then 0x0603 else 0) (cause.getD 0) [] 0

/-- A body is refused with a record (R267). -/
def State.refuseRecorded (s : State) (i : Intake) (cause : Nat) : State :=
  (((s.permitRecord i.body i.source 2 cause).refuseBody i.body cause)).endSubmit i (some cause)

/-- A permit that a bale placed and that waits for the twin has its place in the permit table already (R283, R291). -/
def Intake.placed (i : Intake) : Bool := i.source == 0x200
/-- The place of a body that a bale placed. -/
def State.waitingPlace (s : State) (i : Intake) : Option Nat :=
  (List.find? (fun (x : Nat × PermitEntry) => x.2.waits && i.named (entryKey x.2.bytes) (entrySeq x.2.bytes)) s.gate.permits).map (·.1)
/-- The slot that a permit takes: the place that its bale took, or that of R273. -/
def State.slotFor (s : State) (i : Intake) : Option Nat := if i.placed then s.waitingPlace i else s.permitSlot (bodySelector i.body)

/-- A verified body is refused with a record, and leaves, with the place that it has (R267). -/
def State.refuseIntake (s : State) (i : Intake) (cause : Nat) : State :=
  let s1 := { s with gate := { s.gate with waiting := s.gate.waiting.erase i } }
  (match (if i.placed then s.waitingPlace i else none) with
    | some l => s1.erasePermit l
    | none => s1).refuseRecorded i cause

/-- A body of the same key with a lower sequence is queued or under verification (R270). -/
def State.lowerWaits (s : State) (i : Intake) : Bool :=
  (s.gate.queue ++ Tab.values s.gate.verifying).any (fun j => bodyKey j.body == bodyKey i.body && decide (bodySeq j.body < bodySeq i.body))

/-- The cause for which a permit would be refused at checks 8 and 9 (Table 11-7). -/
def State.lateCause (s : State) (i : Intake) : Option Nat :=
  if bodyPair i.body ∧ s.sheaf.twin ≠ 1 then some 4
  else if (s.slotFor i).isNone then some 20
  else none

/-- A shut or reopen frame takes effect, with its acceptance and gate-state records (R281, R282, Table 11-16). -/
def State.applyFrame (s : State) (i : Intake) : State :=
  let b := i.body
  if bodyType b = 2 then
    if s.gate.isShut then s.refuseIntake i s.gate.cause
    else
      let s1 := { s with gate := { s.gate with waiting := s.gate.waiting.erase i } }
      ((((s1.takeSeq (bodyKey b) (bodySeq b)).permitRecord b i.source 1 0).shutGate 11 i.source (bodyKey b))).endSubmit i none
  else match s.reopenBlocked with
    | some c => s.refuseIntake i (if c = 0x0602 then 10 else s.gate.cause)
    | none =>
      let s1 := { s with gate := { s.gate with waiting := s.gate.waiting.erase i } }
      let s2 := (s1.takeSeq (bodyKey b) (bodySeq b)).permitRecord b i.source 1 0
      (if s2.gate.isShut then s2.openGate i.source (bodyKey b) else s2).endSubmit i none

/-- A verified body that no lower sequence holds back takes its next step: a frame takes effect, a permit is refused, reserved with the
twin, or granted by the key's window at once (R269, R270, R283, P4 of Table 11-8). -/
def State.advanceOne (s : State) (i : Intake) : State :=
  let b := i.body
  if s.lowerWaits i ∨ i.reserved ∨ i.granted ∨ !s.gate.waiting.contains i then s
  else if s.owned ∧ s.ledgerFull then s
  else if !s.bodyKeyOk b then s.refuseIntake i 17
  else if !(s.windowOf (bodyKey b)).passes (bodySeq b) then s.refuseIntake i 7
  else if bodyType b ≠ 1 then s.applyFrame i
  else match s.lateCause i with
    | some c => s.refuseIntake i c
    | none =>
      let put (s : State) (j : Intake) : State :=
        { s with gate := { s.gate with waiting := s.gate.waiting.map (fun x => if x = i then j else x) } }
      if s.sheaf.twin = 1 then (put s { i with reserved := true }).tell (.reservation (bodyKey b) (bodySeq b))
      else put (s.takeSeq (bodyKey b) (bodySeq b)) { i with granted := true }

/-- Every verified body takes its next step, lowest sequence first (R270). -/
def State.advanceIntake (s : State) : State :=
  (s.gate.waiting.mergeSort (fun a b => decide (bodySeq a.body ≤ bodySeq b.body))).foldl (fun s i => s.advanceOne i) s

/-- The twin has answered a reservation (R283): a grant moves the key's window, and a pair-required permit is copied to the twin. -/
def State.reserved (s : State) (key seq : Nat) (granted : Bool) : State :=
  match s.gate.waiting.find? (fun i => i.reserved && !i.granted && i.named key seq) with
  | none => s
  | some i =>
    if !granted then s.refuseIntake i 7
    else
      let s1 := s.takeSeq key seq
      let s2 := { s1 with gate := { s1.gate with waiting := s1.gate.waiting.map (fun x => if x = i then { i with granted := true } else x) } }
      if bodyPair i.body then s2.tell (.permitCopy i.body (2 ^ 31 + entrySource i.source * 2 ^ 28)) else s2

/-! ### Seal pairs (R268, R395) -/

/-- Both engines' verdict on a body: the signature under the key that the ring holds now (R268). -/
def State.signedBy (s : State) (b : Bytes) : Bool :=
  match s.keyOf (bodyKey b) with
  | some k => edVerify k.pub (slice b 0 128) (slice b 128 64)
  | none => false

/-- Puts the service state of a seal pair. -/
def State.setSeal (s : State) (sp v : Nat) : State := { s with gate := { s.gate with sealSt := Tab.put 0 s.gate.sealSt sp v } }
/-- What a pair verifies goes back to the head of the queue, for another pair (R268). -/
def State.withhold (s : State) (sp : Nat) : State :=
  match Tab.find? s.gate.verifying sp with
  | none => s
  | some i =>
    let j := { i with tried := i.tried ++ [sp] }
    { s with gate := { s.gate with queue := j :: s.gate.queue, verifying := Tab.erase s.gate.verifying sp } }

/-- With every pair retired, what waits for one is refused with cause 21 (R395). -/
def State.refuseUnserved (s : State) : State :=
  if (List.range 32).any (fun sp => Tab.get 0 s.gate.sealSt sp != 2) then s
  else
    let q := s.gate.queue
    q.foldl (fun (s : State) (i : Intake) => s.refuseRecorded i 21) { s with gate := { s.gate with queue := [] } }

/-- A fault of a seal pair (Table 17-3): its verdict is withheld, and it is fenced for its test, or retired at rung 2. -/
def State.sealFault (s : State) (sp cause : Nat) : State :=
  let s1 := s.withhold sp
  let (rung, s2) := s1.openFault (16 + sp) cause sp srcDevice (fun r => if r = 2 then 4 else 5)
  let s3 :=
    if rung = 2 then
      ((((s2.setSeal sp 2).raise 0x0605 srcDevice (natLe 1 sp)).noteRetire).settle (16 + sp)).refuseUnserved
    else s2.setSeal sp 1
  State.feedSeals 32 s3

/-- SEAL_VERDICT (R268, R270): both engines of a pair have finished; a fault of an engine turns its verdict. The body is verified,
refused with cause 18, or verified again on another pair. -/
def execSealVerdict (sp : SealPairId) (err0 err1 : Bool) (s : State) : Res :=
  match Tab.find? s.gate.verifying sp.val with
  | none => done s
  | some i =>
    let ok := s.signedBy i.body
    let a := ok != err0
    let b := ok != err1
    if s.owned ∧ s.ledgerFull then done s
    else if a ≠ b then
      done ((s.raise 0x0607 srcDevice (natLe 1 sp.val ++ [0] ++ natLe 2 (bodyKey i.body) ++ natLe 8 (bodySeq i.body))).sealFault sp.val 1)
    else
      let free := { s with gate := { s.gate with verifying := Tab.erase s.gate.verifying sp.val } }
      let s1 :=
        if a then { free with gate := { free.gate with waiting := free.gate.waiting ++ [i] } }
        else free.refuseIntake i (if (s.keyOf (bodyKey i.body)).isNone then 17 else 18)
      done (State.feedSeals 32 s1.advanceIntake)

/-- SEAL_PAIR_KNOWN_ANSWER_TEST (R395): a fenced pair that passes returns, and verifies what it withheld when no other pair can; a pair
that fails is fenced, or retired when it was. -/
def execSealPairKnownAnswerTest (sp : SealPairId) (pass : Bool) (s : State) : Res :=
  let st := Tab.get 0 s.gate.sealSt sp.val
  if st = 2 then done s
  else if !pass then done (s.sealFault sp.val 2)
  else if st = 0 then done s
  else
    let s1 := ((s.setSeal sp.val 0).settle (16 + sp.val)).faultReport 5 3 1 1 sp srcDevice 0
    let alone := (List.range 32).all (fun q => q == sp.val || !s1.sealOk q)
    let s2 := if alone then
        { s1 with gate := { s1.gate with queue := s1.gate.queue.map (fun i => { i with tried := i.tried.filter (· != sp.val) }) } }
      else s1
    done (State.feedSeals 32 s2)

/-- HASH_KNOWN_ANSWER_TEST (R395, Table 17-3): an engine that fails is retired at rung 1, and its work goes to another. -/
def execHashKnownAnswerTest (h : HashId) (pass : Bool) (s : State) : Res :=
  if pass ∨ Tab.get 0 s.gate.hashSt h.val = 2 then done s
  else
    let s1 := ({ s with gate := { s.gate with hashSt := Tab.put 0 s.gate.hashSt h.val 2 } }).loseHash h
    let s2 := s1.raise 0x0606 srcDevice (natLe 1 h.val)
    let (_, s3) := s2.openFault (48 + h.val) 2 h srcDevice (fun _ => 4)
    done ((s3.noteRetire).settle (48 + h.val))

/-! ### The permit table -/

/-- Step P5 of a granted permit (Table 11-8): the key, the gate, checks 8 and 9 are looked at as they stand; then the entry is written
and its record queued, and held commands of its selector are looked up again. -/
def State.writePermit (s : State) (i : Intake) : State :=
  let b := i.body
  if !s.bodyKeyOk b then s.refuseIntake i 17
  else if s.gate.isShut then s.refuseIntake i s.gate.cause
  else match s.lateCause i, s.slotFor i with
    | none, some loc =>
      let s1 := { s with gate := { s.gate with waiting := s.gate.waiting.erase i } }
      let s2 := (s1.putPermit loc { bytes := entryOf b i.source }).permitRecord b i.source 1 0
      ((s2.unspend b).relookupSel (bodySelector b)).endSubmit i none
    | some c, _ => s.refuseIntake i c
    | none, none => s.refuseIntake i 20

/-- A body of the same key with a lower sequence has not yet taken effect (R270). -/
def State.lowerLeft (s : State) (i : Intake) : Bool :=
  s.intakes.any (fun j => bodyKey j.body == bodyKey i.body && decide (bodySeq j.body < bodySeq i.body))

/-- PERMIT_ENTRY_WRITE (R270, R272): a granted permit takes effect, in ascending sequence order of its key; it waits while the ledger
queue is full (R288). -/
def execPermitEntryWrite (key seq : Nat) (s : State) : Res :=
  match s.gate.waiting.find? (fun i => i.granted && i.named key seq) with
  | none => done s
  | some i => if s.lowerLeft i ∨ (s.owned ∧ s.ledgerFull) then done s else done (s.writePermit i).advanceIntake

/-- Index of a place in the permit table. -/
def permitIndex (l : PermitLoc) : Nat := 4 * l.bucket.val + l.slot.val

/-- PERMIT_NOT_BEFORE_REACHED (R278). -/
def execPermitNotBeforeReached (loc : PermitLoc) (s : State) : Res :=
  match s.permitAt (permitIndex loc) with
  | some e => if s.entryTime e.bytes then done (s.relookupSel (slice e.bytes 0 40)) else done s
  | none => done s

/-- PERMIT_WINDOW_OPEN (R278). -/
def execPermitWindowOpen (loc : PermitLoc) (s : State) : Res :=
  match s.permitAt (permitIndex loc) with
  | some e =>
    if (entryFlags e.bytes).testBit 1 ∧ leAt e.bytes 104 8 ≤ s.angle ∧ s.angle ≤ leAt e.bytes 112 8 then
      done (s.relookupSel (slice e.bytes 0 40))
    else done s
  | none => done s

/-- LEDGER_RECORD_WRITE (R288, R289): the ledger writer takes the oldest record; when the ring has no room, or neither mirror takes it,
the gate shuts with cause 12. The room that it leaves in the queue is for the records, the commands and the permits that waited for it. -/
def execLedgerRecordWrite (s : State) : Res :=
  match s.ledger.queue with
  | [] => done s
  | r :: rest =>
    let i := leAt r 0 8
    if s.ledger.mark + s.ledgerRing ≤ i ∨ !s.ledgerTakes (stripeOf i) then
      done (if s.gate.isShut then s else s.shutGate 12 0xFFFF 0xFFFF)
    else
      let s1 := ((s.writeRecord r rest).relookup (fun p => p.noRoom)).advanceIntake
      done (if s1.ringFull ∧ !s1.gate.isShut then s1.shutGate 12 0xFFFF 0xFFFF else s1)

/-- PERMIT_EXPIRY_REMOVAL (R201, R275): a service engine that runs removes an entry whose not_after has passed. -/
def execPermitExpiryRemoval (loc : PermitLoc) (s : State) : Res :=
  match s.permitAt (permitIndex loc), (List.range 8).find? s.sweeps with
  | some e, some k =>
    if leAt e.bytes 96 8 * 1000000000 < s.tai ∧ e.inForce then done ((s.erasePermit (permitIndex loc)).safePoint k) else done s
  | _, _ => done s

end Sys2Proof.Machine
end

