-- ==== Sys2Proof/Machine/Sheaf.lean ====
section
/-! DEFINITION. The Sheaf links: lanes, training, superframes and what puts a link in and out of service; and the twin as it comes and
goes (14_sheaf_link.md, R344 to R353, R356 to R359). -/

namespace Sys2Proof.Machine

/-- Causes of a link-down event, which R349 orders and does not number (assumption 42). -/
def downSignal : Nat := 1
def downFrame : Nat := 2
def downCrc : Nat := 3
def downBeat : Nat := 4
def downOther : Nat := 5

/-- Lane `k` of a link. -/
def SheafLink.lane (l : SheafLink) (k : Nat) : SheafLane := l.lanes.getD k {}
/-- Changes lane `k` of a link. -/
def SheafLink.modLane (l : SheafLink) (k : Nat) (f : SheafLane → SheafLane) : SheafLink :=
  { l with lanes := l.lanes.set k (f (l.lane k)) }
/-- A lane out of frame, with no candidates (R348). -/
def SheafLane.unframed (x : SheafLane) : SheafLane := { x with inFrame := false, missed := 0, laneByte := none, cands := [] }
/-- Changes link `n`. -/
def State.modLink (s : State) (n : Nat) (f : SheafLink → SheafLink) : State := s.setLink n (f (s.link n))

/-- A lane's test is on (R358). -/
def State.sheafTest (s : State) (i : Nat) : Bool := s.sn 0x0E07 i 0 != 0 || s.sn 0x0E07 i 2 != 0 || s.son 0x0E07 i 3 || s.son 0x0E07 i 4
/-- Any lane of a link is in test (R358). -/
def State.linkTest (s : State) (n : Nat) : Bool := (List.range 9).any (fun k => s.sheafTest (9 * n + k))
/-- Power state of a lane: deep rest without a pair ID and once sag has closed the ledger, else as commanded (R352, R358, R438). -/
def State.sheafPower (s : State) (i : Nat) : Nat := if s.pairId = 0 ∨ s.power.closed then 2 else s.sn 0x0E08 i
/-- Every lane of a link is active (R358). -/
def SheafLink.active (l : SheafLink) : Bool := (List.range 9).all (fun k => (l.lane k).power == 0)
/-- Every lane of a link is active, and the reference clock runs. -/
def State.linkPowered (s : State) (n : Nat) : Bool := s.sheaf.refclk && (s.link n).active

/-- A training attempt begins (R346). -/
def SheafLink.attempt (l : SheafLink) (now : Nat) : SheafLink :=
  { l with attemptAt := some now, requests := 0, retryAt := none
           lanes := l.lanes.map (fun x => { x with converged := false, pendingReq := none, lastAnswer := none }) }
/-- No attempt runs or is due on the link: a lane of it rests or is in test (R358). -/
def SheafLink.rest (l : SheafLink) : SheafLink := { l with attemptAt := none, retryAt := none }

/-! ### The twin's loss (R353, R357, R285) -/

/-- A permit that waits for the twin's answer goes on without it: a pair-required one is refused, an ordinary one needs no reservation
(R285, R357). -/
def State.unreserve (s : State) (i : Intake) : State :=
  if bodyPair i.body then s.refuseIntake i 4
  else if !(s.windowOf (bodyKey i.body)).passes (bodySeq i.body) then s.refuseIntake i 7
  else
    let s1 := s.takeSeq (bodyKey i.body) (bodySeq i.body)
    { s1 with gate := { s1.gate with waiting := s1.gate.waiting.map (fun x => if x = i then { i with granted := true } else x) } }

/-- Requests of a mailbox that wait are discarded unexecuted, and the completion of one that executes is to be discarded (R357, R362). -/
def State.orphan (s : State) (mb : Nat) : State :=
  let b := s.box mb
  s.setBox mb { b with taken := [], gap := [], gapAt := none, line := [] }

/-- The twin is lost (R353, R357): everything queued for it or kept from it goes, and what waited for it goes on without it. -/
def State.twinLost (s : State) : State :=
  let h := s.sheaf
  let s1 := { s with sheaf := { h with twin := 2, txNum := 1, rxNum := 0, early := [], unacked := [], outq := [], resyncLeft := [],
                                       resyncOn := false, merging := false, twinCycle := none } }
  let s2 := [0, 1].foldl (fun s n => s.modLink n (fun l => { l with paired := false, txq := [] })) s1
  let s3 := (s2.noteFault 14).raise 0x0906 srcDevice []
  let s4 := { s3 with
    host := { s3.host with masters := Tab.erase s3.host.masters 2 }
    gate := { s3.gate with consuming := [] } }
  let s5 := (s4.gate.waiting.filter (fun i => i.reserved && !i.granted)).foldl (fun s i => s.unreserve i) s4
  let s6 := ((s5.advanceIntake).orphan 12).orphan 13
  let s7 := if s6.tiller.followsTwin then s6.enterHoldover 1 else s6
  (s7.relookup (fun _ => true)).noteStatus

/-- The twin is present on no link that is in service. -/
def State.noPairedLink (s : State) : Bool := s.linksUp.isEmpty

/-- A link leaves service (R349, R359): its unacknowledged messages are sent again on the other link; with no link left, the twin is
lost. It trains again at once, when its lanes are powered. -/
def State.sheafDown (s : State) (n cause : Nat) : State :=
  let l := s.link n
  if !l.up then s
  else
    let l1 := { l with up := false, paired := false, crcOk := 0, crcBad := 0, txq := [], nonce := [], twinNonce := [] }
    let s1 := (s.setLink n (l1.attempt s.now)).raise 0x0903 srcDevice (natLe 1 n ++ natLe 1 cause)
    if s1.sheaf.twin ≠ 1 then s1
    else if s1.noPairedLink then s1.twinLost
    else
      let s2 := s1.sheaf.unacked.foldl (fun s (m : Sent) => s.sendMsg m.num m.msg) s1
      { s2 with sheaf := { s2.sheaf with unacked := s2.sheaf.unacked.map (fun m => { m with at_ := s.now }) } }

/-- The power states of the lanes are set again; a link with a lane that is not active leaves service (R358). -/
def State.sheafRepower (s : State) (power : Nat → Nat) : State :=
  [0, 1].foldl (fun s n =>
    let l := s.link n
    let lanes := (l.lanes.zipIdx).map (fun (x : SheafLane × Nat) =>
      let w := power (9 * n + x.2)
      if x.1.power = w then x.1
      else if w = 0 then { x.1 with power := 0 }
      else { x.1.unframed with power := w, lock := false, converged := false })
    if lanes = l.lanes then s
    else
      let on := lanes.all (fun x => x.power == 0)
      let s1 := if on then s else s.sheafDown n downOther
      s1.modLink n (fun l =>
        let l1 := { l with lanes := lanes }
        if on ∧ !s.linkTest n then l1.attempt s.now else l1.rest)) s

/-- The pair settings are set (R352, R353): the lanes take their power states, and without a pair ID the twin is absent. -/
def State.pairChanged (s : State) : State :=
  let s1 := s.sheafRepower s.sheafPower
  if s1.pairId = 0 ∧ s1.sheaf.twin ≠ 0 then { s1 with sheaf := { s1.sheaf with twin := 0 } }.noteStatus else s1

/-- A link with a lane in test is out of service, and trains anew once none is (R358). -/
def State.sheafRetest (s : State) (n : Nat) : State :=
  if s.linkTest n then (s.sheafDown n downOther).modLink n SheafLink.rest
  else
    let l := s.link n
    if !l.up ∧ l.active ∧ l.attemptAt.isNone ∧ l.retryAt.isNone ∧ !(l.lanes.take 8).all (fun x => x.converged) then
      s.setLink n (l.attempt s.now)
    else s

/-! ### Symbol lock and training (R345, R346) -/

/-- Link and lane number of a Sheaf lane. -/
def linkOf (l : Nat) : Nat := l / 9
def laneNo (l : Nat) : Nat := l % 9

/-- SHEAF_SYMBOL_LOCK_GAIN (R345): the comma is found, which shows the forwarded clock that samples it (Table 14-1), and REFCLK_SHEAF when it
was lost (assumption 43). -/
def execSheafSymbolLockGain (l : SheafLaneId) (s : State) : Res :=
  if ((s.link (linkOf l)).lane (laneNo l)).power ≠ 0 then done s
  else
    let s1 := s.modLink (linkOf l) (fun x => (x.modLane (laneNo l) (fun y => { y with lock := true, signal := true })).modLane 8
      (fun y => { y with signal := true }))
    done { s1 with sheaf := { s1.sheaf with refclk := true } }

/-- A lane loses symbol lock and with it its frame (R345, R348). -/
def State.lostLane (s : State) (l cause : Nat) (signal : Bool) : State :=
  (s.modLink (linkOf l) (fun x => x.modLane (laneNo l) (fun y => { y.unframed with lock := false, signal := signal }))).sheafDown (linkOf l) cause

/-- All lanes of a link lose symbol lock and frame, their clock being gone. -/
def SheafLink.unlocked (l : SheafLink) : SheafLink := { l with lanes := l.lanes.map (fun y => { y.unframed with lock := false }) }

/-- SHEAF_SYMBOL_LOCK_LOSS (R345). -/
def execSheafSymbolLockLoss (l : SheafLaneId) (s : State) : Res :=
  done (s.lostLane l downFrame ((s.link (linkOf l)).lane (laneNo l)).signal)

/-- REFCLK_SHEAF_LOSS (R467): both links leave service, and their lanes lose lock (assumption 43). -/
def execRefclkSheafLoss (s : State) : Res :=
  let s1 := { s with sheaf := { s.sheaf with refclk := false } }
  done ((((s1.sheafDown 0 downOther).sheafDown 1 downOther).modLink 0 SheafLink.unlocked).modLink 1 SheafLink.unlocked)

/-- Bound `k` of Table 3-3 as NRZ lanes take it; Sheaf lanes have its default (R346, assumption 44). -/
def sheafBound (k : Nat) : Nat := (Settings.nat [] 0x0305 0 k)

/-- A training attempt of a link fails (R346): another begins after 1 s, and the event is raised at most once per minute per link. The
cause is coded as for a line port (assumption 42). -/
def State.sheafFail (s : State) (n lane cause : Nat) : State :=
  let l := s.link n
  let due := l.failEventAt.all (fun t => decide (t + sec 60 ≤ s.now))
  let s1 := s.setLink n { l with attemptAt := none, requests := 0, retryAt := some (s.now + sec 1)
                                 failEventAt := if due then some s.now else l.failEventAt }
  if due then s1.raise 0x0901 (src 4 lane) (natLe 1 cause) else s1

/-- SHEAF_LANE_LOSS_OF_SIGNAL (R346, R349): loss of the clock lane takes the lock of every lane that it samples; during an attempt, loss on
a data lane fails it at once (Table 3-3). -/
def execSheafLaneLossOfSignal (l : SheafLaneId) (s : State) : Res :=
  let n := linkOf l
  let x := s.link n
  let had := (x.lane (laneNo l)).signal
  let s1 := if laneNo l = 8 then (s.lostLane l downSignal false).modLink n SheafLink.unlocked else s.lostLane l downSignal false
  if had ∧ laneNo l < 8 ∧ !x.up ∧ x.attemptAt.isSome then done (s1.sheafFail n l causeNoSignal) else done s1

/-- The twin's pending request on a lane is answered, no sooner than the response interval after the last answer (R79, R346): the tap moves
unless it would leave its range. -/
def State.answerSheaf (s : State) (l : Nat) : State :=
  let y := (s.link (linkOf l)).lane (laneNo l)
  match y.pendingReq with
  | none => s
  | some q =>
    if y.lastAnswer.any (fun t => decide (s.now < t + ns (sheafBound 4))) then s
    else
      let i := q.tap.val - 2
      let (lo, hi) := tapBounds 4 q.tap
      let (st, v) := answerTap lo hi (if q.tap.val < 2 then 0 else y.taps.getD i 0) q.delta
      let y1 := { y with pendingReq := none, lastAnswer := some s.now, taps := if q.tap.val < 2 then y.taps else y.taps.set i v }
      (s.modLink (linkOf l) (fun x => x.modLane (laneNo l) (fun _ => y1))).emit (.sheafCoef l q.tap st)

/-- The receiver of a lane in training adapts its equaliser and asks the twin's transmitter to move a tap (R346). What it settles on and when
it asks are free (assumption 216). -/
def State.adaptSheaf (s : State) (l : Nat) : State :=
  let (r, s1) := s.draw
  let s2 := s1.modLink (linkOf l) (fun x => x.modLane (laneNo l) (fun y => { y with eq := r.toNat }))
  match Config.tapAsk r with
  | some (tap, d) => if 2 ≤ tap ∧ tap < 5 then s2.emit (.sheafAsk l tap d) else s2
  | none => s2

/-- SHEAF_TRAINING_FRAME (R346): the twin's request is counted and answered, a field that holds being none (assumption 44); the receiver
adapts; a lane that has converged waits for the others. -/
def execSheafTrainingFrame (l : SheafLaneId) (q : CoefRequest) (converged : Bool) (s : State) : Res :=
  let n := linkOf l
  let x := s.link n
  let asks := decide (q.delta ≠ 0)
  match x.attemptAt with
  | none => done s
  | some t =>
    if x.up ∨ !s.linkPowered n ∨ s.linkTest n ∨ laneNo l = 8 then done s
    else if t + ns (sheafBound 3) ≤ s.now then done (s.sheafFail n l causeTrainTimeout)
    else if asks ∧ sheafBound 5 < x.requests + 1 then done (s.sheafFail n l causeRequestFlood)
    else
      let x1 := x.modLane (laneNo l) (fun y =>
        { y with signal := true, converged := y.converged || converged, pendingReq := if asks then some q else y.pendingReq })
      let all := (List.range 8).all (fun j => (x1.lane j).converged)
      let x2 := { x1 with requests := x.requests + b2n asks, attemptAt := if all then none else x.attemptAt }
      done (((s.setLink n x2).answerSheaf l).adaptSheaf l)

/-- SHEAF_TRAINING_RETRY (R346): a failed attempt is repeated after 1 s; an attempt that has passed its bound fails on its first lane that has
not converged. -/
def execSheafTrainingRetry (n : LinkId) (s : State) : Res :=
  let x := s.link n
  if x.retryAt.any (fun t => decide (t ≤ s.now)) then done (s.setLink n (if x.active then x.attempt s.now else x.rest))
  else if x.attemptAt.any (fun t => decide (t + ns (sheafBound 3) ≤ s.now)) ∧ !x.up then
    let k := ((List.range 8).find? (fun k => !(x.lane k).converged)).getD 0
    done (s.sheafFail n (9 * n + k) (if (x.lane k).signal then causeTrainTimeout else causeNoSignal))
  else done s

/-- One clock of the pattern checker of a data lane in test (R87, R358), as a line lane's (assumption 116). -/
def State.checkSheaf (s : State) (l : Nat) : State :=
  if laneNo l = 8 ∨ !s.son 0x0E07 l 4 then s
  else
    let upd (s : State) (lock : Bool) (errs : Nat) : State := s.modLink (linkOf l) (fun x => x.modLane (laneNo l) (fun y =>
      let c := ({ errs := y.errs, locked := y.locked, lockAt := y.lockAt } : Lane).check lock errs s.now
      { y with errs := c.errs, locked := c.locked, lockAt := c.lockAt }))
    if ((s.link (linkOf l)).lane (laneNo l)).power ≠ 0 ∨ s.sn 0x0E07 l 2 = 0 then upd s false 0
    else match s.sn 0x0E07 l 0 with
    | 2 => upd s (s.son 0x0E07 l 3) 0
    | 3 => upd s false 0
    | _ =>
      let (r, s1) := s.draw
      upd s1 (Config.checkerLocks r) (Config.checkerErrors r)

/-- A training frame leaves a lane (R346). The layout of its control field, which carries the answers and requests of the lane, and where its
fill begins are free (assumption 258). -/
def State.sendTraining (s : State) (l : Nat) : State :=
  let (c, s1) := s.draw
  let (v, s2) := s1.draw
  s2.emit (.sheafTrain l (trainingFrame c (v.setWidth 7)))
/-- The data lanes of a link in training send a frame every 256 symbols, of 99.3 ns (R345, R346). -/
def State.trainSheaf (s : State) (n : Nat) : State :=
  let l := s.link n
  if l.attemptAt.isSome ∧ s.linkPowered n ∧ !s.linkTest n ∧ l.trainAt + 894 ≤ s.now then
    (List.range 8).foldl (fun s k => s.sendTraining (9 * n + k)) (s.setLink n { l with trainAt := s.now })
  else s

/-- One core clock of the Sheaf lanes: training frames, answers that waited, and the pattern checkers. -/
def State.sheafClock (s : State) : State :=
  (Tab.keys s.sheaf.links).foldl (fun (s : State) (n : Nat) =>
    (List.range 8).foldl (fun (s : State) (k : Nat) => (s.answerSheaf (9 * n + k)).checkSheaf (9 * n + k)) (s.trainSheaf n)) s

/-! ### Superframes (R347 to R349) -/

/-- A lane out of frame meets a place where the pattern stands (R348): a candidate seen 2,048 symbols ago at this position with this lane
byte is accepted, and one that has passed its second position unmatched is gone; else the place is a candidate, while fewer than four are
kept. -/
def SheafLane.meet (x : SheafLane) (c : Nat × Nat) : SheafLane :=
  if x.inFrame then x
  else if x.cands.contains c then { x with inFrame := true, missed := 0, framePos := c.1, laneByte := some c.2, cands := [] }
  else
    let live := x.cands.filter (fun d => d.1 != c.1)
    if live.length < 4 then { x with cands := live ++ [c] } else { x with cands := live }

/-- The candidates of the 2,048 symbols before stand until their own position comes again: those below `p` are gone (R348). `old` names
them. -/
def SheafLane.passTo (x : SheafLane) (old : List (Nat × Nat)) (p : Nat) : SheafLane :=
  { x with cands := x.cands.filter (fun d => !(old.contains d && decide (d.1 < p))) }

/-- A lane that is searching goes through the places where the pattern was seen, in order (R348). -/
def SheafLane.search (x : SheafLane) (seen : List (Nat × Nat)) : SheafLane :=
  let old := x.cands
  let y := seen.foldl (fun (y : SheafLane) c => (y.passTo old c.1).meet c) x
  y.passTo old 2048

/-- The 2,048 symbols of a lane as its search sees them (R348): in frame, the pattern at its expected position, and out of frame after four
misses in a row, from where the search goes on. -/
def SheafLane.frame (x : SheafLane) (seen : List (Nat × Nat)) : SheafLane :=
  if !x.lock ∨ x.power ≠ 0 then x
  else if x.inFrame then
    if seen.any (fun c => c.1 == x.framePos && some c.2 == x.laneByte) then { x with missed := 0 }
    else if x.missed + 1 < 4 then { x with missed := x.missed + 1 }
    else x.unframed.search (seen.filter (fun c => decide (x.framePos < c.1)))
  else x.search seen

/-- Symbols from position `a` to position `b`, the shorter way round a superframe. -/
def skew (a b : Nat) : Nat := min ((a + 2048 - b) % 2048) ((b + 2048 - a) % 2048)

/-- All eight data lanes are in frame after training, with distinct lane bytes, their frame starts deskewed within 64 symbols, and the
forwarded clock is there (R346, R349, Table 14-1; assumption 233). -/
def SheafLink.aligned (l : SheafLink) : Bool :=
  let d := l.lanes.take 8
  d.all (fun x => x.inFrame && x.converged) && decide ((d.map (fun x => x.laneByte)).Nodup) && (l.lane 8).signal &&
    d.all (fun x => d.all (fun y => decide (skew x.framePos y.framePos ≤ 64)))

/-- A link enters service (R349): the event, and this side's pairing message with a new nonce (R352). -/
def State.sheafUp (s : State) (n : Nat) : State :=
  let (nonce, s1) := s.drawBytes 32
  let s2 := s1.modLink n (fun l => { l with up := true, paired := false, beatAt := s.now, nonce := nonce, twinNonce := [], attemptAt := none })
  let s3 := s2.raise 0x0902 srcDevice (natLe 1 n)
  let msg := natBe 8 s.pairId ++ natBe 8 Config.serial ++ edPublic Config.identitySeed ++ nonce ++ List.replicate 64 0
  s3.enqueueMsg n 0 (.pairing msg)

/-- A span in ns as an angle, in au, at the present output rate (R58). -/
def State.auOf (s : State) (n : Nat) : Nat := s.phaseIn (ns n) / 2 ^ 40

/-- The twin's stamp of a header, corrected by half the round trip, and what follows from it: the offsets (R356). -/
def State.twinStamp (s : State) (stamp : Nat) : Nat := stamp + s.auOf (s.sheaf.roundTrip / 2)

/-- The angle and cycle offset of the twin (R356): the angle offset is the nearer one. -/
def State.noteOffset (s : State) (stamp : Nat) : State :=
  let d : Int := (s.twinStamp stamp : Nat) - (s.angle : Nat)
  let c := (d + 32768) / 65536
  { s with sheaf := { s.sheaf with cycleOffset := c, angleOffset := d - 65536 * c } }

/-- In follow mode, the twin's passing of the reference phase is an edge of the reference (R356). -/
def State.followTwin (s : State) (stamp : Nat) : State :=
  let t := s.twinStamp stamp + 65536 - s.sn 0x0202
  let c := t / 65536
  let s1 := { s with sheaf := { s.sheaf with twinCycle := some c } }
  if s.following ∧ s.sheaf.twinCycle.any (fun x => decide (x < c)) then
    let at_ := toNs (s.now - s.timeIn (t % 65536 * 2 ^ 40))
    let s2 := s1.referenceEdge at_
    if !s.tracking ∧ s2.tracking then { s2 with tiller := { s2.tiller with followsTwin := true } } else s2
  else s1

/-- What a header that passed its CRC tells: the twin's ack, and its angle (Table 14-3). -/
def State.header (s : State) (n : Nat) (h : Bytes) : State :=
  if (s.link n).paired ∧ s.sheaf.twin = 1 then
    let ack := beAt h 8 4
    let s1 := { s with sheaf := { s.sheaf with unacked := s.sheaf.unacked.filter (fun m => decide (ack < m.num)) } }
    (s1.noteOffset (beAt h 12 8)).followTwin (beAt h 12 8)
  else s

/-- SUPERFRAME_RECEIVE (R347 to R350): the frame starts, the header, and what puts the link in and out of service. The messages of its slots
are commands of their own (assumption 45). -/
def execSuperframeReceive (n : LinkId) (x : Superframe) (s : State) : Res :=
  let l := s.link n
  if !s.linkPowered n ∨ s.linkTest n then done s
  else
    let lanes := (l.lanes.zipIdx).map (fun (y : SheafLane × Nat) => if y.2 < 8 then y.1.frame (x.seen.getD y.2 []) else y.1)
    let l1 := { l with lanes := lanes }
    let s1 := s.setLink n l1
    if !l1.aligned then
      if l.up then done (s1.sheafDown n downFrame) else done (s1.setLink n { l1 with crcOk := 0, crcBad := 0 })
    else
      let h := x.payload.take 32
      if crc32c crcOnes (h.take 28) = BitVec.ofNat 32 (beAt h 28 4) then
        let s2 := s1.setLink n { l1 with crcOk := l.crcOk + 1, crcBad := 0 }
        if l.up then done (s2.header n h)
        else if 8 ≤ l.crcOk + 1 then done (s2.sheafUp n) else done s2
      else
        let s2 := s1.setLink n { l1 with crcOk := 0, crcBad := l.crcBad + 1 }
        if l.up ∧ 8 ≤ l.crcBad + 1 then done (s2.sheafDown n downCrc) else done s2

/-- The header of a superframe that leaves now (Table 14-3). -/
def State.superHeader (s : State) (n : Nat) : Bytes :=
  let l := s.link n
  let h := natBe 4 (l.sfNumber % 2 ^ 32) ++ [1] ++ natBe 1 (s.sheaf.rank % 2 + 2 * b2n l.paired + 4 * b2n l.up) ++ natBe 2 0 ++ natBe 4 s.sheaf.rxNum ++
    natBe 8 s.angle ++ natBe 4 (s.tiller.phase % 2 ^ 40 / 256) ++ natBe 4 0
  h ++ natBe 4 (crc32c crcOnes h).toNat

/-- A superframe lasts 794.376 ns (R347). -/
def superframeTime : Nat := 7149

/-- SUPERFRAME_SEND (R347): header, up to 255 queued slots, and idle slots. -/
def execSuperframeSend (n : LinkId) (s : State) : Res :=
  let l := s.link n
  if !s.linkPowered n ∨ s.linkTest n ∨ !((l.lanes.take 8).all (fun x => x.converged)) ∨ s.now < l.sentAt + superframeTime then done s
  else
    let slots := l.txq.take 255
    let out := (s.superHeader n ++ slots.flatten).map Symbol.data ++ (List.replicate (255 - slots.length) idleSlot).flatten
    done ((s.setLink n { l with txq := l.txq.drop 255, sfNumber := l.sfNumber + 1, sentAt := s.now }).emit
      (.superframe n ((List.range 8).map (laneSymbols out))))

/-! ### Heartbeats (R350, R353) -/

/-- A heartbeat is due on a link 100 µs after the last (R353). -/
def State.beat (s : State) (n : Nat) : State :=
  let l := s.link n
  if s.now < l.beatSent + us 100 then s
  else (s.setLink n { l with beatSent := s.now }).enqueueMsg n 0
    (.heartbeat (b2n s.gate.isShut) s.tiller.st.code s.power.level s.sheaf.rank)

/-- HEARTBEAT_SEND (R350): every 100 µs on each link that the pair uses. -/
def execHeartbeatSend (s : State) : Res :=
  done (s.linksUp.foldl State.beat s)

/-- HEARTBEAT (R353): accepted from the paired twin. -/
def execHeartbeat (n : LinkId) (x : HeartbeatBody) (s : State) : Res :=
  if (s.link n).up ∧ (s.link n).paired ∧ s.sheaf.twin = 1 then
    let s1 := s.modLink n (fun l => { l with beatAt := s.now })
    done { s1 with sheaf := { s1.sheaf with beatAt := s.now, twinGate := x.gateShut, twinTiller := x.tiller, twinSag := x.sag } }
  else done s

/-- A link that the pair uses leaves service when no heartbeat has been accepted on it for 300 µs (R349, assumption 143). -/
def State.silentDown (s : State) (n : Nat) : State :=
  if (s.link n).up ∧ (s.link n).paired ∧ (s.link n).beatAt + us 300 ≤ s.now then s.sheafDown n downBeat else s

/-- SHEAF_HEARTBEAT_TIMEOUT (R349): a link that the pair uses. -/
def execSheafHeartbeatTimeout (n : LinkId) (s : State) : Res := done (s.silentDown n)

/-- TWIN_HEARTBEAT_TIMEOUT (R353): no heartbeat on either link for the loss time. Links of the pair that have had none for 300 µs leave
service with it, so that they pair anew as they return (R349, Table 14-7). -/
def execTwinHeartbeatTimeout (s : State) : Res :=
  if s.sheaf.twin = 1 ∧ s.sheaf.beatAt + ns (s.sn 0x0E05) ≤ s.now then
    let t := [0, 1].foldl State.silentDown s
    done (if t.sheaf.twin = 1 then t.twinLost else t)
  else done s

/-! ### Pairing (R352, R353) -/

/-- The twin identity key is set. -/
def State.twinKey (s : State) : Option Bytes :=
  let k := (List.range 32).map (fun i => BitVec.ofNat 8 (s.sn 0x0E02 0 i))
  if k.all (fun b => b == 0) then none else some k

/-- What a side signs: its own nonce, the other's, and the pair ID (R352; the order is assumption 46). -/
def pairSigned (own other : Bytes) (id : Nat) : Bytes := own ++ other ++ natBe 8 id

/-- This side's window messages at the twin's return: the windows of every key, five to a message, and fewer in the last (R285, Table 14-5,
assumption 48). -/
def windowMsgs : Nat → List WindowState → List Msg
  | 0, _ => []
  | n + 1, ws => if ws.length < 5 then [.windows ws] else .windows (ws.take 5) :: windowMsgs n (ws.drop 5)

/-- Checkpoints of every translated pair held (R357). -/
def State.heldPairs (s : State) : List Checkpoint :=
  (s.flow.records.filter (fun (x : Nat × FlowRec) => x.2.live)).filterMap (fun (x : Nat × FlowRec) => s.pairCheckpoint true x.2.bytes)

/-- The twin is accepted on a link (R352, R353): the first link makes it present, under new message numbers; a twin that was lost has
returned, and the windows are merged and the checkpoints sent again (R285, R357). -/
def State.acceptTwin (s : State) (n serial : Nat) : State :=
  let s1 := s.modLink n (fun l => { l with paired := true, beatAt := s.now })
  if s.sheaf.twin = 1 then s1
  else
    let back := decide (s.sheaf.twin = 2)
    let s2 := { s1 with sheaf := { s1.sheaf with
      twin := 1, twinSerial := serial, rank := if Config.serial < serial then 0 else 1, beatAt := s.now
      txNum := 1, rxNum := 0, early := [], unacked := [], twinCycle := none } }
    let s3 := s2.raise (if back then 0x0907 else 0x0905) srcDevice (natLe 8 serial)
    let s4 :=
      if back then
        let ws := s3.gate.windows.map (fun (x : Nat × Window64) => ({ key := x.1, high := x.2.high, bitmap := x.2.bitmap } : WindowState))
        let s' := (windowMsgs (ws.length + 1) ws).foldl (fun s m => s.tell m) s3
        { s' with sheaf := { s'.sheaf with merging := true, resyncLeft := if s.son 0x0E04 then s'.heldPairs else [], resync := 0
                                           resyncOn := true } }
      else s3
    (s4.relookup (fun _ => true)).noteStatus

/-- PAIRING (R352, Table 14-7): a link whose pairing is refused carries no shared state; the answer carries this side's signature once the
twin's nonce has arrived; the twin is accepted when the pair IDs are equal, its key is the configured one and its signature verifies. -/
def execPairing (n : LinkId) (x : PairingBody) (s : State) : Res :=
  let l := s.link n
  match s.twinKey with
  | none => done s
  | some key =>
    let refuse (s : State) (c : Nat) : State :=
      (s.modLink n (fun l => { l with paired := false })).raise 0x0904 srcDevice (natLe 1 n ++ natLe 1 c)
    if !l.up ∨ s.pairId = 0 then done s
    else if x.pairId ≠ s.pairId then done (refuse s 1)
    else if x.key ≠ key then done (refuse s 2)
    else
      let s1 :=
        if l.twinNonce = x.nonce then s
        else
          let sig := edSign Config.identitySeed (pairSigned l.nonce x.nonce s.pairId)
          let msg := natBe 8 s.pairId ++ natBe 8 Config.serial ++ edPublic Config.identitySeed ++ l.nonce ++ sig
          (s.setLink n { l with twinNonce := x.nonce }).enqueueMsg n 0 (.pairing msg)
      match x.sig with
      | none => done s1
      | some g =>
        if edVerify key (pairSigned x.nonce l.nonce s.pairId) g then done (s1.acceptTwin n x.serial)
        else done (refuse s1 3)

end Sys2Proof.Machine
end

