-- ==== Sys2Proof/Machine/Clock.lean ====
section
/-! DEFINITION. What one core clock carries forward while no command waits. -/

namespace Sys2Proof.Machine

/-- Ticks of the 32.768 kHz crystal at time `t`. -/
def xtalTicks (t : Nat) : Nat := t * 32768 / 9000000000

/-- The keeper's RTC counts the crystal's ticks while VKEEP and the crystal are there (R431, R432). -/
def State.rtcRun (s : State) (until_ : Nat) : State :=
  if s.keeper.vkeep ∧ s.keeper.xtal then
    let n := s.keeper.sub + (xtalTicks until_ - xtalTicks s.now)
    { s with keeper := { s.keeper with rtc := s.keeper.rtc + n / 32768, sub := n % 32768 } }
  else s

/-- Issue slots of a slice's engines on this clock with no ready context: of the engines in service, those that have issued no word on it
and could issue none (Table 20-3, event 9). -/
def State.idleSlots (s : State) (k : Nat) : Nat :=
  ((List.range 64).filter (fun e => s.engineOk k e && Tab.get 0 s.eng.wordAt (aeIndex k e) != s.now + 1 &&
    !s.packets.any (fun (x : Nat × Packet) => sliceOf x.2.port == k && x.2.stage == .running &&
      x.2.ctx.any (fun c => c.engine == e && s.readyCtx k c)))).length

/-- The events counted on each core clock (Table 20-3): clocks, flow-state transactions in use, idle issue slots, and profiled-work queue
entries. A setting that assigns none of them leaves the counters alone. -/
def State.pmuClock (s : State) : State :=
  if (List.range 8).any (fun n => s.eventNo n = 1 ∨ s.eventNo n = 5 ∨ s.eventNo n = 9 ∨ s.eventNo n = 12) then
    (List.range 8).foldl (fun s k =>
      (((s.pmu k 1).pmu k 5 (s.transactions k)).pmu k 9 (s.idleSlots k)).pmu k 12 (Tab.get [] s.awn.queue k).length) s
  else s

/-- What a snapshot on the clock that now begins copies (R457): the increments of this clock come after it. -/
def State.countClock (s : State) : State := { s with cnt := { s.cnt with start := s.cnt.live } }

/-- One core clock (assumption 3). -/
def State.coreClock (s : State) : State :=
  ((s.endClear.macClock.rtcRun (s.now + clk)).tick).laneClock.sheafClock.sequencerClock.engineClock.coreShapers.mgmtClock.pmuClock.countClock

end Sys2Proof.Machine
end

