-- ==== Sys2Proof/Machine/Items.lean ====
section
/-! DEFINITION. Settings payloads: target headers, items and value coding, their checks and their read-back (R383 to R385). -/

namespace Sys2Proof.Machine

/-! ### Targets (Table 16-1, R384) -/

/-- Every target of a kind, lowest index first. -/
def allTargets (kind : Nat) : List Nat :=
  match kind with
  | 0 => [0]
  | 1 => List.range 96
  | 2 => List.range 768
  | 3 => List.range 192
  | 4 => List.range 18
  | 5 => List.range 8
  | 6 => List.range 256
  | 7 => List.range 64
  | 8 => (List.range 4094).map (fun v => v + 1)
  | 9 => List.range 48
  | 10 => List.range 1024
  | 11 => List.range 1024
  | 12 => List.range 128 ++ (List.range 16).map (fun k => 256 + k)
  | 13 => (List.range 8).flatMap (fun k => (List.range 68).map (fun n => 128 * k + n)) ++ (List.range 32).map (fun n => 1024 + n)
  | 14 => List.range 6
  | _ => []

/-- Rows of the settings tables that a command carries, in row order. -/
def rowsOf (op : Nat) : List Row := Catalogue.rows.filter (fun r => r.op == op)
/-- The row of an item, if the command carries it. -/
def rowFor (op id : Nat) : Option Row := (rowsOf op).find? (fun r => r.id == id)
/-- Target kinds that Table 16-6 allows for a command: those of its rows, and for Port pause set the port and class too, to which none of its rows
applies (assumption 261). -/
def kindsOf (op : Nat) : List Nat := (rowsOf op).map (fun r => r.kind) ++ (if op = 0x0205 then [2] else [])
/-- Every row of the command is expert, so that its basic form is its read (R383). -/
def allExpert (op : Nat) : Bool := (rowsOf op).all (fun r => r.expert)
/-- The command carries settings. -/
def isSettings (op : Nat) : Bool := Catalogue.rows.any (fun r => r.op == op)

/-- The targets that a header at `off` names, or the status of its refusal (R384). -/
def headerTargets (kinds : List Nat) (bs : Bytes) (off : Nat) : Except Nat (Nat × List Nat) :=
  let kind := leAt bs off 1
  let flags := leAt bs (off + 1) 1
  let first := leAt bs (off + 2) 2
  let count := leAt bs (off + 4) 2
  if bs.length < off + 8 ∨ 1 < flags ∨ leAt bs (off + 6) 2 ≠ 0 ∨ !kinds.contains kind then .error 0x0301
  else if flags = 1 then .ok (kind, allTargets kind)
  else
    let ts := (List.range count).map (fun i => first + i)
    if count = 0 ∨ !(ts.all (fun t => (allTargets kind).contains t)) then .error 0x0302 else .ok (kind, ts)

/-! ### Values (R385, Tables 16-3 and 16-4) -/

/-- One field at `off`. -/
def readFld (c : Code) (bs : Bytes) (off : Nat) : Int :=
  let n := leAt bs off c.size
  if c.isSigned then signed (8 * c.size) n else (n : Int)

/-- Fields packed from `off`. -/
def readFlds : List Fld → Bytes → Nat → List Int
  | [], _, _ => []
  | f :: fs, bs, off => readFld f.code bs off :: readFlds fs bs (off + f.code.size)

/-- Bytes that fields take. -/
def fldsSize (fs : List Fld) : Nat := (fs.map (fun f => f.code.size)).sum

/-- One field as bytes. -/
def writeFld (c : Code) (v : Int) : Bytes := natLe c.size (unsigned (8 * c.size) v)
/-- Fields as bytes. -/
def writeFlds (fs : List Fld) (vs : List Int) : Bytes := ((fs.zip vs).map (fun (x : Fld × Int) => writeFld x.1.code x.2)).flatten

/-- Fields of one policer in an item: number, enable, unit, 0, rates and bursts (Table 16-4). -/
def policerFlds : List Fld := [.u8, .u8, .u8, .u8, .u64, .u64, .u32, .u32].map (fun c => ⟨c, 0, 0, 0⟩)

/-- The first bytes of the export destination precede its address list; the gate addresses have none (Table 16-4). -/
def addrLead (id : Nat) : Nat := if id = 0x090A then 1 else 0

/-- The values of an item; none where its length does not fit its row. A policer item gives each policer's eight fields. -/
def readItem (r : Row) (bs : Bytes) : Option (List Int) :=
  match r.shape with
  | .fixed => if bs.length = fldsSize r.flds then some (readFlds r.flds bs 0) else none
  | .policers =>
    let n := bs.length / 28
    if n = 0 ∨ bs.length ≠ 28 * n ∨ !((List.range n).all (fun i => leAt bs (28 * i + 3) 1 == 0)) then none
    else some ((List.range n).flatMap (fun i => readFlds policerFlds bs (28 * i)))
  | .addrs =>
    let o := addrLead r.id
    let n := leAt bs o 1
    let tail := r.flds.drop o
    if bs.length ≠ o + 4 + 16 * n + fldsSize tail ∨ leAt bs (o + 1) 3 ≠ 0 then none
    else
      let vs := (slice bs (o + 4) (16 * n)).map (fun b => (b.toNat : Int))
      some (readFlds (r.flds.take o) bs 0 ++ [(n : Int)] ++ vs ++ readFlds tail bs (o + 4 + 16 * n))

/-- The bytes of a setting's values (R383). -/
def writeItem (r : Row) (vs : List Int) : Bytes :=
  match r.shape with
  | .fixed => writeFlds r.flds vs
  | .policers =>
    (List.range 16).flatMap (fun i =>
      let f (k : Nat) := vs.getD (6 * i + k) 0
      writeFlds policerFlds [i, f 0, f 1, 0, f 2, f 3, f 4, f 5])
  | .addrs =>
    let o := addrLead r.id
    let n := (vs.getD o 0).toNat
    writeFlds (r.flds.take o) vs ++ natLe 1 n ++ [0, 0, 0] ++ ((vs.drop (o + 1)).take (16 * n)).map (fun v => BitVec.ofNat 8 v.toNat) ++
      writeFlds (r.flds.drop o) (vs.drop (o + 1 + 16 * n))

/-- Values within the ranges of fields. -/
def inRanges (fs : List Fld) (vs : List Int) : Bool := (fs.zip vs).all (fun (x : Fld × Int) => decide (x.1.lo ≤ x.2 ∧ x.2 ≤ x.1.hi))

/-- One policer of an item is in range (R85): eight values from `i`. -/
def policerOk (vs : List Int) (i : Nat) : Bool :=
  let f (k : Nat) : Nat := (vs.getD (8 * i + k) 0).toNat
  let rate (v : Nat) : Bool := if f 2 = 0 then decide (v ≤ 200000000000 ∧ v % 1000000 = 0) else decide (v ≤ 400000000)
  let burst (v : Nat) : Bool := if f 2 = 0 then decide (v ≤ 16777216) else decide (v ≤ 65535)
  decide (f 0 < 16 ∧ f 1 < 2 ∧ f 2 < 2) && rate (f 4) && rate (f 5) && burst (f 6) && burst (f 7)

/-- What a row's Range column asks of its values together (Tables 2-8, 3-10, 7-5, 10-7, 11-17, 12-2, 12-7, 13-9 and 20-6, R294,
R298, R299). -/
def together (id : Nat) (vs : List Int) : Bool :=
  let v (k : Nat) : Nat := (vs.getD k 0).toNat
  let ones (n : Nat) : Nat := ((List.range 8).filter (fun i => n.testBit i)).length
  match id with
  | 0x0211 =>
    let used := vs.filter (fun x => x != 255)
    used.all (fun x => decide (x ≤ 2)) && decide used.Nodup
  | 0x0308 => decide (v 1 < v 0)
  | 0x0704 => decide vs.Nodup
  | 0x0A04 => v 0 == 8 || v 0 == 16 || v 0 == 32
  | 0x0B03 => v 1 % 2 == 0
  | 0x0C01 => vs.all (fun x => x % 1048576 == 0) && vs.sum == 201326592
  | 0x0C02 => decide (v 1 < v 0 ∧ v 2 < v 1)
  | 0x0C03 => decide (ones (v 0) ≤ 4)
  | 0x0C0B => v 0 == 0 || (decide (1000000 ≤ v 0) && v 0 % 1000000 == 0)
  | 0x0C0C => v 0 == 0 || decide (1000000 ≤ v 0)
  | 0x0C0F => decide (v 1 < v 0)
  | 0x0D09 => (vs.take 5).sum == 128
  | 0x1402 => vs.all (fun x => x == 0 || decide (1024 ≤ x))
  | _ => true

/-- Every value of an item lies in its row's range. -/
def rangeOk (r : Row) (vs : List Int) : Bool :=
  match r.shape with
  | .fixed => inRanges r.flds vs && together r.id vs
  | .policers => (List.range (vs.length / 8)).all (policerOk vs)
  | .addrs =>
    let o := addrLead r.id
    let n := (vs.getD o 0).toNat
    decide (n ≤ 4) && inRanges (r.flds.take o) vs && inRanges (r.flds.drop o) (vs.drop (o + 1 + 16 * n))

/-! ### The payload (R384) -/

/-- One item of a settings request, with the targets of its header. -/
structure Item where
  /-- item ID (Table 16-2) -/
  id : Nat
  /-- kind and targets of its header (Table 16-1) -/
  kind : Nat
  targets : List Nat
  /-- its values -/
  vals : List Int
  /-- offset of its header in the payload -/
  off : Nat
deriving DecidableEq, Repr

/-- The target header under which items stand: its kind, its targets, its offset and the item IDs seen under it. -/
structure UnderHeader where
  kind : Nat
  targets : List Nat
  off : Nat
  seen : List Nat := []
deriving DecidableEq, Repr

/-- What is wrong with an item of a row under a header, before its value is read (R384, R385): 0 for nothing. -/
def itemStatus (r : Row) (h : UnderHeader) (expert owner : Bool) : Nat :=
  if r.kind ≠ h.kind ∨ h.seen.contains r.id ∨ (r.id = 0x0802 ∧ h.targets.any (fun t => decide (1024 ≤ t))) then 0x0301
  else if (r.expert ∧ !expert) ∨ (r.owner ∧ !owner) then 0x0204
  else 0

/-- The items of a payload from `off`; a refusal names its status and the offset of the failing header or item (R384). -/
def parseFrom (op : Nat) (expert owner : Bool) (bs : Bytes) : Nat → Nat → Option UnderHeader → Except (Nat × Nat) (List Item)
  | 0, off, _ => .error (0x0301, off)
  | n + 1, off, h =>
    let bare := h.any (fun x => x.seen.isEmpty)
    if bs.length ≤ off then
      match h with
      | none => .error (0x0301, 0)
      | some x => if bare then .error (0x0301, x.off) else .ok []
    else if off + 1 < bs.length ∧ leAt bs (off + 1) 1 < 2 then
      if bare then .error (0x0301, (h.map (fun x => x.off)).getD 0)
      else match headerTargets (kindsOf op) bs off with
        | .error e => .error (e, off)
        | .ok (kind, ts) => parseFrom op expert owner bs n (off + 8) (some { kind := kind, targets := ts, off := off })
    else match h, rowFor op (leAt bs off 2) with
      | some x, some r =>
        let len := leAt bs (off + 2) 2
        let bad := itemStatus r x expert owner
        if bs.length < off + 4 + len then .error (0x0301, off)
        else if bad ≠ 0 then .error (bad, off)
        else match readItem r (slice bs (off + 4) len) with
          | none => .error (0x0301, off)
          | some vs =>
            if !rangeOk r vs then .error (0x0302, off)
            else match parseFrom op expert owner bs n (off + 4 + len) (some { x with seen := r.id :: x.seen }) with
              | .error e => .error e
              | .ok rest => .ok ({ id := r.id, kind := x.kind, targets := x.targets, vals := vs, off := off } :: rest)
      | _, _ => .error (0x0301, off)

/-- The items of a settings payload. -/
def parseItems (op : Nat) (expert owner : Bool) (bs : Bytes) : Except (Nat × Nat) (List Item) :=
  parseFrom op expert owner bs (bs.length + 1) 0 none

/-! ### Values in force -/

/-- Index at which a setting of a target is held: the event groups are held per master (R382). -/
def heldIndex (id t master : Nat) : Nat := if id = 0x0F05 then master else t

/-- An order: an item that does something once and is held by no one. -/
def isOrder (id : Nat) : Bool := [0x0314, 0x0802, 0x0D04, 0x0D0A, 0x1105, 0x1106].contains id

/-- The values that a setting takes from an item: a policer item replaces the policers it names. -/
def merged (id : Nat) (old new : List Int) : List Int :=
  if id = 0x030F then
    (List.range (new.length / 8)).foldl (fun (l : List Int) (i : Nat) =>
      let f (k : Nat) : Int := new.getD (8 * i + k) 0
      let p := (f 0).toNat
      l.take (6 * p) ++ [f 1, f 2, f 4, f 5, f 6, f 7] ++ l.drop (6 * p + 6)) old
  else new

/-- The settings after an item. -/
def putItem (t : Settings) (master : Nat) (it : Item) : Settings :=
  if isOrder it.id then t
  else it.targets.foldl (fun (t : Settings) (x : Nat) =>
    let i := heldIndex it.id x master
    t.put it.id i (merged it.id (t.get it.id i) it.vals)) t

/-- The settings after items. -/
def putItems (t : Settings) (master : Nat) (its : List Item) : Settings := its.foldl (fun (t : Settings) (x : Item) => putItem t master x) t

/-! ### Read-back (R383) -/

/-- What a setting of a target reads as: a fenced engine, an ordered lane power, the power of a Sheaf lane, and the gate's default MAC
address are read where they stand. -/
def State.readValue (s : State) (id t master : Nat) (held : List Int) : List Int :=
  match id with
  | 0x0802 => [b2n (Tab.get 0 s.eng.state t != 0)]
  | 0x0311 => [((s.lane t).ordered.getD (s.lane t).power : Nat)]
  | 0x0E08 => [(if s.pairId = 0 ∨ s.power.closed then 2 else s.sn 0x0E08 t : Nat)]
  | 0x0B03 => held.take 1 ++ (natBe 6 s.gateMac).map (fun b => (b.toNat : Int))
  | _ => if isOrder id then held else s.settings.get id (heldIndex id t master)

/-- One item of a read. -/
def State.readRow (s : State) (r : Row) (t master : Nat) : Bytes :=
  let b := writeItem r (s.readValue r.id t master (s.settings.get r.id (heldIndex r.id t master)))
  natLe 2 r.id ++ natLe 2 b.length ++ b

/-- A read's answer for one target: a header that names it, and the command's items in row order. -/
def State.readTarget (s : State) (rows : List Row) (kind t master : Nat) : Bytes :=
  natLe 1 kind ++ [0] ++ natLe 2 t ++ natLe 2 1 ++ [0, 0] ++ ((rows.filter (fun r => r.kind == kind)).map (fun r => s.readRow r t master)).flatten

/-- The read of a settings command. -/
def State.readItems (s : State) (op : Nat) (expert : Bool) (master : Nat) (bs : Bytes) : Ans :=
  let all := rowsOf op
  let rows := if expert ∨ allExpert op then all else all.filter (fun r => !r.expert)
  let n := ceilDiv bs.length 8
  let heads := (List.range n).map (fun i => (8 * i, headerTargets (kindsOf op) bs (8 * i)))
  let bad : Option (Nat × Nat) := heads.findSome? (fun (x : Nat × Except Nat (Nat × List Nat)) => match x.2 with
    | .error e => some (e, x.1)
    | .ok _ => none)
  match bad with
  | some (e, off) => { status := e, detail := off }
  | none =>
    if n = 0 then { status := 0x0301 }
    else
      let one (x : Nat × Except Nat (Nat × List Nat)) : Bytes := match x.2 with
        | .ok (kind, ts) => (ts.map (fun t => s.readTarget rows kind t master)).flatten
        | .error _ => []
      { resp := (heads.map one).flatten }

end Sys2Proof.Machine
end

