-- ==== Sys2Proof/Machine/PowerCore.lean ====
section
/-! DEFINITION. The sag sequencer, level 5, the keeper's records, VCORE, temperature and the tamper latch
(19_power_sag_and_service_life.md; R421, R423, R463). -/

namespace Sys2Proof.Machine

/-! ### Measurements and the tamper latch (R421, R423) -/

/-- An attestation log entry (Table 18-10). -/
def logBytes (index kind slot sv source build : Nat) (digest : Bytes) (stamp : Stamp) : Bytes :=
  natLe 4 index ++ natLe 1 kind ++ natLe 1 slot ++ natLe 1 sv ++ natLe 1 source ++ natLe 4 build ++ natLe 4 0 ++ padTo 64 digest ++
  stamp.bytes ++ List.replicate 24 0

/-- An item is measured: its entry is folded into the running value, and stored while the log has room (R421). -/
def State.measure (s : State) (kind : Nat) (digest : Bytes) (slot : Nat := 0xFF) (sv : Nat := 0) (source : Nat := 0) (build : Nat := 0) : State :=
  let t := s.trust
  let e := logBytes t.folded kind slot sv source build digest s.stamp
  { s with trust := { t with
      log := if t.log.length < 4096 then t.log ++ [e] else t.log
      running512 := sha512 (t.running512 ++ e)
      folded := t.folded + 1 } }

/-- A tamper source latches while the device runs: it is measured at once and raises its event (R423). -/
def State.tamper (s : State) (source : Nat) : State :=
  let s1 := { s with keeper := if s.keeper.vkeep then { s.keeper with tamper := source } else s.keeper }
  (s1.measure 8 (sha512 (natLe 1 source)) 0xFF 0 source).raise 0x0B03 srcDevice (natLe 1 source)

/-- VCORE_GLITCH (R463). -/
def execVcoreGlitch (s : State) : Res := done (s.tamper 1)
/-- SYSCLK_PERIOD_GLITCH (R463). -/
def execSysclkPeriodGlitch (s : State) : Res := done (s.tamper 3)

/-! ### The keeper (R433, R467) -/

/-- VKEEP_LOSS (R433): keeper state is lost; what the boot counter stood at is kept for this start only (assumption 50). -/
def execVkeepLoss (s : State) : Res :=
  done { s with keeper := { vkeep := false, lost := true, boot := s.keeper.boot, xtal := s.keeper.xtal } }

/-- VKEEP_RETURN (R433): the RTC restarts at 0 s. -/
def execVkeepReturn (s : State) : Res :=
  if s.keeper.vkeep then done s else done { s with keeper := { s.keeper with vkeep := true, rtc := 0, sub := 0, seed := false } }

/-- XTAL32_LOSS (R467): the RTC stops. -/
def execXtal32Loss (s : State) : Res := done { s with keeper := { s.keeper with xtal := false } }

/-! ### Requests (R434) -/

/-- Level that each trigger of Table 19-2 requests, by its code. -/
def State.sagRequests (s : State) : List (Nat × Nat) :=
  let m (i : Nat) : Nat := Tab.get 0 s.power.monitors i
  [(1, if s.son 0x1308 then min 5 s.power.sagWarn else 0), (2, m 0), (3, m 1), (4, max (m 2) (m 3)), (5, m 4), (6, s.sn 0x1309)]

/-- The highest level requested, and the trigger that requests it: the lowest code of those that do. -/
def State.sagRequest (s : State) : Nat × Nat :=
  s.sagRequests.foldl (fun (b : Nat × Nat) x => if b.2 < x.2 then x else b) (0, 0)

/-! ### Ports under sag (R436, R448) -/

/-- Sag role of a port: 0 sheddable, 1 normal, 2 hold-to-last. -/
def State.sagRole (s : State) (p : Nat) : Nat := s.sn 0x1301 p

/-- A setting reads its default again. -/
def State.resetSetting (s : State) (id idx : Nat) : State := { s with settings := Tab.erase s.settings (id * 65536 + idx) }
/-- Lane `l` goes to deep rest. -/
def State.restLane (s : State) (l : Nat) : State := s.modLane l (fun y => y.rest 2)

/-- Port `p` is shed until level `lvl` is left: what it queues or sends is counted as "sag", its tests stop, and its lanes go to deep
rest (R436, Table 3-9). DESIGN CHOICE (assumption 248): the OTN defects that clear with it raise no events. -/
def State.shedPort (s : State) (p lvl : Nat) : State :=
  if (s.port p).shed then s
  else
    let s1 := s.flushPort p (fun s => s.countPort p 15)
    let s2 := match (s1.port p).sending with
      | some n => ((s1.countPort p 15).dropCopies n (fun (c : Copy) => c.port == p)).modPort p (fun x => { x with sending := none })
      | none => s1
    let s3 := (s2.portDown p causeSag true).modPort p (fun x =>
      { x with st := if s.portMode p = 0 then .disabled else .deepRest, shed := true, shedAt := lvl })
    let s4 := ([2 * p, 2 * p + 1] : List Nat).foldl (fun (s : State) (l : Nat) => (s.restLane l).resetSetting 0x0310 l) s3
    if s4.portMode p = 6 then s4.setOtn p { (s4.otnOf p).ended with pm := (s4.otnOf p).pm } else s4

/-- A shed port returns: its lanes leave deep rest, unless they are ordered to rest, and it negotiates again (R441, R88). -/
def State.unshedPort (s : State) (p : Nat) : State :=
  let s1 := s.modPort p (fun x => { x with shed := false, shedAt := 0 })
  let m := s.portMode p
  if m = 0 then s1
  else
    let s2 := (lanesOf p m).foldl (fun s l => s.modLane l (fun y =>
      match y.ordered with
      | some w => y.rest w
      | none => { y with exitAt := some s.now })) s1
    let s3 := if m = 6 then s2.setOtn p ((s2.otnOf p).starting s.now) else s2
    s3.modPort p (fun x => { x with st := (s3.restState p).getD .deepRest })

/-- Ports that `which` names are shed. -/
def State.shedPorts (s : State) (which : Nat → Bool) (lvl : Nat → Nat) : State :=
  ((List.range 96).filter which).foldl (fun s p => s.shedPort p (lvl p)) s

/-- The level whose end brings a port back that level 3 sheds: a sheddable port stays down at level 2 (Table 19-3). -/
def State.shedLevel (s : State) (p : Nat) : Nat := if s.sagRole p = 0 then 2 else 3

/-! ### Levels (R435 to R437, R441) -/

/-- Held command packets, and those behind them that carry a PDU (R437 step 2). -/
def State.heldCommands (s : State) : Nat :=
  (s.packets.filter (fun (x : Nat × Packet) => x.2.stage == .held || (x.2.stage == .behind && !x.2.pdus.isEmpty))).length

/-- Step 2 of level 5: the gate shuts with cause 13, and verdicts are counted from then on (Table 19-4). -/
def State.enterLevel5 (s : State) : State :=
  let s1 := { s with power := { s.power with heldShut := s.heldCommands, closed := false, clearSince := none } }
  let s2 := s1.shutGate 13 0xFFFF 0xFFFF
  { s2 with power := { s2.power with level5At := some s.now }, gate := { s2.gate with lateShut := 0 } }

/-- The level rises to `lvl`, which trigger `trig` requests: every level passed is entered (R435). From level 3 on, packets of the classes
that it leaves out are discarded, those queued too (assumption 264). -/
def State.raiseSag (s : State) (lvl trig : Nat) : State :=
  let p := s.power
  let old := p.level
  let deeper : Bool := decide (p.deepest < lvl)
  let p1 : Power := { p with
    level := lvl
    trigger := trig
    releaseAt := none
    deepest := if deeper then lvl else p.deepest
    deepTrigger := if deeper then trig else p.deepTrigger
    deepStamp := if deeper then s.stamp else p.deepStamp
    level2At := if old < 2 ∧ 2 ≤ lvl then s.now else p.level2At }
  let s0 := if old < 3 ∧ 3 ≤ lvl then s.settleCreation else s
  let s1 := ((({ s0 with power := p1 }).noteFault 16).raise 0x0C01 srcDevice (natLe 1 old ++ natLe 1 lvl ++ natLe 1 trig)).noteStatus
  let s2 := if old < 3 ∧ 3 ≤ lvl then s1.shedPorts (fun q => s.sagRole q != 2) s.shedLevel else s1
  let s3 := if old = 0 then s2.shedCaptures else s2
  let s4 := if 3 ≤ lvl then s3.clearQueues (fun c => !s3.sagDrops c) 15 else s3
  if lvl = 5 then s4.enterLevel5 else s4

/-- A request has changed (R434, R441): the level rises at once; a lower request starts the release hold, or at level 5 the release
time once every trigger is clear. -/
def State.sagUpdate (s : State) : State :=
  let (t, r) := s.sagRequest
  let p := s.power
  if p.level < r then s.raiseSag r t
  else if p.level = 5 then
    { s with power := { p with clearSince := if r = 0 then some (p.clearSince.getD s.now) else none } }
  else if r < p.level then
    { s with power := { p with releaseAt := some (p.releaseAt.getD (s.now + ns (s.sn 0x1306))) } }
  else { s with power := { p with releaseAt := none } }

/-- SAG_WARN_INPUT (R434). -/
def execSagWarnInput (v : Fin 8) (s : State) : Res := done ({ s with power := { s.power with sagWarn := v.val } }).sagUpdate

/-- Place of a rail monitor. -/
def monitorNo : RailMonitor → Nat
  | .vcore => 0
  | .vsram => 1
  | .vserdesA => 2
  | .vserdesH => 3
  | .ddrPhy => 4

/-- A monitor can request a level (Table 19-2). -/
def monitorMay (m : RailMonitor) (lvl : Nat) : Bool := lvl == 0 || lvl == 4 || lvl == 5 || (m == .vcore && lvl == 3)

/-- RAIL_MONITOR_TRIGGER (R434, R441). -/
def execRailMonitorTrigger (m : RailMonitor) (lvl : Fin 6) (s : State) : Res :=
  if monitorMay m lvl then
    done ({ s with power := { s.power with
      monitors := Tab.put 0 s.power.monitors (monitorNo m) lvl.val
      vcoreOut := s.power.vcoreOut || (decide (m = RailMonitor.vcore) && lvl.val != 0) } }).sagUpdate
  else done s

/-- SHED_RANK_TIMER (R436): the sheddable ports of a rank, in ascending port order. -/
def execShedRankTimer (rank : Fin 16) (s : State) : Res :=
  if 2 ≤ s.power.level ∧ s.power.level2At + us (5 * rank.val) ≤ s.now then
    done (s.shedPorts (fun p => s.sagRole p == 0 && s.sn 0x1302 p == rank.val) (fun _ => 2))
  else done s

/-- The sag record of Table 19-5. -/
def State.sagRecord (s : State) (flags held sealUs : Nat) : Bytes :=
  let p := s.power
  let index := match s.keeper.tail with | some t => t.1 | none => 0
  natLe 1 p.deepest ++ natLe 1 p.deepTrigger ++ natLe 1 flags ++ [0] ++ natLe 4 s.keeper.boot ++ p.deepStamp.bytes ++ natLe 8 index ++
  natLe 4 held ++ natLe 4 sealUs ++ List.replicate 16 0

/-- The keeper takes a sag record while VKEEP stands. -/
def State.keepSag (s : State) (r : Bytes) : State :=
  if s.keeper.vkeep then { s with keeper := { s.keeper with sag := r } } else s

/-- SAG_RELEASE_HOLD_EXPIRY (R441): the level steps down by one, and what it shed returns. -/
def execSagReleaseHoldExpiry (s : State) : Res :=
  let p := s.power
  let (t, r) := s.sagRequest
  if 1 ≤ p.level ∧ p.level ≤ 4 ∧ r < p.level ∧ p.releaseAt.any (fun x => decide (x ≤ s.now)) then
    let new := p.level - 1
    let s1 := if p.level = 3 then s.keepSag (s.sagRecord 0 0 0) else s
    let p1 : Power := { p with level := new, releaseAt := if r < new then some (s.now + ns (s.sn 0x1306)) else none }
    let p2 : Power := if new = 0 then { p1 with deepest := 0, deepTrigger := 0, deepStamp := {}, vcoreOut := false } else p1
    let s2 := (({ (if p.level = 3 then s1.settleCreation else s1) with power := p2 }).raise 0x0C01 srcDevice
      (natLe 1 p.level ++ natLe 1 new ++ natLe 1 (if r = 0 then p.trigger else t))).noteStatus
    done (((List.range 96).filter (fun q => (s2.port q).shedAt == p.level)).foldl (fun s q => s.unshedPort q) s2)
  else done s

/-! ### The close at level 5 (R437 to R439) -/

/-- The ledger queue is written, as far as the ledger takes it (R437, R465). -/
def State.drainLedger : Nat → State → State
  | 0, s => s
  | n + 1, s => match s.ledger.queue with
    | [] => s
    | r :: rest =>
      let i := leAt r 0 8
      if s.ledger.mark + s.ledgerRing ≤ i ∨ !s.ledgerTakes (stripeOf i) then s else State.drainLedger n (s.writeRecord r rest)

/-- Everything that waits in the ledger queue is written. -/
def State.writeLedger (s : State) : State := State.drainLedger (s.ledger.queue.length + s.ledger.late.length) s

/-- The final sealed record (R438). -/
def State.finalRecord (s : State) : State :=
  s.recordSigned { type := 11, cause := 13, detailA := s.ledger.sinceSeal % 2 ^ 32 + 2 ^ 32 * (s.gate.lateShut % 2 ^ 32) }

/-- Steps 3 to 5 of Table 19-4. Bit [0] of the record's flags is set when the final record stands in the ledger, and bit [3] when the
VCORE monitor has requested a level in the episode (assumption 51). -/
def State.closeLedger (s : State) : State :=
  let s1 := s.writeLedger.finalRecord.writeLedger
  let started := s.power.level5At.getD s.now
  let flags := b2n (s1.owned && s1.ledger.queue.isEmpty) + 2 + 8 * b2n s.power.vcoreOut
  let s2 := s1.keepSag (s1.sagRecord flags s.power.heldShut (toNs (s.now - started) / 1000))
  let s3 := { s2 with mem := { s2.mem with selfRefresh := true }, power := { s2.power with closed := true } }
  s3.sheafRepower s3.sheafPower

/-- LEDGER_CLOSE_DONE (R437 to R439). -/
def execLedgerCloseDone (s : State) : Res :=
  if s.power.level = 5 ∧ !s.power.closed then done s.closeLedger else done s

/-! ### Reset (R441, R465) -/

/-- Internal reset: every part takes its reset value but the keeper, OTP and flash, the Granary's ledger region (assumption
52), and what stands outside the device. Granary shares come into force (R343). -/
def State.internalReset (s : State) : State :=
  let shares := (List.range 8).map (fun k => s.sn 0x0D09 0 k)
  let lanes := s.lanes.filterMap (fun (x : Nat × Lane) => if x.2.signal then some (x.1, ({ signal := true } : Lane)) else none)
  let ring := s.ledger.ring
  let p : Power := { sagWarn := s.power.sagWarn, monitors := s.power.monitors, temp := s.power.temp }
  let f : FaultCtl := { sysclk := s.fault.sysclk }
  let t : Trust := { otp := s.trust.otp, flash := s.trust.flash }
  { State.reset with
    pending := s.pending, outbox := s.outbox, fresh := s.fresh, now := s.now, keeper := s.keeper, lanes := lanes, refclkLost := s.refclkLost,
    tiller := { timeRef := s.tiller.timeRef }, gate := { pin := s.gate.pin }, ledger := { ring := ring }, mem := { shares := shares },
    sheaf := { refclk := s.sheaf.refclk }, fault := f, trust := t, power := p }

/-- LEVEL5_RELEASE_RESET (R441): every trigger has been clear for the release time. -/
def execLevel5ReleaseReset (s : State) : Res :=
  if s.power.level = 5 ∧ s.power.clearSince.any (fun t => decide (t + ns (s.sn 0x1307) ≤ s.now)) then done s.internalReset else done s

/-- RESET_N_ASSERT (R465, R476): the gate shuts, the ledger queue is written, and internal reset follows; at level 5 the close is
finished first. -/
def execResetNAssert (s : State) : Res :=
  let s1 := if s.gate.isShut ∧ s.gate.cause = 13 then s else s.shutGate 13 0xFFFF 0xFFFF
  let s2 := if s1.power.level = 5 ∧ !s1.power.closed then s1.closeLedger else s1.writeLedger
  done s2.internalReset

/-! ### VCORE and temperature (R430, R444) -/

/-- VCORE is set over PMBus; a setpoint that is not acknowledged is not in force, and the third in a row ends the attempts (R430). -/
def State.setVcore (s : State) (mv : Nat) (acked : Bool) : State :=
  let p := s.power
  let s1 := s.emit (.pmbus mv)
  if acked then { s1 with power := { p with vcore := mv, pmbusFails := 0, vcoreAt := s.now } }
  else { s1 with power := { p with pmbusFails := p.pmbusFails + 1, pmbusLost := decide (3 ≤ p.pmbusFails + 1), vcoreAt := s.now } }

/-- VCORE_ADAPT_STEP (R430): one step of 5 mV toward the lowest voltage of 0.70 V to 0.80 V that gives the margin. -/
def execVcoreAdaptStep (x : VcoreStep) (s : State) : Res :=
  let p := s.power
  if !s.son 0x130B ∨ p.pmbusLost ∨ s.now < p.vcoreAt + us 100 then done s
  else if x.marginMet then (if p.vcore ≤ 700 then done s else done (s.setVcore (p.vcore - 5) x.acked))
  else if 800 ≤ p.vcore then done s
  else done (s.setVcore (p.vcore + 5) x.acked)

/-- The highest sensor reading is compared with the threshold and with its release (R444). -/
def State.thermUpdate (s : State) : State :=
  let p := s.power
  let thr : Int := s.sn 0x130A
  let on : Bool := if p.therm then decide (thr - 5 < p.temp) else decide (thr ≤ p.temp)
  if on = p.therm then s
  else ({ s with power := { p with therm := on } }).raise 0x0C02 srcDevice (natLe 1 (b2n on) ++ [0] ++ natLe 2 (unsigned 16 p.temp))

/-- THERMAL_THRESHOLD_CROSSING (R444). -/
def execThermalThresholdCrossing (temp : Int) (s : State) : Res := done ({ s with power := { s.power with temp := temp } }).thermUpdate

end Sys2Proof.Machine
end

