-- ==== Sys2Proof/Machine/Records.lean ====
section
/-! DEFINITION. Record bodies of bale actions (Table 16-5): the objects they name, the values they may hold, and what they need of the
other objects of their tables (R126, R128, R172, R207, R217, R240, R258). -/

namespace Sys2Proof.Machine

/-! ### Actions -/

/-- Basic opcode of an action. -/
def Action.op (a : Action) : Nat := a.code % 32768
/-- The action has the expert form. -/
def Action.expert (a : Action) : Bool := decide (32768 ≤ a.code)
/-- Op byte of R387: 0 add, 1 change, 2 remove. -/
def Action.verb (a : Action) : Nat := leAt a.body 0 1
/-- The action removes its record. -/
def Action.removes (a : Action) : Bool := a.verb == 2
/-- What follows the op header. -/
def Action.data (a : Action) : Bytes := a.body.drop 4
/-- The action touches an object. -/
def Action.touches (a : Action) (key : Nat) : Bool := a.objs.any (fun o => o.1 == key)
/-- Bytes of action data (Table 7-2). -/
def Action.size (a : Action) : Nat := 8 + a.body.length

/-- The last of some actions that touches an object. -/
def lastOn (acts : List Action) (key : Nat) : Option Action := acts.reverse.find? (fun (a : Action) => a.touches key)

/-- A bale is open or pending. -/
def Bale.live (b : Bale) : Bool := b.st == .opened || b.st == .pending
/-- Objects that a bale touches, each once. -/
def Bale.objects (b : Bale) : List Nat := (b.actions.flatMap (fun (a : Action) => a.objs.map (·.1))).dedup
/-- Open and pending bales. -/
def State.liveBales (s : State) : List Bale := s.bales.list.filter (·.live)

/-! ### Record forms -/

/-- Kind of object that a record command names, the bytes that identify it, and the bytes of a whole record. -/
structure RecForm where
  kind : ObjKind
  lead : Nat
  full : Nat
deriving DecidableEq, Repr

/-- The record form of an opcode whose record is stored as it stands (Table 16-5). -/
def recForm (op : Nat) (r : Bytes) : Option RecForm :=
  match op with
  | 0x0307 => some ⟨.window, 2, 12⟩
  | 0x0408 => some ⟨.vlan, 2, 64⟩
  | 0x0409 => some ⟨.routerMac, 1, 8⟩
  | 0x040A => some ⟨.route, 20, 24⟩
  | 0x040B => some ⟨.nextHop, 2, 16⟩
  | 0x040C => some ⟨.multipath, 2, 4 + 2 * leAt r 2 1⟩
  | 0x040D => some ⟨.lag, 1, 4 + leAt r 1 1⟩
  | 0x040F => some ⟨.matchBank, 1, 4⟩
  | 0x0501 => some ⟨.flowProfile, 1, 40⟩
  | 0x0509 => some ⟨.lbGroup, 2, 8⟩
  | 0x050A => some ⟨.lbMember, 3, 28⟩
  | 0x050B => some ⟨.transPool, 2, 24⟩
  | 0x0601 => some ⟨.gateProfile, 1, 16⟩
  | _ => none

/-- Key of the object that a record names. -/
def recObj (k : ObjKind) (r : Bytes) : Nat :=
  match k with
  | .route =>
    let fam := leAt r 0 1
    let len := leAt r 1 1
    prefixKey fam len (beAt r 4 16 % 2 ^ famBits fam >>> (famBits fam - len))
  | .lbMember => objKey .lbMember (64 * leAt r 0 2 + leAt r 2 1)
  | .routerMac | .lag | .matchBank | .flowProfile | .gateProfile => objKey k (leAt r 0 1)
  | _ => objKey k (leAt r 0 2)

/-- The identifying fields of a record lie in its table. -/
def recKeyOk (k : ObjKind) (r : Bytes) : Bool :=
  match k with
  | .window => decide (leAt r 0 2 < 4096)
  | .vlan => decide (1 ≤ leAt r 0 2 ∧ leAt r 0 2 ≤ 4094)
  | .route => (leAt r 0 1 == 4 || leAt r 0 1 == 6) && decide (leAt r 1 1 ≤ famBits (leAt r 0 1))
  | .multipath => decide (leAt r 0 2 < 4096)
  | .lag => decide (leAt r 0 1 < 48)
  | .lbGroup => decide (leAt r 0 2 < 1024)
  | .lbMember => decide (leAt r 0 2 < 1024 ∧ leAt r 2 1 < 64)
  | .transPool => decide (leAt r 0 2 < 1024)
  | .gateProfile => decide (1 ≤ leAt r 0 1 ∧ leAt r 0 1 < 64)
  | _ => true

/-- A dest field holds its reserved bits clear, and names a port or a group (Table 5-1). -/
def destClean (d : Nat) : Bool := bits d 14 7 == 0
def destExists (d : Nat) : Bool := if d.testBit 15 then decide (d % 64 < 48) else decide (d % 128 < 96)

/-- Fields that a record must leave 0. -/
def recClean (k : ObjKind) (r : Bytes) : Bool :=
  match k with
  | .vlan => leAt r 6 2 == 0
  | .routerMac => leAt r 1 1 == 0
  | .route => leAt r 2 2 == 0 && leAt r 21 1 == 0
  | .nextHop => leAt r 7 1 == 0 && leAt r 14 2 == 0 && destClean (leAt r 2 2)
  | .multipath => leAt r 3 1 == 0
  | .lag => leAt r 2 2 == 0
  | .flowProfile => leAt r 22 2 == 0 && leAt r 36 4 == 0 && decide (leAt r 12 2 < 32)
  | .lbMember => leAt r 25 3 == 0
  | .transPool => leAt r 2 2 == 0 && leAt r 19 1 == 0
  | .gateProfile => leAt r 14 2 == 0
  | _ => true

/-- Ranges of a flow profile (Table 6-1, R195, R225, R237). -/
def profileRanges (p : Profile) : Bool :=
  decide (p.mode < 3 ∧ p.cls < 8 ∧ p.evict < 2 ∧ p.refusal < 2 ∧ p.awn < 64 ∧ p.command < 64 ∧ p.custMode < 2 ∧ p.custFault < 2) &&
  (p.rate == 0 || decide (1000 ≤ p.rate ∧ p.rate ≤ 200000000)) && decide (p.jitter ≤ 256) &&
  decide (1000 ≤ p.forget ∧ p.forget ≤ 10000000) && (p.entry == 0 || decide (0x3000 ≤ p.entry ∧ p.entry < 0x4000)) && decide (p.lb < 1024 ∧ p.pool < 1024) &&
  [0, 4, 8, 12].all (fun i => decide (p.classes / 2 ^ i % 16 < 8))

/-- Ranges of a command profile (Table 11-1). -/
def gateRanges (g : GateProfile) (states : Nat) : Bool :=
  decide (g.protocol ≤ 4 ∧ 1 ≤ g.port ∧ g.awn < 64 ∧ g.tcp ≤ 2 ∧ states < 32) && decide (1 ≤ g.holdMs ∧ g.holdMs ≤ 500) &&
  decide (16 ≤ g.heldFrames ∧ g.heldFrames ≤ 4096) && decide (100 ≤ g.resetMs ∧ g.resetMs ≤ 10000)

/-- Ranges of a translation pool (R217). -/
def poolRanges (c : PoolConf) : Bool :=
  decide (1 ≤ c.count ∧ c.count ≤ 65536 ∧ c.first + c.count ≤ 2 ^ 32) && decide (c.lo ≤ c.hi) &&
  [64, 128, 256, 512, 1024, 2048, 4096].contains c.size && decide (1 ≤ c.maxBlocks ∧ c.maxBlocks ≤ 16) && decide (c.hold ≤ 3600)

/-- Every other field of a record lies in its range (R62, R126, R130, R212, Table 16-5). -/
def recRanges (k : ObjKind) (r : Bytes) : Bool :=
  match k with
  | .window =>
    let n := leAt r 2 2
    decide (1 ≤ n ∧ n ≤ 256) && decide (1 ≤ leAt r 6 2 ∧ leAt r 6 2 ≤ 65536 / n) && decide (leAt r 8 1 ≤ 15) && decide (leAt r 9 1 ≤ 2) &&
      decide (leAt r 10 1 ≤ 7) && decide (leAt r 11 1 < 32)
  | .vlan => decide (leAt r 3 1 < 64)
  | .route => decide (leAt r 20 1 ≤ 3) && (leAt r 20 1 != 1 || decide (leAt r 22 2 < 4096))
  | .nextHop => destExists (leAt r 2 2) && decide (1 ≤ leAt r 4 2 ∧ leAt r 4 2 ≤ 4094)
  | .multipath => decide (1 ≤ leAt r 2 1 ∧ leAt r 2 1 ≤ 64)
  | .lag => decide (1 ≤ leAt r 1 1 ∧ leAt r 1 1 ≤ 16) && (List.range (leAt r 1 1)).all (fun i => decide (leAt r (4 + i) 1 < 96))
  | .matchBank => decide (leAt r 1 1 < 2)
  | .flowProfile => profileRanges (profileOf r)
  | .lbGroup => decide (leAt r 2 1 < 2 ∧ leAt r 3 1 < 2)
  | .lbMember => decide (leAt r 3 1 ≤ 2 ∧ 1 ≤ leAt r 24 1)
  | .transPool => poolRanges (poolConfOf r)
  | .gateProfile => gateRanges (gateProfileOf r) (leAt r 7 1)
  | _ => true

/-- What is wrong with a record body by itself: 0 for nothing (R387). -/
def recStatus (f : RecForm) (removes : Bool) (data : Bytes) : Nat :=
  let r := padTo f.full data
  if f.full < data.length ∨ data.length < (if removes then f.lead else f.full) then 0x0301
  else if !recKeyOk f.kind r then 0x0302
  else if removes then 0
  else if !recClean f.kind r then 0x0301
  else if !recRanges f.kind r then 0x0302
  else 0

/-! ### The objects as a bale's earlier actions leave them (R171) -/

/-- The record that an action gives its object. -/
def Action.record (a : Action) : Option Bytes :=
  if a.removes then none else (recForm a.op a.data).map (fun f => padTo f.full a.data)

/-- The record of an object as the earlier actions of a bale leave it. -/
def State.viewObj (s : State) (acts : List Action) (key : Nat) : Option Bytes :=
  match lastOn acts key with
  | some a => a.record
  | none => s.objNow key

/-- Flow profile `p`, command profile `c`, and translation pool `n` so seen. -/
def State.viewProfile (s : State) (acts : List Action) (p : Nat) : Profile :=
  profileOf ((s.viewObj acts (objKey .flowProfile p)).getD (profileReset p))
def State.viewGate (s : State) (acts : List Action) (c : Nat) : GateProfile :=
  gateProfileOf ((s.viewObj acts (objKey .gateProfile c)).getD (gateProfileReset c))
def State.viewPool (s : State) (acts : List Action) (n : Nat) : Option PoolConf :=
  (s.viewObj acts (objKey .transPool n)).map poolConfOf

/-! ### Reclamation and room (R128, R171, R172) -/

/-- Kind number and own key of an object. -/
def objNum (key : Nat) : Nat := key / 2 ^ 400
def objIdx (key : Nat) : Nat := key % 2 ^ 400

/-- Kinds whose entries always exist, in two banks (Table 7-3). -/
def banked (k : Nat) : Bool := [ObjKind.vlan, .lag, .matchBank, .flowProfile, .gateProfile].any (fun x => x.num == k)

/-- An object of the versioned tables has a superseded version that is not yet reclaimed. -/
def State.verBusy (s : State) (key : Nat) : Bool :=
  let v := Tab.get [] s.bales.objects key
  match v.getLast? with
  | some (e, _) => decide (s.bales.drained < e) && (banked (objNum key) || decide (2 ≤ v.length))
  | none => false

/-- Live versions of the objects of a kind, for keys that a test accepts. -/
def State.versionsOf (s : State) (k : ObjKind) (p : Nat → Bool) : Nat :=
  s.bales.objects.foldl (fun (n : Nat) (x : Nat × Ver Bytes) =>
    if objNum x.1 = k.num ∧ p (objIdx x.1) then n + (x.2.filter (fun v => v.2.isSome)).length else n) 0

/-- Objects of a kind that actions write, each once. -/
def written (k : ObjKind) (p : Nat → Bool) (acts : List Action) : List Nat :=
  (((acts.filter (fun (a : Action) => !a.removes)).flatMap (fun (a : Action) => a.objs.map (·.1))).filter
    (fun o => objNum o == k.num && p (objIdx o))).dedup

/-- Room that open and pending bales hold among the entries of a kind. -/
def State.heldRoom (s : State) (k : ObjKind) (p : Nat → Bool) : Nat :=
  (s.liveBales.map (fun (b : Bale) => (written k p b.actions).length)).sum

/-- Entries of a kind in every slice, for kinds whose shadow versions take free entries (R64, R126). -/
def capacityOf (k : ObjKind) (idx : Nat) : Option (Nat × (Nat → Bool)) :=
  match k with
  | .window => some (4096, fun _ => true)
  | .nextHop => some (65536, fun _ => true)
  | .multipath => some (4096, fun _ => true)
  | .route =>
    let fam := idx / 2 ^ 200
    some (if fam = 4 then 524288 else 131072, fun i => i / 2 ^ 200 == fam)
  | _ => none

/-- A write of an object finds its entry: its bale holds one already, or one is free. -/
def State.entryFree (s : State) (acts : List Action) (k : ObjKind) (key : Nat) : Bool :=
  match capacityOf k (objIdx key) with
  | none => true
  | some (cap, p) => (written k p acts).contains key || decide (s.versionsOf k p + s.heldRoom k p < cap)

/-- Bytes that a version of a journal-class object takes of the shadow area (R172, R212, R217, R265, R196). -/
def shadowBytes (key : Nat) : Nat :=
  let is (k : ObjKind) : Bool := objNum key == k.num
  if is .lbGroup then 8 else if is .lbMember then 28 else if is .transPool then 24 else if is .key then 64 else if is .region then 32 else 0

/-- Bytes of the shadow area that superseded forms of journal-class objects still take, until they are reclaimed (R172, R176). -/
def State.oldForms (s : State) : Nat :=
  let objs := (s.bales.objects.filter (fun (x : Nat × Ver Bytes) => decide (2 ≤ x.2.length))).map (fun x => shadowBytes x.1)
  let bursts := ((s.eng.objects.filter (fun (x : Nat × Ver Byte) => decide (2 ≤ x.2.length))).map (fun x => x.1 / 32)).dedup
  objs.sum + 32 * bursts.length

/-- Shadow area in use by open and pending bales, and by old forms. -/
def State.shadowUse (s : State) : Nat := (s.liveBales.map (fun (b : Bale) => (b.objects.map shadowBytes).sum)).sum + s.oldForms

/-- The shadow area of 384 MiB has room for objects that a bale has not touched before. -/
def State.shadowFits (s : State) (acts : List Action) (keys : List Nat) : Bool :=
  let new := keys.filter (fun k => (lastOn acts k).isNone)
  (new.map shadowBytes).sum == 0 || decide (s.shadowUse + (new.map shadowBytes).sum ≤ 384 * 2 ^ 20)

/-! ### Rules among objects -/

/-- R207: translation and PRP share words, the services need lookup and create, and destination translation needs load balancing
(R216). -/
def servicesOk (p : Profile) : Bool :=
  let on (i : Nat) : Bool := p.services.testBit i
  !(on 1 && on 3) && (!(on 0 || on 1 || on 2 || on 3) || p.mode == 2) && (!(on 1 && on 4) || on 0)

/-- R258: a flow profile that names a command profile looks up and creates, and names its Awn profile. -/
def commandOk (p : Profile) (g : GateProfile) : Bool := p.command == 0 || (p.mode == 2 && p.awn == g.awn)

/-- No class byte would enable more than 64 banks, once bank `b` has a selector (R240). -/
def State.banksOk (s : State) (acts : List Action) (b : Nat) (r : Bytes) : Bool :=
  let sel : List (Nat × Nat) := (List.range 256).filterMap (fun i =>
    match (if i = b then some r else s.viewObj acts (objKey .matchBank i)) with
    | some x => if leAt x 1 1 != 0 then some (leAt x 2 1, leAt x 3 1) else none
    | none => none)
  (List.range 256).all (fun c => decide ((sel.filter (fun (x : Nat × Nat) => (c &&& x.2) == x.1)).length ≤ 64))

/-- Address ranges of two pools overlap. -/
def poolsMeet (a b : PoolConf) : Bool := decide (a.first < b.first + b.count ∧ b.first < a.first + a.count)
/-- A pool action keeps the blocks that are in use, and overlaps no other pool (R217, R236). -/
def State.poolOk (s : State) (acts : List Action) (n : Nat) (new : Option PoolConf) : Bool :=
  let a := s.alloc n
  match s.poolConf n s.bales.epoch, new with
  | some x, none => (a.taken x).isEmpty
  | none, none => true
  | old, some y => old.all (fun x => a.fits x y) && (List.range 1024).all (fun m => m == n || !((s.viewPool acts m).any (poolsMeet y)))

/-- The status with which a record action is refused for what the other objects hold; 0 for none. -/
def State.recordConflict (s : State) (acts : List Action) (k : ObjKind) (removes : Bool) (r : Bytes) : Nat :=
  let i := leAt r 0 1
  match k with
  | .lag =>
    let ports := (List.range (leAt r 1 1)).map (fun j => leAt r (4 + j) 1)
    if !removes ∧ ports.any (fun p => s.portMode p != s.portMode (ports.headD 0)) then 0x0304 else 0
  | .matchBank =>
    if !(s.bankRows i).isEmpty then 0x0403 else if !removes ∧ !s.banksOk acts i r then 0x0402 else 0
  | .flowProfile =>
    let p := if removes then profileOf (profileReset i) else profileOf r
    if !servicesOk p then 0x0502 else if !commandOk p (s.viewGate acts p.command) then 0x0601 else 0
  | .gateProfile =>
    let g := if removes then gateProfileOf (gateProfileReset i) else gateProfileOf r
    let broken (p : Nat) : Bool := let x := s.viewProfile acts p; x.command == i && !commandOk x g
    if (List.range 256).any broken then 0x0601 else 0
  | .transPool => if s.poolOk acts (leAt r 0 2) (if removes then none else some (poolConfOf r)) then 0 else 0x0504
  | _ => 0

/-! ### Security classes (R387, Table 11-15) -/

/-- 0 neutral, 1 tighten, 2 loosen: of a field that restricts while it is set. -/
def restricts (old new : Bool) : Nat := if new ∧ !old then 1 else if old ∧ !new then 2 else 0

/-- Security class of a record action. -/
def State.recordClass (s : State) (acts : List Action) (k : ObjKind) (key : Nat) (removes : Bool) (r : Bytes) : Nat :=
  match k with
  | .route => restricts ((s.viewObj acts key).any (fun x => leAt x 20 1 == 3)) (!removes && leAt r 20 1 == 3)
  | .flowProfile =>
    let old := (s.viewProfile acts (leAt r 0 1)).command
    let new := if removes then 0 else leAt r 6 1
    if old = 0 then (if new = 0 then 0 else 1) else if new = old then 0 else 2
  | .gateProfile => restricts (s.viewGate acts (leAt r 0 1)).pairForced (!removes && leAt r 6 1 != 0)
  | _ => 0

/-- A record action at add (R166): the status of its refusal, or the object it touches and its security class. -/
def State.checkRecord (s : State) (acts : List Action) (a : Action) (f : RecForm) : Except Nat (Nat × Nat) :=
  let r := padTo f.full a.data
  let key := recObj f.kind r
  let bad := recStatus f a.removes a.data
  let clash := s.recordConflict acts f.kind a.removes r
  if bad ≠ 0 then .error bad
  else if clash ≠ 0 then .error clash
  else if (!a.removes ∧ !s.entryFree acts f.kind key) ∨ !s.shadowFits acts [key] then .error 0x0704
  else .ok (key, s.recordClass acts f.kind key a.removes r)

end Sys2Proof.Machine
end

