-- ==== Sys2Proof/Machine/MemRetire.lean ====
section
/-! DEFINITION. Retirement of memory units: blocks remapped, what each retirement costs, the Granary's regions and the ledger mirror
(R157, R337 to R341). -/

namespace Sys2Proof.Machine

/-! ### Spare blocks of a pseudo-channel (R157, R337, R338) -/

/-- Flow blocks that lie on pseudo-channel `p`, its own and those moved onto it, by code; absent ones lie nowhere. -/
def State.blocksOn (s : State) (p : Nat) : List Nat :=
  let own := ((List.range 128).map (128 * p + ·)).filter (fun c => (Tab.find? s.mem.blockAt c).isNone)
  let moved := (s.mem.blockAt.filter (fun (x : Nat × Nat) => x.2 == p)).map (·.1)
  (own ++ moved).filter (fun c => !s.mem.absent.contains c)

/-- Free spare blocks of `p`; a retired pseudo-channel has none. -/
def State.spareFree (s : State) (p : Nat) : Nat := if (s.munit p).used then 9 - (s.sparesOf p).length else 0
/-- A block takes the lowest free spare block of `p`. -/
def State.takeSpare (s : State) (p c : Nat) : State :=
  let ix := ((List.range 9).find? (fun i => !(s.sparesOf p).any (fun x => x.2 == i))).getD 0
  { s with mem := { s.mem with spareIx := Tab.insert s.mem.spareIx c ix } }

/-- The surviving pseudo-channel with the most free spare blocks, the lower number on a tie (R157); none when no block is left. -/
def State.bestSpare (s : State) (gone : Nat) : Option Nat :=
  (List.range 128).foldl (fun (b : Option Nat) p =>
    if p = gone ∨ s.spareFree p = 0 then b
    else match b with
      | none => some p
      | some q => if s.spareFree q < s.spareFree p then some p else some q) none

/-- A flow block moves, empty, into a spare block, or becomes absent (R157, R338). -/
def State.moveBlock (s : State) (gone c : Nat) (keep : Bool) : State :=
  match (if keep then s.bestSpare gone else none) with
  | some q =>
    let s1 := s.takeSpare q c
    { s1 with mem := { s1.mem with blockAt := Tab.insert s1.mem.blockAt c q } }
  | none => { s with mem := { s.mem with absent := s.mem.absent ++ [c], spareIx := Tab.erase s.mem.spareIx c } }

/-- One block of a permit or journal area finds a spare block, or the device enters the safe state (R338). -/
def State.spareOrSafe (s : State) (gone code : Nat) (put : Nat → State → State) : State :=
  match s.bestSpare gone with
  | some q => put q (s.takeSpare q code)
  | none => s.enterSafe 3

/-- The permit areas that lie on `p` move, each of their two blocks to a spare block (R275, R338). -/
def State.movePermits (s : State) (p : Nat) : State :=
  (List.range 128).foldl (fun s a =>
    let h := Tab.get (a, a) s.mem.permitAt a
    let s1 := if h.1 = p then s.spareOrSafe p (16384 + 2 * a) (fun q s =>
        { s with mem := { s.mem with permitAt := Tab.insert s.mem.permitAt a (q, (Tab.get (a, a) s.mem.permitAt a).2) } }) else s
    if h.2 = p then s1.spareOrSafe p (16384 + 2 * a + 1) (fun q s =>
        { s with mem := { s.mem with permitAt := Tab.insert s.mem.permitAt a ((Tab.get (a, a) s.mem.permitAt a).1, q) } }) else s1) s

/-- The journal areas that lie on `p` move (R337, R338). -/
def State.moveJournal (s : State) (p : Nat) : State :=
  (List.range 128).foldl (fun s a =>
    if Tab.get a s.mem.journalAt a = p then s.spareOrSafe p (journalCode a) (fun q s =>
      { s with mem := { s.mem with journalAt := Tab.insert s.mem.journalAt a q } }) else s) s

/-! ### What is lost (Table 13-6) -/

/-- Records on `p` are lost, with their pairs and their copies in the cache (R157, R211). -/
def State.loseRecords (s : State) (p : Nat) : State :=
  let gone := (Tab.keys s.flow.records).filter (fun l => s.placePc l == p)
  let s1 := gone.foldl (fun s l => s.removeRec l 0 true) s
  { s1 with flow := { s1.flow with records := s1.flow.records.filter (fun (x : Nat × FlowRec) =>
    x.2.bale.isSome || x.2.due.isSome || !gone.contains x.1) } }

/-- Permits on `p` are lost (R275); those that a bale holds are shadow versions. -/
def State.losePermitsOn (s : State) (p : Nat) (pcOf : Nat → Nat) : State :=
  { s with gate := { s.gate with permits := s.gate.permits.filter (fun (x : Nat × PermitEntry) =>
    pcOf (x.1 / 4) != p || !x.2.inForce) } }.permitLevel

/-- A bale has versions of journal-class objects, which lie in the shadow area of the journal (R172, Table 7-3). -/
def Bale.shadows (b : Bale) : Bool := b.actions.any (fun a => a.objs.any (fun o => shadowBytes o.1 != 0))
/-- Pending bales whose journal-class versions lie on a pseudo-channel that holds a journal area: whether one of a bale does is a free value, since
the journal has no layout (Table 7-4, assumption 39). -/
def State.journalShadows (s : State) (p : Nat) : List Nat × State :=
  if (List.range 128).any (fun a => Tab.get a s.mem.journalAt a == p) then
    (s.bales.list.filter (fun b => b.st == .pending && b.shadows)).foldl (fun (x : List Nat × State) (b : Bale) =>
      let (v, s1) := x.2.draw
      (if v.getLsbD 0 then x.1 ++ [b.id] else x.1, s1)) ([], s)
  else ([], s)
/-- Bales `held` are to rewrite their shadow versions before their ticks. -/
def State.markRewriting (s : State) (held : List Nat) : State :=
  { s with bales := { s.bales with list := s.bales.list.map (fun (b : Bale) =>
    if held.contains b.id ∧ b.st = .pending then { b with rewriting := true } else b) } }

/-- Shadow versions on `p` are to be rewritten into the remapped blocks from the master copy of Scemas, before their bales' ticks
(R172, Table 7-4). -/
def State.rewriteShadows (s : State) (p : Nat) (pcOf : Nat → Nat) : State :=
  let j := s.journalShadows p
  let held := (s.flow.records.filterMap (fun (x : Nat × FlowRec) => if s.placePc x.1 = p then x.2.bale else none)) ++
    (s.gate.permits.filterMap (fun (x : Nat × PermitEntry) => if pcOf (x.1 / 4) = p then x.2.bale else none))
  j.2.markRewriting (held ++ j.1)

/-- Staging records of an open or pending bale may have lain on the unit: whether they did is a free value, since R172 gives the
journal no layout (assumption 39). -/
def State.loseJournal (s : State) : State :=
  let live (b : Bale) : Bool := b.st == .opened || b.st == .pending
  s.bales.list.foldl (fun s (b : Bale) =>
    if live b then
      let (v, s1) := s.draw
      if v.getLsbD 0 then
        { s1 with bales := { s1.bales with list := s1.bales.list.map (fun (c : Bale) => if c.id = b.id then { c with lost := true } else c) } }
      else s1
    else s) s

/-- A histogram entry is lost; its record's mark is cleared at the record's next packet or sweep visit (Table 13-4, R337). -/
def State.loseHist (s : State) (i : Nat) : State :=
  { s with flow := { s.flow with
    hist := Tab.erase s.flow.hist i
    lostHist := s.flow.lostHist ++ [i] } }

/-- Histogram entries on `p` are lost, and the store shrinks (R337). -/
def State.loseHists (s : State) (p : Nat) : State :=
  ((Tab.keys s.flow.hist).filter (fun i => i % 128 == p)).foldl (fun s i => s.loseHist i) s

/-- A read of a pseudo-channel that retires is answered as a miss of what is no longer there, and a policy object is read from its mirror
(R337, Table 13-6). -/
def State.missRead (s : State) (r : MemRead) : State :=
  match r.owner with
  | .record n => s.recordReply n r .ok
  | .lock n => s.lockReply n r .ok
  | .object n => (s.endRead r .ok).readObject n r.place
  | .permit _ => s.endRead r .ok
  | .refill => s.refillReply r .ok
  | .mirror u a i => (s.endRead r .ok).mirrorDone u a i true

/-- Operations pending on `p` run on as misses on its new, empty blocks (Table 13-6). -/
def State.missReads (s : State) (p : Nat) : State :=
  (s.mem.reads.filter (fun r => r.unit == p)).foldl (fun s r => s.missRead r) s

/-- A place for one more policy copy in the unused area of `q`: it holds six (Table 13-3). -/
def State.policySlot (s : State) (q : Nat) : Option Nat :=
  (List.range 6).find? (fun i => !s.mem.policyAt.any (fun (x : Nat × Nat × Nat) => x.2 == (q, i)))
/-- The surviving pseudo-channel with the most free spare blocks, be they none, of those whose unused area has room (R337). -/
def State.policyHome (s : State) (gone : Nat) : Option Nat :=
  (List.range 128).foldl (fun (b : Option Nat) p =>
    if p = gone ∨ !(s.munit p).used ∨ (s.policySlot p).isNone then b
    else match b with
      | none => some p
      | some q => if s.spareFree q < s.spareFree p then some p else some q) none

/-- A policy copy that lay on `p` is to be made again from the other copy of its partition, which serves until then (R337). -/
def State.moveCopy (s : State) (p c : Nat) : State :=
  match s.policyHome p with
  | none => s
  | some q => { s with mem := { s.mem with
      policyMirror := s.mem.policyMirror.filter (fun x => x.2 != c) ++ [(p, c)]
      policyAt := Tab.insert s.mem.policyAt c (q, (s.policySlot q).getD 0) } }
/-- The policy copies that lay on `p`: the primary copy of its own partition, the mirror of that of p XOR 64 (assumption 256), and what
earlier retirements copied onto it. -/
def State.movePolicy (s : State) (p : Nat) : State :=
  ((List.range 256).filter (fun c => (s.policyPlace c).1 == p)).foldl (fun s c => s.moveCopy p c) s

/-- Retirement of HBM pseudo-channel `p` (R337, R338). -/
def State.retirePc (s : State) (pcOf : State → Nat → Nat) (p : Nat) : State :=
  let before := s.flow.lostRecords
  let blocks := s.blocksOn p
  let keep := decide (s.mem.retired < 8)
  let s0 := s.rewriteShadows p (pcOf s)
  let s1 := ((s0.loseRecords p).losePermitsOn p (pcOf s)).loseHists p
  let lost := s1.flow.lostRecords - before
  let s2 := s1.setUnit p { (s1.munit p) with state := 2, queue := [], wait := [], retryAt := none, attempts := 0, patrolErr := [] }
  let s3 := { s2 with mem := { s2.mem with retired := s2.mem.retired + 1 } }
  let s4 := blocks.foldl (fun s c => s.moveBlock p c keep) s3
  let s5 := (((((s4.movePermits p).moveJournal p).movePolicy p).loseJournal).missReads p).endFenceWaits
  let s6 := (s5.raise 0x0804 (srcUnit p) []).raise 0x0503 (srcUnit p) (natLe 8 lost)
  if keep then s6 else s6.raise 0x0805 (srcUnit p) (natLe 4 s6.mem.absent.length)

/-! ### The Granary (R339 to R341) -/

/-- Capacity of the Granary in GiB: the channels in use. -/
def State.granary (s : State) : Nat :=
  (List.range 16).foldl (fun n d => n + (if (s.munit (128 + d)).used then (s.munit (128 + d)).gib else 0)) 0

/-- Region sizes for a Granary of `total` GiB by the shares in 1/128, in 1/128 GiB (R339). -/
def regionSizes (shares : List Nat) (total : Nat) : List Nat := (shares.take 5).map (fun x => x * total)
/-- Region sizes after a loss of capacity (R340): the ledger keeps its size; what is missing comes from the reserved region, then from
the Straw ring, then from the flow archive. -/
def shrunk (regions : List Nat) (gib : Nat) : List Nat :=
  let total := 128 * gib
  let r (i : Nat) := regions.getD i 0
  let kept := r 0 + r 1 + r 2 + r 3
  if kept ≤ total then [r 0, r 1, r 2, r 3, total - kept]
  else
    let need := kept - total
    let straw := r 2 - need
    let archive := r 1 - (need - r 2)
    [r 0, archive, straw, r 3, 0]

/-- The archive, the Straw ring and export staging restart empty; their counters go on (R340). -/
def State.restartRings (s : State) : State :=
  { s with
    core := { s.core with straw := [], strawBase := s.core.strawNext }
    svc := { s.svc with archive := [], archiveBase := s.svc.archiveSeq, staging := [], exportDropped := s.svc.exportDropped + s.svc.staging.length } }

/-- Records of a stripe that the ledger holds. -/
def State.stripeRecords (s : State) (k : Nat) : List Nat := (Tab.keys s.ledger.ring).filter (fun i => stripeOf i == k)

/-- Records of stripe `k` lost with its partner channel before the rebuild is done (R341): those that stood when it began and that
4 GB/s, lowest index first, has not yet copied. -/
def State.lostStripe (s : State) (k : Nat) (r : Rebuild) : List Nat :=
  let copied := (s.now - r.at_) * 4 / 9 / 256
  ((s.stripeRecords k).filter (fun i => decide (i < r.upTo))).drop copied

/-- The mirror of stripe `k` is to be rebuilt, channel `d` having left it (R340). -/
def State.beginRebuild (s : State) (d : Nat) : State :=
  { s with mem := { s.mem with
    owed := s.mem.owed.filter (fun (x : Nat × Nat) => x.2 != 128 + d)
    mirrors := if s.mem.mirrors.contains (d % 8) then s.mem.mirrors else s.mem.mirrors ++ [d % 8]
    rebuilt := s.mem.rebuilt.filter (· != d % 8)
    rebuilding := Tab.insert s.mem.rebuilding (d % 8) { failed := d, at_ := s.now, upTo := s.ledger.next } } }

/-- The partner of channel `d` has failed, and the mirror of their stripe is not yet rebuilt: a second fault (R341). -/
def State.secondFault (s : State) (d : Nat) : Option Rebuild :=
  if (s.munit (128 + (d + 8) % 16)).state = 2 then Tab.find? s.mem.rebuilding (d % 8) else none

/-- Region sizes of the Granary-shrunk event, in GiB (R340). -/
def State.regionBody (s : State) : Bytes := (s.mem.regions.map (fun n => natLe 4 (n / 128))).flatten

/-- Retirement of Granary channel `d` (R340, R341). -/
def State.retireDdr (s : State) (d : Nat) : State :=
  let u := 128 + d
  let second := s.secondFault d
  let lost := match second with
    | some r => s.lostStripe (d % 8) r
    | none => []
  let s1 := s.setUnit u { (s.munit u) with state := 2, queue := [], wait := [], retryAt := none, attempts := 0, patrolErr := [] }
  let s2 := ({ s1 with ledger := { s1.ledger with ring := s1.ledger.ring.filter (fun (x : Nat × Bytes) => !lost.contains x.1) } }).beginRebuild d
  let s3 := ((s2.continuation d false second.isSome lost.length).missReads u).restartRings
  let s4 := { s3 with mem := { s3.mem with regions := shrunk s3.mem.regions s3.granary } }
  ((s4.raise 0x0804 (srcUnit u) []).raise 0x0806 srcDevice s4.regionBody).ledgerLevel

/-! ### The new mirror of a stripe (R340) -/

/-- Channels that share the new mirror of stripe `k`: those in use but the partner. -/
def State.mirrorChannels (s : State) (k : Nat) : List Nat := s.granaryUsed.filter (fun d => d % 8 != k)
/-- Records of a ledger area, and how many records of a stripe's new mirror each of its channels holds. -/
def State.areaSlots (s : State) : Nat := s.ledgerRing / 8
def State.mirrorSpan (s : State) (k : Nat) : Nat :=
  let n := (s.mirrorChannels k).length
  (s.areaSlots + n - 1) / n
/-- Byte of each channel at which the new mirror of stripe `k` begins: one after the other from the start of the reserved region
(assumption 257). -/
def State.mirrorStart (s : State) (k : Nat) : Nat :=
  s.granaryStart 4 + (s.mem.mirrors.takeWhile (· != k)).foldl (fun n j => n + 256 * s.mirrorSpan j) 0
/-- Unit and byte of the copy of record `i` in the new mirror of its stripe: the slots go to the channels in turn. -/
def State.mirrorPlace (s : State) (i : Nat) : Nat × Nat :=
  let ds := s.mirrorChannels (stripeOf i)
  let slot := i / 8 % s.areaSlots
  (128 + ds.getD (slot % ds.length) 0, s.mirrorStart (stripeOf i) + slot / ds.length * 256)
/-- The new mirror holds record `i`: its stripe is rebuilt, or the rebuild has come past it, or the record was written since. -/
def State.mirrorHolds (s : State) (i : Nat) : Bool :=
  s.mem.rebuilt.contains (stripeOf i) ||
    (Tab.find? s.mem.rebuilding (stripeOf i)).any (fun r => !(s.lostStripe (stripeOf i) r).contains i)

end Sys2Proof.Machine
end

