-- ==== Sys2Proof/Machine/MemUnits.lean ====
section
/-! DEFINITION. The memory controllers: issue, refresh, row disturbance, patrol, training and retraining (R325, R328 to R336, R342). -/

namespace Sys2Proof.Machine

/-! ### Row disturbance (R331) -/

/-- One activation in a bank's table: the table after it, and whether the row has reached the threshold. The entry replaced in a full
table is the first of those with the smallest count. -/
def activate (thr row : Nat) (t : List (Nat × Nat)) : List (Nat × Nat) × Bool :=
  let t1 := if t.any (fun x => x.1 == row) then t.map (fun x => if x.1 = row then (x.1, x.2 + 1) else x)
    else if t.length < 64 then t ++ [(row, 1)]
    else
      let m := t.foldl (fun m x => min m x.2) ((t.headD (0, 0)).2)
      let i := t.findIdx (fun x => x.2 == m)
      t.set i (row, m + 1)
  if t1.any (fun x => x.1 == row && decide (thr ≤ x.2)) then (t1.map (fun x => if x.1 = row then (x.1, 0) else x), true) else (t1, false)

/-- Rows at distances 1 and 2. -/
def neighbours (row : Nat) : List Nat := (if 2 ≤ row then [row - 2] else []) ++ (if 1 ≤ row then [row - 1] else []) ++ [row + 1, row + 2]

/-- An activation counts toward the refresh management of a Granary bank whose SPD asks for it, and the command is issued when it is due
(R331). PRESUMED from JEDEC DDR5 (assumption 232): the command takes its threshold from the count. -/
def State.manageRefresh (s : State) (u bank : Nat) : State :=
  if isHbm u ∨ !Config.refreshManaged u then s
  else
    let m := s.munit u
    let n := Tab.get 0 m.managed bank + 1
    if n < Config.managedAt u then s.setUnit u { m with managed := Tab.put 0 m.managed bank n }
    else (s.setUnit u { m with managed := Tab.put 0 m.managed bank (n - Config.managedAt u) }).emit (.dram u 4 bank 0)

/-- A neighbour refresh, counted for its bank and in the unit's counter (R331, Table 20-2). -/
def State.countNeighbour (s : State) (u bank : Nat) : State :=
  let m := s.munit u
  (s.setUnit u { m with neighbour := Tab.put 0 m.neighbour bank (Tab.get 0 m.neighbour bank + 1) }).countUnit u 2

/-- The rows of the list are activated in turn; a row that reaches the threshold has its neighbours refreshed, each of which counts as
an activation (R331, Table 13-8). -/
def State.activateRows (s : State) (u bank : Nat) : Nat → List Nat → State
  | 0, _ => s
  | _, [] => s
  | fuel + 1, r :: rest =>
    let m := s.munit u
    let (t, hit) := activate (s.sn 0x0D06) r (Tab.get [] m.activations bank)
    let s1 := (s.setUnit u { m with activations := Tab.put [] m.activations bank t }).manageRefresh u bank
    if hit then
      let ns := neighbours r
      let s2 := (ns.foldl (fun s q => s.emit (.dram u 3 bank q)) s1).countNeighbour u bank
      State.activateRows s2 u bank fuel (rest ++ ns)
    else State.activateRows s1 u bank fuel rest

/-- ROW_ACTIVATION (R331). -/
def execRowActivation (u : UnitId) (bank row : Nat) (s : State) : Res :=
  if (s.munit u).used then done (s.activateRows u bank 4096 [row]) else done s

/-- ACTIVATION_TABLE_CLEAR (R331): at the start of a refresh window of 32 ms. -/
def execActivationTableClear (u : UnitId) (s : State) : Res :=
  let m := s.munit u
  if m.windowAt + ms 32 ≤ s.now then done (s.setUnit u { m with activations := [], windowAt := s.now }) else done s

/-! ### Issue (R328, R329) and refresh (R330) -/

/-- A request of the queue has an earlier one to the same burst before it. -/
def earlierSame (q : List MemReq) (r : MemReq) (write : Bool) : Bool :=
  (q.takeWhile (fun x => !(x.id == r.id && x.addr == r.addr))).any (fun x => x.addr == r.addr && (!write || x.write))

/-- The request hits its bank's open row. -/
def State.rowHit (s : State) (u : Nat) (r : MemReq) : Bool :=
  Tab.get 0 (s.munit u).openRow (s.placeOf u r.addr).1 == (s.placeOf u r.addr).2 + 1

/-- A write queue of the unit is at least 3/4 full (R328). -/
def State.writesPress (s : State) (u : Nat) : Bool :=
  [0, 1].any (fun k => decide (3 * queueSize u ≤ 4 * ((s.munit u).queue.filter (fun r => r.write && subchannel u r.addr == k)).length))

/-- The request that the controller issues next (R328), among those that no earlier access to the same burst precedes. -/
def State.nextRequest (s : State) (u : Nat) : Option MemReq :=
  let m := s.munit u
  let q := m.queue.filter (fun r => !earlierSame m.queue r false)
  let reads := q.filter (fun r => !r.write)
  let writes := q.filter (·.write)
  match q.find? (fun r => decide (r.at_ + ns (s.sn 0x0D01) ≤ s.now)) with
  | some r => some r
  | none => match reads.find? (s.rowHit u) with
    | some r => some r
    | none =>
      if s.writesPress u ∨ reads.isEmpty then
        match writes.find? (s.rowHit u) with
        | some r => some r
        | none => writes.head?
      else reads.head?

/-- The sensor that reports the temperature of a unit: that of its stack, or of its DIMM (R330). -/
def sensorOf (u : Nat) : Nat := if isHbm u then u / 32 else 4 + (u - 128)
/-- Temperature of a unit's stack or DIMM as last reported, °C. -/
def State.memTemp (s : State) (u : Nat) : Int := Tab.get 0 s.mem.temps (sensorOf u)
/-- The sensor of a unit is read. No command delivers what it reports, which is a free value (assumption 40). -/
def State.senseTemp (s : State) (u : Nat) : State :=
  let (v, s1) := s.draw
  { s1 with mem := { s1.mem with temps := Tab.put 0 s1.mem.temps (sensorOf u) (v.setWidth 8).toInt } }
/-- The refresh interval of a unit: that of its standard, halved above 85 °C (R330). -/
def State.refreshStep (s : State) (u : Nat) : Nat :=
  if 85 < s.memTemp u then Config.refreshInterval (isHbm u) / 2 else Config.refreshInterval (isHbm u)

/-- A refresh of a bank is issued: its row closes. -/
def State.issueRefresh (s : State) (u bank : Nat) : State :=
  let m := s.munit u
  let b := Tab.get {} m.refresh bank
  let b1 : BankRefresh := if 0 < b.postponed then { b with postponed := b.postponed - 1 } else { b with due := b.due + s.refreshStep u }
  (s.setUnit u { m with openRow := Tab.erase m.openRow bank, refresh := Tab.put {} m.refresh bank b1 }).emit (.dram u 0 bank 0)

/-- A bank whose refresh has reached its postponement limit. -/
def State.refreshForced (s : State) (u : Nat) : Option Nat :=
  (s.munit u).refresh.findSome? (fun (x : Nat × BankRefresh) =>
    if Config.postponeLimit (isHbm u) ≤ x.2.postponed ∧ 0 < x.2.postponed then some x.1 else none)

/-- REFRESH_ISSUE (R330): the sensor is read, and a due refresh is issued to a bank with no queued request, and postponed otherwise up to the
standard's limit. -/
def execRefreshIssue (u : UnitId) (bank : Nat) (s0 : State) : Res :=
  let s := s0.senseTemp u
  let m := s.munit u
  let b := Tab.get {} m.refresh bank
  if !m.used ∨ s.now < b.due then done s
  else
    let busy := m.queue.any (fun r => (s.placeOf u r.addr).1 == bank)
    if busy ∧ b.postponed < Config.postponeLimit (isHbm u) then
      let b1 : BankRefresh := { due := b.due + s.refreshStep u, postponed := b.postponed + 1 }
      done (s.setUnit u { m with refresh := Tab.put {} m.refresh bank b1 })
    else done (s.issueRefresh u bank)

/-- A request leaves its queue toward its bank, activating its row if another one is open. -/
def State.issueRequest (s : State) (u : Nat) (r : MemReq) : State :=
  let m := s.munit u
  let (bank, row) := s.placeOf u r.addr
  let hit := s.rowHit u r
  let s1 := (s.setUnit u ({ m with openRow := Tab.insert m.openRow bank (row + 1) }.without u s.now r)).emit
    (.dram u (if r.write then 2 else 1) bank row)
  if hit then s1 else s1.activateRows u bank 4096 [row]

/-- MEMORY_REQUEST_ISSUE (R328): nothing is issued behind a fence. A read that a queued write holds is answered from the write
queue. -/
def execMemoryRequestIssue (u : UnitId) (s : State) : Res :=
  let m := s.munit u
  if m.state ≠ 0 then done s
  else match s.refreshForced u with
    | some bank => done (s.issueRefresh u bank)
    | none => match m.queue.find? (fun r => !r.write && earlierSame m.queue r true) with
      | some r => done (s.setUnit u (m.without u s.now r))
      | none => match s.nextRequest u with
        | some r => done (s.issueRequest u r)
        | none => done s

/-! ### Patrol (R332, R333, Table 13-4) -/

/-- Journal staging of a bale is lost: which of the open and pending bales the burst belongs to, if any, is a free value
(assumption 39). -/
def State.loseStaging (s : State) : State :=
  let live := (s.bales.list.filter (fun (b : Bale) => b.st == .opened || b.st == .pending)).map (·.id)
  let (v, s1) := s.draw
  match live[v.toNat % (live.length + 1)]? with
  | some id => { s1 with bales := { s1.bales with list := s1.bales.list.map (fun (c : Bale) => if c.id = id then { c with lost := true } else c) } }
  | none => s1

/-- Bucket at a byte of the flow area or the directory of unit `u`, in the unit's own block (R327); none where its block has moved. -/
def State.bucketAtAddr (s : State) (u i : Nat) : Option Nat :=
  let b := i * 128 + u
  if !s.blockMoved (blockOf b) ∧ !s.bucketAbsent b then some b else none

/-- A record lost by an uncorrectable error of the place that holds it, if one does. -/
def State.loseHeld (s : State) (u l : Nat) : State := if (s.recAt l).isSome then s.loseRecord u l else s

/-- An uncorrectable error in a bucket or a directory entry of the flow block in its own place (Table 6-6). -/
def State.lostFlow (s : State) (u a : Nat) : State :=
  match s.bucketAtAddr u (a / 512) with
  | some b => s.loseHeld u (4 * b + a % 512 / 128)
  | none => s
def State.lostDirectory (s : State) (u a : Nat) : State :=
  match s.bucketAtAddr u (a / 16) with
  | some b => s.loseBucket u b
  | none => s

/-- The bucket at place `i` of flow block `c`. -/
def spareBucket (c i : Nat) : Nat := (i + c % 128 * 16384) * 128 + c / 128
/-- An uncorrectable error in a spare area, which holds a flow block of another pseudo-channel (R157). -/
def State.lostSpare (s : State) (u a : Nat) : State :=
  let o := a % spareSize
  match ((s.sparesOf u).find? (fun x => x.2 == a / spareSize)).map (·.1) with
  | none => s
  | some c =>
    if 32768 ≤ c then s.loseStaging
    else if 16384 ≤ c then s.losePermits u ((c % 2 * 16384 + o / 512) * 128 + (c - 16384) / 2)
    else if o < 8 * mib then s.loseHeld u (4 * spareBucket c (o / 512) + o % 512 / 128)
    else s.loseBucket u (spareBucket c ((o - 8 * mib) / 16))

/-- An uncorrectable error in a permit bucket, an overflow record, and a histogram entry (Table 6-6). -/
def State.lostPermit (s : State) (u a : Nat) : State :=
  let b := a / 512 * 128 + u
  if s.permitPc b = u ∧ (Tab.find? s.mem.spareIx (permitCode b)).isNone then s.losePermits u b else s
def State.lostOverflow (s : State) (u a : Nat) : State := s.loseHeld u (flowOverflow + a / 1024 * 1024 + 8 * u + a % 1024 / 128)
def State.lostHist (s : State) (u a : Nat) : State :=
  let i := a / 64 * 128 + u
  if (Tab.find? s.flow.hist i).isSome then s.loseHist i else s

/-- Place of address `a` of a Granary channel in the Granary's address order, by the channels in use. -/
def granaryUnit (n c a : Nat) : Nat := a / 128 * (2 * n) + 2 * c + a / 64 % 2
/-- Copies of ledger record `i`: in the ledger areas of the channels in use of its pair, at slot floor(i / 8), and in the new mirror of its stripe
(R339, R340). -/
def State.recordCopies (s : State) (i : Nat) : List (Nat × Nat) :=
  ((s.granaryUsed.filter (fun d => d % 8 == stripeOf i)).map (fun d => (128 + d, i / 8 % s.areaSlots * 256))) ++
    (if s.mirrorHolds i then [s.mirrorPlace i] else [])
/-- The ledger record a copy of which lies at a byte of a unit, in the ledger area or in the reserved region. -/
def State.recordAt (s : State) (u a : Nat) : Option Nat :=
  (Tab.keys s.ledger.ring).find? (fun i => (s.recordCopies i).any (fun (x : Nat × Nat) => x.1 == u && x.2 / 256 == a / 256))
/-- A copy of a ledger record is in error: the other mirror is read, and a record that has no other is lost (Table 13-4, R340). -/
def State.lostCopy (s : State) (u a : Nat) : State :=
  match s.recordAt u a with
  | none => s
  | some i => match (s.recordCopies i).find? (fun (x : Nat × Nat) => x.1 != u) with
    | some (v, b) => s.issueRead v b a false (.mirror u a (some i)) 4
    | none => s.loseLedger u i

/-- An uncorrectable error in region `r` of a Granary channel: a ledger record is read from its other mirror, an entry of the archive, the Straw
ring or export staging is lost (R339, R340, Table 13-4). -/
def State.lostRegion (s : State) (u a r : Nat) : State :=
  let i := granaryUnit s.granaryUsed.length (s.granaryUsed.findIdx (· == u - 128)) (a - s.granaryStart r)
  match r with
  | 0 => s.lostCopy u a
  | 4 => s.lostCopy u a
  | 1 => { s with svc := { s.svc with archive := Tab.erase s.svc.archive (i / 4) } }
  | 2 => { s with core := { s.core with straw := Tab.erase s.core.straw i } }
  | 3 => s.lostStaging (64 * i)
  | _ => s
/-- An uncorrectable error in a Granary channel, by the region of its byte. -/
def State.lostGranary (s : State) (u a : Nat) : State := s.lostRegion u a (s.granaryRegion a)

/-- The parts of an HBM pseudo-channel, from the one past the permit area (Table 6-6). -/
def State.lostUpper (s : State) (u a : Nat) : State :=
  if a < areaOverflow then s.loseStaging
  else if a < areaHistogram then s.lostOverflow u (a - areaOverflow)
  else if a < areaPolicy then s.lostHist u (a - areaHistogram)
  else s.lostPolicy u a

/-- The owner of a burst with an uncorrectable error handles it (Table 13-4). -/
def State.patrolLost (s : State) (u a : Nat) : State :=
  if !isHbm u then s.lostGranary u a
  else if a < areaDirectory then s.lostFlow u a
  else if a < areaSpare then s.lostDirectory u (a - areaDirectory)
  else if a < areaPermit then s.lostSpare u (a - areaSpare)
  else if a < areaJournal then s.lostPermit u (a - areaPermit)
  else s.lostUpper u a

/-- What a patrol read finds is corrected and counted, or reported and handled by its owner. -/
def State.patrolFound (s : State) (u a : Nat) (bad : Bool) : State :=
  if bad then (s.uncorrectable u a).patrolLost u a else (s.corrected u).issueWrite u a

/-- PATROL_SCRUB_READ (R333, Table 13-8). -/
def execPatrolScrubRead (u : UnitId) (addr : Nat) (res : ReadResult) (s : State) : Res :=
  let m := s.munit u
  if !m.used then done s
  else if m.state = 1 then
    done (if res = .ok then s else s.setUnit u { m with patrolErr := m.patrolErr ++ [(decide (res = .uncorrectable), addr)] })
  else
    done (match res with
      | .ok => s
      | .corrected => s.patrolFound u addr false
      | .uncorrectable => s.patrolFound u addr true)

/-! ### Training (R325, R334 to R336) -/

/-- Another unit of the same memory is fenced (R335, Table 13-8). -/
def State.otherFenced (s : State) (u : Nat) : Bool :=
  (List.range 144).any (fun v => v != u && isHbm v == isHbm u && s.fenced v)

/-- Retraining of a Granary channel waits while its partner is retired or its stripe is being rebuilt (Table 13-8). -/
def State.partnerOut (s : State) (u : Nat) : Bool :=
  !isHbm u && ((Tab.find? s.mem.rebuilding ((u - 128) % 8)).isSome ||
    ((s.munit (128 + (u - 128 + 8) % 16)).state == 2 && !s.mem.rebuilt.contains ((u - 128) % 8)))

/-- A unit may be fenced for retraining now. -/
def State.mayFence (s : State) (u : Nat) : Bool := (s.munit u).state == 0 && !s.otherFenced u && !s.partnerOut u

/-- The fence of a retraining (Table 13-5). -/
def State.fenceUnit (s : State) (u : Nat) : State :=
  s.setUnit u { (s.munit u) with state := 1, trainedAt := s.now, trainedTemp := s.memTemp u }

/-- The fence lifts: owed ledger copies are written, and the patrol errors found behind it are reported (R339, Table 13-8). -/
def State.liftFence (s : State) (u : Nat) : State :=
  let m := s.munit u
  let s0 := if isHbm u then s.endFenceWaits else s
  let s1 := s0.setUnit u { m with state := 0, patrolErr := [] }
  let s2 := { s1 with mem := { s1.mem with owed := s1.mem.owed.filter (fun (x : Nat × Nat) => x.2 != u) } }
  m.patrolErr.foldl (fun s x => s.patrolFound u x.2 x.1) s2

/-- A memory unit retires (R337, R340). -/
def State.retireUnit (s : State) (u : Nat) : State :=
  if isHbm u then s.retirePc (fun s b => s.permitPc b) u else s.retireDdr (u - 128)

/-- The temperature of a unit's stack or DIMM has changed by the step of 0x0D03 since its last training (R335). -/
def State.tempStep (s : State) (u : Nat) : Bool :=
  decide (s.sn 0x0D03 ≤ (s.memTemp u - (s.munit u).trainedTemp).natAbs)

/-- RETRAIN_START (R335): the sensor is read, and the unit is fenced when the period has passed or its temperature has changed by the step. -/
def execRetrainStart (u : UnitId) (s : State) : Res :=
  let s1 := s.senseTemp u
  if s1.mayFence u ∧ ((s1.munit u).trainedAt + ns (s1.sn 0x0D02) ≤ s1.now ∨ s1.tempStep u) then done (s1.fenceUnit u) else done s1

/-- RETRAIN_RETRY (R333, R336): the attempt that has fallen due. -/
def execRetrainRetry (u : UnitId) (s : State) : Res :=
  let m := s.munit u
  if s.mayFence u ∧ m.retryAt.any (fun t => decide (t ≤ s.now)) then done ((s.setUnit u { m with retryAt := none }).fenceUnit u)
  else done s

/-- POLICY_MIRROR_COPY_DONE (R337): the copies that the retirement of the pseudo-channel called for are made, and serve. -/
def execPolicyMirrorCopyDone (p : PcId) (s : State) : Res :=
  done { s with mem := { s.mem with policyMirror := s.mem.policyMirror.filter (fun x => x.1 != p.val) } }

/-- Time that the rebuild of a stripe takes at 4 GB/s, in the state's units. -/
def State.rebuildTime (s : State) : Nat := s.mem.ledgerPart * 9 / 4

/-- LEDGER_MIRROR_REBUILD_DONE (R340, R341): the second continuation record. -/
def execLedgerMirrorRebuildDone (d : DdrId) (s : State) : Res :=
  let k := d.val % 8
  match Tab.find? s.mem.rebuilding k with
  | some r =>
    if r.failed = d.val ∧ r.at_ + s.rebuildTime ≤ s.now then
      let s1 := { s with mem := { s.mem with rebuilding := Tab.erase s.mem.rebuilding k, rebuilt := s.mem.rebuilt ++ [k] } }
      done (s1.continuation d true false 0)
    else done s
  | none => done s

end Sys2Proof.Machine
end

