-- ==== Sys2Proof/Machine/Retrain.lean ====
section
/-! DEFINITION. How a retraining ends (R335, R336), and the request that ordered it (R379). -/

namespace Sys2Proof.Machine

/-- The request that ordered a retraining is answered; its detail names the outcome: 0 the new setting, 1 the previous one kept, 2 the
unit retired (assumption 53). -/
def State.retrainDone (s : State) (u outcome : Nat) : State := s.endLong 1 u 0 outcome [] s.bales.lastTick

/-- RETRAIN_COMPLETE (R335, R336, Table 13-5). -/
def execRetrainComplete (u : UnitId) (res : RetrainResult) (s : State) : Res :=
  let m := s.munit u
  if m.state ≠ 1 then done s
  else match res with
    | .newSetting =>
      done (((s.setUnit u { m with attempts := 0, retryAt := none }).liftFence u).retrainDone u 0)
    | .keptPrevious =>
      let n := m.attempts + 1
      let s1 := ((s.setUnit u { m with attempts := n, retryAt := some (s.now + sec 1) }).countUnit u 3).raise 0x0803 (srcUnit u) (natLe 1 n)
      if 3 ≤ n then done ((s1.retireUnit u).retrainDone u 2) else done ((s1.liftFence u).retrainDone u 1)
    | .noneWorks => done ((s.retireUnit u).retrainDone u 2)

end Sys2Proof.Machine
end

