-- ==== Sys2Proof/Machine/Effects.lean ====
section
/-! DEFINITION. What a setting needs of the present state, and what it does when a commit tick applies it (R181, R384, R385). -/

namespace Sys2Proof.Machine

/-! ### Checks of the present state -/

/-- Memory unit of a target of kind 12 (Table 16-1). -/
def unitOf (t : Nat) : Nat := if t < 128 then t else 128 + (t - 256)

/-- Records of the ledger ring under shares in 1/128 (R339, R343). -/
def State.ringUnder (s : State) (vs : List Int) : Nat :=
  (regionSizes (vs.map (fun v => v.toNat)) s.granary).getD 0 0 * 2 ^ 23 / 512

/-- The highest rate of a shaper: the rate of the port's mode (R307). DESIGN CHOICE (assumption 254): that of the fastest mode while the port is
disabled. -/
def slopeBound (mode : Nat) : Nat := if mode = 0 then 200000000000 else rateOf mode

/-- The status with which an item is refused in the present state, under settings `view` as the request leaves them; 0 for none
(R73, R86, R248, R293, R294, R343, R399, Tables 6-7, 12-6, 16-8 and 19-9). -/
def State.itemBlocked (s : State) (view : Settings) (it : Item) : Nat :=
  let v : Nat := (it.vals.getD 0 0).toNat
  match it.id with
  | 0x0301 => if v = 6 ∧ 32 < ((List.range 96).filter (fun p => view.nat 0x0301 p 0 == 6)).length then 0x0304 else 0
  | 0x0310 =>
    let differ (l : Nat) : Bool := twoLane (view.nat 0x0301 (l / 2) 0) && view.nat 0x0310 (l / 2 * 2) 0 != view.nat 0x0310 (l / 2 * 2 + 1) 0
    if it.targets.any differ then 0x0304 else 0
  | 0x060A => if s.flow.records.isEmpty then 0 else 0x0501
  | 0x0A04 => if (List.range 256).any (fun b => decide (256 - 256 / v < s.committedRows b)) then 0x0404 else 0
  | 0x0B0A => if s.gate.permits.isEmpty then 0 else 0x0605
  | 0x0C01 => if (List.range 96).all (fun p => s.portMode p == 0 && (s.port p).st == .disabled) then 0 else 0x0304
  | 0x0C0B => if it.targets.any (fun t => decide (slopeBound (view.nat 0x0301 (t / 8) 0) < v)) then 0x0302 else 0
  | 0x0C0C => if it.targets.any (fun p => decide (slopeBound (view.nat 0x0301 p 0) < v)) then 0x0302 else 0
  | 0x0C0E => if (it.targets.any (fun p => (view.nat 0x0C0E p 1 &&& view.nat 0x0C03 0 0) != 0)) then 0x0302 else 0
  | 0x0D04 => if it.targets.any (fun t => decide (2 ≤ (s.munit (unitOf t)).state)) then 0x0802 else 0
  | 0x0D09 => if s.ringUnder it.vals < s.unacked then 0x0801 else 0
  | 0x0D0A => if it.targets.any (fun t => decide (2 ≤ (s.munit (unitOf t)).state)) then 0x0802 else 0
  | 0x0E01 => if s.sheaf.twin = 1 then 0x0901 else 0
  | 0x0E02 => if s.sheaf.twin = 1 then 0x0901 else 0
  | 0x1106 => if s.clearBlocked then 0x0304 else 0
  | 0x1303 => if (view.nat 0x1304 0 0 &&& (255 - view.nat 0x1303 0 0)) != 0 then 0x0302 else 0
  | 0x1304 => if (view.nat 0x1304 0 0 &&& (255 - view.nat 0x1303 0 0)) != 0 then 0x0302 else 0
  | _ => 0

/-- The first item that the present state refuses: its status and offset. -/
def State.itemsBlocked (s : State) (view : Settings) (its : List Item) : Option (Nat × Nat) :=
  its.findSome? (fun it =>
    let st := s.itemBlocked view it
    if st = 0 then none else some (st, it.off))

/-! ### Effects -/

/-- A request that waits for bale `id` waits for a later happening as well (R379). -/
def State.alsoWait (s : State) (id kind idx : Nat) : State :=
  let mine := s.host.longs.filter (fun x => x.kind == 0 && x.idx == id)
  { s with host := { s.host with longs := s.host.longs ++ mine.map (fun x => { x with kind := kind, idx := idx }) } }

/-- The safe state is to be cleared as the clock ends, so that a fault of this clock is taken first (Table 17-10, assumption 267). -/
def State.orderClear (s : State) (id : Nat) : State :=
  let s1 := s.alsoWait id 5 0
  { s1 with fault := { s1.fault with clearing := true } }

/-- Full recalibration of one lane (R91): its port is taken down for 200 ms, and retrains, be the lane used by its mode or not. -/
def State.fullRecal (s : State) (l : Nat) : State :=
  let p := portOfLane l
  let s1 := s.modLane l (fun y => { y with calDue := false, calTemp := s.power.temp })
  if s.portMode p ≠ 0 ∧ (s.port p).st ≠ .test then
    (s1.portDown p causeCommanded true).modPort p (fun q => { q with waitUntil := s.now + ms 200 })
  else s1

/-- An engine is fenced by command, or returned (Table 8-9): the packets in a fenced action engine are run again, and what the fault
controller has fenced or retired stays so. Code 3 is fenced by command. -/
def State.commandEngine (s : State) (i v : Nat) : State :=
  let k := i / 128
  let n := i % 128
  if v = 0 then (if s.engineState i = 3 then s.setEngine i 0 else s)
  else if s.engineState i = 0 then
    let again := if n < 64 then s.residents k n else []
    again.foldl (fun (s : State) (m : Nat) => s.rerun m) (s.setEngine i 3)
  else s

/-- A unit is retrained now: fenced at once, or as soon as it may be (R335, R379). -/
def State.retrainNow (s : State) (id u : Nat) : State :=
  let s1 := s.alsoWait id 1 u
  if s1.mayFence u then s1.fenceUnit u else s1.setUnit u { s1.munit u with retryAt := some s.now }

/-- LACP was enabled or disabled for group `g` (R130): members begin or cease to distribute. -/
def State.relacp (s : State) (pre : State) (g : Nat) : State :=
  (s.lagMembers g).foldl (fun (s : State) (p : Nat) =>
    if pre.distributing g p ∧ !s.distributing g p then s.memberStops g p
    else if !pre.distributing g p ∧ s.distributing g p then s.memberStarts g p
    else s) s

/-- Period registers of counters whose event or period has changed begin anew (R454). -/
def State.restartPeriods (s : State) (pre : State) : State :=
  let changed (n : Nat) : Bool := pre.eventNo n != s.eventNo n || pre.periodOf n != s.periodOf n
  { s with cnt := { s.cnt with period := s.cnt.period.filter (fun (x : Nat × Nat) => !changed (x.1 % 8)) } }

/-- Adaptive VCORE is turned off: the setpoint returns to 0.75 V (R430). -/
def State.fixVcore (s : State) : State :=
  if s.son 0x130B ∨ s.power.pmbusLost then s
  else { (s.emit (.pmbus 750)) with power := { s.power with vcore := 750 } }

/-- CYC_OUT takes the level that its places and its enable give it, low while it is disabled (R66, R68). -/
def State.cycFollows (s : State) : State := { s with tiller := { s.tiller with cycOut := s.cycLevel } }
/-- PPS_OUT is low while it is disabled (R68). -/
def State.ppsFollows (s : State) : State := { s with tiller := { s.tiller with ppsOut := s.tiller.ppsOut && s.son 0x0216 0 1 } }

/-- What setting `id` of target `t` does beyond standing in the settings; `pre` is the state before the action, `bale` its bale. -/
def State.settingEffect (pre : State) (bale id t : Nat) (vs : List Int) (s : State) : State :=
  let v : Nat := (vs.getD 0 0).toNat
  match id with
  | 0x0210 => s.applyForced v
  | 0x0211 => s.reorderSources
  | 0x0212 => s.commandStep
  | 0x0215 => s.cycFollows
  | 0x0216 => s.ppsFollows
  | 0x0305 => s.resetRetry t
  | 0x0306 => s.resetRetry t
  | 0x0307 => s.capPenalty t
  | 0x0308 => s.capPenalty t
  | 0x0309 => s.capPenalty t
  | 0x030F => (List.range 16).foldl (fun (s : State) (i : Nat) => s.clipPolicer t i (pre.policerSet t i) (s.policerSet t i)) s
  | 0x0310 => s.retest (t / 2)
  | 0x0311 => s.orderLane t v
  | 0x0312 => s.askPass
  | 0x0313 => s.askPass
  | 0x0314 => s.fullRecal t
  | 0x0404 => if s.isOtn t then s.setDefects t (s.otnOf t).defects else s
  | 0x0406 => if s.son 0x0406 t ∧ (s.port t).runMode = 6 ∧ (s.port t).st = .up then s.portDown t causeCommanded true else s
  | 0x050D => s.relacp pre t
  | 0x0802 => s.commandEngine t v
  | 0x0A04 => s.respace
  | 0x0C01 => (List.range 6).foldl (fun (s : State) (i : Nat) => s.relevel i) s |>.xoffCheck.xonCheck
  | 0x0C02 => (s.relevel t).xoffCheck.xonCheck
  | 0x0C03 => s.xonCheck
  | 0x0C0C => s.setShaper pre t
  | 0x0C0E => s.xonCheck.xoffCheck
  | 0x0C0F => s.xonCheck.xoffCheck
  | 0x0D04 => s.retrainNow bale (unitOf t)
  | 0x0D0A => s.retireUnit (unitOf t)
  | 0x0E01 => s.pairChanged
  | 0x0E02 => s.pairChanged
  | 0x0E07 => s.sheafRetest (t / 9)
  | 0x0E08 => s.sheafRepower s.sheafPower
  | 0x1105 => s.orderDrain t
  | 0x1106 => s.orderClear bale
  | 0x1308 => s.sagUpdate
  | 0x1309 => s.sagUpdate
  | 0x130A => s.thermUpdate
  | 0x130B => s.fixVcore
  | 0x1401 => s.restartPeriods pre
  | 0x1402 => s.restartPeriods pre
  | _ => s

/-- The damping penalty is carried forward under the half-life that has stood (R82). -/
def State.settlePenalty (s : State) (p : Nat) : State :=
  s.modPort p (fun q => { q with penalty := s.penaltyNow p, penaltyAt := if s.penaltyNow p = 0 then 0 else s.now })

/-- Ports whose mode, negotiation or advertised modes changed (R74). -/
def State.remoded (s : State) (pre : State) : List Nat :=
  (List.range 96).filter (fun p => s.settings.get 0x0301 p != pre.settings.get 0x0301 p || s.settings.get 0x0302 p != pre.settings.get 0x0302 p)

/-- Items take effect: the settings change, then each does what it does, in payload order. -/
def State.applyItems (s : State) (bale master : Nat) (its : List Item) : State :=
  let halves := its.filter (fun it => it.id == 0x0307)
  let s00 := if its.any (fun it => it.id == 0x0607 || it.id == 0x1305) then s.settleCreation else s
  let s0 := halves.foldl (fun (s : State) (it : Item) => it.targets.foldl (fun (s : State) (t : Nat) => s.settlePenalty t) s) s00
  let s1 := { s0 with settings := putItems s0.settings master its }
  let s2 := (s1.remoded s).foldl (fun (s : State) (p : Nat) => s.remode p) s1
  its.foldl (fun (x : State) (it : Item) => it.targets.foldl (fun (x : State) (t : Nat) => s.settingEffect bale it.id t it.vals x) x) s2

end Sys2Proof.Machine
end

