-- ==== Sys2Proof/Machine/Actions.lean ====
section
/-! DEFINITION. Bale actions at add (07_bales.md, R165, R166, R171): each is checked as the bale's earlier actions leave its objects, takes
its room, and names the objects it touches and its security class. -/

namespace Sys2Proof.Machine

/-- An action that is accepted: the objects it touches, its security class (0 neutral, 1 tighten, 2 loosen), and the state with its room
taken. -/
structure Accepted where
  objs : List Nat
  sec : Nat := 0
  st : State

/-- The answer of a check: a status with its detail, or acceptance. -/
abbrev Check := Except (Nat × Nat) Accepted
/-- Refused with a status. -/
def refuse (status : Nat) : Check := .error (status, 0)

/-- A bale's room is marked by its ID. -/
def heldBy (x : Option Nat) (b : Bale) : Bool := x == some b.id

/-! ### Gate lists (R59, R60, Tables 2-7 and 16-5) -/

/-- Port, entries in the whole list, first index and count of a gate-list action. -/
def Action.gatePort (a : Action) : Nat := leAt a.data 0 1
def Action.gateTotal (a : Action) : Nat := leAt a.data 2 2
def Action.gateFirst (a : Action) : Nat := leAt a.data 4 2
def Action.gateCount (a : Action) : Nat := leAt a.data 6 2
/-- The words of a gate-list action. -/
def Action.gateWords (a : Action) : List Nat := (List.range a.gateCount).map (fun i => leAt a.data (8 + 4 * i) 4)
/-- An entry from its word (Table 2-7). -/
def gateEntry (w : Nat) : GateEntry := { start := w % 65536, opens := bits w 23 16, guarded := w.testBit 24 }
/-- Start angles strictly ascend (R59). -/
def ascending : List GateEntry → Bool
  | a :: b :: rest => decide (a.start < b.start) && ascending (b :: rest)
  | _ => true

/-- What is wrong with a gate-list action by itself. -/
def gateListStatus (a : Action) : Nat :=
  let n := a.data.length
  if a.removes then (if n = 0 ∨ 8 < n then 0x0301 else if 96 ≤ a.gatePort then 0x0302 else 0)
  else if n < 8 ∨ leAt a.data 1 1 ≠ 0 ∨ n ≠ 8 + 4 * a.gateCount then 0x0301
  else if 96 ≤ a.gatePort ∨ a.gateCount = 0 ∨ 251 < a.gateCount ∨ 256 < a.gateTotal ∨ a.gateTotal < a.gateFirst + a.gateCount then 0x0302
  else if a.gateWords.any (fun w => decide (2 ^ 25 ≤ w)) ∨ !ascending (a.gateWords.map gateEntry) then 0x0301
  else 0

/-- The start angles of two parts of one list ascend from the part of the lower index to the other (R59). -/
def gateAscends (a b : Action) : Bool :=
  let low (x : Action) : Nat := (x.gateWords.headD 0) % 65536
  let high (x : Action) : Nat := (x.gateWords.getLastD 0) % 65536
  if a.gateFirst < b.gateFirst then decide (high a < low b) else decide (high b < low a)

/-- Two actions of one port in one bale clash: they overlap, belong to different lists, or their start angles do not ascend from the one to
the other (R59, Table 16-10). -/
def gateClash (a b : Action) : Bool :=
  a.removes || b.removes || a.gateTotal != b.gateTotal || !gateAscends a b ||
    decide (a.gateFirst < b.gateFirst + b.gateCount ∧ b.gateFirst < a.gateFirst + a.gateCount)

/-- Earlier actions of a bale on an object. -/
def Bale.earlier (b : Bale) (key : Nat) : List Action := b.actions.filter (fun (a : Action) => a.touches key)

/-- Gate list set. -/
def State.checkGateList (s : State) (b : Bale) (a : Action) : Check :=
  let bad := gateListStatus a
  let key := objKey .gateList a.gatePort
  if bad ≠ 0 then refuse bad
  else if (b.earlier key).any (fun x => gateClash a x) then refuse 0x0301
  else if (Tab.find? s.sched.bankBusy a.gatePort).isSome then refuse 0x0705
  else .ok { objs := [key], st := s }

/-- The one list that the actions of a port join into; none where it is incomplete or does not ascend (Table 16-5, R59). -/
def joinedList (as : List Action) : Option (List GateEntry) :=
  if as.any (fun a => a.removes) then some []
  else
    let parts := as.mergeSort (fun x y => decide (x.gateFirst ≤ y.gateFirst))
    let ws := parts.foldl (fun (w : Option (List Nat)) (a : Action) => match w with
      | some l => if a.gateFirst = l.length then some (l ++ a.gateWords) else none
      | none => none) (some [])
    match ws, parts with
    | some l, a :: _ => let es := l.map gateEntry; if l.length = a.gateTotal ∧ ascending es then some es else none
    | _, _ => none

/-! ### Static MAC entries (R115) -/

/-- Slice mask of an action; 0 means all eight (Table 7-2). -/
def Action.mask (a : Action) : Nat := if a.scope % 256 = 0 then 255 else a.scope % 256
/-- Slices of a mask. -/
def slicesOf (mask : Nat) : List Nat := (List.range 8).filter (fun k => mask.testBit k)
/-- Key of a static entry of a slice. -/
def macObj (k vid mac : Nat) : Nat := objKey .staticMac (k * 2 ^ 60 + vid * 2 ^ 48 + mac)

/-- What is wrong with a bridge-entry action by itself (Table 5-1). -/
def macStatus (a : Action) : Nat :=
  let r := padTo 20 a.data
  let vid := leAt r 6 2
  if 20 < a.data.length ∨ a.data.length < (if a.removes then 8 else 20) ∨ 4096 ≤ vid then 0x0301
  else if vid = 0 ∨ vid = 4095 then 0x0302
  else if a.removes then 0
  else if !destClean (leAt r 8 2) ∨ 32 ≤ leAt r 10 1 ∨ leAt r 18 2 ≠ 0 then 0x0301
  else if !destExists (leAt r 8 2) then 0x0302
  else 0

/-- Entries of a slice for a key that a test accepts, with their indexes. -/
def State.macsOf (s : State) (k vid mac : Nat) (p : MacEntry → Bool) : List (Nat × MacEntry) :=
  (s.mac k).entries.filter (fun (x : Nat × MacEntry) => x.2.vid == vid && x.2.mac == mac && p x.2)

/-- Bridge entry set. DESIGN CHOICE (assumption 222): of a record that is added, the hit, stale, frozen, moves and last_seen fields are
ignored, as Table 5-1 has it of location and slice. -/
def State.checkMac (s : State) (b : Bale) (a : Action) : Check :=
  let bad := macStatus a
  let mac := beAt a.data 0 6
  let vid := leAt a.data 6 2
  let ks := slicesOf a.mask
  let objs := ks.map (fun k => macObj k vid mac)
  if bad ≠ 0 then refuse bad
  else if a.removes then .ok { objs := objs, st := s }
  else
    let e : MacEntry := { mac := mac, vid := vid, dest := leAt a.data 8 2, static := true, bale := some b.id }
    let mine (k : Nat) : List (Nat × MacEntry) := s.macsOf k vid mac (fun e => heldBy e.bale b)
    let need := ks.foldl (fun (m : Nat) (k : Nat) => if (mine k).isEmpty then m + 2 ^ k else m) 0
    match s.placeStatic need e with
    | none => refuse 0x0704
    | some s1 =>
      let again := fun (s : State) (k : Nat) => (mine k).foldl (fun (s : State) (x : Nat × MacEntry) => s.putMac k x.1 e) s
      .ok { objs := objs, st := ks.foldl again s1 }

/-! ### Match rows (R241, R245, R247, Table 10-3) -/

/-- What is wrong with a row action by itself (Table 10-2). -/
def rowStatus (a : Action) : Nat :=
  let r := padTo 104 a.data
  if 104 < a.data.length ∨ a.data.length < (if a.removes then 82 else 104) then 0x0301
  else if a.removes then 0
  else if 16 ≤ leAt r 83 1 ∨ 32 ≤ rowFlags r ∨ 4 ≤ rowAction r ∨ 4096 ≤ leAt r 96 2 ∨ leAt r 98 2 ≠ 0 ∨ !destClean (leAt r 90 2) then 0x0301
  else if 8 ≤ leAt r 92 1 ∨ (rowAction r = 3 ∧ !destExists (leAt r 90 2)) then 0x0302
  else 0

/-- A row's committed version in force. -/
def MatchRow.inForce (x : MatchRow) : Bool := x.bale.isNone && x.till.isNone

/-- The rows in force and those that open bales hold, as a bale's actions leave them: by ID, each once. Rows that the bale's own actions
remove are gone. -/
def State.rowsSeen (s : State) (b : Bale) : List Bytes :=
  let gone (x : MatchRow) : Bool := (lastOn b.actions (objKey .matchRow (rowId x.rec_))).any (fun a => a.removes)
  let own (x : MatchRow) : Bool := s.matcher.rows.any (fun (y : Nat × MatchRow) => heldBy y.2.bale b && rowId y.2.rec_ == rowId x.rec_)
  (s.matcher.rows.filter (fun (x : Nat × MatchRow) =>
    if heldBy x.2.bale b then !gone x.2 else if x.2.bale.isSome then true else x.2.till.isNone && !gone x.2 && !own x.2)).map (fun x => x.2.rec_)

/-- The row of an ID in force, as the bale's earlier actions leave it. -/
def State.rowSeen (s : State) (b : Bale) (id : Nat) : Option Bytes :=
  match lastOn b.actions (objKey .matchRow id) with
  | some a => if a.removes then none else some (padTo 104 a.data)
  | none => (List.find? (fun (x : Nat × MatchRow) => x.2.inForce && rowId x.2.rec_ == id) s.matcher.rows).map (fun x => x.2.rec_)

/-- What a row write meets in the array: 0 for nothing. -/
def State.rowConflict (s : State) (b : Bale) (a : Action) (r : Bytes) : Nat :=
  let seen := s.rowsSeen b
  let id := rowId r
  match s.rowSeen b id with
  | some old =>
    if a.verb = 0 then 0x0303 else if rowBank old ≠ rowBank r ∨ rowOrder old ≠ rowOrder r then 0x0301 else 0
  | none =>
    if a.verb = 1 then 0x0301
    else if seen.any (fun x => rowId x == id) then 0x0303
    else if seen.any (fun x => rowBank x == rowBank r && rowOrder x == rowOrder r) then 0x0401
    else if 256 - 256 / s.holeInterval ≤ (((seen.filter (fun x => rowBank x == rowBank r)).map rowId).dedup).length then 0x0405
    else 0

/-- Table 10-3. -/
def rowClass (old : Option Bytes) (removes : Bool) (r : Bytes) : Nat :=
  let was := old.any (fun x => rowAction x == 1)
  if removes then 2 else restricts was (rowAction r == 1)

/-- The bale's version of a row takes its place: the room that the bale holds for the row, or a hole next to where its order key
requires it. -/
def State.placeShadowRow (s : State) (b : Bale) (r : Bytes) : Option State :=
  let x : MatchRow := { rec_ := r, bale := some b.id }
  match List.find? (fun (y : Nat × MatchRow) => heldBy y.2.bale b && rowId y.2.rec_ == rowId r) s.matcher.rows with
  | some (i, y) => if rowBank y.rec_ = rowBank r ∧ rowOrder y.rec_ = rowOrder r then some (s.putRow i x) else (s.eraseRow i).placeRow x
  | none => s.placeRow x

/-- Match row set. -/
def State.checkRow (s : State) (b : Bale) (a : Action) : Check :=
  let r := patch (padTo 104 a.data) 100 [0, 0, 0, 0]
  let bad := rowStatus a
  let key := objKey .matchRow (rowId r)
  let old := s.rowSeen b (rowId r)
  let clash := s.rowConflict b a r
  if bad ≠ 0 then refuse bad
  else if a.removes then (if old.isNone then refuse 0x0301 else .ok { objs := [key], sec := 2, st := s })
  else if clash ≠ 0 then refuse clash
  else match s.placeShadowRow b r with
    | none => refuse 0x0704
    | some s1 => .ok { objs := [key], sec := rowClass old false r, st := s1 }

/-! ### Host flow records (R140, R154) -/

/-- What is wrong with a flow-record action by itself (Table 6-2). -/
def flowStatus (a : Action) : Nat :=
  let r := padTo 128 a.data
  if 128 < a.data.length ∨ a.data.length < (if a.removes then 40 else 128) then 0x0301
  else if leAt r 37 1 = 0 then 0x0302
  else if a.removes then 0
  else if 128 ≤ leAt r 44 4 ∨ bits (leAt r 88 4) 30 24 ≠ 0 ∨ 2 ^ 26 ≤ leAt r 92 4 ∨ leAt r 102 2 ≠ 0 then 0x0301
  else 0

/-- The record that a flow-record action gives: the fields marked RW of its state word, with the host bit, and no histogram entry. -/
def hostRec (r : Bytes) (tai : Nat) : Bytes :=
  let w := recState r
  let keep := 2 ^ 28 * b2n (w.testBit 28) + 2 ^ 24 * b2n (w.testBit 24) + 2 ^ 21 * bits w 23 21
  let st := 2 ^ 31 + 2 ^ 27 + 2 ^ 25 * b2n ((recPair r).testBit 31) + keep
  let r1 := recPut (recPut r 40 4 st) 88 4 0
  if recFirst r1 = 0 then recPut (recPut r1 48 8 tai) 56 8 tai else r1

/-- Place of the version of a key that a bale holds. -/
def State.recHeld (s : State) (key : Bytes) (b : Bale) : Option Nat :=
  (List.find? (fun (x : Nat × FlowRec) => heldBy x.2.bale b && recKey x.2.bytes == key) s.flow.records).map (·.1)

/-- Flow record set: a removal needs no room, every write takes a slot. -/
def State.checkFlow (s : State) (b : Bale) (a : Action) : Check :=
  let r := padTo 128 a.data
  let key := recKey r
  let bad := flowStatus a
  let obj := objKey .flowRecord (beNat key)
  let live := s.recInForce key
  let here : Bool := match lastOn b.actions obj with
    | some x => !x.removes
    | none => live.isSome
  let placed : Bool := match lastOn b.actions obj with
    | some x => !x.removes
    | none => live.any (fun x => recBit x.2.bytes bitHost)
  if bad ≠ 0 then refuse bad
  else if a.verb = 0 ∧ placed then refuse 0x0303
  else if a.verb ≠ 0 ∧ !here then refuse 0x0301
  else if a.removes then .ok { objs := [obj], st := s }
  else
    let x : FlowRec := { bytes := hostRec r s.tai, bale := some b.id }
    match s.recHeld key b with
    | some l => .ok { objs := [obj], st := (s.setRec l x).writeRec l }
    | none => match s.freePlace key with
      | none => refuse 0x0704
      | some l => .ok { objs := [obj], st := (s.setRec l x).writeRec l }

/-! ### Objects, switches, keys (R196, R203, R254, R265) -/

/-- Bursts of 32 bytes of the customer object region that a write touches. -/
def burstsOf (off len : Nat) : List Nat := (List.range ((off + len - 1) / 32 - off / 32 + 1)).map (fun i => off / 32 + i)

/-- Object write: the region is 64 MiB, and a byte is journal-class with its burst. -/
def State.checkObject (s : State) (b : Bale) (a : Action) : Check :=
  let off := leAt a.data 0 4
  let len := leAt a.data 4 2
  let objs := (burstsOf off len).map (objKey .region)
  if a.data.length < 8 ∨ leAt a.data 6 2 ≠ 0 ∨ (a.removes ∧ a.data.length ≠ 8) ∨ (!a.removes ∧ a.data.length ≠ 8 + len) then refuse 0x0301
  else if len = 0 ∨ 1000 < len ∨ 2 ^ 26 < off + len then refuse 0x0302
  else if !s.shadowFits b.actions objs then refuse 0x0704
  else .ok { objs := objs, st := s }

/-- Load handle of a switch. -/
def Action.handle (a : Action) : Nat := leAt a.data 0 4

/-- Pattern switch: to a loaded set (R254). -/
def State.checkPattern (s : State) (a : Action) : Check :=
  if a.data.length ≠ 4 then refuse 0x0301
  else if !(s.awn.sets.any (fun x => x.handle == a.handle && x.till.isNone)) then refuse 0x0505
  else .ok { objs := [objKey .pattern 0], st := s }

/-- Microcode switch: the shadow bank has been loaded and verified by the named load (R203). -/
def State.checkMicrocode (s : State) (a : Action) : Check :=
  if a.data.length ≠ 4 then refuse 0x0301
  else if !(s.eng.loads.any (fun x => x.handle == a.handle)) then refuse 0x0505
  else if s.eng.shadow ≠ some a.handle then refuse 0x0704
  else .ok { objs := [objKey .microcode 0], st := s }

/-- The present entry of a key ring record (Table 11-5). -/
def presentKey (r : Option Bytes) : Option Bytes := r.filter (fun x => (leAt x 2 2).testBit 0)
/-- Key `new` allows something that `old` does not (Table 11-15). -/
def widens (old new : Bytes) : Bool :=
  (List.range 32).any (fun i => (leAt new 4 4).testBit i && !(leAt old 4 4).testBit i) ||
  (List.range 64).any (fun i => (leAt new 8 8).testBit i && !(leAt old 8 8).testBit i) ||
  decide (leAt new 16 8 < leAt old 16 8 ∨ leAt old 24 8 < leAt new 24 8) || slice new 32 32 != slice old 32 32

/-- Security class of a key change: what widens loosens, what else narrows tightens (Table 11-15). -/
def keyClass (old new : Option Bytes) : Nat :=
  match old, new with
  | none, none => 0
  | none, some _ => 2
  | some _, none => 1
  | some o, some n => if widens o n then 2 else if widens n o then 1 else 0

/-- Key ring set, under an owner key (R265). -/
def State.checkKey (s : State) (b : Bale) (a : Action) : Check :=
  let r := padTo 64 a.data
  let id := leAt r 0 2
  let key := objKey .key id
  let old := presentKey (match lastOn b.actions key with
    | some x => if x.removes then none else some (padTo 64 x.data)
    | none => Tab.find? s.gate.ring id)
  if !a.owner then refuse 0x0204
  else if 64 < a.data.length ∨ a.data.length < (if a.removes then 2 else 64) ∨ 256 ≤ id then refuse 0x0301
  else if !a.removes ∧ (2 ≤ leAt r 2 2 ∨ 128 ≤ leAt r 4 4) then refuse 0x0301
  else if !s.shadowFits b.actions [key] then refuse 0x0704
  else .ok { objs := [key], sec := keyClass old (if a.removes then none else presentKey (some r)), st := s }

/-! ### The gate (R281, R282, R291) -/

/-- Object of a permit. -/
def permitObj (key seq : Nat) : Nat := objKey .permit (key * 2 ^ 64 + seq)

/-- Gate shut and Gate reopen carry no body (Table 16-5). -/
def State.checkShut (s : State) (a : Action) : Check :=
  if a.body.isEmpty then .ok { objs := [objKey .gateState 0], sec := 1, st := s } else refuse 0x0301
def State.checkReopen (s : State) (a : Action) : Check :=
  if !a.body.isEmpty then refuse 0x0301
  else match s.reopenBlocked with
    | some c => refuse c
    | none => .ok { objs := [objKey .gateState 0], sec := 2, st := s }

/-- Checks of Table 11-7 that a permit body meets at add (R291). -/
def State.permitCause (s : State) (body : Bytes) : Option Nat :=
  match s.bodyCause body with
  | some c => some c
  | none =>
    if !s.sealAny then some 21
    else if !s.signedBy body then some 18
    else if bodyType body = 1 then s.lateCause { body := body, source := 0x100 }
    else none

/-- Ledger source of an action: its mailbox outside a bale, the bale inside one (Table 11-12). -/
def Bale.source (b : Bale) (a : Action) : Nat := if b.single then 0x100 + a.mb else 0x200

/-- The body of a Permit submit is refused at add with a cause: checks 1 to 5 join the aggregate of their source, later ones get a record of
their own (R267, R286). -/
def State.noteRefused (s : State) (b : Bale) (a : Action) (e : Nat × Nat) : State :=
  if a.op ≠ 0x0609 ∨ e.1 ≠ 0x0603 then s
  else if (s.bodyCause a.body).isSome ∨ e.2 = 7 then (s.aggregate (b.source a) e.2).refuseBody a.body e.2
  else (s.permitRecord a.body (b.source a) 2 e.2).refuseBody a.body e.2

/-- Permit submit: its entry takes a slot of the permit table (Table 7-3). -/
def State.checkPermit (s : State) (b : Bale) (a : Action) : Check :=
  let objs := [permitObj (bodyKey a.body) (bodySeq a.body)] ++ (if bodyType a.body = 1 then [] else [objKey .gateState 0])
  match s.permitCause a.body with
  | some c => .error (0x0603, c)
  | none =>
    if b.actions.any (fun (x : Action) => x.op == 0x0609 && bodyKey x.body == bodyKey a.body && bodySeq x.body == bodySeq a.body) then .error (0x0603, 7)
    else if bodyType a.body ≠ 1 then .ok { objs := objs, sec := if bodyType a.body = 2 then 1 else 2, st := s }
    else match s.permitSlot (bodySelector a.body) with
      | none => refuse 0x0704
      | some i =>
        let e : PermitEntry := { bytes := entryOf a.body 0x200, bale := some b.id }
        .ok { objs := objs, sec := 2, st := s.putPermit i e }

/-- Key ID, flag and sequence of a revoke. -/
def Action.revKey (a : Action) : Nat := leAt a.data 0 2
def Action.revAll (a : Action) : Bool := (leAt a.data 2 2).testBit 0
def Action.revSeq (a : Action) : Nat := leAt a.data 8 8
/-- A revoke names an entry. -/
def Action.revokes (a : Action) (e : PermitEntry) : Bool :=
  e.inForce && entryKey e.bytes == a.revKey && (a.revAll || entrySeq e.bytes == a.revSeq)

/-- Permit revoke: the entries that it names, and their key's revocation as a whole when it names all. -/
def State.checkRevoke (s : State) (a : Action) : Check :=
  if a.data.length ≠ 16 ∨ 2 ≤ leAt a.data 2 2 ∨ leAt a.data 4 4 ≠ 0 then refuse 0x0301
  else
    let held := (Tab.values s.gate.permits).filter a.revokes
    let objs := if a.revAll then permitObj a.revKey 0 :: held.map (fun e => permitObj a.revKey (entrySeq e.bytes)) else [permitObj a.revKey a.revSeq]
    .ok { objs := objs, sec := 1, st := s }

/-! ### Settings (R384, R385) -/

/-- Items of a settings action. -/
def Action.items (a : Action) : List Item :=
  match parseItems a.op a.expert a.owner a.body with
  | .ok its => its
  | .error _ => []

/-- The settings as the earlier settings actions of a bale leave them. -/
def State.viewSettings (s : State) (b : Bale) : Settings :=
  (b.actions.filter (fun (a : Action) => isSettings a.op)).foldl (fun (t : Settings) (a : Action) => putItems t b.master a.items) s.settings

/-- Objects of an item: its setting of each target. -/
def itemObj (master : Nat) (it : Item) (t : Nat) : Nat := objKey .setting (it.id * 65536 + heldIndex it.id t master)
def itemObjs (master : Nat) (it : Item) : List Nat := it.targets.map (itemObj master it)

/-- A settings command. -/
def State.checkSettings (s : State) (b : Bale) (a : Action) : Check :=
  match parseItems a.op a.expert a.owner a.body with
  | .error e => .error e
  | .ok its => match s.itemsBlocked (putItems (s.viewSettings b) b.master its) its with
    | some e => .error e
    | none => .ok { objs := (its.flatMap (itemObjs b.master)).dedup, st := s }

/-! ### Every action -/

/-- Commands of use B (Table 16-6), whose bodies begin with an op header (R387). -/
def isRecordOp (op : Nat) : Bool :=
  [0x0306, 0x0307, 0x0407, 0x0408, 0x0409, 0x040A, 0x040B, 0x040C, 0x040D, 0x040E, 0x040F, 0x0501, 0x0502, 0x0506, 0x0508, 0x0509, 0x050A,
   0x050B, 0x0601, 0x0602, 0x060A, 0x0B03].contains op

/-- The op header is in order (R387). -/
def opHeaderOk (a : Action) : Bool := decide (4 ≤ a.body.length ∧ a.verb ≤ 2) && leAt a.body 1 3 == 0

/-- An action of use B whose op header is in order. -/
def State.checkBody (s : State) (b : Bale) (a : Action) : Check :=
  match a.op with
  | 0x0306 => s.checkGateList b a
  | 0x0407 => s.checkMac b a
  | 0x040E => s.checkRow b a
  | 0x0502 => s.checkFlow b a
  | 0x0506 => s.checkObject b a
  | 0x0508 => s.checkPattern a
  | 0x0602 => s.checkKey b a
  | 0x060A => s.checkRevoke a
  | 0x0B03 => s.checkMicrocode a
  | _ => match recForm a.op a.data with
    | none => refuse 0x0304
    | some f => match s.checkRecord b.actions a f with
      | .error e => refuse e
      | .ok (key, sec) => .ok { objs := [key], sec := sec, st := s }

/-- An object of the action has a superseded version that is not yet reclaimed (R171). -/
def State.actionBusy (s : State) (a : Action) : Bool :=
  match a.op with
  | 0x0407 => (slicesOf a.mask).any (fun k => !(s.macsOf k (leAt a.data 6 2) (beAt a.data 0 6) (fun e => e.static && e.till.isSome)).isEmpty)
  | 0x040E => s.matcher.rows.any (fun (x : Nat × MatchRow) => x.2.till.isSome && rowId x.2.rec_ == leAt a.data 80 2)
  | 0x0502 => s.flow.records.any (fun (x : Nat × FlowRec) => recKey x.2.bytes == recKey a.data && (x.2.till.isSome || x.2.old.isSome || x.2.due.isSome))
  | 0x0506 =>
    let busy (i : Nat) : Bool := (Tab.get [] s.eng.objects i).getLast?.any (fun v => decide (s.bales.drained < v.1))
    (burstsOf (leAt a.data 0 4) (leAt a.data 4 2)).any (fun k => (List.range 32).any (fun i => busy (32 * k + i)))
  | 0x0508 => s.awn.sets.any (fun x => x.till.any (fun t => decide (s.bales.drained ≤ t)))
  | 0x0602 => s.verBusy (objKey .key (leAt a.data 0 2))
  | _ => match recForm a.op a.data with
    | some f => s.verBusy (recObj f.kind (padTo f.full a.data))
    | none => false

/-- The checks of an action by itself. Commands that no bale may carry are refused (R386). -/
def State.checkForm (s : State) (b : Bale) (a : Action) : Check :=
  if 256 ≤ a.scope then refuse 0x0301
  else if isRecordOp a.op then (if opHeaderOk a then s.checkBody b a else refuse 0x0301)
  else if a.op = 0x0607 then s.checkShut a
  else if a.op = 0x0608 then s.checkReopen a
  else if a.op = 0x0609 then s.checkPermit b a
  else if isSettings a.op then s.checkSettings b a
  else refuse 0x0304

/-- An action at add (R166): refused, or accepted with its room taken. -/
def State.checkAction (s : State) (b : Bale) (a : Action) : Check :=
  match s.checkForm b a with
  | .error e => .error e
  | .ok x => if s.actionBusy a then refuse 0x0705 else .ok x

end Sys2Proof.Machine
end

