-- ==== Sys2Proof/Machine/Commit.lean ====
section
/-! DEFINITION. What a commit checks again (R173, R174), how a bale's actions take effect at its tick (R171, R175), how a bale's room is
released, and what is reclaimed when epochs drain (R176). -/

namespace Sys2Proof.Machine

/-! ### Checks at commit -/

/-- Version of an object (R173). -/
def State.versionOf (s : State) (key : Nat) : Nat := Tab.get 0 s.bales.versions key
/-- A bale committed after the add has touched an object of the action (R173). -/
def State.outdated (s : State) (a : Action) : Bool := a.objs.any (fun o => s.versionOf o.1 != o.2)

/-- The settings as a bale's actions before index `i` leave them. -/
def Bale.before (b : Bale) (i : Nat) : Bale := { b with actions := b.actions.take i }

/-- What a permit body placed by bale must still meet (R269, R281). -/
def State.permitStale (s : State) (body : Bytes) : Nat :=
  if !s.bodyKeyOk body ∨ !(s.windowOf (bodyKey body)).passes (bodySeq body) then 0x0603
  else if bodyType body ≠ 3 then (if s.gate.isShut then 0x0603 else 0)
  else s.reopenBlocked.getD 0

/-- The room and the state that an action needs, looked at again (R174): the status of a refusal, or 0. -/
def State.recheckAction (s : State) (b : Bale) (i : Nat) (a : Action) : Nat :=
  if a.op = 0x0306 then
    let key := objKey .gateList a.gatePort
    if (Tab.find? s.sched.bankBusy a.gatePort).isSome then 0x0704
    else if !((b.actions.take i).any (fun x => x.touches key)) ∧ (joinedList (b.earlier key)).isNone then 0x0301
    else 0
  else if a.op = 0x0608 then s.reopenBlocked.getD 0
  else if a.op = 0x0609 then s.permitStale a.body
  else if a.op = 0x0B03 then (if s.eng.shadow = some a.handle then 0 else 0x0704)
  else if isSettings a.op then
    match s.itemsBlocked (putItems (s.viewSettings (b.before i)) b.master a.items) a.items with
    | some e => e.1
    | none => 0
  else if s.actionBusy a then 0x0704
  else match recForm a.op a.data with
    | some f => s.recordConflict (b.actions.take i) f.kind a.removes (padTo f.full a.data)
    | none => 0

/-- The first refusal that a commit or its tick meets: its status and the index of the action concerned (R172 to R174). A state change whose
owner key has been replaced since meets 0x0203 (Table 18-13). -/
def State.recheck (s : State) (b : Bale) : Option (Nat × Nat) :=
  let acts : List (Action × Nat) := b.actions.zipIdx
  if b.lost then some (0x070A, 0)
  else if b.signer.any (fun x => (s.keyOf x.1).all (fun k => k.pub != x.2)) then some (0x0203, 0)
  else match acts.find? (fun (x : Action × Nat) => s.outdated x.1) with
    | some x => some (0x0706, x.2)
    | none => acts.findSome? (fun (x : Action × Nat) =>
        let st := s.recheckAction b x.2 x.1
        if st = 0 then none else some (st, x.2))

/-! ### Effects at the tick -/

/-- No later action of the bale touches the object: the object takes effect as this one leaves it (R171). -/
def Bale.isLast (b : Bale) (i key : Nat) : Bool := !((b.actions.drop (i + 1)).any (fun (a : Action) => a.touches key))

/-- The items of a settings action for the targets that no later action of the bale sets (R171). -/
def Bale.lastItems (b : Bale) (i : Nat) (a : Action) : List Item :=
  (a.items.map (fun it => { it with targets := it.targets.filter (fun t => b.isLast i (itemObj b.master it t)) })).filter
    (fun it => !it.targets.isEmpty)

/-- A port's list goes into its inactive bank, which the epoch selects (R60). -/
def State.commitGateList (s : State) (e p : Nat) (l : List GateEntry) : State :=
  let cur := (verNow (Tab.get [] s.sched.bankSel p)).getD 0
  let new := 1 - cur
  { s with sched := { s.sched with
      banks := Tab.put [] s.sched.banks (2 * p + new) l
      bankSel := Tab.put [] s.sched.bankSel p (verPut (Tab.get [] s.sched.bankSel p) e (some new))
      bankBusy := Tab.insert s.sched.bankBusy p s.now } }

/-- A static entry of one slice: the version in force ends, the bale's version begins, and it replaces a learned entry (R115). -/
def State.commitMac (s : State) (e : Nat) (b : Bale) (k vid mac : Nat) (removes : Bool) : State :=
  let one (x : Nat × MacEntry) : Option (Nat × MacEntry) :=
    if x.2.vid ≠ vid ∨ x.2.mac ≠ mac then some x
    else if heldBy x.2.bale b then (if removes then none else some (x.1, { x.2 with bale := none, from_ := e }))
    else if x.2.bale.isSome ∨ x.2.till.isSome then some x
    else if x.2.static then some (x.1, { x.2 with till := some (e - 1) })
    else if removes then some x else none
  s.setMac k { s.mac k with entries := (s.mac k).entries.filterMap one, lost := (s.mac k).lost.filterMap one }

/-- A match row (R247). -/
def State.commitRow (s : State) (e : Nat) (b : Bale) (id : Nat) (removes : Bool) : State :=
  let one (x : Nat × MatchRow) : Option (Nat × MatchRow) :=
    if rowId x.2.rec_ ≠ id then some x
    else if heldBy x.2.bale b then (if removes then none else some (x.1, { x.2 with bale := none, from_ := e }))
    else if x.2.inForce then some (x.1, { x.2 with till := some (e - 1) })
    else some x
  { s with matcher := { s.matcher with rows := s.matcher.rows.filterMap one } }

/-- Bytes of the customer object region; removed ones read 0 (R196). -/
def State.commitObject (s : State) (e : Nat) (a : Action) : State :=
  let off := leAt a.data 0 4
  let put (t : Tab (Ver Byte)) (i : Nat) : Tab (Ver Byte) :=
    let x : Option Byte := if a.removes then none else some (a.data.getD (8 + i) 0)
    Tab.put [] t (off + i) (verPut (Tab.get [] t (off + i)) e x)
  { s with eng := { s.eng with objects := (List.range (leAt a.data 4 2)).foldl put s.eng.objects } }

/-- The epoch uses the switched pattern set; the set before it was used up to the epoch before (R254). -/
def State.commitPattern (s : State) (e handle : Nat) : State :=
  let one (x : PatternSet) : PatternSet :=
    if x.handle = handle then (if x.from_.isNone then { x with from_ := some e } else x)
    else if x.from_.isSome ∧ x.till.isNone then { x with till := some (e - 1) }
    else x
  { s with awn := { s.awn with sets := s.awn.sets.map one } }

/-- The epoch selects the other control-store bank, and the old bank is busy until its epoch drains (R190, R203, R204). A patch set is
in force, and measured, from here on (R417, R421). -/
def State.commitMicrocode (s : State) (e handle : Nat) : State :=
  let cur := (verNow s.eng.bankSel).getD 0
  let patch := (s.eng.loads.find? (fun x => x.handle == handle)).filter (fun x => x.kind == 2)
  let s1 : State := { s with eng := { s.eng with
      bankSel := verPut s.eng.bankSel e (some (1 - cur))
      oldBank := some e
      shadow := none
      patchSv := (patch.map (·.sv)).getD s.eng.patchSv
      patchBuild := (patch.map (·.build)).getD s.eng.patchBuild } }
  match patch with
  | some x => s1.measure 3 x.digest s.trust.running x.sv 0 x.build
  | none => s1

/-- The key ring as the ledger digests it: its present entries in key order (Table 11-12). -/
def State.ringBytes (s : State) : Bytes := (s.gate.ring.map (fun (x : Nat × Bytes) => x.2)).flatten

/-- A key-ring entry, with its ledger record (R265, R286). -/
def State.commitKey (s : State) (e : Nat) (a : Action) : State :=
  let id := leAt a.data 0 2
  let new := if a.removes then none else presentKey (some (padTo 64 a.data))
  let ring := match new with | some r => Tab.insert s.gate.ring id r | none => Tab.erase s.gate.ring id
  let s0 : State := { s with gate := { s.gate with ring := ring } }
  let s1 := (s0.putObj (objKey .key id) e new).rekeyPermits id (s.keyOf id) (s0.keyOf id)
  s1.record { type := 7, source := 0x200, key := a.key, digest := (sha512 s1.ringBytes).take 32 }

/-- The place that a bale holds for a permit body. -/
def State.balePermit (s : State) (b : Bale) (p : Bytes) : Option (Nat × PermitEntry) :=
  List.find? (fun (x : Nat × PermitEntry) => heldBy x.2.bale b && entryKey x.2.bytes == bodyKey p && entrySeq x.2.bytes == bodySeq p) s.gate.permits

/-- A permit placed by bale waits in its place until the present twin has reserved its key ID and sequence (R283). -/
def State.reserveBalePermit (s : State) (b : Bale) (p : Bytes) : State :=
  match s.balePermit b p with
  | none => s
  | some (i, x) =>
    let s1 := s.putPermit i { x with bale := none, waits := true }
    let j : Intake := { body := p, source := 0x200, at_ := s.now }
    State.advanceIntake { s1 with gate := { s1.gate with waiting := s1.gate.waiting ++ [j] } }

/-- A permit body placed by bale: its sequence is accepted, and the permit, shut or reopen takes effect (R269, R283, R291); with the twin
present a permit waits for its reservation. -/
def State.commitPermit (s : State) (b : Bale) (i : Nat) (a : Action) : State :=
  let p := a.body
  if bodyType p = 1 ∧ s.sheaf.twin = 1 then s.reserveBalePermit b p
  else
  let s1 := (s.takeSeq (bodyKey p) (bodySeq p)).permitRecord p 0x200 1 0
  if bodyType p ≠ 1 ∧ !b.isLast i (objKey .gateState 0) then s1
  else if bodyType p = 2 then (if s1.gate.isShut then s1 else s1.shutGate 11 0x200 (bodyKey p))
  else if bodyType p = 3 then (if s1.gate.isShut then s1.openGate 0x200 (bodyKey p) else s1)
  else
    match s1.balePermit b p with
    | none => s1
    | some (i, x) => ((s1.putPermit i { x with bale := none }).unspend p).relookupSel (bodySelector p)

/-- A record stands in its table from the bale's epoch; a pool's FIFO follows its addresses, and a window's counts begin anew. -/
def State.commitRecord (s : State) (e : Nat) (a : Action) (f : RecForm) : State :=
  let r := padTo f.full a.data
  let key := recObj f.kind r
  let s1 := s.putObj key e a.record
  match f.kind with
  | .window =>
    { s1 with sched := { s1.sched with windowUse := s1.sched.windowUse.filter (fun (x : Nat × WindowUse) => x.1 % 4096 != leAt r 0 2) } }
  | .transPool =>
    let n := leAt r 0 2
    let a := s.alloc n
    match s.poolConf n e, s1.poolConf n e with
    | some x, some y => s1.setAlloc n (a.become x y)
    | _, _ => s1.setAlloc n { refused := a.refused }
  | .flowProfile =>
    let n := leAt r 0 1
    { s1 with flow := { s1.flow with profiles := Tab.put {} s1.flow.profiles n (s.profileBucket n (s.profile n (e - 1)).rate) } }
  | _ => s1

/-- A bale's action on a host record goes to the sequencer with the stamp of its tick: it acts at once, or behind the earlier operations on the
key, while its version keeps its slot (R148, R154). -/
def State.issueCommit (s : State) (e : Nat) (b : Bale) (key : Bytes) (removes : Bool) : State :=
  let held := s.recHeld key b
  if !s.flow.ops.any (fun o => o.key == key) ∧ !s.flow.visits.any (fun v => v.key == key) then s.commitFlow e held key removes
  else
    let s1 := match held, held.bind s.recAt with
      | some h, some r => s.setRec h { r with bale := none, due := some e }
      | _, _ => s
    { s1 with flow := { s1.flow with visits := s1.flow.visits ++ [{ key := key, loc := 0, stamp := s.angle, kind := .commit e removes }] } }

/-- One action takes effect at epoch `e`. -/
def State.applyAction (s : State) (e : Nat) (b : Bale) (i : Nat) (a : Action) : State :=
  let last (key : Nat) : Bool := b.isLast i key
  match a.op with
  | 0x0306 =>
    let key := objKey .gateList a.gatePort
    if last key then s.commitGateList e a.gatePort ((joinedList (b.earlier key)).getD []) else s
  | 0x0407 =>
    let mac := beAt a.data 0 6
    let vid := leAt a.data 6 2
    (slicesOf a.mask).foldl (fun (s : State) (k : Nat) => if last (macObj k vid mac) then s.commitMac e b k vid mac a.removes else s) s
  | 0x040E =>
    let id := leAt a.data 80 2
    if last (objKey .matchRow id) then s.commitRow e b id a.removes else s
  | 0x0502 => if last (objKey .flowRecord (beNat (recKey a.data))) then s.issueCommit e b (recKey a.data) a.removes else s
  | 0x0506 => s.commitObject e a
  | 0x0508 => if last (objKey .pattern 0) then s.commitPattern e a.handle else s
  | 0x0602 => if last (objKey .key (leAt a.data 0 2)) then s.commitKey e a else s
  | 0x0607 => if last (objKey .gateState 0) then s.shutGate 11 (b.source a) a.key else s
  | 0x0608 => if last (objKey .gateState 0) ∧ s.gate.isShut then s.openGate (b.source a) a.key else s
  | 0x0609 => s.commitPermit b i a
  | 0x060A => s.dropPermits a.revokes
  | 0x0B03 => if last (objKey .microcode 0) then s.commitMicrocode e a.handle else s
  | _ => match recForm a.op a.data with
    | some f => s.commitRecord e a f
    | none => s.applyItems b.id b.master (b.lastItems i a)

/-- The slots of a load-balancing group are dealt for its members of epoch `e` (R213). -/
def State.dealGroup (s : State) (e g : Nat) : State :=
  let ws : List (Nat × Nat) := (List.range 64).filterMap (fun m => (s.member g m e).bind (fun x => if x.state = 0 then some (m, x.weight) else none))
  let slots := lbLevel ws 1024 (lbRedeal ws (s.lbSlotsAt g e))
  { s with svc := { s.svc with lbSlots := Tab.put [] s.svc.lbSlots g (verPut (Tab.get [] s.svc.lbSlots g) e (some slots)) } }

/-- The slots of an aggregation group that the host has built are dealt round-robin from epoch `e` on, and packets of older epochs keep those
before; what waited for a slot's move goes on to the port that it has (R27, R30, R131, Table 7-3). -/
def State.buildLag (s : State) (e g : Nat) : State :=
  let l := s.lag g
  let s1 := s.setLag g { l with slots := dealSlots (s.dealers g), moves := [], undrained := 0, gen := l.gen + 1, was := some (e, l.slots) }
  { s1 with packets := s1.packets.map (fun x =>
      if x.2.stage = .moveHold ∧ x.2.lagSlot.any (fun v => v / 256 == g) then (x.1, { x.2 with stage := .step7 }) else x) }

/-- Groups of some kinds that a bale touches. -/
def Bale.groups (b : Bale) (ks : List ObjKind) (f : Nat → Nat) : List Nat :=
  ((b.objects.filter (fun o => ks.any (fun k => objNum o == k.num))).map (fun o => f (objIdx o))).dedup

/-- A bale takes effect as one at epoch `e` (R171, R173, R175). -/
def State.applyBale (s : State) (e : Nat) (b : Bale) : State :=
  let s1 := b.actions.zipIdx.foldl (fun (s : State) (x : Action × Nat) => s.applyAction e b x.2 x.1) s
  let lbs := ((b.objects.filter (fun o => objNum o == ObjKind.lbMember.num)).map (fun o => objIdx o / 64)).dedup
  let s2 := lbs.foldl (fun (s : State) (g : Nat) => s.dealGroup e g) s1
  let s3 := (b.groups [.lag] id).foldl (fun (s : State) (g : Nat) => s.buildLag e g) s2
  let bump (t : Tab Nat) (key : Nat) : Tab Nat := Tab.put 0 t key ((Tab.get 0 t key + 1) % 2 ^ 32)
  { s3 with bales := { s3.bales with versions := b.objects.foldl bump s3.bales.versions } }

/-! ### The end of a bale -/

/-- Puts a bale. -/
def State.putBale (s : State) (b : Bale) : State :=
  { s with bales := { s.bales with list := s.bales.list.map (fun (x : Bale) => if x.id = b.id then b else x) } }

/-- Everything that a bale still holds becomes free (R167, R174). -/
def State.releaseRoom (s : State) (b : Bale) : State :=
  let free {α : Type} (f : α → Option Nat) (t : Tab α) : Tab α := t.filter (fun (x : Nat × α) => !heldBy (f x.2) b)
  let s1 := (List.range 8).foldl (fun (s : State) (k : Nat) => s.setMac k { s.mac k with
    entries := free MacEntry.bale (s.mac k).entries, lost := free MacEntry.bale (s.mac k).lost }) s
  ({ s1 with
    matcher := { s1.matcher with rows := free MatchRow.bale s1.matcher.rows }
    flow := { s1.flow with records := free FlowRec.bale s1.flow.records } }).settleSpacing.dropPermits (fun e => heldBy e.bale b)

/-- A bale ends: committed, refused or aborted (Table 7-1). -/
def State.endBale (s : State) (b : Bale) (st : BaleState) (status first tick : Nat) : State :=
  (s.releaseRoom b).putBale { b with st := st, status := status, firstBad := first, tick := tick }

/-! ### Reclamation (R176) -/

/-- Versions that no epoch from `d` on selects are freed. -/
def reclaimTab {α : Type} (d : Nat) (t : Tab (Ver α)) : Tab (Ver α) :=
  (t.map (fun (x : Nat × Ver α) => (x.1, verReclaim x.2 d))).filter (fun (x : Nat × Ver α) => !x.2.isEmpty)

/-- A superseded version ended before epoch `d`. -/
def ended (d : Nat) (till : Option Nat) : Bool := till.any (fun t => decide (t < d))

/-- Host records that a bale removed leave the table, with their reason (Table 9-4); older versions of versioned fields are freed. -/
def State.reclaimRecords (s : State) (d : Nat) : State :=
  let gone := Tab.keys (s.flow.records.filter (fun (x : Nat × FlowRec) => ended d x.2.till))
  let s1 := gone.foldl (fun (s : State) (l : Nat) => s.removeRec l 4) s
  let one (r : FlowRec) : FlowRec := if ended d (r.old.map (·.1)) then { r with old := none } else r
  { s1 with flow := { s1.flow with
    records := (s1.flow.records.filter (fun (x : Nat × FlowRec) => !ended d x.2.husk)).map (fun (x : Nat × FlowRec) => (x.1, one x.2)) } }

/-- Every epoch below `d` is drained: what bales superseded is reclaimed. -/
def State.reclaim (s : State) (d : Nat) : State :=
  let s1 := (List.range 8).foldl (fun (s : State) (k : Nat) =>
    s.setMac k { s.mac k with
      entries := (s.mac k).entries.filter (fun (x : Nat × MacEntry) => !ended d x.2.till)
      lost := (s.mac k).lost.filter (fun (x : Nat × MacEntry) => !ended d x.2.till) }) s
  let s2 := s1.reclaimRecords d
  State.settleSpacing { s2 with
    bales := { s2.bales with objects := reclaimTab d s2.bales.objects, drained := d, drainedTo := max d s2.bales.drainedTo }
    bridge := { s2.bridge with lags := s2.bridge.lags.map (fun x => (x.1, { x.2 with was := x.2.was.filter (fun w => decide (d < w.1)) })) }
    matcher := { s2.matcher with rows := s2.matcher.rows.filter (fun (x : Nat × MatchRow) => !ended d x.2.till) }
    svc := { s2.svc with lbSlots := reclaimTab d s2.svc.lbSlots }
    sched := { s2.sched with bankSel := reclaimTab d s2.sched.bankSel }
    eng := { s2.eng with
      bankSel := verReclaim s2.eng.bankSel d
      oldBank := s2.eng.oldBank.filter (fun e => decide (d < e))
      objects := reclaimTab d s2.eng.objects } }

end Sys2Proof.Machine
end

