-- ==== Sys2Proof/Machine/Bales.lean ====
section
/-! DEFINITION. Configuration bales (07_bales.md, R163 to R177, R381): their commands, commit ticks, and the draining of epochs. -/

namespace Sys2Proof.Machine

/-! ### Opening and adding (R164 to R166) -/

/-- A bale that commands can name: its ID and its master are right (R164). -/
def State.namedBale (s : State) (id master : Nat) : Option Bale :=
  s.bales.list.find? (fun b => b.id == id && b.master == master && !b.single)

/-- Open and pending bales of a master; a bale of one state change does not count (R164, R381). -/
def State.balesHeld (s : State) (master : Nat) : Nat := (s.liveBales.filter (fun b => b.master == master && !b.single)).length

/-- Every bale ID of 32 bits has been issued since reset (R164). DESIGN CHOICE (assumption 225): a bale that would need another is refused
as beyond the limit. -/
def State.idsSpent (s : State) : Bool := decide (2 ^ 32 ≤ s.bales.next)

/-- The next bale of a mailbox. -/
def State.freshBale (s : State) (mb : Nat) (single : Bool) : Bale :=
  { id := s.bales.next, master := masterOf mb, mb := mb, st := .opened, single := single, touched := s.now }
/-- A bale joins those of the device, and its ID is not issued again. -/
def State.joinBale (s : State) (b : Bale) : State :=
  { s with bales := { s.bales with list := s.bales.list ++ [b], next := s.bales.next + 1 } }

/-- The action of a request, with the key that signed it. -/
def actionOf (r : Request) (op : Nat) (key : Option Nat) : Action :=
  { code := reqCode r op, scope := r.scope, body := r.payload, owner := key.any (fun k => decide (0xFF00 ≤ k)), key := key.getD 0xFFFF, mb := r.mb.val }

/-- An accepted action with its objects, their versions, and its security class (R166). -/
def State.recorded (s : State) (a : Action) (x : Accepted) : Action :=
  { a with objs := x.objs.map (fun o => (o, s.versionOf o)), sec := x.sec }

/-- An add (R165, R166): a refusal leaves the bale open with its earlier actions. -/
def State.addAction (s : State) (r : Request) (op cls : Nat) (key : Option Nat) : Ans × State :=
  match (s.namedBale r.bale (masterOf r.mb)).filter (fun b => b.st == .opened) with
  | none => ({ status := 0x0701 }, s)
  | some b0 =>
    let b := { b0 with touched := s.now }
    let s1 := s.putBale b
    let a := actionOf r op key
    if 1016 < a.body.length then ({ status := 0x0104 }, s1)
    else if 16384 ≤ b.actions.length ∨ 2 ^ 24 < (b.actions.map (·.size)).sum + a.size then ({ status := 0x0703 }, s1)
    else match s1.checkAction b a with
      | .error e => ({ status := e.1, detail := e.2 }, s1.noteRefused b a e)
      | .ok x =>
        let b2 := { b with actions := b.actions ++ [s.recorded a x], cls := max b.cls (effClass op cls r.expert) }
        ({ resp := natLe 4 b.actions.length }, x.st.putBale b2)

/-! ### Arming (R168, R169, R381) -/

/-- A bale is armed: it waits for its tick, or for the first tick when it states no time. -/
def State.arm (s : State) (b : Bale) (due : Option Nat) : State :=
  let s1 := s.putBale { b with st := .pending, due := due, armed := s.bales.arm, armedAt := s.now }
  { s1 with bales := { s1.bales with arm := s.bales.arm + 1 } }

/-- An owner key that signed a state change, with its public key (R415). -/
def State.signerOf (s : State) (key : Option Nat) : Option (Nat × Bytes) :=
  (key.filter (fun k => decide (0xFF00 ≤ k))).bind (fun k => (s.keyOf k).map (fun x => (k, x.pub)))

/-- One state change outside a bale: a bale of that action alone, committed immediately (R381); its request is answered at the tick. -/
def State.change (s : State) (r : Request) (op : Nat) (key : Option Nat) : Ans × State :=
  let b := s.freshBale r.mb true
  let a := actionOf r op key
  if s.idsSpent then ({ status := 0x0702 }, s) else
  match s.checkAction b a with
  | .error e => ({ status := e.1, detail := e.2 }, s.noteRefused b a e)
  | .ok x =>
    let b1 := { b with actions := [s.recorded a x], signer := s.signerOf key }
    ({ later := [(0, b.id)] }, (x.st.joinBale b1).arm b1 none)

/-- A state change: an add where the header names a bale, else a change of its own (R164, R381). -/
def State.changeReq (s : State) (op cls : Nat) (r : Request) : State :=
  s.request op cls false r (fun key s => if r.bale ≠ 0 then s.addAction r op cls key else s.change r op key)

/-- A bale action, which is refused outside a bale (R386). -/
def State.baleReq (s : State) (op cls : Nat) (r : Request) : State :=
  s.request op cls false r (fun key s => if r.bale ≠ 0 then s.addAction r op cls key else ({ status := 0x0304 }, s))

/-- A direct command, which is refused in a bale (R386). -/
def State.directReq (s : State) (op cls : Nat) (r : Request) (run : Option Nat → State → Ans × State) : State :=
  s.request op cls false r (fun key s => if r.bale ≠ 0 then ({ status := 0x0304 }, s) else run key s)

/-! ### Commands of bales -/

/-- BALE_OPEN (R164). -/
def execBaleOpen (r : Request) (s : State) : Res :=
  done (s.directReq 0x0701 1 r (fun _ s =>
    if !r.payload.isEmpty then ({ status := 0x0301 }, s)
    else if s.sn 0x0701 ≤ s.balesHeld (masterOf r.mb) ∨ s.idsSpent then ({ status := 0x0702 }, s)
    else
      let b := s.freshBale r.mb false
      ({ resp := natLe 4 b.id }, s.joinBale b)))

/-- A bale is refused at its commit: its room is released, and the answer names the action concerned (R174). -/
def State.refuseBale (s : State) (b : Bale) (status first : Nat) : Ans × State :=
  ({ status := status, detail := first }, s.endBale b .refused status first 0)

/-- A commit (R168, R169, R173, R174): a time beyond the horizon leaves the bale open. -/
def State.commitBale (s : State) (r : Request) : Ans × State :=
  let p := r.payload
  let stated := leAt p 4 1 == 1
  let late := leAt p 5 1 == 1
  let due := leAt p 8 8 * 65536 + leAt p 6 2
  if p.length ≠ 16 ∨ 2 ≤ leAt p 4 1 ∨ 2 ≤ leAt p 5 1 then ({ status := 0x0301 }, s)
  else match (s.namedBale (leAt p 0 4) (masterOf r.mb)).filter (fun b => b.st == .opened) with
    | none => ({ status := 0x0701 }, s)
    | some b =>
      if stated ∧ s.angle / 65536 + 2 ^ 24 < leAt p 8 8 then ({ status := 0x070B }, s.putBale { b with touched := s.now })
      else match s.recheck b with
        | some (st, i) => s.refuseBale b st i
        | none =>
          if stated ∧ due ≤ s.angle ∧ !late then s.refuseBale b 0x0708 0
          else ({ later := [(0, b.id)] }, s.arm b (if stated ∧ s.angle < due then some due else none))

/-- BALE_COMMIT: the header carries the bale's class (R386). -/
def execBaleCommit (r : Request) (s : State) : Res :=
  let cls := ((s.namedBale (leAt r.payload 0 4) (masterOf r.mb)).map (·.cls)).getD 1
  done (s.directReq 0x0702 cls r (fun _ s => s.commitBale r))

/-- A pending bale's tick is less than 10 µs away, or 18,000 core clocks (R167). -/
def State.tooLate (s : State) (b : Bale) : Bool :=
  match b.due with
  | none => true
  | some d => decide ((d - s.angle) * 2 ^ 40 < 18000 * s.advance.1)

/-- BALE_ABORT (R167, Table 7-4): a pending bale's commit returns "no such bale"; an abort in the clock of the arming is taken first. -/
def execBaleAbort (r : Request) (s : State) : Res :=
  done (s.directReq 0x0703 1 r (fun _ s =>
    if r.payload.length ≠ 4 then ({ status := 0x0301 }, s)
    else match (s.namedBale (leAt r.payload 0 4) (masterOf r.mb)).filter (·.live) with
      | none => ({ status := 0x0701 }, s)
      | some b =>
        if b.st = .pending ∧ b.armedAt ≠ s.now ∧ s.tooLate b then ({ status := 0x0709 }, s)
        else ({}, (s.endBale b .aborted 0 0 0).endLong 0 b.id 0x0701 0 [] 0)))

/-- Code of a bale state (Table 7-1). -/
def BaleState.code : BaleState → Nat
  | .opened => 1
  | .pending => 2
  | .committed => 3
  | .refused => 4
  | .aborted => 5

/-- BALE_STATUS (R163, R167): it keeps an open bale from expiring. -/
def execBaleStatus (r : Request) (s : State) : Res :=
  done (s.request 0x0704 0 true r (fun _ s =>
    if r.bale ≠ 0 then ({ status := 0x0304 }, s)
    else if r.payload.length ≠ 4 then ({ status := 0x0301 }, s)
    else match s.bales.list.find? (fun b => b.id == leAt r.payload 0 4 && !b.single) with
      | none => ({ status := 0x0701 }, s)
      | some b =>
        let resp := natLe 1 b.st.code ++ [0] ++ natLe 2 b.actions.length ++ natLe 4 b.firstBad ++ natLe 2 b.status
        ({ resp := resp, tick := s.bales.lastTick }, if b.st = .opened then s.putBale { b with touched := s.now } else s)))

/-- BALE_IDLE_TIMEOUT (R167): a commit that arrives as the timeout expires is taken first (Table 7-4). -/
def execBaleIdleTimeout (bale : Nat) (s : State) : Res :=
  match s.bales.list.find? (fun b => b.id == bale && b.st == .opened) with
  | none => done s
  | some b =>
    if s.now ≤ b.touched + ns (s.sn 0x0702) then done s
    else done ((s.endBale b .aborted 0 0 0).raise 0x0701 srcDevice (natLe 4 b.id))

/-! ### Commit ticks (R170, R175) -/

/-- The bales of a tick share an object. -/
def bothTouch (a b : Bale) : Bool := a.objects.any (fun o => b.objects.contains o)

/-- A bale is tightening in a tick: over what it shares with the others, some action tightens and none loosens (R175). -/
def tightening (tick : List Bale) (b : Bale) : Bool :=
  let others := (tick.filter (fun x => x.id != b.id)).flatMap (·.objects)
  let shared := b.actions.filter (fun (a : Action) => a.objs.any (fun o => others.contains o.1))
  shared.any (fun a => a.sec == 1) && shared.all (fun a => a.sec != 2)

/-- Place of a master in the order of precedence (Table 7-5). -/
def State.precedence (s : State) (m : Nat) : Nat := ((List.range 5).find? (fun k => s.sn 0x0704 0 k == m)).getD 5

/-- No bale of another master stands before `b` among `rest` by key 1 (R175). -/
def mayLead (tick rest : List Bale) (b : Bale) : Bool :=
  tightening tick b || rest.all (fun x => x.master == b.master || !tightening tick x)
/-- The bale that comes first of what is left: of those that key 1 leaves, each master's earliest armed, and of these the one of the highest
precedence (R175). DESIGN CHOICE (assumption 249): where the pairwise orders of R175 form a cycle, key 1 holds first, then the order of
arming within a master, then precedence. -/
def State.leadBale (s : State) (tick rest : List Bale) : Option Bale :=
  let may := rest.filter (mayLead tick rest)
  (may.filter (fun b => may.all (fun x => x.master != b.master || decide (b.armed ≤ x.armed)))).foldl (fun (m : Option Bale) b => match m with
    | none => some b
    | some x => if s.precedence b.master < s.precedence x.master then some b else some x) none
/-- The order of application of `n` bales of a tick (R175). -/
def State.orderBales (s : State) (tick : List Bale) : Nat → List Bale → List Bale
  | 0, _ => []
  | n + 1, rest => match s.leadBale tick rest with
    | some b => b :: s.orderBales tick n (rest.filter (fun x => x.id != b.id))
    | none => rest
/-- The order of application (R175). -/
def State.tickOrder (s : State) (tick : List Bale) : List Bale :=
  s.orderBales tick tick.length (tick.mergeSort (fun a b => decide (a.armed ≤ b.armed)))

/-- A bale contains an action of an opcode. -/
def Bale.hasOp (b : Bale) (op : Nat) : Bool := b.actions.any (fun (a : Action) => a.op == op)
/-- A bale holds a gate-shut action, as its own opcode or as a permit submit's body (R175, R281). -/
def Bale.shuts (b : Bale) : Bool := b.hasOp 0x0607 || b.actions.any (fun a => a.op == 0x0609 && bodyType a.body == 2)
/-- A bale holds a gate-reopen action, as its own opcode or as a permit submit's body (R175, R281). -/
def Bale.reopens (b : Bale) : Bool := b.hasOp 0x0608 || b.actions.any (fun a => a.op == 0x0609 && bodyType a.body == 3)

/-- How a bale fared in a tick: its status and the action concerned, and the bale that defeated it. -/
structure Outcome where
  bale : Bale
  status : Nat := 0
  first : Nat := 0
  winner : Option Bale := none
deriving DecidableEq, Repr

/-- The tick so far: the device, the bales applied and the outcomes. -/
structure Tick where
  st : State
  applied : List Bale := []
  outs : List Outcome := []
  /-- bales that wait for the next tick (R170) -/
  later : List Bale := []

/-- The fate of a bale at its turn (R175): a reopen falls to GATE_SHUT and to a shut of the same tick, `shut`, a bale to one applied
before it that shares an object, and then the checks of the commit are made again. -/
def Tick.judge (t : Tick) (shut : Option Bale) (b : Bale) : Outcome :=
  if b.reopens ∧ t.st.gate.pin then { bale := b, status := 0x0602 }
  else match shut <|> t.applied.find? (fun x => bothTouch x b) with
    | some w => { bale := b, status := 0x0707, winner := some w }
    | none => match t.st.recheck b with
      | some (st, i) => { bale := b, status := st, first := i }
      | none => { bale := b }

/-- One bale of a tick is applied, or refused, or waits for the next tick once the tick has applied as many bales as it may (R170). -/
def Tick.turn (e room : Nat) (shut : Option Bale) (t : Tick) (b : Bale) : Tick :=
  let o := t.judge shut b
  if o.status ≠ 0 then { t with outs := t.outs ++ [o] }
  else if room ≤ t.applied.length then { t with later := t.later ++ [b] }
  else { t with st := t.st.applyBale e b, applied := t.applied ++ [b], outs := t.outs ++ [o] }

/-- The bales of a tick in their order (R175). A bale with a reopen is refused when a bale with a shut that comes after it would be
applied without it. -/
def Tick.run (e room : Nat) : List Bale → Tick → Tick
  | [], t => t
  | b :: rest, t =>
    let shut : Option Bale := if b.reopens then (Tick.run e room rest t).applied.find? Bale.shuts else none
    Tick.run e room rest (Tick.turn e room shut t b)

/-- Body of the bale-outcome event (Table 16-9). -/
def Outcome.body (o : Outcome) (stamp : Nat) : Bytes :=
  let (wid, wm) := match o.winner with | some w => (w.id, w.master) | none => (0, 0)
  natLe 4 o.bale.id ++ natLe 1 o.bale.master ++ natLe 1 (if o.status = 0 then 3 else 4) ++ natLe 2 o.status ++ natLe 4 wid ++ natLe 1 wm ++
  [0, 0, 0] ++ natLe 8 stamp

/-- A bale of the tick ends: its state, its event and its completion (R163, R175). -/
def State.closeBale (s : State) (stamp : Nat) (o : Outcome) : State :=
  let ok := o.status == 0
  let s1 := s.endBale o.bale (if ok then .committed else .refused) o.status o.first (if ok then stamp else 0)
  (s1.raise 0x0702 srcDevice (o.body stamp)).endLong 0 o.bale.id o.status o.first [] (if ok then stamp else 0)

/-- Bales wait for the next tick, and are counted (R170). -/
def State.deferBales (s : State) (bs : List Bale) : State :=
  let s1 := bs.foldl (fun (s : State) (b : Bale) => s.putBale { b with due := none, rewriting := false }) s
  { s1 with bales := { s1.bales with deferrals := s1.bales.deferrals + bs.length } }

/-- The bales of a tick are applied in rule order, at most `room` of them; the epoch moves if any was, and the rest wait (R170, R175). -/
def State.runTick (s : State) (room : Nat) (tick : List Bale) : State :=
  let e := s.bales.epoch + 1
  let stamp := s.angle
  let moved : State := { s with bales := { s.bales with epoch := e } }
  let t := Tick.run e room (s.tickOrder tick) { st := moved }
  let s1 : State := if t.applied.isEmpty then s else t.st
  t.outs.foldl (fun (s : State) (o : Outcome) => s.closeBale stamp o) (s1.deferBales t.later)

/-- The bales of a tick whose shadow versions a retirement has moved, and whose rewrite has not ended as the tick comes: which is a free
value (Table 7-4, assumption 226). -/
def State.rewriteLate (s : State) (tick : List Bale) : List Bale × State :=
  (tick.filter (fun b => b.rewriting)).foldl (fun (x : List Bale × State) (b : Bale) =>
    let (v, s1) := x.2.draw
    (if v.getLsbD 0 then x.1 ++ [b] else x.1, s1)) ([], s)

/-- A tick of the 1 µs grid has come. -/
def State.onGrid (s : State) : Bool := decide (s.bales.tickAt + us 1 ≤ s.now)
/-- A tick comes at the stated time of an armed commit (R169, R170). -/
def State.insertedTick (s : State) : Bool :=
  s.bales.list.any (fun b => b.st == .pending && b.due.any (fun d => decide (d ≤ s.angle)))
/-- Pending bales that a tick takes: those whose stated time has come, and those that state none (R168 to R170). -/
def State.tickBales (s : State) : List Bale :=
  (s.bales.list.filter (fun b => b.st == .pending && b.due.all (fun d => decide (d ≤ s.angle)))).mergeSort (fun a b => decide (a.armed ≤ b.armed))
/-- Bales that a tick may apply: 16, or none when one more epoch would be the 129th live one (R170, R176). -/
def State.tickRoom (s : State) : Nat := if 128 < s.bales.epoch + 2 - s.bales.drainedTo then 0 else 16

/-- Every epoch below `drainedTo` is drained: at the first tick after, what the bales of drained epochs superseded is reclaimed (R176). -/
def State.reclaimDrained (s : State) : State := if s.bales.drained < s.bales.drainedTo then s.reclaim s.bales.drainedTo else s

/-- COMMIT_TICK (R170): every 1 µs, and at the stated times of armed commits. -/
def execCommitTick (s : State) : Res :=
  if !s.onGrid ∧ !s.insertedTick then done s
  else
    let at_ := if s.onGrid then s.now - (s.now - s.bales.tickAt) % us 1 else s.bales.tickAt
    let s1 : State := { s.reclaimDrained with bales := { s.reclaimDrained.bales with tickAt := at_, lastTick := s.angle } }
    let (late, s2) := s1.rewriteLate s1.tickBales
    let s3 := s2.deferBales late
    let tick := s1.tickBales.filter (fun b => !late.any (fun x => x.id == b.id))
    done (if tick.isEmpty then s3 else s3.runTick s3.tickRoom tick)

/-! ### Draining (R176) -/

/-- A packet still needs its epoch: it has neither been admitted at step 7, which may wait for its frame or for an earlier packet, nor
entered the gate hold (R30). -/
def Packet.needsEpoch (p : Packet) : Bool :=
  !p.epochDone && (match p.stage with
  | .held | .behind | .moveHold | .inQueues => false
  | _ => true)

/-- The oldest epoch that a packet needs, or the present one. -/
def State.oldestEpoch (s : State) : Nat :=
  (Tab.values s.packets).foldl (fun (e : Nat) (p : Packet) => if p.needsEpoch then min e p.epoch else e) s.bales.epoch

/-- EPOCH_DRAINED (R176): the epochs before the oldest that a packet needs are drained; what their bales superseded is reclaimed at the
next tick. -/
def execEpochDrained (s : State) : Res :=
  let d := s.oldestEpoch
  if d ≤ s.bales.drainedTo then done s else done { s with bales := { s.bales with drainedTo := d } }

end Sys2Proof.Machine
end

