-- ==== Sys2Proof/Machine/Boot.lean ====
section
/-! DEFINITION. The start sequence: the boot ROM's steps, memory training, and the step in which Scemas becomes ready (R413, R414, R466). -/

namespace Sys2Proof.Machine

/-! ### Flash and keys (R408 to R410) -/

/-- The boot record in force: of the copies with a correct CRC, the one with the higher seq; slot A without trial if there is none
(assumption 54). -/
def Flash.record (f : Flash) : Nat × Nat × Nat :=
  let ok (r : Nat × Nat × Nat × Bool) : Bool := r.2.2.2
  let val (r : Nat × Nat × Nat × Bool) : Nat × Nat × Nat := (r.1, r.2.1, r.2.2.1)
  if ok f.rec0 ∧ (!ok f.rec1 ∨ f.rec1.1 ≤ f.rec0.1) then val f.rec0
  else if ok f.rec1 then val f.rec1
  else (0, 0, 0)

/-- The other copy is written, one above in seq (R409). -/
def Flash.writeRecord (f : Flash) (preferred trial : Nat) : Flash :=
  let r := f.record
  let new : Nat × Nat × Nat × Bool := (r.1 + 1, preferred, trial, true)
  if f.rec0 = (r.1, r.2.1, r.2.2, true) then { f with rec1 := new } else { f with rec0 := new }

/-- The boot record is written. -/
def State.writeBoot (s : State) (preferred trial : Nat) : State :=
  { s with trust := { s.trust with flash := s.trust.flash.writeRecord preferred trial } }

/-- A rollback counter (Table 18-7). -/
def State.rollback (s : State) (k : Nat) : Nat := s.trust.otp.rollback.getD k 0

/-- A slot passes the checks of R410 at start. -/
def State.slotOk (s : State) (c : SlotCheck) : Bool :=
  c.ok && decide (s.rollback 0 ≤ c.sv) && decide (s.rollback 1 ≤ c.patchSv) && !s.trust.otp.revoked.testBit c.keyId

/-- FIRMWARE of an image (Table 15-3). -/
def firmwareOf (c : SlotCheck) : Nat := c.major % 256 * 2 ^ 24 + c.minor % 256 * 2 ^ 16 + c.build % 2 ^ 16

/-! ### Step 6 (R41, R271, R287) -/

/-- Ledger records that the start finds in the Granary: those of stripes with a channel in use (R287). -/
def State.foundRecords (s : State) : List (Nat × Bytes) := s.ledger.ring.filter (fun (x : Nat × Bytes) => s.ledgerTakes (stripeOf x.1))

/-- The start record (R287). -/
def State.startRecord (s : State) : State :=
  let tail := s.keeper.tail
  let last : Option (Nat × Bytes) := match s.foundRecords.getLast? with
    | some x => some (x.1, sha512 x.2)
    | none => tail
  let l : Ledger := match last with
    | some x => { s.ledger with next := x.1 + 1, hash := x.2 }
    | none => { s.ledger with next := 0, hash := List.replicate 64 0 }
  let clear : Bool := tail.isSome && s.foundRecords.getLast?.isSome && decide (last = tail)
  ({ s with ledger := l }).record
    { type := 2, flags := b2n !clear, seq := s.keeper.boot, detailA := match tail with | some x => x.1 | none => 2 ^ 64 - 1 }

/-- The previous start went through level 5: its sag record says so (R441). -/
def State.afterLevel5 (s : State) : Bool :=
  leAt s.keeper.sag 0 1 == 5 && decide (leAt s.keeper.sag 4 4 = (s.keeper.boot + 2 ^ 32 - 1) % 2 ^ 32)

/-- A continuation record for every channel that retired at reset and whose stripe's mirror is rebuilt (R334, R340). -/
def State.startMirrors (s : State) : State :=
  let r := s.mem.rebuilding.map (fun (x : Nat × Rebuild) => (x.1, { x.2 with upTo := s.ledger.next }))
  r.foldl (fun s x => s.continuation x.2.failed false false 0) { s with mem := { s.mem with rebuilding := r } }

/-- Memories are trained and Scemas runs: Tiller starts, the start record is written, and STATUS ready is set (R413 step 6). -/
def State.startDone (s : State) : State :=
  let s1 := s.loadAngle s.keeper.rtc (s.keeper.sub * 1000000000 / 32768) (b2n s.keeper.seed)
  let s2 := if s1.owned then s1.startRecord.startMirrors else s1
  let s3 := if s2.afterLevel5 then s2.shutGate 13 0xFFFF 0xFFFF else s2
  let s4 := if s3.gate.pin ∧ !s3.gate.isShut then s3.shutGate 10 0xFFFF 0xFFFF else s3
  let s5 := if s4.fault.sysclk then s4 else s4.enterSafe 4
  let s6 := s5.sagUpdate.thermUpdate
  let s7 := if s6.gate.isShut then s6 else { s6 with gate := { s6.gate with floor := some (s6.tai + s6.sn 0x0B07) } }
  let s8 : State := { s7 with trust := { s7.trust with ready := true } }
  s8.noteStatus

/-- The units in use have been trained, each at the temperature that its sensor reports (R334, R335). -/
def State.trainUnits (s : State) : State :=
  (List.range 144).foldl (fun s u =>
    if (s.munit u).used then
      let s1 := s.senseTemp u
      s1.setUnit u { s1.munit u with trainedAt := s1.now, trainedTemp := s1.memTemp u }
    else s) s
/-- A Granary channel without a working setting is retired from the start, and left out of the Granary (R325, R334). -/
def State.failDdr (s : State) (u : Nat) : State :=
  (s.setUnit u { (s.munit u) with state := 2, queue := [], wait := [] }).raise 0x0804 (srcUnit u) []
/-- The Granary is formed from the channels that are used and pass (R325, R339); a stripe with one of its channels retired gets a new mirror
(R334, R340). -/
def State.formGranary (s : State) (ds : List Nat) : State :=
  let sizes := regionSizes s.mem.shares s.granary
  let lone := ds.filter (fun u => (s.munit (128 + (u - 128 + 8) % 16)).used)
  let s1 : State := { s with mem := { s.mem with
    trained := true, regions := sizes, ledgerPart := sizes.getD 0 0 * 2 ^ 23 / s.granaryUsed.length } }
  lone.foldl (fun s u => s.beginRebuild (u - 128)) s1

/-- MEMORY_TRAINING_DONE (R325, R334): units with no working setting are retired from the start. With Scemas running, the start is
complete. -/
def execMemoryTrainingDone (failed : List UnitId) (s : State) : Res :=
  if s.mem.trained then done s
  else
    let us := (failed.map (·.val)).dedup
    let ds := us.filter (fun u => !isHbm u && (s.munit u).used)
    let s1 := ds.foldl (fun s u => s.failDdr u) s.trainUnits
    let s2 := (us.filter isHbm).foldl (fun s u => s.retirePc (fun s b => s.permitPc b) u) s1
    let s3 := s2.formGranary ds
    if s3.trust.recovery ≠ 0 ∨ s3.trust.folded = 0 then done s3 else done s3.startDone

/-! ### The boot ROM's steps (R412 to R414, R466) -/

/-- Step 1: the boot counter, the keeper epoch and the tamper latch (R413, R423). -/
def State.bootKeeper (s : State) : State :=
  let k := s.keeper
  let lost := k.lost || !k.vkeep
  let epoch := min 255 (s.trust.otp.keeperEpoch + 1)
  let latch := if lost then 2 else k.tamper
  let s1 := if lost then
      { s with trust := { s.trust with otp := { s.trust.otp with keeperEpoch := epoch } }
               keeper := { k with boot := epoch * 2 ^ 24, lost := !k.vkeep, tamper := 0 } }
    else { s with keeper := { k with boot := k.boot + 1, tamper := 0 } }
  let s2 := s1.measure 1 Config.romDigest
  let s3 := if lost then s2.measure 9 (sha512 (natLe 1 epoch)) else s2
  if latch = 0 then s3 else s3.measure 8 (sha512 (natLe 1 latch)) 0xFF 0 latch

/-- The tamper latch is set and measured as the boot ROM runs (R423). -/
def State.bootTamper (s : State) (source : Nat) : State :=
  let s1 := { s with keeper := if s.keeper.vkeep then { s.keeper with tamper := source } else s.keeper }
  s1.measure 8 (sha512 (natLe 1 source)) 0xFF 0 source

/-- The start stops in the boot ROM with FAULT_N asserted (R412, R466). -/
def State.bootStop (s : State) : State :=
  ({ s with trust := { s.trust with recovery := 2 }, fault := { s.fault with bootN := true } }).noteStatus

/-- The Granary's population is read: a pair with unequal channels is not used (R325). -/
def State.populate (s : State) (gib : List Nat) : State :=
  let s1 := (List.range 16).foldl (fun (s : State) (d : Nat) => s.setUnit (128 + d) { s.munit (128 + d) with gib := gib.getD d 0 }) s
  (List.range 8).foldl (fun (s : State) (k : Nat) =>
    let a := gib.getD k 0
    let b := gib.getD (k + 8) 0
    if a = b ∧ 0 < a then s
    else
      let s2 := (s.setUnit (128 + k) { s.munit (128 + k) with state := 3 }).setUnit (136 + k) { s.munit (136 + k) with state := 3 }
      if a = b then s2 else s2.raise 0x0801 (srcUnit (128 + k)) []) s1

/-- Control passes to the image of a slot (steps 3 to 5): its patch set is written into both control-store banks (Table 18-6). -/
def State.runSlot (s : State) (slot : Nat) (c : SlotCheck) : State :=
  let s1 := (s.measure 2 c.digest slot c.sv 0 c.build).measure 3 c.patchDigest slot c.patchSv 0 c.patchBuild
  { s1 with
    trust := { s1.trust with running := slot, firmware := firmwareOf c, imageSv := c.sv }
    eng := { s1.eng with
      patchSv := c.patchSv, patchBuild := c.patchBuild, larzenu := Tab.put [] (Tab.put [] s1.eng.larzenu 0 c.patchDigest) 1 c.patchDigest } }

/-- What a slot holds (Table 18-4): where the model holds the slot's bytes, the header fields are theirs; an image that nothing has
written since the model's beginning is known by its check alone (assumption 68). -/
def State.slotCheck (s : State) (n : Nat) (c : SlotCheck) : SlotCheck :=
  let x := if n = 0 then s.trust.flash.slotA else s.trust.flash.slotB
  let i := x.image
  let p := x.patch
  let c1 := if i.isEmpty then c else
    { c with sv := leAt i 8 1, keyId := leAt i 6 2, build := leAt i 12 4, digest := slice i 32 64 }
  if p.isEmpty then c1 else { c1 with patchSv := leAt p 8 1, patchBuild := leAt p 12 4, patchDigest := slice p 32 64 }

/-- Both slots have failed: the device stays in recovery (R414). -/
def State.recover (s : State) : State :=
  ({ s with trust := { s.trust with recovery := 1, ready := true }, fault := { s.fault with bootN := true } }).noteStatus

/-- Steps 3 to 6: the preferred slot, or the other one; with trial set, the other way round (R414). -/
def State.bootSlots (s : State) (x : BootInputs) : State :=
  let (_, preferred, trial) := s.trust.flash.record
  let first := if trial = 1 then 1 - preferred else preferred
  let check (n : Nat) : SlotCheck := s.slotCheck n (if n = 0 then x.slotA else x.slotB)
  let go (s : State) (n : Nat) : State :=
    let s1 := if trial = 1 then s.writeBoot preferred 0 else s
    let s2 := (s1.runSlot n (check n)).populate x.granary
    if s2.mem.trained then s2.startDone else s2
  if s.slotOk (check first) then go s first
  else
    let s1 := s.bootTamper 5
    if s1.slotOk (check (1 - first)) then go s1 (1 - first) else s1.recover

/-- BOOT_START (R413, R466): once after each reset. -/
def execBootStart (x : BootInputs) (s : State) : Res :=
  if s.trust.folded ≠ 0 then done s
  else
    let s1 := ({ s with trust := { s.trust with straps := x.straps.val } }).bootKeeper
    if 4 ≤ x.straps.val then done s1.bootStop
    else if !x.otpOk ∨ !x.identityOk then done (s1.bootTamper 4).bootStop
    else done (s1.bootSlots x)

end Sys2Proof.Machine
end

