-- ==== Sys2Proof/Machine/StatusCmds.lean ====
section
/-! DEFINITION. The reads of Table 16-6 (use R): device, ports, tables, gate, memory, Sheaf, power and counters (R381, R388). -/

namespace Sys2Proof.Machine

/-! ### Shape of a read -/

/-- A read is refused in a bale (R386), and answers as of the last commit tick (R381). -/
def State.plainRead (s : State) (op cls : Nat) (r : Request) (f : State → Ans) : Res :=
  s.readReq op cls r (fun s => if r.bale ≠ 0 then { status := 0x0304 } else f s)

/-- The payload of a read of the whole device: nothing, or one device header (assumption 60). -/
def devicePayload (p : Bytes) : Bool :=
  p.isEmpty || (p.length == 8 && (match headerTargets [0] p 0 with | .ok _ => true | .error _ => false))

/-- A read of the device. -/
def State.deviceRead (s : State) (op : Nat) (r : Request) (f : State → Bytes) : Res :=
  s.plainRead op 0 r (fun s => if devicePayload r.payload then { resp := f s } else { status := 0x0301 })

/-- The targets of a read's headers, in the order named, or the status of the refusal and the offset of the failing header (R384). -/
def readTargets (kind : Nat) (p : Bytes) : Except (Nat × Nat) (List Nat) :=
  if p.isEmpty then .error (0x0301, 0)
  else (List.range (ceilDiv p.length 8)).foldl (fun (acc : Except (Nat × Nat) (List Nat)) (i : Nat) => match acc with
    | .error e => .error e
    | .ok ts => match headerTargets [kind] p (8 * i) with
      | .ok x => .ok (ts ++ x.2)
      | .error e => .error (e, 8 * i)) (.ok [])

/-- A read of targets of a kind: their records in the order named (assumption 60). -/
def State.targetRead (s : State) (op kind : Nat) (r : Request) (f : State → Nat → Bytes) : Res :=
  s.plainRead op 0 r (fun s => match readTargets kind r.payload with
    | .error e => { status := e.1, detail := e.2 }
    | .ok ts => { resp := (ts.map (f s)).flatten })

/-! ### Device, faults and power -/

/-- BAR0 0x00 to 0x17, the base MAC address and a stamp block (Tables 15-2, 15-3 and 16-6). -/
def State.deviceBytes (s : State) : Bytes :=
  natLe 4 0x9600A200 ++ natLe 4 s.trust.firmware ++ natLe 8 Config.serial ++ natLe 4 s.status ++ natLe 4 s.keeper.boot ++
  natBe 6 Config.baseMac ++ [0, 0] ++ s.stamp.bytes

/-- DEVICE_STATUS (R364, R388). -/
def execDeviceStatus (r : Request) (s : State) : Res :=
  s.plainRead 0x0101 0 r (fun s => if r.payload.isEmpty then { resp := s.deviceBytes } else { status := 0x0301 })

/-- Service states of the units of a fault class: 1 fenced, 2 or more retired (Table 17-9). -/
def State.classStates (s : State) (cls : Nat) : List Nat :=
  match cls with
  | 3 => (List.range 128).map (fun u => (s.munit u).state)
  | 4 => (List.range 16).map (fun d => (s.munit (128 + d)).state)
  | 5 => (List.range 32).map (fun p => Tab.get 0 s.gate.sealSt p)
  | 6 => (List.range 16).map (fun h => Tab.get 0 s.gate.hashSt h)
  | 7 => (List.range 8).flatMap (fun k => (List.range 64).map (fun n => s.engineState (128 * k + n)))
  | 8 => (List.range 8).flatMap (fun k => (List.range 4).map (fun n => s.engineState (128 * k + 64 + n)))
  | 9 => (List.range 32).map (fun a => Tab.get 0 s.awn.state a)
  | 10 => [s.mcState 0, s.mcState 1]
  | _ => []

/-- Open entries of a class in the error logs. -/
def State.openEntries (s : State) (cls : Nat) : List LogEntry :=
  ((s.fault.logs.filter (fun (x : Nat × List LogEntry) => unitClass x.1 == cls)).map (·.2)).flatten

/-- The 16 bytes of a class (Table 17-9); counts beyond 255 read as 255. -/
def State.classBytes (s : State) (cls : Nat) : Bytes :=
  let st := s.classStates cls
  natLe 1 cls ++ natLe 1 (min 255 (st.countP (· == 1))) ++ natLe 1 (min 255 (st.countP (fun x => decide (2 ≤ x)))) ++
  natLe 1 (min 255 (s.openEntries cls).length) ++ natLe 4 0 ++ natLe 8 (s.faultCount cls)

/-- The 16 bytes of an error-log entry (Table 17-2). -/
def LogEntry.bytes (e : LogEntry) : Bytes :=
  natLe 1 e.cls ++ natLe 1 e.cause ++ natLe 1 e.rung ++ natLe 1 e.st ++ natLe 4 e.detail ++ natLe 8 e.stamp

/-- Both entries of a unit's log; one that is not open reads as zeros. -/
def logBytesOf (l : List LogEntry) : Bytes := padTo 32 ((l.map LogEntry.bytes).flatten)

/-- Slices that drain or reset. -/
def State.drainMask (s : State) : Nat := match s.fault.drain with | some d => 2 ^ d.slice | none => 0

/-- The fault status (Table 17-9), and in the expert form the open logs (R405). -/
def State.faultBytes (s : State) (expert : Bool) : Bytes :=
  let handling := (List.range 17).foldl (fun (m : Nat) (c : Nat) => if (s.openEntries c).isEmpty then m else m + 2 ^ c) 0
  let logs := (s.fault.logs.filter (fun (x : Nat × List LogEntry) => !x.2.isEmpty)).map (fun x => natLe 2 x.1 ++ logBytesOf x.2)
  natLe 1 (b2n s.fault.safe) ++ natLe 1 s.fault.safeCause ++ natLe 1 (b2n s.faultN) ++ natLe 1 s.drainMask ++ natLe 4 handling ++
  (if s.fault.safe then s.fault.safeStamp.bytes else List.replicate 24 0) ++
  ((List.range 16).map (fun i => s.classBytes (i + 1))).flatten ++ (if expert then logs.flatten else [])

/-- FAULT_STATUS (R405). -/
def execFaultStatus (r : Request) (s : State) : Res := s.deviceRead 0x0105 r (fun s => s.faultBytes r.expert)

/-- The rail flags (Table 19-6). -/
def State.railFlags (s : State) : Nat :=
  let mon (i : Nat) : Nat := Tab.get 0 s.power.monitors i
  mon 0 % 8 + 8 * b2n (mon 1 != 0) + 16 * b2n (mon 2 != 0) + 32 * b2n (mon 3 != 0) + 64 * b2n (mon 4 != 0) + 128 * b2n (!s.keeper.vkeep) +
  256 * (s.power.sagWarn % 8) + 2048 * b2n s.power.therm + 4096 * b2n s.power.pmbusLost

/-- POWER_STATUS (R443): the power figure is a free value, drawn at each read. -/
def execPowerStatus (r : Request) (s : State) : Res :=
  done (s.request 0x0C01 0 true r (fun _ s =>
    if r.bale ≠ 0 then ({ status := 0x0304 }, s)
    else if !devicePayload r.payload then ({ status := 0x0301 }, s)
    else
      let body := natLe 1 s.power.level ++ natLe 1 s.power.trigger ++ natLe 2 s.railFlags ++ natLe 4 (Config.powerEstimate s.fresh) ++ s.stamp.bytes
      ({ resp := body, tick := s.bales.lastTick }, { s with fresh := s.fresh + 1 })))

/-- SAG_RECORD_READ (R439, R443). -/
def execSagRecordRead (r : Request) (s : State) : Res := s.deviceRead 0x0C04 r (fun s => padTo 64 s.keeper.sag)

/-! ### Ports and Tiller -/

/-- What the pattern checker of lane `l` reports: lock, the bit errors, the time since lock and the lane rate (R87, assumption 216). -/
def State.checkerBytes (s : State) (l : Nat) : Bytes :=
  let y := s.lane l
  natLe 1 (if y.locked then 1 else 0) ++ natLe 6 y.errs ++ natLe 8 (if y.locked then s.now - y.lockAt else 0) ++ natLe 4 y.testRate

/-- The record of a port (Table 16-6), and in the expert form the five transmit taps of each of its lanes (assumption 61), and after
them, while the port is tested, what the checkers of its two lanes report. -/
def State.portBytes (s : State) (expert : Bool) (p : Nat) : Bytes :=
  let q := s.port p
  let mode := if q.runMode = 0 then s.portMode p else q.runMode
  natLe 1 q.shown.code ++ natLe 1 mode ++ natLe 1 q.cause ++ natLe 1 (min 255 q.failures) ++
  natLe 4 (s.penaltyNow p / 1024) ++ natLe 2 (if mode = 6 then (s.otnOf p).defects else 0) ++ [0, 0] ++
  (if expert then ((lanesOf p mode).flatMap (fun l => (s.lane l).taps.map (fun t => (natLe 1 (unsigned 8 t))))).flatten else []) ++
  (if expert ∧ q.st = .test then s.checkerBytes (2 * p) ++ s.checkerBytes (2 * p + 1) else [])

/-- PORT_STATUS (R76). -/
def execPortStatus (r : Request) (s : State) : Res := s.targetRead 0x020F 1 r (fun s p => s.portBytes r.expert p)

/-- The Tiller status (R40, R44, R46, R56). -/
def State.tillerBytes (s : State) (expert : Bool) : Bytes :=
  let t := s.tiller
  let tracked := t.st == .slewing || t.st == .locked
  let frozen := t.st == .holdover || t.st == .expired
  natLe 1 t.st.code ++ natLe 1 t.cause ++ [0, 0] ++ natLe 4 (s.baseFreq / 1000000) ++ natLe 2 (unsigned 16 t.error) ++ natLe 1 t.taiState ++
  [0] ++ natLe 8 (unsigned 64 (if t.ptpOk || t.ppsOk then t.taiOffset else 0)) ++ s.stamp.bytes ++
  (if expert then
    natLe 8 t.freq ++ natLe 8 (unsigned 64 (if tracked then t.rate else 0)) ++ natLe 4 (unsigned 32 t.estPhase) ++
    natLe 4 (if frozen then t.freq / 1000000 else 0)
  else [])

/-- TILLER_STATUS. -/
def execTillerStatus (r : Request) (s : State) : Res := s.deviceRead 0x0308 r (fun s => s.tillerBytes r.expert)

/-! ### Match array, flow table, permits -/

/-- A live counter (R450). -/
def State.counterNow (s : State) (block idx : Nat) : Nat := Tab.get 0 s.cnt.live (counterId block idx)

/-- The answer of Match read for a row at a physical index (Table 10-2). -/
def State.rowAnswer (s : State) (k i : Nat) (x : MatchRow) : Bytes :=
  let id := rowId x.rec_
  let tie := Tab.get (0, 0) s.matcher.lastTie k
  patch (padTo 104 x.rec_) 100 (natLe 4 i) ++ natLe 8 (s.counterNow 5 (65536 * k + id)) ++ natLe 8 (s.counterNow 4 (256 * k)) ++
  natLe 2 tie.1 ++ natLe 2 tie.2 ++ natLe 4 0

/-- MATCH_READ (R241, R243, R388). -/
def execMatchRead (r : Request) (s : State) : Res :=
  s.plainRead 0x0411 0 r (fun s =>
    let k := leAt r.payload 0 1
    let by_ := leAt r.payload 1 1
    let n := leAt r.payload 2 2
    if r.payload.length ≠ 4 then { status := 0x0301 }
    else if 8 ≤ k ∨ 2 ≤ by_ then { status := 0x0302 }
    else if by_ = 1 ∧ !r.expert then { status := 0x0204 }
    else
      let hit : Option (Nat × MatchRow) :=
        if by_ = 1 then ((s.rowAt n).filter (fun x => x.bale.isNone)).map (fun x => (n, x))
        else List.find? (fun (x : Nat × MatchRow) => rowId x.2.rec_ == n && x.2.visible s.bales.epoch) s.matcher.rows
      match hit with
      | none => {}
      | some (i, x) => { resp := s.rowAnswer k i x })

/-- The place that a Flow read names by bucket and slot, or by overflow index (assumption 62). -/
def flowPlace (p : Bytes) : Option Nat :=
  if leAt p 0 1 = 0 ∧ leAt p 1 1 < 4 ∧ leAt p 4 4 < 2 ^ 28 then some (4 * leAt p 4 4 + leAt p 1 1)
  else if leAt p 0 1 = 1 ∧ leAt p 4 4 < 262144 then some (flowOverflow + leAt p 4 4)
  else none

/-- FLOW_READ (R139, R388): by key, and in the expert form by place. -/
def execFlowRead (r : Request) (s : State) : Res :=
  s.plainRead 0x0505 0 r (fun s =>
    let p := r.payload
    if p.length = 40 then
      match (s.findRec p s.bales.epoch).bind s.recAt with
      | none => {}
      | some x => { resp := x.at s.bales.epoch }
    else if p.length ≠ 8 ∨ !r.expert then { status := 0x0301 }
    else match flowPlace p with
      | none => { status := 0x0302 }
      | some l => match (s.recAt l).filter (·.live) with
        | none => {}
        | some x => { resp := x.at s.bales.epoch })

/-- FLOW_STATUS (R151, R155, R338). -/
def execFlowStatus (r : Request) (s : State) : Res :=
  s.deviceRead 0x050F r (fun s =>
    natLe 8 s.recordCount ++ natLe 4 s.overflowCount ++ natLe 4 s.mem.absent.length ++ ((List.range 4).map (fun i => natLe 8 (s.flow.refused.getD i 0))).flatten)

/-- EXPORT_STATUS (R231, R235). -/
def execExportStatus (r : Request) (s : State) : Res :=
  s.deviceRead 0x050D r (fun s => natLe 4 Config.enterpriseNumber ++ natLe 8 s.svc.exportMsgs ++ natLe 8 s.svc.exportDropped ++ natLe 8 s.svc.exportShed)

/-- PERMIT_READ (R274): the entries of a selector. -/
def execPermitRead (r : Request) (s : State) : Res :=
  s.plainRead 0x060B 0 r (fun s =>
    if r.payload.length ≠ 40 then { status := 0x0301 }
    else
      let es := (s.permitsOf r.payload).filter (fun (x : Nat × PermitEntry) => x.2.inForce)
      { resp := (es.map (fun (x : Nat × PermitEntry) => x.2.bytes)).flatten })

/-- GATE_STATUS: the last index is that of the last record made; before the first it is a free value (assumption 63). -/
def execGateStatus (r : Request) (s : State) : Res :=
  done (s.request 0x060D 0 true r (fun _ s =>
    if r.bale ≠ 0 then ({ status := 0x0304 }, s)
    else if !devicePayload r.payload then ({ status := 0x0301 }, s)
    else
      let (w, s1) := s.draw
      let last : Nat := if s.ledger.next = 0 then w.toNat else s.ledger.next - 1
      let body := natLe 1 (b2n s.gate.isShut) ++ natLe 1 s.gate.cause ++ natLe 2 s.heldFlows ++ natLe 4 s.permitCount ++ natLe 8 last
      ({ resp := body, tick := s.bales.lastTick }, s1)))

/-! ### Memory and Sheaf -/

/-- The record of a memory unit, by its number of kind 12 (R332, R337). -/
def State.unitBytes (s : State) (code : Nat) : Bytes :=
  let u := if code < 256 then code else code - 256 + 128
  let m := s.munit u
  natLe 1 (b2n m.used) ++ natLe 1 (b2n (m.state == 1)) ++ natLe 1 (b2n (m.state == 2)) ++ [0] ++
  natLe 4 (s.counterNow 11 (256 * code)) ++ natLe 4 (s.counterNow 11 (256 * code + 1)) ++ natLe 4 (if isHbm u then s.spareFree u else 0)

/-- MEMORY_STATUS (R337). -/
def execMemoryStatus (r : Request) (s : State) : Res := s.targetRead 0x0806 12 r (fun s u => s.unitBytes u)

/-- What the pattern checkers of the data lanes in test report: lane, lock, the bit errors and the time since lock (R87, R358,
assumption 260). -/
def State.sheafCheckers (s : State) : Bytes :=
  ((List.range 18).filter (fun l => decide (laneNo l < 8) && s.sheafTest l)).flatMap (fun l =>
    let y := (s.link (linkOf l)).lane (laneNo l)
    natLe 1 l ++ natLe 1 (b2n y.locked) ++ natLe 6 y.errs ++ natLe 8 (if y.locked then s.now - y.lockAt else 0))

/-- SHEAF_STATUS (R353, R355, R356): in the expert form also what the checkers of the lanes in test report. -/
def execSheafStatus (r : Request) (s : State) : Res :=
  s.deviceRead 0x0904 r (fun s => (if r.expert then fun (b : Bytes) => b ++ s.sheafCheckers else id) <|
    natLe 1 s.sheaf.twin ++ natLe 1 (b2n (s.link 0).up + b2n (s.link 1).up) ++ [0, 0] ++ natLe 4 (unsigned 32 s.sheaf.angleOffset) ++
    natLe 8 (unsigned 64 s.sheaf.cycleOffset) ++ natLe 4 s.sheaf.roundTrip ++ natLe 8 s.sheaf.dropped)

/-! ### Counters (R451, R452, R457, R458) -/

/-- Blocks and instances of Table 20-2: a target and a count number, and whether both exist. -/
def counterKnown (id : Nat) : Bool :=
  let i := id % 2 ^ 24
  let t := i / 256
  let n := i % 256
  match id / 2 ^ 24 % 128 with
  | 1 => decide (t < 96 ∧ (n < 24 ∨ (32 ≤ n ∧ n < 64)))
  | 2 => decide (t < 768 ∧ n < 8)
  | 3 => decide (t < 96 ∧ n < 19)
  | 4 => decide (t < 8 ∧ n < 12)
  | 5 => decide (i < 8 * 65536)
  | 6 => decide (i / 4 < 8 * 4096 ∧ i % 4 < 3)
  | 7 => decide (i < 8 * 16384)
  | 8 => decide (t < 256 ∧ n < 19)
  | 9 => decide (t < 64 ∧ n / 32 < 7 ∧ n % 32 < 22)
  | 10 => decide (t < 6 ∧ n < 2)
  | 11 => decide ((t < 128 ∨ (256 ≤ t ∧ t < 272)) ∧ n < 4)
  | 12 => decide (i < 10)
  | 13 => decide (i < 64)
  | _ => false

/-- COUNTER_READ (R458). -/
def execCounterRead (r : Request) (s : State) : Res :=
  s.plainRead 0x0A04 0 r (fun s =>
    let p := r.payload
    let n := p.length / 4
    let ids := (List.range n).map (fun i => leAt p (4 * i) 4)
    if p.isEmpty then { status := 0x0302 }
    else if 4096 < n then { status := 0x0302, detail := 4 * 4096 }
    else if p.length % 4 ≠ 0 then { status := 0x0301 }
    else match ids.findIdx? (fun id => !counterKnown id) with
      | some i => { status := 0x0301, detail := 4 * i }
      | none =>
        let snap := (ids.headD 0).testBit 31
        if ids.any (fun id => id.testBit 31 != snap) then { status := 0x0301 }
        else if snap then
          match s.cnt.snapStamp with
          | none => { status := 0x0304 }
          | some t => { resp := t.bytes ++ (ids.map (fun id => natLe 8 (Tab.get 0 s.cnt.snap (id % 2 ^ 31)))).flatten }
        else { resp := s.stamp.bytes ++ (ids.map (fun id => natLe 8 (Tab.get 0 s.cnt.live id))).flatten })

/-- COUNTER_SNAPSHOT (R457): the command completes when the snapshot is armed. -/
def execCounterSnapshot (r : Request) (s : State) : Res :=
  done (s.directReq 0x0A05 1 r (fun _ s =>
    let p := r.payload
    let stated := leAt p 0 1 == 1
    let due := leAt p 8 8 * 65536 + leAt p 2 2
    if p.length ≠ 16 ∨ leAt p 1 1 ≠ 0 ∨ leAt p 4 4 ≠ 0 then ({ status := 0x0301 }, s)
    else if 2 ≤ leAt p 0 1 ∨ (stated ∧ s.angle / 65536 + 2 ^ 24 < leAt p 8 8) then ({ status := 0x0302 }, s)
    else if s.cnt.armed.isSome then ({ status := 0x0303 }, s)
    else
      let at_ : Option Nat := if stated ∧ s.angle < due then some due else none
      ({}, { s with cnt := { s.cnt with armed := some at_, armedAt := s.now } })))

/-- COUNTER_FREEZE (R456). -/
def execCounterFreeze (r : Request) (s : State) : Res :=
  done (s.directReq 0x0A06 1 r (fun _ s =>
    if r.payload.length ≠ 1 then ({ status := 0x0301 }, s)
    else if 2 ≤ leAt r.payload 0 1 then ({ status := 0x0302 }, s)
    else ({}, { s with cnt := { s.cnt with frozen := leAt r.payload 0 1 == 1 } })))

end Sys2Proof.Machine
end

