-- ==== Sys2Proof/Machine/BulkCmds.lean ====
section
/-! DEFINITION. The bulk reads of Table 16-6 (use K), bridge copy, and the commands of the gate, its permits and its ledger (R125, R234,
R281, R282, R289, R319, R388). -/

namespace Sys2Proof.Machine

/-! ### Rings of the Granary (R234, R289, R319) -/

/-- Entries of a ring whose place `i % size` holds entry `i`, from `first`: a read of an overwritten entry begins at the oldest that
remains, and the gap follows the entries. -/
def ringRead (ring : Tab Bytes) (base next size first count : Nat) : Bytes :=
  let oldest := max base (next - size)
  let start := max first oldest
  let n := min count (next - start)
  ((List.range n).map (fun i => Tab.get [] ring ((start + i) % size))).flatten ++ natLe 8 (start - first)

/-- The answer of a read of a ring by u64 first and u32 count. -/
def ringAns (p : Bytes) (f : Nat → Nat → Bytes) : Ans := if p.length ≠ 12 then { status := 0x0301 } else { resp := f (leAt p 0 8) (leAt p 8 4) }

/-- ARCHIVE_READ (R234). -/
def execArchiveRead (r : Request) (s : State) : Res :=
  s.plainRead 0x050E 0 r (fun s => ringAns r.payload (ringRead s.svc.archive s.svc.archiveBase s.svc.archiveSeq s.archiveSize))

/-- STRAW_READ (R319). -/
def execStrawRead (r : Request) (s : State) : Res :=
  s.plainRead 0x0A03 0 r (fun s => ringAns r.payload (ringRead s.core.straw s.core.strawBase s.core.strawNext s.strawSize))

/-- The records of the ledger, those that are queued among them: a record is in it from the moment that it is queued (R288, R339). -/
def State.ledgerRecords (s : State) : List (Nat × Bytes) := s.foundRecords ++ s.ledger.queue.map (fun r => (leAt r 0 8, r))

/-- LEDGER_READ (R289): the records that lie in the range, in order. -/
def execLedgerRead (r : Request) (s : State) : Res :=
  s.plainRead 0x060C 0 r (fun s => ringAns r.payload (fun first count =>
    ((s.ledgerRecords.filter (fun (x : Nat × Bytes) => decide (first ≤ x.1 ∧ x.1 < first + count))).map (·.2)).flatten))

/-- ATTESTATION_LOG_READ (R421). -/
def execAttestationLogRead (r : Request) (s : State) : Res :=
  s.plainRead 0x0B08 0 r (fun s => if r.payload.isEmpty then { resp := s.trust.log.flatten } else { status := 0x0301 })

/-! ### Bridging and routing -/

/-- The entries of slice `k` that epoch in force finds, whose VLAN and address match under the masks of a payload (R125). -/
def State.macsUnder (s : State) (k : Nat) (p : Bytes) : List (Nat × MacEntry) :=
  let vm := leAt p 4 2
  let am := beAt p 14 6
  (s.mac k).entries.filter (fun (x : Nat × MacEntry) =>
    x.2.visible s.bales.epoch && x.2.vid &&& vm == leAt p 2 2 &&& vm && x.2.mac &&& am == beAt p 8 6 &&& am)

/-- BRIDGE_READ (R112, R388). -/
def execBridgeRead (r : Request) (s : State) : Res :=
  s.plainRead 0x0412 0 r (fun s =>
    let p := r.payload
    let k := leAt p 0 1
    if p.length ≠ 20 ∨ leAt p 1 1 ≠ 0 ∨ leAt p 6 2 ≠ 0 then { status := 0x0301 }
    else if 8 ≤ k then { status := 0x0302 }
    else { resp := ((s.macsUnder k p).map (fun (x : Nat × MacEntry) => x.2.bytes k x.1)).flatten })

/-- BRIDGE_COPY (R125): learned entries, into every other slice of the mask. -/
def execBridgeCopy (r : Request) (s : State) : Res :=
  done (s.directReq 0x0404 1 r (fun _ s =>
    let p := r.payload
    let k := leAt p 0 1
    if p.length ≠ 20 ∨ leAt p 6 2 ≠ 0 then ({ status := 0x0301 }, s)
    else if 8 ≤ k then ({ status := 0x0302 }, s)
    else
      let es := (s.macsUnder k p).filter (fun (x : Nat × MacEntry) => !x.2.static)
      let ts := (List.range 8).filter (fun t => t != k && (leAt p 1 1).testBit t)
      let jobs := es.flatMap (fun (x : Nat × MacEntry) => ts.map (fun t => (x.2, t)))
      let (s1, n) := jobs.foldl (fun (a : State × Nat) (j : MacEntry × Nat) =>
        let (s2, ok) := a.1.copyMac j.2 j.1
        (s2, a.2 + b2n ok)) (s, 0)
      ({ resp := natLe 4 n ++ natLe 4 (jobs.length - n) }, s1)))

/-- The records in force of a kind of object, by key. -/
def State.recordsOf (s : State) (k : ObjKind) : List Bytes :=
  (s.bales.objects.filter (fun (x : Nat × Ver Bytes) => objNum x.1 == k.num)).filterMap (fun (x : Nat × Ver Bytes) => verAt x.2 s.bales.epoch)

/-- ROUTE_READ (R126, R128): prefixes, next hops and groups, for each slice named (assumption 60). -/
def execRouteRead (r : Request) (s : State) : Res :=
  s.targetRead 0x0413 5 r (fun s _ => (s.recordsOf .route ++ s.recordsOf .nextHop ++ s.recordsOf .multipath).flatten)

/-! ### Gate, permits, ledger -/

/-- GATE_SHUT (R281). -/
def execGateShut (r : Request) (s : State) : Res := done (s.changeReq 0x0607 4 r)

/-- GATE_REOPEN (R282). -/
def execGateReopen (r : Request) (s : State) : Res := done (s.changeReq 0x0608 5 r)

/-- LEDGER_ACKNOWLEDGE (R289, Table 16-8): the mark is an index written. -/
def execLedgerAcknowledge (r : Request) (s : State) : Res :=
  done (s.directReq 0x0606 6 r (fun _ s =>
    let mark := leAt r.payload 0 8
    let written := s.ledger.next - s.ledger.queue.length
    if r.payload.length ≠ 8 then ({ status := 0x0301 }, s)
    else if written ≤ mark then ({ status := 0x0604 }, s)
    else ({}, ({ s with ledger := { s.ledger with mark := mark } }).ledgerLevel)))

/-- PERMIT_SUBMIT (R263): an add in a bale; else the body enters the intake, and its decision completes the request. A body that the full
intake queue turns away is refused with detail 0. -/
def execPermitSubmit (r : Request) (s : State) : Res :=
  done (s.request 0x0609 0 false r (fun key s =>
    if r.bale ≠ 0 then s.addAction r 0x0609 0 key
    else if r.payload.length ≠ 192 then ({ status := 0x0301 }, s)
    else match s.takeBody r.payload (0x0100 + r.mb.val) with
      | (some c, s1) => ({ status := 0x0603, detail := c }, s1)
      | (none, s1) => ({ later := [(4, bodyWait r.payload)] }, s1)))

end Sys2Proof.Machine
end

