-- ==== Sys2Proof/Machine/Collect.lean ====
section
/-! DEFINITION. Export messages on their way out: to the host ring, or over UDP through the routing of R126 (R231, R235). -/

namespace Sys2Proof.Machine

/-- The IP address of collector `c`: 16 bytes of the export setting (R231). -/
def State.collectorAddr (s : State) (c : Nat) : Nat := (List.range 16).foldl (fun n k => 256 * n + s.sn 0x090A 0 (2 + 16 * c + k)) 0
/-- The destination port of export (R231). -/
def State.collectorPort (s : State) : Nat := s.sn 0x090A 0 (2 + 16 * s.collectors)

/-- A UDP datagram to a collector, in its IPv4 or IPv6 header (R231). DESIGN CHOICE (assumption 250): hop limit 64 and a transport checksum;
the source address and port, which the spec does not give, are free. -/
def udpDatagram (dst dport : Nat) (payload : Bytes) : Bytes :=
  let v4 := isV4 dst
  let alen := if v4 then 4 else 16
  let a := natBe alen (Config.exportSource v4 % 2 ^ (8 * alen)) ++ natBe alen (dst % 2 ^ (8 * alen))
  let len := 8 + payload.length
  let udp (sum : Nat) : Bytes := natBe 2 (Config.exportPort % 65536) ++ natBe 2 dport ++ natBe 2 len ++ natBe 2 sum ++ payload
  let sum := 65535 - fold16 8 (sum16 (a ++ natBe 4 17 ++ natBe 4 len) + sum16 (udp 0))
  let u := udp (if sum = 0 then 65535 else sum)
  if v4 then
    let ip (sum : Nat) : Bytes := [0x45, 0] ++ natBe 2 (20 + len) ++ natBe 2 0 ++ natBe 2 0 ++ [64, 17] ++ natBe 2 sum ++ a
    ip (65535 - fold16 8 (sum16 (ip 0))) ++ u
  else [0x60, 0, 0, 0] ++ natBe 2 len ++ [17, 64] ++ a ++ u

/-- The next hop of a prefix, through its group where it names one (R126, R131). -/
def State.collectorHop (s : State) (hit : RouteHit) (h : Parsed) : Option Nat :=
  match hit.result with
  | 0 => some hit.index
  | 1 =>
    let hops := s.multipath hit.index s.bales.epoch
    hops[h.slot 0 (s.sn 0x050C 0 1) % hops.length]?
  | _ => none

/-- A message leaves in UDP for collector `c`, by its next hop; a collector without one gets nothing (R126, R231). DESIGN CHOICE (assumption
250): its class is TC0, and it counts as a packet of its egress port. -/
def State.toCollector (s : State) (c : Nat) (msg : Bytes) : State :=
  let dst := s.collectorAddr c
  let body := udpDatagram dst s.collectorPort msg
  let frame (mac : Nat) : Bytes := ownFrame (natBe 6 mac ++ natBe 6 mac ++ natBe 2 (if isV4 dst then 0x0800 else 0x86DD)) body
  let h := parse (frame 0)
  let (fam, addr) := h.routeKey
  match ((s.routeLookup fam addr s.bales.epoch).bind (fun hit => s.collectorHop hit h)).bind (fun i => s.nextHop i s.bales.epoch) with
  | none => s
  | some nh =>
    let mac := (s.routerMac nh.router s.bales.epoch).getD 0
    match s.resolveDest nh.dest h nh.vid s.bales.epoch with
    | (q :: qs, _) => s.inject { port := q, bytes := [], stamp := s.stamp, at_ := s.now, epoch := s.bales.epoch, stage := .step7, vid := nh.vid }
        (frame mac) (q :: qs) (some (nh.mac, mac, nh.vid))
    | ([], _) => s

/-- A message leaves for the ring or for every collector; `none` while the ring has no room (R231, R366). -/
def State.sendExport (s : State) (msg : Bytes) : Option State :=
  if s.toRing then s.ringExport s.svc.exportMsgs msg
  else some ((List.range s.collectors).foldl (fun s c => s.toCollector c msg) s)

/-- EXPORT_MESSAGE_SEND (R231): the oldest staged records of one template leave in one message, within the message size. -/
def execExportMessageSend (s0 : State) : Res :=
  let s := s0.skipLost
  match s.svc.staging with
  | [] => done s
  | x :: _ =>
    let id := beAt x 0 2
    let (bs, n, rest) := takeStaged id (s.sn 0x090B 0 0 - 20) s.svc.staging
    if n = 0 ∨ (!s.toRing && s.collectors == 0) ∨ 1 ≤ s.power.level then done s
    else
      match s.sendExport (s.ipfixMessage (ipfixSet id bs)) with
      | some s1 =>
        done { s1 with svc := { s1.svc with staging := rest, exportSeq := s1.svc.exportSeq + n, exportMsgs := s1.svc.exportMsgs + 1 } }
      | none => done s

/-- TEMPLATE_RESEND (R231): over UDP, when the resend period has passed or the templates have changed; a host ring takes them with
the first message after reset and after a change. Export stops at sag level 1, its templates with it (R235). -/
def execTemplateResend (s : State) : Res :=
  if 1 ≤ s.power.level then done s
  else if s.svc.templateDue ∨ (!s.toRing ∧ s.svc.templateAt + ns (s.sn 0x090B 0 1) ≤ s.now) then
    match s.sendExport (s.ipfixMessage (ipfixSet 2 templates)) with
    | some s1 => done { s1 with svc := { s1.svc with templateDue := false, templateAt := s.now, exportMsgs := s1.svc.exportMsgs + 1 } }
    | none => done s
  else done s

end Sys2Proof.Machine
end

