-- ==== Sys2Proof/Machine/HostRegs.lean ====
section
/-! DEFINITION. BAR0 and its registers, the DMA rings, event delivery, the MGMT port, and the JTAG mailbox
(15_mailboxes_and_host_interface.md, R361 to R369, R375, R376). -/

namespace Sys2Proof.Machine

/-! ### The PCI Express function (R361) -/

/-- What the configuration space reports. -/
structure PciFunction where
  vendor : Nat
  device : Nat
  revision : Nat
  classCode : Nat
  lanes : Nat
  maxPayload : Nat
  maxRead : Nat
  msixVectors : Nat
  /-- size of BAR0, 64-bit and non-prefetchable, in bytes -/
  bar0 : Nat
deriving DecidableEq, Repr
/-- The endpoint of the device (R361). -/
def pciFunction : PciFunction :=
  { vendor := 0x1E4F, device := 0x9600, revision := 0xA2, classCode := 0x028000, lanes := 4, maxPayload := 512, maxRead := 4096
    msixVectors := 64, bar0 := 2 ^ 24 }

/-! ### Interrupts (R364, R365) -/

/-- Bits of INT_CAUSE and INT_MASK that are not reserved (Table 15-5). -/
def intBits : Nat := 0x17FF

/-- INT_CAUSE_WRITE (R365): W1C; a cleared bit can signal its vector again. -/
def execIntCauseWrite (v : W32) (s : State) : Res :=
  done { s with host := { s.host with intCause := s.host.intCause - (s.host.intCause &&& v.toNat) } }

/-- INT_SET_WRITE (R364): W1S, for test. -/
def execIntSetWrite (v : W32) (s : State) : Res :=
  done (((List.range 13).filter (fun b => intBits.testBit b && v.getLsbD b)).foldl (fun s b => s.interrupt b) s)

/-- INT_MASK_WRITE (R365). -/
def execIntMaskWrite (v : W32) (s : State) : Res := done { s with host := { s.host with intMask := v.toNat &&& intBits } }

/-- EVENT_LOST_READ (R14, R364): the read returns the count and clears it. -/
def execEventLostRead (s : State) : Res :=
  done (({ s with host := { s.host with eventLost := 0 } }).emit (.regRead 0x30 s.host.eventLost))

/-! ### Request and completion rings (R369) -/

/-- A request is taken from slot `i` of the request ring (Table 15-10). A message in host memory is not to be seen by the model: its sequence
is taken to be the next one (assumption 49). -/
def State.takeDescriptor (s : State) (mb i : Nat) : State :=
  let b := s.box mb
  let d := Tab.getBytes s.host.windows (2 ^ 20 * mb + 64 * (i % 256)) 64
  let off := leAt d 0 4
  let here := decide (off < 2 ^ 20)
  let m := if here then Tab.getBytes s.host.windows (2 ^ 20 * mb + off) (min (leAt d 4 4) (2 ^ 20 - off)) else []
  let t : Taken := {
    seq := if here then leAt m 4 4 else (b.next + b.taken.length) % 2 ^ 32
    opcode := leAt m 0 2, tag := leAt d 32 4, respAddr := leAt d 16 8, respOff := leAt d 24 4, respMax := leAt d 28 4, bytes := m }
  s.setBox mb { b with taken := b.taken ++ [t] }

/-- How far a 32-bit number is ahead of another (R369, R371). -/
def aheadOf (base x : Nat) : Nat := (x + 2 ^ 32 - base) % 2 ^ 32

/-- REQ_PROD_DOORBELL (R369): a write that goes backwards or beyond 256 is ignored and sets overrun; an enabled mailbox takes the requests in
ring order. -/
def execReqProdDoorbell (mb : HostMbId) (v : W32) (s : State) : Res :=
  let m := s.mbRegs mb
  if !m.enable then done s
  else
    if 256 < aheadOf m.reqCons v.toNat ∨ aheadOf m.reqCons v.toNat < aheadOf m.reqCons m.reqProd then
      done (s.setMbRegs mb { m with overrun := true })
    else
      let s1 := (List.range (aheadOf m.reqCons v.toNat)).foldl (fun s i => s.takeDescriptor mb (m.reqCons + i)) s
      done (s1.setMbRegs mb { m with reqProd := v.toNat, reqCons := v.toNat })

/-- The host has consumed completions up to `v`: a ring with room no longer stalls (R369). -/
def MbRegs.consume (m : MbRegs) (v : Nat) : MbRegs :=
  let m1 := { m with cplCons := v }
  if m1.full then m1 else { m1 with stalled := false }

/-- CPL_CONS_WRITE (R369): completion slots are free again, and what waits for one is written. -/
def execCplConsWrite (mb : HostMbId) (v : W32) (s : State) : Res :=
  let s1 := s.setMbRegs mb ((s.mbRegs mb).consume v.toNat)
  done (State.flushLine mb ((s1.box mb).line.length + 1) s1)

/-! ### DMA rings (R366) -/

/-- Limits of log2_entries of a ring (R366). -/
def ringLimits (g : Nat) : Nat × Nat := if g = 2 then (4, 16) else (8, 20)
/-- A ring has room for an entry (R366). -/
def RingRegs.room (r : RingRegs) : Bool := r.enable && decide ((r.prod + 2 ^ 32 - r.cons % 2 ^ 32) % 2 ^ 32 < 2 ^ r.log2)

/-- RING_CONS_WRITE (R366). -/
def execRingConsWrite (g : RingId) (v : W32) (s : State) : Res := done (s.setRing g { s.ringOf g with cons := v.toNat })

/-- RING_CTRL_WRITE (R366): a SIZE outside the limits, or a BASE_LO with any of bits [5:0] set, leaves the ring disabled. -/
def execRingCtrlWrite (g : RingId) (v : W32) (s : State) : Res :=
  let r := s.ringOf g
  let (lo, hi) := ringLimits g
  let ok := decide (lo ≤ r.log2 ∧ r.log2 ≤ hi ∧ r.base % 64 = 0)
  done (s.setRing g { r with enable := v.getLsbD 0 && (r.enable || ok), interrupt := v.getLsbD 1 })

/-! ### Other BAR0 writes (R363, R364) -/

/-- A mailbox register is written (Table 15-2). -/
def State.mbWrite (s : State) (mb off : Nat) (v : W32) : State :=
  let m := s.mbRegs mb
  if off = 0x10 then s.setMbRegs mb { m with enable := v.getLsbD 0, interrupt := v.getLsbD 1 }
  else if off = 0x14 then s.setMbRegs mb { m with overrun := m.overrun && !v.getLsbD 1 }
  else s

/-- A ring register is written: BASE and SIZE may change only while the ring is disabled (Table 15-7). -/
def State.ringWrite (s : State) (g off : Nat) (v : W32) : State :=
  let r := s.ringOf g
  if r.enable then s
  else if off = 0 then s.setRing g { r with base := r.base / 2 ^ 32 * 2 ^ 32 + v.toNat }
  else if off = 4 then s.setRing g { r with base := r.base % 2 ^ 32 + 2 ^ 32 * v.toNat }
  else if off = 8 then s.setRing g { r with log2 := v.toNat % 32 }
  else s

/-- A word of the MSI-X table is written; a vector that waited behind its mask bit is signalled once the bit is clear (Table 15-1, assumption
234). -/
def State.writeMsix (s : State) (i v : Nat) : State :=
  let n := i / 4
  let s1 := { s with host := { s.host with msix := Tab.put (msixReset i) s.host.msix i v } }
  if i % 4 = 3 ∧ !v.testBit 0 ∧ s.host.pba.testBit n then
    ({ s1 with host := { s1.host with pba := s1.host.pba ^^^ (1 <<< n) } }).emit (.msix n)
  else s1

/-- REGISTER_WRITE (R363): a write of a register or window without a row of its own; read-only and absent addresses ignore it, and so does an
unaligned access. -/
def execRegisterWrite (addr : Nat) (v : W32) (s : State) : Res :=
  if addr % 4 ≠ 0 then done s
  else if 0x100 ≤ addr ∧ addr < 0x200 then done (s.mbWrite ((addr - 0x100) / 0x20) (addr % 0x20) v)
  else if 0x200 ≤ addr ∧ addr < 0x260 then done (s.ringWrite ((addr - 0x200) / 0x20) (addr % 0x20) v)
  else if 0x1000 ≤ addr ∧ addr < 0x1400 then
    done (s.writeMsix ((addr - 0x1000) / 4) v.toNat)
  else if 0x100000 ≤ addr ∧ addr < 0x900000 then
    done { s with host := { s.host with windows := Tab.putBytes s.host.windows (addr - 0x100000) (natLe 4 v.toNat) } }
  else done s

/-! ### BAR0 reads (R14, R15, R363, R364) -/

/-- A global register reads (Tables 15-2 to 15-5): read-only and writable fields as they stand, INT_SET as INT_CAUSE, a reserved field 0. -/
def State.readGlobal (s : State) (off : Nat) : Nat :=
  match off with
  | 0x00 => 0x9600A200
  | 0x04 => s.trust.firmware
  | 0x08 => Config.serial % 2 ^ 32
  | 0x0C => Config.serial / 2 ^ 32 % 2 ^ 32
  | 0x10 => s.status
  | 0x14 => s.keeper.boot % 2 ^ 32
  | 0x20 | 0x28 => s.host.intCause &&& intBits
  | 0x24 => s.host.intMask &&& intBits
  | 0x30 => s.host.eventLost
  | _ => 0

/-- A register of mailbox `mb` reads (Tables 15-2 and 15-6). -/
def State.readMb (s : State) (mb off : Nat) : Nat :=
  let m := s.mbRegs mb
  let b := s.box mb
  match off with
  | 0x00 => m.reqProd
  | 0x04 => m.reqCons
  | 0x08 => m.cplProd
  | 0x0C => m.cplCons
  | 0x10 => b2n m.enable + 2 * b2n m.interrupt
  | 0x14 => b2n (!b.taken.isEmpty || !b.gap.isEmpty || !b.line.isEmpty) + 2 * b2n m.overrun + 4 * b2n m.stalled
  | _ => 0

/-- A register of DMA ring `g` reads (Tables 15-2 and 15-7). -/
def State.readRing (s : State) (g off : Nat) : Nat :=
  let r := s.ringOf g
  match off with
  | 0x00 => r.base % 2 ^ 32
  | 0x04 => r.base / 2 ^ 32
  | 0x08 => r.log2
  | 0x0C => r.prod
  | 0x10 => r.cons
  | 0x14 => b2n r.enable + 2 * b2n r.interrupt
  | 0x18 => b2n (decide ((r.prod + 2 ^ 32 - r.cons % 2 ^ 32) % 2 ^ 32 = 2 ^ r.log2))
  | _ => 0

/-- What a 32-bit read of BAR0 returns (R363, R364): an address that Table 15-1 does not name, and one that is not aligned, reads 0. Only a
read of EVENT_LOST changes the state, in its own row. -/
def State.readRegister (s : State) (addr : Nat) : Nat :=
  if addr % 4 ≠ 0 then 0
  else if addr < 0x100 then s.readGlobal addr
  else if addr < 0x200 then s.readMb ((addr - 0x100) / 0x20) (addr % 0x20)
  else if addr < 0x260 then s.readRing ((addr - 0x200) / 0x20) (addr % 0x20)
  else if 0x1000 ≤ addr ∧ addr < 0x1400 then s.msixWord ((addr - 0x1000) / 4)
  else if addr = 0x1800 then s.host.pba % 2 ^ 32
  else if addr = 0x1804 then s.host.pba / 2 ^ 32
  else if 0x100000 ≤ addr ∧ addr < 0x900000 then leAt (Tab.getBytes s.host.windows (addr - 0x100000) 4) 0 4
  else 0

/-- PCIE_FUNCTION_RESET (R362): the function only. -/
def execPcieFunctionReset (s : State) : Res :=
  let n := (s.masterQ 1).queue.length
  let h := { s.host with intCause := 0, intMask := 0, eventLost := 0, mbs := [], rings := [], msix := [], pba := 0, masters := Tab.erase s.host.masters 1 }
  let s1 := (List.range 8).foldl (fun s mb =>
    let b := s.box mb
    s.setBox mb { b with taken := [], gap := [], gapAt := none, line := [] }) { s with host := h }
  done (if n = 0 then s1 else s1.hostLost n)

/-! ### Events (R367) -/

/-- Master code of Table 16-4. -/
def masterNum : Master → Nat
  | .supervisor => 0
  | .host => 1
  | .twin => 2
  | .jtag => 3
  | .bootKeeper => 4

/-- The event ring is full: the next event is dropped and counted, and an events-lost record waits in its place (R367). -/
def State.dropForRing (s : State) (q : MasterQ) : State :=
  match q.queue with
  | [] => s
  | x :: rest =>
    let lostRec (n first : Nat) : EventRec := { x with code := 0x0101, masked := false, source := srcDevice, body := natLe 4 n ++ natLe 8 first }
    let (dropped, queue) :=
      if x.code = 0x0101 then (match rest with
        | [] => (false, q.queue)
        | _ :: more => (true, lostRec (leAt x.body 0 4 + 1) (leAt x.body 4 8) :: more))
      else (true, lostRec 1 x.index :: rest)
    let s1 := { s with host := { s.host with masters := Tab.put {} s.host.masters 1 { q with queue := queue } } }
    if dropped then s1.hostLost else s1

/-- EVENT_DELIVERY (R367, R376): the oldest event goes to the host by the event ring, to the supervisor and the twin as a Guolo message; of
signed events up to 20 go to the supervisor in one message, while the rate limit has room. Events wait while no management-core pair is in
service (Table 17-7), and while a switchover has quiesced Scemas (Table 20-5). -/
def execEventDelivery (m : Master) (s : State) : Res :=
  let q := s.masterQ (masterNum m)
  if !s.scemasRuns ∨ s.quiesced then done s
  else match q.queue with
  | [] => done s
  | e :: _ =>
    let s1 := s.popEvents (masterNum m) 1
    match m with
    | .host =>
      let r := s.ringOf 0
      if !r.enable then done s
      else if r.room then
        let s2 := (s1.emit (.dma 0 (r.prod % 2 ^ r.log2) e.bytes)).setRing 0 { r with prod := (r.prod + 1) % 2 ^ 32 }
        done (s2.interrupt 8 r.interrupt)
      else done (s.dropForRing q)
    | .supervisor =>
      if allZero s.supervisor then done s
      else if !s.mgmtSigned then done (s1.mgmtSend s.supervisor 8 (guoloOut 4 e.code (e.index % 2 ^ 32) 0 e.bytes false))
      else if !s.host.mgmtOut.isEmpty ∨ !s.mgmtSlot then done s
      else
        let es := q.queue.take 20
        done ((s.popEvents 0 es.length).mgmtSend s.supervisor 8
          (guoloOut 4 e.code (e.index % 2 ^ 32) 0 ((es.map EventRec.bytes).flatten) true))
    | .twin => if s.sheaf.twin = 1 then done (s1.tell (.guolo (guoloOut 4 e.code (e.index % 2 ^ 32) 0 e.bytes false))) else done s
    | .jtag | .bootKeeper => done s

/-! ### MGMT (R375, R376) -/

/-- The MGMT bucket lets a frame pass: 20,000 per second, burst 512 (R375). -/
def State.mgmtTake (s : State) : Bool × State :=
  let unit := 9000000000
  let full := 512 * unit
  let t := if s.host.mgmtStarted then min full (s.host.mgmtTokens + 20000 * (s.now - s.host.mgmtAt)) else full
  let ok := decide (unit ≤ t)
  (ok, { s with host := { s.host with mgmtTokens := if ok then t - unit else t, mgmtAt := s.now, mgmtStarted := true } })

/-- The partial message of a mailbox is discarded and counted (R376). -/
def Mailbox.scrap (b : Mailbox) : Mailbox :=
  if b.frags.isEmpty then b else { b with frags := [], fragTotal := 0, fragCount := 0, discards := b.discards + 1 }

/-- A fragment joins its message; the last one completes it (R376). -/
def State.fragment (s : State) (src : Bytes) (mb frag frags total : Nat) (bs : Bytes) : State :=
  let b0 := s.box mb
  let same := b0.fragCount = frags ∧ b0.fragTotal = total ∧ b0.fragSrc = src
  let b := if b0.frags.isEmpty ∨ same then b0 else b0.scrap
  let b1 := { b with frags := Tab.insert b.frags frag bs, fragTotal := total, fragCount := frags, fragSrc := src,
                      fragAt := if b.frags.isEmpty then s.now else b.fragAt }
  if b1.frags.length < frags then s.setBox mb b1
  else
    let m := ((Tab.values b1.frags).flatten).take total
    let t : Taken := { seq := leAt m 4 4, opcode := leAt m 0 2, bytes := m, src := src }
    s.setBox mb { b1 with frags := [], fragTotal := 0, fragCount := 0, taken := b1.taken ++ [t] }

/-- MGMT_FRAME_RECEIVE (R375, R376). -/
def execMgmtFrameReceive (src payload : Bytes) (s : State) : Res :=
  let (ok, s1) := s.mgmtTake
  if !ok then done (s1.countDevice 8)
  else
    let mb := beAt payload 3 1
    let frag := beAt payload 4 2
    let frags := beAt payload 6 2
    if payload.length < 12 ∨ beAt payload 0 2 ≠ 0x4755 ∨ beAt payload 2 1 ≠ 1 ∨ mb < 8 ∨ 11 < mb ∨ frags ≤ frag then done s1
    else done (s1.fragment src mb frag frags (beAt payload 8 4) (payload.drop 12))

/-- MGMT_REASSEMBLY_TIMEOUT (R376): 100 ms after the first fragment. -/
def execMgmtReassemblyTimeout (mb : MbId) (s : State) : Res :=
  let b := s.box mb
  if !b.frags.isEmpty ∧ b.fragAt + ms 100 ≤ s.now then done (s.setBox mb b.scrap) else done s

/-- The gap of a mailbox is over: the next sequence is one past the highest refused, `top` ahead (R376). -/
def Mailbox.closeGap (b : Mailbox) (top : Nat) : Mailbox :=
  { b with gap := [], gapAt := none, next := (b.next + top + 1) % 2 ^ 32 }

/-- MGMT_GAP_TIMEOUT (R376): the held requests are refused with 0x0106, and the expected sequence becomes one past the highest refused. -/
def execMgmtGapTimeout (mb : MbId) (s : State) : Res :=
  let b := s.box mb
  if b.gapAt.any (fun t => decide (t + ns (s.sn 0x0F04) ≤ s.now)) then
    let held := b.gap.mergeSort (fun x y => decide (aheadOf b.next x.seq ≤ aheadOf b.next y.seq))
    let top := held.foldl (fun n t => max n (aheadOf b.next t.seq)) 0
    let s1 := s.setBox mb (b.closeGap top)
    done (held.foldl (fun s t =>
      let c : Completion := { seq := t.seq, opcode := t.opcode, status := 0x0106, tag := t.tag, stamp := s.stamp }
      s.deliver mb c) s1)
  else done s

/-! ### JTAG (R469) -/

/-- JTAG_MB14_DATA (R469): 32 bits are shifted into MB14; a whole message is a request of MB14. -/
def execJtagMb14Data (w : W32) (s : State) : Res :=
  let words := s.host.jtag ++ [w.toNat]
  let bs := words.flatMap (natLe 4)
  let whole := 32 + leAt bs 8 4 + 72 * (leAt bs 2 2 % 2)
  let s1 := { s with host := { s.host with jtag := words, bypass := false } }
  if 32 ≤ bs.length ∧ whole ≤ bs.length then
    let m := bs.take whole
    let t : Taken := { seq := leAt m 4 4, opcode := leAt m 0 2, bytes := m }
    let b := s1.box 14
    let s2 := s1.setBox 14 { b with taken := b.taken ++ [t] }
    done { s2 with host := { s2.host with jtag := [] } }
  else done s1

/-- JTAG_BYPASS (R469): the instruction 0xFF selects BYPASS, whose one bit passes through and changes nothing else. -/
def execJtagBypass (_b : Bool) (s : State) : Res := done { s with host := { s.host with bypass := true } }

/-! ### Long requests (R379) -/

/-- LONG_REQUEST_PROGRESS (R379): a progress event, each second, for the long request that a mailbox executes. -/
def execLongRequestProgress (mb : MbId) (percent : Nat) (s : State) : Res :=
  match s.host.longs.find? (fun x => x.mb == mb.val && x.kind != 0) with
  | none => done s
  | some x =>
    if s.now < x.at_ + sec 1 then done s else
    let s1 := { s with host := { s.host with
      progress := Tab.put 0 s.host.progress mb percent
      longs := s.host.longs.map (fun y => if y = x then { x with at_ := s.now } else y) } }
    done (s1.raise 0x0106 srcDevice (natLe 2 x.opcode ++ natLe 2 0 ++ natLe 4 x.seq ++ natLe 1 mb ++ natLe 1 percent))

end Sys2Proof.Machine
end

