-- ==== Sys2Proof/Machine/Images.lean ====
section
/-! DEFINITION. Images and their loads: the header and its checks, microcode, pattern sets and firmware, and the firmware switchover
(18_trust_boot_and_updates.md, R409 to R411, R418 to R420; R203, R254). -/

namespace Sys2Proof.Machine

/-! ### The image header (Tables 18-4 and 18-5) -/

/-- Fields of a header. -/
def imgKey (h : Bytes) : Nat := leAt h 6 2
def imgSv (h : Bytes) : Nat := leAt h 8 1
def imgBuild (h : Bytes) : Nat := leAt h 12 4
def imgLength (h : Bytes) : Nat := leAt h 16 4
def imgDigest (h : Bytes) : Bytes := slice h 32 64
/-- The payload of an image. -/
def imgPayload (b : Bytes) : Bytes := b.drop 192

/-- Largest payload of a type (Table 18-5). -/
def imgLimit (kind : Nat) : Nat :=
  match kind with
  | 1 => 2 ^ 22 - 192
  | 2 => 2 ^ 20 - 192
  | 3 => 24 * 4096
  | 4 => 2 ^ 24
  | _ => 2 ^ 26

/-- Flags that a type may carry, and those that it must: a patch set is encrypted, and only firmware revokes keys (assumption 65). -/
def imgFlagsOk (kind flags : Nat) : Bool :=
  match kind with
  | 1 => flags == 0 || flags == 2
  | 2 => flags == 1
  | _ => flags == 0

/-- The public key of a header: a Larzenu key that is not revoked for types 1 and 2, an owner key for the others, and for a package a key
that it lists (Table 18-5, R424). -/
def State.imgSigner (s : State) (kind : Nat) (b : Bytes) : Option Bytes :=
  let id := imgKey b
  let k := id % 256
  if kind ≤ 2 then (if id < 4 ∧ !s.trust.otp.revoked.testBit id then some (Config.larzenuKey id) else none)
  else if id < 0xFF00 ∨ 4 ≤ k then none
  else if kind = 5 then
    let key := slice (imgPayload b) (128 + 32 * k) 32
    if key.length = 32 ∧ leNat key ≠ 0 then some key else none
  else s.ownerKey k

/-- The offset of the first field of a header that fails (R410); a shorter image fails at its length. -/
def State.imgField (s : State) (kind : Nat) (b : Bytes) : Option Nat :=
  let h := padTo 192 b
  let p := imgPayload b
  let lengthOk : Bool := decide (192 ≤ b.length ∧ imgLength h = p.length ∧ p.length ≤ imgLimit kind) && (kind != 3 || p.length % 24 == 0)
  let signed : Bool := match s.imgSigner kind b with
    | some k => edVerify k (slice h 0 128) (slice h 128 64)
    | none => false
  let bad : List (Nat × Bool) :=
    [(0, leAt h 0 4 != 0x4C5A494D), (4, leAt h 4 1 != kind), (5, leAt h 5 1 != 1), (6, (s.imgSigner kind b).isNone),
     (9, !imgFlagsOk kind (leAt h 9 1)), (10, !(leAt h 10 2).testBit 0), (16, !lengthOk), (20, leNat (slice h 20 12) != 0),
     (32, sha512 p != imgDigest h), (108, leAt h 108 4 != 0), (128, !signed)]
  (bad.find? (fun (x : Nat × Bool) => x.2)).map (·.1)

/-- A patch set opens under the patch key (R411). -/
def patchOpens (b : Bytes) : Bool :=
  (Config.aesGcmOpen Config.patchKey (slice b 96 12) (slice b 0 96) (slice b 112 16) (imgPayload b)).isSome

/-- What is wrong with an image: the status of its refusal and the detail (R410, R411). -/
def State.imgFault (s : State) (kind : Nat) (b : Bytes) : Option (Nat × Nat) :=
  match s.imgField kind b with
  | some off => some (0x0B02, off)
  | none =>
    if kind ≤ 2 ∧ imgSv b < s.rollback (kind - 1) then some (0x0B03, 0)
    else if kind = 2 ∧ !patchOpens b then some (0x0B02, 112)
    else none

/-! ### Microcode (R192, R195, R203, R204, R411, R418) -/

/-- Words of a customer image, 24 bytes each, little-endian. -/
def microWords (p : Bytes) : List Nat := (List.range (p.length / 24)).map (fun i => leAt p (24 * i) 24)

/-- The memory operation of a word loads its data register (Table 8-6). -/
def loadsReg (op : Nat) : Bool := op == 1 || op == 3 || op == 7 || op == 14

/-- A word of a customer image passes the load (R192, R195, Tables 8-3, 8-5 and 8-6). -/
def microWordOk (w : Nat) : Bool :=
  let alu := bits w 191 184
  let mem := bits w 127 120
  let br := bits w 63 60
  let target := bits w 55 42
  bits w 162 160 == 0 && bits w 99 96 == 0 && bits w 41 0 == 0 && decide (alu ≤ 0x13 ∧ mem ≤ 0x10 ∧ br ≤ 4 ∧ bits w 109 104 < 8) &&
  (!(br == 1 || br == 2) || decide (0x3000 ≤ target)) && !(alu != 0 && loadsReg mem && bits w 183 179 == bits w 119 115)

/-- The shadow bank is busy: a switch is open or pending in a bale, or the old bank's epoch has not drained (R203, R204). -/
def State.shadowBusy (s : State) : Bool :=
  s.eng.oldBank.isSome || s.liveBales.any (fun b => b.hasOp 0x0B03)

/-- The shadow bank and its master copy take the contents of the bank in force, with the words of a customer image in place of the
customer region (R203). The words of a patch set are not readable and have no form in the spec; its digest stands for the Larzenu region
of the bank (assumption 66). -/
def State.fillShadow (s : State) (words : Option (List Nat)) (digest : Bytes) : State :=
  let cur := (verNow s.eng.bankSel).getD 0
  let to_ := 16384 * (1 - cur)
  let fill (t : Tab Nat) : Tab Nat :=
    let keep := t.filter (fun (x : Nat × Nat) => x.1 / 16384 == cur && (words.isNone || decide (x.1 % 16384 < 0x3000)))
    let others := t.filter (fun (x : Nat × Nat) => x.1 / 16384 == cur)
    let moved := keep.foldl (fun (m : Tab Nat) (x : Nat × Nat) => Tab.insert m (to_ + x.1 % 16384) x.2) others
    (words.getD []).zipIdx.foldl (fun (m : Tab Nat) (x : Nat × Nat) => Tab.put 0 m (to_ + 0x3000 + x.2) x.1) moved
  let patch_ := if words.isSome then Tab.get [] s.eng.larzenu cur else digest
  { s with eng := { s.eng with store := fill s.eng.store, master := fill s.eng.master
                               larzenu := Tab.put [] s.eng.larzenu (1 - cur) patch_
                               badWords := s.eng.badWords.filter (fun w => w / 16384 % 2 == cur) } }

/-- The patch set is written into the patch slot of the running image (R418). -/
def State.writePatch (s : State) (slot : Nat) (b : Bytes) : State :=
  let f := s.trust.flash
  let f2 : Flash := if slot = 0 then { f with slotA := { f.slotA with patch := b } } else { f with slotB := { f.slotB with patch := b } }
  { s with trust := { s.trust with flash := f2 } }

/-- A load has verified: the shadow bank is that of its handle. -/
def State.microLoaded (s : State) (kind : Nat) (b : Bytes) : Ans × State :=
  let h := s.eng.nextLoad
  let x : Load := { handle := h, kind := kind, digest := imgDigest b, sv := imgSv b, build := imgBuild b }
  let s1 := s.fillShadow (if kind = 3 then some (microWords (imgPayload b)) else none) (imgDigest b)
  let s2 : State := { s1 with eng := { s1.eng with loads := s1.eng.loads ++ [x], nextLoad := h + 1, shadow := some h } }
  let s3 := if kind = 3 then s2.measure 4 (imgDigest b) 0xFF (imgSv b) 0 (imgBuild b) else s2.writePatch s.trust.running b
  ({ resp := natLe 4 h }, s3)

/-- MICROCODE_LOAD (R203, R411, R418). -/
def execMicrocodeLoad (r : Request) (s : State) : Res :=
  done (s.directReq 0x0B02 1 r (fun _ s =>
    let b := r.payload
    let kind := if leAt b 4 1 = 2 then 2 else 3
    if s.shadowBusy then ({ status := 0x0B01 }, s)
    else match s.imgFault kind b with
      | some e => ({ status := e.1, detail := e.2 }, s)
      | none => match (if kind = 3 then (microWords (imgPayload b)).findIdx? (fun w => !microWordOk w) else none) with
        | some i => ({ status := 0x0B04, detail := i }, s)
        | none => s.microLoaded kind b))

/-- MICROCODE_READ (R190, R192, R411): words of the Larzenu region read 0. -/
def execMicrocodeRead (r : Request) (s : State) : Res :=
  s.plainRead 0x0B04 2 r (fun s =>
    let p := r.payload
    let bank := leAt p 8 1
    let first := leAt p 9 2
    let n := leAt p 11 2
    let word (i : Nat) : Bytes := natLe 24 (if i < 0x3000 then 0 else Tab.get 0 s.eng.store (16384 * bank + i))
    if p.length ≠ 13 then { status := 0x0301 }
    else match headerTargets [5] p 0 with
      | .error e => { status := e }
      | .ok (_, ts) =>
        if 2 ≤ bank ∨ 16384 < first + n then { status := 0x0302 }
        else { resp := (ts.map (fun _ => ((List.range n).map (fun i => word (first + i))).flatten)).flatten })

/-! ### Pattern sets (R250, R251, R254) -/

/-- The lowest base from `from_` on at which `n` entries fit beside ranges in ascending order, below 2^20 (R251, R254). -/
def fitRange (n : Nat) : List (Nat × Nat) → Nat → Option Nat
  | [], at_ => if at_ + n ≤ 2 ^ 20 then some at_ else none
  | (a, z) :: rest, at_ => if at_ + n ≤ a then some at_ else fitRange n rest (max at_ z)

/-- The base for an image beside some sets: entries and bytes must be free (R254). -/
def patternBase (sets : List PatternSet) (p : Bytes) : Option Nat :=
  let rs := (sets.map (fun x => (x.base, x.base + x.size))).mergeSort (fun a b => decide (a.1 ≤ b.1))
  if 2 ^ 24 < (sets.map (fun x => Config.dfaBytes x.image)).sum + Config.dfaBytes p then none else fitRange (Config.dfaStates p) rs 1

/-- A pattern set takes its range. -/
def State.placePattern (s : State) (b : Bytes) (base : Nat) : Ans × State :=
  let h := s.eng.nextLoad
  let x : PatternSet := { handle := h, image := imgPayload b, base := base, size := Config.dfaStates (imgPayload b) }
  let s1 : State := { s with eng := { s.eng with nextLoad := h + 1 }, awn := { s.awn with sets := s.awn.sets ++ [x] } }
  ({ resp := natLe 4 h }, s1.measure 5 (imgDigest b) 0xFF (imgSv b) 0 (imgBuild b))

/-- PATTERN_LOAD (R250, R254): room that only a superseded set holds is refused with 0x0705. -/
def execPatternLoad (r : Request) (s : State) : Res :=
  done (s.directReq 0x0507 1 r (fun _ s =>
    let b := r.payload
    match s.imgFault 4 b with
    | some e => ({ status := e.1, detail := e.2 }, s)
    | none => match Config.dfaBad (imgPayload b) with
      | some i => ({ status := 0x0B04, detail := i }, s)
      | none => match patternBase s.awn.sets (imgPayload b) with
        | some base => s.placePattern b base
        | none =>
          let live := s.awn.sets.filter (fun x => x.till.isNone)
          ({ status := if (patternBase live (imgPayload b)).isSome then 0x0705 else 0x0503 }, s)))

/-! ### Firmware load (R414, R418, R428) -/

/-- An image and its patch set are written into a slot. -/
def State.writeSlot (s : State) (slot : Nat) (image patch : Bytes) : State :=
  let f := s.trust.flash
  let x : FlashSlot := { image := image, patch := patch }
  { s with trust := { s.trust with flash := if slot = 0 then { f with slotA := x } else { f with slotB := x } } }

/-- FIRMWARE_LOAD (R418): the image, then the patch set that follows it. In recovery the slot loaded is the preferred one, and the device
resets (R414, assumption 67). -/
def execFirmwareLoad (r : Request) (s : State) : Res :=
  let recovery := s.trust.recovery == 1
  let slot := if recovery then s.trust.flash.record.2.1 else 1 - s.trust.running
  let n := 192 + imgLength r.payload
  let image := r.payload.take n
  let patch := r.payload.drop n
  let s1 := s.directReq 0x0B05 1 r (fun _ s =>
    if s.trust.switchover.any (fun x => x.slot == slot) then ({ status := 0x0304 }, s)
    else match s.imgFault 1 image <|> s.imgFault 2 patch with
      | some e => ({ status := e.1, detail := e.2 }, s)
      | none =>
        let s2 := s.writeSlot slot image patch
        ({}, if recovery then s2.writeBoot slot 0 else s2))
  let loaded := decide (s1.trust.flash ≠ s.trust.flash)
  done (if recovery ∧ loaded then s1.internalReset else s1)

/-! ### Firmware switchover (R419, R420) -/

/-- Header of the image in a slot. A slot that nothing has written since the model's beginning holds an image that the model does not
know: its header is free (assumption 68). -/
def State.slotHeader (s : State) (slot : Nat) : Bytes × State :=
  let x := if slot = 0 then s.trust.flash.slotA else s.trust.flash.slotB
  if x.image.isEmpty then s.drawBytes 192 else (x.image.take 192, s)

/-- The check of a slot's image and patch set, where the model knows them (R410, R419). -/
def State.slotFault (s : State) (slot : Nat) : Option (Nat × Nat) :=
  let x := if slot = 0 then s.trust.flash.slotA else s.trust.flash.slotB
  (if x.image.isEmpty then none else s.imgFault 1 x.image) <|> (if x.patch.isEmpty then none else s.imgFault 2 x.patch)

/-- Event body of a switchover (Table 16-9). -/
def switchBody (slot : Nat) (h : Bytes) : Bytes := natLe 1 slot ++ [0] ++ natLe 2 (imgBuild h)

/-- FIRMWARE_SWITCH, step 1 (R419). -/
def execFirmwareSwitch (r : Request) (s : State) : Res :=
  done (s.directReq 0x0B06 3 r (fun _ s =>
    let slot := leAt r.payload 0 1
    if r.payload.length ≠ 1 then ({ status := 0x0301 }, s)
    else if 2 ≤ slot then ({ status := 0x0302 }, s)
    else if s.host.longs.any (fun x => x.kind == 1 || x.kind == 2 || x.kind == 3) ∨ s.fault.drain.isSome then ({ status := 0x0304 }, s)
    else
      let (h, s1) := s.slotHeader slot
      let w : Switchover := { slot := slot, header := h }
      let s2 : State := { s1 with trust := { s1.trust with switchover := some w } }
      ({ later := [(3, 0)] }, s2.raise 0x0B01 srcDevice (switchBody slot h))))

/-- The switchover ends without its effect, with a status. -/
def State.endSwitch (s : State) (status detail : Nat) : State :=
  (({ s with trust := { s.trust with switchover := none } }).noteStatus).endLong 3 0 status detail [] 0

/-- SWITCHOVER_IMAGE_STAGED, step 2 (R419): on a failure of the check the request completes with its status; else the mailboxes are
quiesced. -/
def execSwitchoverImageStaged (ok : Bool) (s : State) : Res :=
  match s.trust.switchover with
  | none => done s
  | some x =>
    if x.quiesced.isSome then done s
    else match s.slotFault x.slot with
      | some e => done (s.endSwitch e.1 e.2)
      | none =>
        if !ok then
          let (w, s1) := s.draw
          done (s1.endSwitch 0x0B02 (w.toNat % 2 ^ 32))
        else
          let y : Switchover := { x with quiesced := some s.now }
          done ({ s with trust := { s.trust with switchover := some y } }).noteStatus

/-- Keys below the new image's key are revoked when its header says so (R420). -/
def State.revokeBelow (s : State) (h : Bytes) : State :=
  if (leAt h 9 1).testBit 1 then
    let o := s.trust.otp
    { s with trust := { s.trust with otp := { o with revoked := o.revoked ||| (2 ^ (imgKey h % 4) - 1) } } }
  else s

/-- SWITCHOVER_HANDOVER_DONE, steps 4 and 5 (R419 to R421). -/
def execSwitchoverHandoverDone (s : State) : Res :=
  match s.trust.switchover with
  | none => done s
  | some x =>
    if x.quiesced.isNone then done s
    else
      let h := x.header
      let t := s.trust
      let (w, s0) := s.draw
      let fw := w.toNat % 65536 * 65536 + imgBuild h % 65536
      let s1 : State := { s0 with trust := { t with
        switchover := none, running := x.slot, firmware := fw, imageSv := imgSv h } }
      let s2 := (s1.writeBoot x.slot 0).revokeBelow h
      let s3 := (s2.measure 2 (imgDigest h) x.slot (imgSv h) 0 (imgBuild h)).noteStatus
      done ((s3.raise 0x0B02 srcDevice (switchBody x.slot h)).endLong 3 0 0 0 [] 0)

/-- SWITCHOVER_TIMEOUT (R419): the new image has not started its threads 40 ms after step 3; the old image resumes. -/
def execSwitchoverTimeout (s : State) : Res :=
  match s.trust.switchover with
  | none => done s
  | some x => if x.quiesced.any (fun t => decide (t + ms 40 ≤ s.now)) then done (s.endSwitch 0x0001 0) else done s

end Sys2Proof.Machine
end

