-- ==== Sys2Proof/Machine/RecordCmds.lean ====
section
/-! DEFINITION. The bale actions of Table 16-6 (use B, R386, R387): each joins the open bale that its header names, after the checks of its
own record, and takes effect at the commit tick. -/

namespace Sys2Proof.Machine

/-- GATE_LIST_SET (R60). -/
def execGateListSet (r : Request) (s : State) : Res := done (s.baleReq 0x0306 1 r)

/-- WINDOW_SET (R64). -/
def execWindowSet (r : Request) (s : State) : Res := done (s.baleReq 0x0307 1 r)

/-- BRIDGE_ENTRY_SET (R115). -/
def execBridgeEntrySet (r : Request) (s : State) : Res := done (s.baleReq 0x0407 1 r)

/-- VLAN_SET (R124). -/
def execVlanSet (r : Request) (s : State) : Res := done (s.baleReq 0x0408 1 r)

/-- ROUTER_MAC_SET (R126). -/
def execRouterMacSet (r : Request) (s : State) : Res := done (s.baleReq 0x0409 1 r)

/-- PREFIX_SET (R128). -/
def execPrefixSet (r : Request) (s : State) : Res := done (s.baleReq 0x040A 1 r)

/-- NEXT_HOP_SET (R128). -/
def execNextHopSet (r : Request) (s : State) : Res := done (s.baleReq 0x040B 1 r)

/-- MULTIPATH_SET (R128). -/
def execMultipathSet (r : Request) (s : State) : Res := done (s.baleReq 0x040C 1 r)

/-- AGGREGATION_GROUP_SET (R131). -/
def execAggregationGroupSet (r : Request) (s : State) : Res := done (s.baleReq 0x040D 1 r)

/-- MATCH_ROW_SET (R247). -/
def execMatchRowSet (r : Request) (s : State) : Res := done (s.baleReq 0x040E 1 r)

/-- MATCH_BANK_SET (R240). -/
def execMatchBankSet (r : Request) (s : State) : Res := done (s.baleReq 0x040F 1 r)

/-- FLOW_PROFILE_SET (R137). -/
def execFlowProfileSet (r : Request) (s : State) : Res := done (s.baleReq 0x0501 1 r)

/-- FLOW_RECORD_SET (R154). -/
def execFlowRecordSet (r : Request) (s : State) : Res := done (s.baleReq 0x0502 1 r)

/-- OBJECT_WRITE (R196). -/
def execObjectWrite (r : Request) (s : State) : Res := done (s.baleReq 0x0506 1 r)

/-- PATTERN_SWITCH (R254). -/
def execPatternSwitch (r : Request) (s : State) : Res := done (s.baleReq 0x0508 1 r)

/-- LB_GROUP_SET (R212). -/
def execLbGroupSet (r : Request) (s : State) : Res := done (s.baleReq 0x0509 1 r)

/-- LB_MEMBER_SET (R213). -/
def execLbMemberSet (r : Request) (s : State) : Res := done (s.baleReq 0x050A 1 r)

/-- TRANSLATION_POOL_SET (R217). -/
def execTranslationPoolSet (r : Request) (s : State) : Res := done (s.baleReq 0x050B 1 r)

/-- GATE_PROFILE_SET (R258). -/
def execGateProfileSet (r : Request) (s : State) : Res := done (s.baleReq 0x0601 1 r)

/-- KEY_RING_SET (R265). -/
def execKeyRingSet (r : Request) (s : State) : Res := done (s.baleReq 0x0602 3 r)

/-- PERMIT_REVOKE (R291). -/
def execPermitRevoke (r : Request) (s : State) : Res := done (s.baleReq 0x060A 1 r)

/-- MICROCODE_SWITCH (R204). -/
def execMicrocodeSwitch (r : Request) (s : State) : Res := done (s.baleReq 0x0B03 1 r)

end Sys2Proof.Machine
end

