-- ==== Sys2Proof/Machine/SettingsCmds.lean ====
section
/-! DEFINITION. The settings commands of Table 16-6 (use S), their reads, and the rows of single items of theirs (R383 to R385). -/

namespace Sys2Proof.Machine

/-- The read of a settings command: the items of each target named, as of the last commit tick (R381, R383). -/
def State.settingsAns (s : State) (op : Nat) (r : Request) : Ans :=
  if r.bale ≠ 0 then { status := 0x0304 } else s.readItems op r.expert (masterOf r.mb) r.payload

/-- A settings command: a change, or its read where every row of the command is expert and the form is basic (R383). -/
def State.settingsSet (s : State) (op cls : Nat) (r : Request) : State :=
  if allExpert op ∧ !r.expert then
    s.request op 0 true r (fun _ s => ({ s.settingsAns op r with tick := s.bales.lastTick }, s))
  else s.changeReq op cls r

/-- The read 0xGG(cc + 0x80) of the settings command 0xGGcc: class 0, or 2 in the expert form (R383). -/
def State.settingsRead (s : State) (op : Nat) (r : Request) : State :=
  s.request (op + 0x80) 0 true r (fun _ s => ({ s.settingsAns op r with tick := s.bales.lastTick }, s))

/-- FULL_LANE_RECALIBRATION (R91): Lane recalibrate set with that item. -/
def execFullLaneRecalibration (r : Request) (s : State) : Res := done (s.settingsSet 0x0209 1 r)

/-- EVENT_SUBSCRIBE (R367). -/
def execEventSubscribe (r : Request) (s : State) : Res := done (s.settingsSet 0x0102 1 r)

/-- EVENT_SUBSCRIBE_READ (R383). -/
def execEventSubscribeRead (r : Request) (s : State) : Res := done (s.settingsRead 0x0102 r)

/-- MANAGEMENT_PORT_SET (R375). -/
def execManagementPortSet (r : Request) (s : State) : Res := done (s.settingsSet 0x0103 1 r)

/-- MANAGEMENT_PORT_SET_READ (R383). -/
def execManagementPortSetRead (r : Request) (s : State) : Res := done (s.settingsRead 0x0103 r)

/-- ENGINE_SET (R206). -/
def execEngineSet (r : Request) (s : State) : Res := done (s.settingsSet 0x0104 1 r)

/-- ENGINE_SET_READ (R383). -/
def execEngineSetRead (r : Request) (s : State) : Res := done (s.settingsRead 0x0104 r)

/-- ENGINE_FENCE_OR_RETURN (R206): Engine set with that item. -/
def execEngineFenceOrReturn (r : Request) (s : State) : Res := done (s.settingsSet 0x0104 1 r)

/-- FAULT_POLICY_SET (R407). -/
def execFaultPolicySet (r : Request) (s : State) : Res := done (s.settingsSet 0x0106 1 r)

/-- FAULT_POLICY_SET_READ (R383). -/
def execFaultPolicySetRead (r : Request) (s : State) : Res := done (s.settingsRead 0x0106 r)

/-- SLICE_DRAIN_AND_RESET (R401): Fault policy set with that item. -/
def execSliceDrainAndReset (r : Request) (s : State) : Res := done (s.settingsSet 0x0106 1 r)

/-- CLEAR_SAFE_STATE (R399): Fault policy set with that item. -/
def execClearSafeState (r : Request) (s : State) : Res := done (s.settingsSet 0x0106 1 r)

/-- PORT_MODE_SET (R74). -/
def execPortModeSet (r : Request) (s : State) : Res := done (s.settingsSet 0x0201 1 r)

/-- PORT_MODE_SET_READ (R383). -/
def execPortModeSetRead (r : Request) (s : State) : Res := done (s.settingsRead 0x0201 r)

/-- LANE_CONFIG_SET (R75). -/
def execLaneConfigSet (r : Request) (s : State) : Res := done (s.settingsSet 0x0202 1 r)

/-- LANE_CONFIG_SET_READ (R383). -/
def execLaneConfigSetRead (r : Request) (s : State) : Res := done (s.settingsRead 0x0202 r)

/-- PORT_TRAINING_SET (R81). -/
def execPortTrainingSet (r : Request) (s : State) : Res := done (s.settingsSet 0x0203 1 r)

/-- PORT_TRAINING_SET_READ (R383). -/
def execPortTrainingSetRead (r : Request) (s : State) : Res := done (s.settingsRead 0x0203 r)

/-- PORT_DAMPING_SET (R82). -/
def execPortDampingSet (r : Request) (s : State) : Res := done (s.settingsSet 0x0204 1 r)

/-- PORT_DAMPING_SET_READ (R383). -/
def execPortDampingSetRead (r : Request) (s : State) : Res := done (s.settingsRead 0x0204 r)

/-- PORT_PAUSE_SET (R83). -/
def execPortPauseSet (r : Request) (s : State) : Res := done (s.settingsSet 0x0205 1 r)

/-- PORT_PAUSE_SET_READ (R383). -/
def execPortPauseSetRead (r : Request) (s : State) : Res := done (s.settingsRead 0x0205 r)

/-- PORT_POLICER_SET (R85). -/
def execPortPolicerSet (r : Request) (s : State) : Res := done (s.settingsSet 0x0206 1 r)

/-- PORT_POLICER_SET_READ (R383). -/
def execPortPolicerSetRead (r : Request) (s : State) : Res := done (s.settingsRead 0x0206 r)

/-- LANE_TEST_SET (R86). -/
def execLaneTestSet (r : Request) (s : State) : Res := done (s.settingsSet 0x0207 1 r)

/-- LANE_TEST_SET_READ (R383). -/
def execLaneTestSetRead (r : Request) (s : State) : Res := done (s.settingsRead 0x0207 r)

/-- LANE_POWER_SET (R88). -/
def execLanePowerSet (r : Request) (s : State) : Res := done (s.settingsSet 0x0208 1 r)

/-- LANE_POWER_SET_READ (R383). -/
def execLanePowerSetRead (r : Request) (s : State) : Res := done (s.settingsRead 0x0208 r)

/-- LANE_RECALIBRATE_SET (R90). -/
def execLaneRecalibrateSet (r : Request) (s : State) : Res := done (s.settingsSet 0x0209 1 r)

/-- LANE_RECALIBRATE_SET_READ (R383). -/
def execLaneRecalibrateSetRead (r : Request) (s : State) : Res := done (s.settingsRead 0x0209 r)

/-- OTN_OVERHEAD_SET (R100). -/
def execOtnOverheadSet (r : Request) (s : State) : Res := done (s.settingsSet 0x020A 1 r)

/-- OTN_OVERHEAD_SET_READ (R383). -/
def execOtnOverheadSetRead (r : Request) (s : State) : Res := done (s.settingsRead 0x020A r)

/-- OTN_MAINTENANCE_SET (R102). -/
def execOtnMaintenanceSet (r : Request) (s : State) : Res := done (s.settingsSet 0x020B 1 r)

/-- OTN_MAINTENANCE_SET_READ (R383). -/
def execOtnMaintenanceSetRead (r : Request) (s : State) : Res := done (s.settingsRead 0x020B r)

/-- BUFFER_POOL_SET (R294). -/
def execBufferPoolSet (r : Request) (s : State) : Res := done (s.settingsSet 0x020C 1 r)

/-- BUFFER_POOL_SET_READ (R383). -/
def execBufferPoolSetRead (r : Request) (s : State) : Res := done (s.settingsRead 0x020C r)

/-- PORT_QUEUE_SET (R300). -/
def execPortQueueSet (r : Request) (s : State) : Res := done (s.settingsSet 0x020D 1 r)

/-- PORT_QUEUE_SET_READ (R383). -/
def execPortQueueSetRead (r : Request) (s : State) : Res := done (s.settingsRead 0x020D r)

/-- PORT_SCHEDULER_SET (R306). -/
def execPortSchedulerSet (r : Request) (s : State) : Res := done (s.settingsSet 0x020E 1 r)

/-- PORT_SCHEDULER_SET_READ (R383). -/
def execPortSchedulerSetRead (r : Request) (s : State) : Res := done (s.settingsRead 0x020E r)

/-- TILLER_REFERENCE_SET (R69). -/
def execTillerReferenceSet (r : Request) (s : State) : Res := done (s.settingsSet 0x0301 1 r)

/-- TILLER_REFERENCE_SET_READ (R383). -/
def execTillerReferenceSetRead (r : Request) (s : State) : Res := done (s.settingsRead 0x0301 r)

/-- TILLER_HOLDOVER_SET (R69). -/
def execTillerHoldoverSet (r : Request) (s : State) : Res := done (s.settingsSet 0x0302 1 r)

/-- TILLER_HOLDOVER_SET_READ (R383). -/
def execTillerHoldoverSetRead (r : Request) (s : State) : Res := done (s.settingsRead 0x0302 r)

/-- TILLER_MODE_SET (R51). -/
def execTillerModeSet (r : Request) (s : State) : Res := done (s.settingsSet 0x0303 1 r)

/-- TILLER_MODE_SET_READ (R383). -/
def execTillerModeSetRead (r : Request) (s : State) : Res := done (s.settingsRead 0x0303 r)

/-- TILLER_TIME_SOURCE_SET (R52). -/
def execTillerTimeSourceSet (r : Request) (s : State) : Res := done (s.settingsSet 0x0304 1 r)

/-- TILLER_TIME_SOURCE_SET_READ (R383). -/
def execTillerTimeSourceSetRead (r : Request) (s : State) : Res := done (s.settingsRead 0x0304 r)

/-- TILLER_OUTPUT_SET (R66). -/
def execTillerOutputSet (r : Request) (s : State) : Res := done (s.settingsSet 0x0305 1 r)

/-- TILLER_OUTPUT_SET_READ (R383). -/
def execTillerOutputSetRead (r : Request) (s : State) : Res := done (s.settingsRead 0x0305 r)

/-- BRIDGE_TABLE_SET (R114). -/
def execBridgeTableSet (r : Request) (s : State) : Res := done (s.settingsSet 0x0401 1 r)

/-- BRIDGE_TABLE_SET_READ (R383). -/
def execBridgeTableSetRead (r : Request) (s : State) : Res := done (s.settingsRead 0x0401 r)

/-- BRIDGE_LEARN_SET (R116). -/
def execBridgeLearnSet (r : Request) (s : State) : Res := done (s.settingsSet 0x0402 1 r)

/-- BRIDGE_LEARN_SET_READ (R383). -/
def execBridgeLearnSetRead (r : Request) (s : State) : Res := done (s.settingsRead 0x0402 r)

/-- BRIDGE_AGEING_SET (R121). -/
def execBridgeAgeingSet (r : Request) (s : State) : Res := done (s.settingsSet 0x0403 1 r)

/-- BRIDGE_AGEING_SET_READ (R383). -/
def execBridgeAgeingSetRead (r : Request) (s : State) : Res := done (s.settingsRead 0x0403 r)

/-- ROUTE_OPTIONS_SET (R127). -/
def execRouteOptionsSet (r : Request) (s : State) : Res := done (s.settingsSet 0x0405 1 r)

/-- ROUTE_OPTIONS_SET_READ (R383). -/
def execRouteOptionsSetRead (r : Request) (s : State) : Res := done (s.settingsRead 0x0405 r)

/-- AGGREGATION_SET (R133). -/
def execAggregationSet (r : Request) (s : State) : Res := done (s.settingsSet 0x0406 1 r)

/-- AGGREGATION_SET_READ (R383). -/
def execAggregationSetRead (r : Request) (s : State) : Res := done (s.settingsRead 0x0406 r)

/-- MATCH_ARRAY_SET (R248). -/
def execMatchArraySet (r : Request) (s : State) : Res := done (s.settingsSet 0x0410 1 r)

/-- MATCH_ARRAY_SET_READ (R383). -/
def execMatchArraySetRead (r : Request) (s : State) : Res := done (s.settingsRead 0x0410 r)

/-- FLOW_AGEING_SET (R151). -/
def execFlowAgeingSet (r : Request) (s : State) : Res := done (s.settingsSet 0x0503 1 r)

/-- FLOW_AGEING_SET_READ (R383). -/
def execFlowAgeingSetRead (r : Request) (s : State) : Res := done (s.settingsRead 0x0503 r)

/-- FLOW_TABLE_SET (R162). -/
def execFlowTableSet (r : Request) (s : State) : Res := done (s.settingsSet 0x0504 1 r)

/-- FLOW_TABLE_SET_READ (R383). -/
def execFlowTableSetRead (r : Request) (s : State) : Res := done (s.settingsRead 0x0504 r)

/-- EXPORT_SET (R231). -/
def execExportSet (r : Request) (s : State) : Res := done (s.settingsSet 0x050C 1 r)

/-- EXPORT_SET_READ (R383). -/
def execExportSetRead (r : Request) (s : State) : Res := done (s.settingsRead 0x050C r)

/-- GATE_INTAKE_SET (R263). -/
def execGateIntakeSet (r : Request) (s : State) : Res := done (s.settingsSet 0x0603 1 r)

/-- GATE_INTAKE_SET_READ (R383). -/
def execGateIntakeSetRead (r : Request) (s : State) : Res := done (s.settingsRead 0x0603 r)

/-- GATE_OPTIONS_SET (R293). -/
def execGateOptionsSet (r : Request) (s : State) : Res := done (s.settingsSet 0x0604 1 r)

/-- GATE_OPTIONS_SET_READ (R383). -/
def execGateOptionsSetRead (r : Request) (s : State) : Res := done (s.settingsRead 0x0604 r)

/-- LEDGER_OPTIONS_SET (R287). -/
def execLedgerOptionsSet (r : Request) (s : State) : Res := done (s.settingsSet 0x0605 6 r)

/-- LEDGER_OPTIONS_SET_READ (R383). -/
def execLedgerOptionsSetRead (r : Request) (s : State) : Res := done (s.settingsRead 0x0605 r)

/-- BALE_OPTIONS_SET (R182). -/
def execBaleOptionsSet (r : Request) (s : State) : Res := done (s.settingsSet 0x0705 1 r)

/-- BALE_OPTIONS_SET_READ (R383). -/
def execBaleOptionsSetRead (r : Request) (s : State) : Res := done (s.settingsRead 0x0705 r)

/-- MEMORY_SCHEDULER_SET (R328). -/
def execMemorySchedulerSet (r : Request) (s : State) : Res := done (s.settingsSet 0x0801 1 r)

/-- MEMORY_SCHEDULER_SET_READ (R383). -/
def execMemorySchedulerSetRead (r : Request) (s : State) : Res := done (s.settingsRead 0x0801 r)

/-- MEMORY_RETRAIN_SET (R335). -/
def execMemoryRetrainSet (r : Request) (s : State) : Res := done (s.settingsSet 0x0802 1 r)

/-- MEMORY_RETRAIN_SET_READ (R383). -/
def execMemoryRetrainSetRead (r : Request) (s : State) : Res := done (s.settingsRead 0x0802 r)

/-- RETRAIN_UNIT_NOW (R335): Memory retrain set with that item. -/
def execRetrainUnitNow (r : Request) (s : State) : Res := done (s.settingsSet 0x0802 1 r)

/-- MEMORY_SCRUB_SET (R343). -/
def execMemoryScrubSet (r : Request) (s : State) : Res := done (s.settingsSet 0x0803 1 r)

/-- MEMORY_SCRUB_SET_READ (R383). -/
def execMemoryScrubSetRead (r : Request) (s : State) : Res := done (s.settingsRead 0x0803 r)

/-- GRANARY_REGION_SET (R343). -/
def execGranaryRegionSet (r : Request) (s : State) : Res := done (s.settingsSet 0x0804 1 r)

/-- GRANARY_REGION_SET_READ (R383). -/
def execGranaryRegionSetRead (r : Request) (s : State) : Res := done (s.settingsRead 0x0804 r)

/-- MEMORY_RETIRE (R337). -/
def execMemoryRetire (r : Request) (s : State) : Res := done (s.settingsSet 0x0805 1 r)

/-- SHEAF_PAIR_SET (R352). -/
def execSheafPairSet (r : Request) (s : State) : Res := done (s.settingsSet 0x0901 3 r)

/-- SHEAF_PAIR_SET_READ (R383). -/
def execSheafPairSetRead (r : Request) (s : State) : Res := done (s.settingsRead 0x0901 r)

/-- SHEAF_LANE_SET (R358). -/
def execSheafLaneSet (r : Request) (s : State) : Res := done (s.settingsSet 0x0902 1 r)

/-- SHEAF_LANE_SET_READ (R383). -/
def execSheafLaneSetRead (r : Request) (s : State) : Res := done (s.settingsRead 0x0902 r)

/-- SHEAF_POWER_SET (R358). -/
def execSheafPowerSet (r : Request) (s : State) : Res := done (s.settingsSet 0x0903 1 r)

/-- SHEAF_POWER_SET_READ (R383). -/
def execSheafPowerSetRead (r : Request) (s : State) : Res := done (s.settingsRead 0x0903 r)

/-- CHAFF_SET (R317). -/
def execChaffSet (r : Request) (s : State) : Res := done (s.settingsSet 0x0A01 1 r)

/-- CHAFF_SET_READ (R383). -/
def execChaffSetRead (r : Request) (s : State) : Res := done (s.settingsRead 0x0A01 r)

/-- STRAW_SET (R319). -/
def execStrawSet (r : Request) (s : State) : Res := done (s.settingsSet 0x0A02 1 r)

/-- STRAW_SET_READ (R383). -/
def execStrawSetRead (r : Request) (s : State) : Res := done (s.settingsRead 0x0A02 r)

/-- COUNTER_SAMPLING_SET (R460). -/
def execCounterSamplingSet (r : Request) (s : State) : Res := done (s.settingsSet 0x0A07 1 r)

/-- COUNTER_SAMPLING_SET_READ (R383). -/
def execCounterSamplingSetRead (r : Request) (s : State) : Res := done (s.settingsRead 0x0A07 r)

/-- SAG_PORT_SET (R436). -/
def execSagPortSet (r : Request) (s : State) : Res := done (s.settingsSet 0x0C02 1 r)

/-- SAG_PORT_SET_READ (R383). -/
def execSagPortSetRead (r : Request) (s : State) : Res := done (s.settingsRead 0x0C02 r)

/-- SAG_OPTIONS_SET (R449). -/
def execSagOptionsSet (r : Request) (s : State) : Res := done (s.settingsSet 0x0C03 1 r)

/-- SAG_OPTIONS_SET_READ (R383). -/
def execSagOptionsSetRead (r : Request) (s : State) : Res := done (s.settingsRead 0x0C03 r)

/-- COMMANDED_TEST_LEVEL (R434): Sag options set with that item. -/
def execCommandedTestLevel (r : Request) (s : State) : Res := done (s.settingsSet 0x0C03 1 r)

end Sys2Proof.Machine
end

