-- ==== Sys2Proof/Machine/SheafMsgs.lean ====
section
/-! DEFINITION. What the messages of the twin do, in number order, and the sending of checkpoints and of unacknowledged messages
(R283 to R285, R350, R355 to R357). -/

namespace Sys2Proof.Machine

/-! ### What each message does -/

/-- The twin reserves a key ID and sequence (R283): granted when the key's window takes it. When both twins reserve the same at one time,
rank 0 wins, and the other refuses its copy with cause 7. -/
def State.takeReservation (s : State) (key seq : Nat) : State :=
  match s.gate.waiting.find? (fun i => i.reserved && !i.granted && i.named key seq) with
  | some i =>
    if s.sheaf.rank = 0 then s.tell (.result key seq false)
    else (((s.takeSeq key seq).tell (.result key seq true)).refuseIntake i 7).advanceIntake
  | none =>
    if (s.windowOf key).passes seq then (s.takeSeq key seq).tell (.result key seq true) else s.tell (.result key seq false)

/-- The twin's pair-required permit is stored (R284), with the pending bit of its state word. -/
def State.takeCopy (s : State) (body : Bytes) (st : Nat) : State :=
  match s.permitSlot (bodySelector body) with
  | none => s.permitRecord body 0x300 2 20
  | some loc =>
    let e := entryOf body 0x300
    let e1 := if st.testBit 30 then patch e 120 (natLe 4 (entryState e ||| (1 <<< 30))) else e
    (((s.putPermit loc { bytes := e1 }).permitRecord body 0x300 1 0).unspend body).relookupSel (bodySelector body)

/-- The pair-required entry of a key ID and sequence, with its index. -/
def State.pairEntry (s : State) (key seq : Nat) : Option (Nat × PermitEntry) :=
  List.find? (fun (x : Nat × PermitEntry) => x.2.inForce && entryKey x.2.bytes == key && entrySeq x.2.bytes == seq &&
    (entryFlags x.2.bytes).testBit 0) s.gate.permits

/-- Uses are taken from an entry, which goes with its last (R276). -/
def State.useEntry (s : State) (i : Nat) (e : PermitEntry) (n : Nat) (pending : Bool) : State :=
  let left := entryUses e.bytes - n
  if left = 0 then
    let s1 := s.erasePermit i
    { s1 with gate := { s1.gate with spent := slice e.bytes 0 72 :: s1.gate.spent } }
  else s.putPermit i { e with bytes := patch (patch e.bytes 76 (natLe 4 left)) 120 (natLe 4 (setBit (entryState e.bytes) 30 pending)) }

/-- The twin consumes uses of a pair-required entry (R284): they are taken here too, and acknowledged. When both consume at once, rank 0's
stands: rank 1 acknowledges it and its own command returns to the hold (assumption 47). An entry that is not held here leaves nothing to
take, and the consumption is acknowledged (assumption 251). -/
def State.takeConsumption (s : State) (key seq uses : Nat) : State :=
  match s.pairEntry key seq with
  | none => s.tell (.ack key seq)
  | some (i, e) =>
    let own := s.gate.consuming.any (fun x => x.2.1 == key && x.2.2 == seq)
    if own ∧ s.sheaf.rank = 0 then s
    else
      let s1 := { s with gate := { s.gate with consuming := s.gate.consuming.filter (fun x => !(x.2.1 == key && x.2.2 == seq)) } }
      let s2 := (s1.useEntry i e uses false).tell (.ack key seq)
      if own then s2.relookupSel (slice e.bytes 0 40) else s2

/-- The twin acknowledges a consumption (R284): the use is taken here, and a command that waits for no other acknowledgement
passes, once the ledger queue has room for its verdict (R288). -/
def State.takeAck (s : State) (key seq : Nat) : State :=
  match s.gate.consuming.find? (fun x => x.2.1 == key && x.2.2 == seq) with
  | none => s
  | some x =>
    let s1 := { s with gate := { s.gate with consuming := s.gate.consuming.erase x } }
    let more := s1.gate.consuming.any (fun y => y.2.1 == key && y.2.2 == seq)
    let s2 := match s1.pairEntry key seq with
      | some (i, e) => s1.useEntry i e 1 more
      | none => s1
    if s2.isConsuming x.1 then s2
    else match s2.pkt? x.1 with
      | some p => if s2.verdictRoom p then (s2.passCmd x.1).releaseFlow p.key else s2.setPkt x.1 { p with acked := true, noRoom := true }
      | none => s2

/-- The larger H, and the aligned bitmaps ORed (R285); the lower H is itself a sequence accepted. -/
def Window64.merge (a b : Window64) : Window64 :=
  let shift (w : Window64) (top : Nat) : Nat :=
    let d := top - w.high
    if d = 0 then w.bitmap
    else if 64 < d ∨ w.high = 0 then 0
    else ((w.bitmap <<< d) % 2 ^ 64) ||| (1 <<< (d - 1))
  let top := max a.high b.high
  ⟨top, shift a top ||| shift b top⟩

/-- The twin does not hold an entry too: a free value, since no message says what entries the twin holds (assumption 48). -/
def State.pruneEntry (s : State) (x : Nat × PermitEntry) : State :=
  if x.2.inForce ∧ (entryFlags x.2.bytes).testBit 0 then
    let (w, s1) := s.draw
    if entryPending x.2.bytes ∨ w.getLsbD 0 then s1.erasePermit x.1 else s1
  else s

/-- The twin's windows (R285): merged key by key; the last message of a return, which carries fewer than five keys, ends the merge, which
removes the pair-required entries that are pending or that one twin only holds, and held packets are looked up again (assumption 48). -/
def State.takeWindows (s : State) (ws : List WindowState) : State :=
  let s1 := ws.foldl (fun s (w : WindowState) =>
    { s with gate := { s.gate with windows := Tab.put {} s.gate.windows w.key ((s.windowOf w.key).merge ⟨w.high, w.bitmap⟩) } }) s
  if s1.sheaf.merging ∧ ws.length < 5 then
    let s2 := s1.gate.permits.foldl State.pruneEntry s1
    ({ s2 with sheaf := { s2.sheaf with merging := false } }).relookup (fun _ => true)
  else s1

/-- A block is marked as bound by the twin, or free of it when no checkpoint names it any more (R355). -/
def State.markBlock (s : State) (c : Checkpoint) : State :=
  match s.poolConf c.pool s.bales.epoch with
  | none => s
  | some k =>
    let a := s.alloc c.pool
    let addr := v4Of (beNat c.addr)
    let block := 65536 * addr + c.block
    if !k.holds addr then s
    else if s.sheaf.store.any (fun x => x.pool == c.pool && v4Of (beNat x.addr) == addr && x.block == c.block) then
      if a.twinBound.contains block then s else s.setAlloc c.pool { a with twinBound := a.twinBound ++ [block] }
    else s.setAlloc c.pool { a with twinBound := a.twinBound.erase block }

/-- A checkpoint of the twin joins the store, or leaves it (R355). -/
def State.takeCheckpoint (s : State) (c : Checkpoint) : State :=
  let rest := s.sheaf.store.filter (fun x => x.key != c.key)
  let store := if c.create ∧ rest.length < 2097152 then rest ++ [c] else rest
  ({ s with sheaf := { s.sheaf with store := store } }).markBlock c

/-- A Guolo request of the twin joins MB12, or MB13 for the expert form, which take requests from the paired twin only (R368). -/
def State.takeGuolo (s : State) (m : Bytes) : State :=
  if m.length < 32 ∨ (leAt m 2 2).testBit 1 then s
  else
    let mb := if (leAt m 0 2).testBit 15 then 13 else 12
    let b := s.box mb
    let x : Taken := { seq := leAt m 4 4, opcode := leAt m 0 2, bytes := m }
    s.setBox mb { b with taken := b.taken ++ [x] }

/-- A delay exchange of the twin (R356): a request, whose third time is still 0, is answered on its link; an answer gives the round trip. -/
def State.takeDelay (s : State) (n t1 t2 t3 t4 : Nat) : State :=
  if t3 = 0 then s.tellOn n (.delay n t1 t2 s.tai 0)
  else
    let rtt := (t4 - t1) - (t3 - t2)
    let s1 := s.modLink n (fun l => { l with delay := rtt / 2 })
    { s1 with sheaf := { s1.sheaf with roundTrip := rtt } }

/-- What a message of the twin does. -/
def State.applyMsg (s : State) (m : Msg) : State :=
  match m with
  | .heartbeat _ _ _ _ | .pairing _ => s
  | .delay n a b c d => s.takeDelay n a b c d
  | .reservation k q => s.takeReservation k q
  | .result k q g => (s.reserved k q g).advanceIntake
  | .permitCopy b st => s.takeCopy b st
  | .consumption k q u => s.takeConsumption k q u
  | .ack k q => s.takeAck k q
  | .windows ws => s.takeWindows ws
  | .checkpoint c => s.takeCheckpoint c
  | .guolo bs => s.takeGuolo bs
  | .resyncDone _ => s

/-- Messages kept early are applied while the next number is among them (R350). -/
def State.applyEarly : Nat → State → State
  | 0, s => s
  | n + 1, s =>
    match s.sheaf.early.find? (fun x => x.1 == s.sheaf.rxNum + 1) with
    | none => s
    | some x =>
      State.applyEarly n (({ s with sheaf := { s.sheaf with rxNum := x.1, early := s.sheaf.early.erase x } }).applyMsg x.2)

/-- A link in service on which no pairing was accepted: it carries training, loops and pairing messages alone (R344). -/
def State.strangeLink (s : State) : Bool := ([0, 1] : List Nat).any (fun n => (s.link n).up && !(s.link n).paired)
/-- A message came over a link on which the twin's pairing was accepted (R344). Its command does not name its link, which is free while a
link in service has no pairing (assumption 259). -/
def State.overPair (s : State) : Bool × State :=
  if s.strangeLink then (s.draw.1.getLsbD 0, s.draw.2) else (true, s)

/-- A numbered message of the twin (R350): applied in number order, kept while a gap stands before it, discarded when it has been applied. -/
def State.takeMsg (s : State) (num : Nat) (m : Msg) : State :=
  if s.sheaf.twin ≠ 1 ∨ num ≤ s.sheaf.rxNum then s
  else if num = s.sheaf.rxNum + 1 then
    let s1 := ({ s with sheaf := { s.sheaf with rxNum := num } }).applyMsg m
    State.applyEarly s1.sheaf.early.length s1
  else if s.sheaf.early.any (fun x => x.1 == num) then s
  else { s with sheaf := { s.sheaf with early := s.sheaf.early ++ [(num, m)] } }
/-- A numbered message arrives: shared state that did not come over a link of the pair is not taken (R344). -/
def State.receive (s : State) (num : Nat) (m : Msg) : State :=
  if s.overPair.1 then s.overPair.2.takeMsg num m else s.overPair.2

/-- RESERVATION (R283, R351). -/
def execReservation (msg key seq : Nat) (s : State) : Res := done (s.receive msg (.reservation key seq))
/-- RESERVATION_RESULT (R283): the answer completes step P4 of a permit. -/
def execReservationResult (msg key seq : Nat) (granted : Bool) (s : State) : Res := done (s.receive msg (.result key seq granted))
/-- PERMIT_COPY (R284). -/
def execPermitCopy (msg : Nat) (body : Bytes) (st : Nat) (s : State) : Res := done (s.receive msg (.permitCopy body st))
/-- CONSUMPTION (R284). -/
def execConsumption (msg key seq uses : Nat) (s : State) : Res := done (s.receive msg (.consumption key seq uses))
/-- CONSUMPTION_ACKNOWLEDGE (R284). -/
def execConsumptionAcknowledge (msg key seq : Nat) (s : State) : Res := done (s.receive msg (.ack key seq))
/-- WINDOW_MERGE (R285). -/
def execWindowMerge (msg : Nat) (ws : List WindowState) (s : State) : Res := done (s.receive msg (.windows ws))
/-- TRANSLATION_CHECKPOINT (R355). -/
def execTranslationCheckpoint (msg : Nat) (x : Checkpoint) (s : State) : Res := done (s.receive msg (.checkpoint x))
/-- SHEAF_GUOLO_MESSAGE (R368). -/
def execSheafGuoloMessage (msg : Nat) (m : Bytes) (s : State) : Res := done (s.receive msg (.guolo m))
/-- RESYNC_DONE (R357). -/
def execResyncDone (msg count : Nat) (s : State) : Res := done (s.receive msg (.resyncDone count))

/-! ### Delay exchanges (R356) -/

/-- DELAY_EXCHANGE_SEND (R356): once per second on each link that the pair uses. -/
def execDelayExchangeSend (n : LinkId) (s : State) : Res :=
  let l := s.link n
  if l.up ∧ l.paired ∧ l.delayAt + sec 1 ≤ s.now then
    done ((s.setLink n { l with delayAt := s.now }).tellOn n (.delay n s.tai 0 0 0))
  else done s

/-- DELAY_EXCHANGE (R350, R356): a numbered message, stamped as it arrives: the second time of a request, whose times are still 0, and the
fourth time of an answer. -/
def execDelayExchange (n : LinkId) (x : DelayBody) (s : State) : Res :=
  if !((s.link n).up && (s.link n).paired) then done s
  else done (s.takeMsg x.num (if x.t2 = 0 then .delay n x.t1 s.tai 0 0 else .delay n x.t1 x.t2 x.t3 s.tai))

/-! ### Sending -/

/-- CHECKPOINT_SEND (R355, R357): a queued checkpoint, at up to 20,000,000 per second; then, after a return, those of the pairs held, at
2,000,000 per second, and the resync done message. -/
def execCheckpointSend (s : State) : Res :=
  let h := s.sheaf
  if h.twin ≠ 1 then done s
  else match h.outq with
    | c :: rest =>
      if s.now < h.checkpointAt + ns 50 then done s
      else done (({ s with sheaf := { h with outq := rest, checkpointAt := s.now } }).tell (.checkpoint c))
    | [] =>
      if !h.resyncOn ∨ s.now < h.checkpointAt + ns 500 then done s
      else match h.resyncLeft with
        | c :: rest =>
          done (({ s with sheaf := { h with resyncLeft := rest, checkpointAt := s.now, resync := h.resync + 1 } }).tell (.checkpoint c))
        | [] => done (({ s with sheaf := { h with resyncOn := false } }).tell (.resyncDone h.resync))

/-- MESSAGE_RESEND_TIMEOUT (R350): a message that no ack has covered for 8 superframes goes again on a link in service. -/
def execMessageResendTimeout (msg : Nat) (s : State) : Res :=
  match s.sheaf.unacked.find? (fun m => m.num == msg) with
  | none => done s
  | some m =>
    match decide (m.at_ + ns 6400 ≤ s.now), s.linksUp with
    | true, n :: _ =>
      let s1 := s.enqueueMsg n m.num m.msg
      done { s1 with sheaf := { s1.sheaf with unacked := s1.sheaf.unacked.map (fun x => if x.num = msg then { x with at_ := s.now } else x) } }
    | _, _ => done s

end Sys2Proof.Machine
end

