-- ==== Sys2Proof/Machine/Transmit.lean ====
section
/-! DEFINITION. Steps 9 and 10: the egress pipeline's edits, the end of transmission, residue, the buffer audit, gate banks, and the scrub of
on-die control SRAM (R60, R122, R129, R177, R244, R251, R309 to R316). -/

namespace Sys2Proof.Machine

/-! ### The frame that leaves (R126, R303, R311) -/

/-- A byte of an IPv4 header is replaced, and the header checksum follows (R126, R303). -/
def ipv4Byte (bs : Bytes) (l3 off : Nat) (v : Byte) : Bytes :=
  let w := off / 2 * 2
  let old := slice bs (l3 + w) 2
  let b1 := patch bs (l3 + off) [v]
  patch b1 (l3 + 10) (natBe 2 (csumUpdate (beAt bs (l3 + 10) 2) old (slice b1 (l3 + w) 2)))

/-- The TTL or hop limit goes down by one (R126). -/
def decrementTtl (bs : Bytes) : Bytes :=
  let h := parse bs
  let v := BitVec.ofNat 8 (h.ttl - 1)
  if h.ver = 4 then ipv4Byte bs h.l3 8 v else if h.ver = 6 then patch bs (h.l3 + 7) [v] else bs

/-- The ECN field becomes CE (R303). -/
def markCe (bs : Bytes) : Bytes :=
  let h := parse bs
  if h.ver = 4 then ipv4Byte bs h.l3 1 (bs.getD (h.l3 + 1) 0 ||| 3)
  else if h.ver = 6 then patch bs (h.l3 + 1) [bs.getD (h.l3 + 1) 0 ||| 0x30]
  else bs

/-- The outer tag of the frame that leaves: removed in the untagged set, otherwise the egress VLAN and the PCP the frame arrived with
(R123, R124). -/
def retag (bs : Bytes) (untag : Bool) (vid pcp : Nat) : Bytes :=
  let tci := (parse bs).tci
  let rest := if tci.isSome then bs.drop 16 else bs.drop 12
  let dei := match tci with | some t => t / 4096 % 2 | none => 0
  bs.take 12 ++ (if untag then [] else natBe 2 0x8100 ++ natBe 2 (pcp * 8192 + dei * 4096 + vid % 4096)) ++ rest

/-- The bytes of a copy as they leave, without FCS: the routine's edits, the rewrite of a routed packet, the tag, the ECN mark and
the cut PRP trailer (R126, R194, R225, R303, R311). -/
def egressBody (x : Packet) (c : Copy) : Bytes :=
  let b0 := applyEdits (x.bytes.take (x.bytes.length - 4)) x.edits
  let b1 := if x.cutPrp then b0.take (b0.length - 6) else b0
  let b2 := match x.route with
    | some (dm, sm, _) => decrementTtl (patch b1 0 (natBe 6 dm ++ natBe 6 sm))
    | none => b1
  let b3 := if c.ce then markCe b2 else b2
  retag b3 c.untag x.outVid x.pcp

/-- The frame of a copy, FCS included. The derived FCS of a good frame is the check of the edited bytes (R311); a bad frame ends with
the inverse (R309). -/
def egressFrame (x : Packet) (c : Copy) : Bytes :=
  let b := egressBody x c
  b ++ fcsBytes (if x.bad then ~~~(fcs b) else fcs b)

/-- A frame leaves the port (R295, R309): a frame that was corrupted inside the device leaves with free bytes under the derived FCS, and a
frame that arrived bad leaves stomped and is counted at both its ports. -/
def State.putFrame (s : State) (p : PortId) (x : Packet) (f : Bytes) (corrupt : Bool) : State :=
  let s1 := if corrupt ∧ !x.bad then
      let (b, t) := s.drawBytes (f.length - 4)
      (((t.countPort p 18).noteFault 11).raiseLimited 0x020D (src 1 p) (sec 1) [] 4).emit (.frame p (b ++ f.drop (f.length - 4)))
    else s.emit (.frame p f)
  if x.bad then ((s1.countPort p 9).countPort x.port 7).pmu (sliceOf x.port) 17 1 (some x) else s1

/-- The transmit counters of the port and of the class (R312). -/
def State.countSent (s : State) (p : PortId) (c : Copy) (len : Nat) : State :=
  (((s.countPort p 2).countPort p 3 len).countClass p c.cls 0).countClass p c.cls 1 len

/-- TRANSMIT_DONE (R20 step 10, R295, R309, R312): a copy has left. `corrupt` tells that a bit changed inside the device outside an
edit: the bytes that leave are then free values under the derived FCS. -/
def execTransmitDone (p : PortId) (corrupt : Bool) (s : State) : Res :=
  match (s.port p).sending with
  | none => done s
  | some n => match s.pkt? n with
    | none => done (s.modPort p (fun q => { q with sending := none }))
    | some x => match x.copyAt p with
      | none => done (s.modPort p (fun q => { q with sending := none }))
      | some c =>
        if !x.complete then done s
        else
          let f := egressFrame x c
          let s1 := (s.putFrame p x f corrupt).countSent p c f.length
          done (((s1.dropCopies n (fun (y : Copy) => y.port == p.val)).modPort p (fun q => { q with sending := none })).emptied p c.cls)

/-- RESIDUE_TIMER_EXPIRY (R316): copies that have not begun to leave are voided and counted. -/
def execResidueTimerExpiry (n : Nat) (s : State) : Res :=
  match s.pkt? n with
  | none => done s
  | some x =>
    if x.residueAt.any (fun t => decide (t ≤ s.now)) then done (s.voidWaiting n (fun q s => s.countPort q 14)) else done s

/-- One slice's share of the audit (R314): what was lost for two audits returns to the pool and is counted. -/
def State.auditPool (s : State) (i : Nat) : State :=
  let q := s.poolOf i
  let s1 := (s.setPool i { q with taken := q.taken - q.lostSeen, lostSeen := q.lostNew, lostNew := 0 }).relevel i
  if q.lostSeen = 0 then s1 else s1.count 10 (256 * i + 1) q.lostSeen

/-- BUFFER_AUDIT (R314): what two successive audits found in no stack and no descriptor returns. -/
def execBufferAudit (s : State) : Res :=
  if s.now < s.core.auditAt + sec 10 then done s
  else
    let back := (List.range 6).map (fun i => (s.poolOf i).lostSeen)
    let s1 := (List.range 6).foldl State.auditPool s
    let s2 := { s1 with core := { s1.core with auditAt := s.now } }
    done (if back.all (· == 0) then s2 else (s2.raise 0x020F srcDevice (back.map (natLe 4)).flatten).xonCheck)

/-- A packet on its way to step 7 will name the superseded bank of port `p`: the one that its epoch selects (R60). -/
def State.mayName (s : State) (p b : Nat) (x : Packet) : Bool :=
  x.copies.isEmpty && !x.epochDone && (verAt (Tab.get [] s.sched.bankSel p) x.epoch).getD 0 != b

/-- GATE_BANK_RELEASE (R60, R177): the superseded bank is free when no packet names it any longer; 50 µs after the commit, what is still
queued under it is judged by the bank in force, and it is free. -/
def execGateBankRelease (p : PortId) (s : State) : Res :=
  match Tab.find? s.sched.bankBusy p with
  | none => done s
  | some t =>
    let b := (verNow (Tab.get [] s.sched.bankSel p)).getD 0
    let old (c : Copy) : Bool := c.port == p.val && c.state == .waiting && c.bank != b
    if s.now < t + us 50 ∧ s.packets.any (fun (y : Nat × Packet) => y.2.copies.any old || s.mayName p b y.2) then done s
    else
      let moved := s.packets.foldl (fun n (y : Nat × Packet) => n + (y.2.copies.filter old).length) 0
      let s1 := { s with
        packets := s.packets.map (fun (y : Nat × Packet) =>
          (y.1, { y.2 with copies := y.2.copies.map (fun (c : Copy) => if old c then { c with bank := b } else c) }))
        sched := { s.sched with bankBusy := Tab.erase s.sched.bankBusy p } }
      done (if moved = 0 then s1 else s1.countPort p 21 moved)

/-! ### Scrub (R122, R129, R244, R251, R313) -/

/-- The buffer-error event: row of Table 12-3 and location. -/
def State.bufferError (s : State) (k row loc : Nat) : State := (s.noteFault 1).raise 0x020E (src 5 k) (natLe 1 row ++ [0, 0, 0] ++ natLe 4 loc)

/-- A packet whose descriptor is lost is dropped, and its buffer returns at the audit (Table 12-3). Which port counts it is the
packet's ingress port, and a queue flush at its egress port, as bad frames are counted (assumption 38). -/
def State.loseDescriptor (s : State) (n : Nat) : State :=
  match s.pkt? n with
  | none => s
  | some x =>
    let s1 := (s.bufferError (sliceOf x.port) 1 n).setPkt n { x with countLost := true }
    s1.drop n (fun s => s.countPort x.port 6)

/-- A value of the scheduler is set to 0 (Table 12-3). -/
def State.zeroSched (s : State) (p c : Nat) (v : SchedValue) : State :=
  match v with
  | .deficit => s.setSched p c { s.schedOf p c with deficit := 0 }
  | .credit => s.setSched p c { s.schedOf p c with credit := 0 }
  | .bucket => s.modPort p (fun q => { q with tokens := 0, tokensAt := s.now })

/-- ON_DIE_SRAM_SCRUB (R122, R129, R244, R251, R313, Table 12-3). -/
def execOnDieSramScrub (e : SramError) (s : State) : Res :=
  match e with
  | .macEntry k loc => done (s.macParity k (macIndex loc))
  | .routeEntry k t id => done (s.markRoute (badRoute k (routeTableNum t) id))
  | .matchRow k idx => done (s.markBadRow k idx)
  | .descriptor n => done (s.loseDescriptor n)
  | .pointerStack i =>
    let x := s.poolOf i
    done ((((s.setPool i { x with taken := x.taken + 1, lostNew := x.lostNew + 1 }).relevel i).bufferError 0 2 i).xoffCheck)
  | .queueLink p c => done ((s.bufferError (sliceOf p) 3 (8 * p.val + c.val)).flushQueue (8 * p.val + c.val) (fun s => s.countPort p 8))
  | .copyCount n =>
    match s.pkt? n with
    | some x => done ((s.bufferError (sliceOf x.port) 4 n).setPkt n { x with countLost := true })
    | none => done s
  | .scheduler p c v => done ((s.bufferError (sliceOf p) 5 (8 * p.val + c.val)).zeroSched p c v)
  | .cacheLine loc double => done (s.cacheError (flowIndex loc) double)
  | .automata i correctable =>
    if correctable ∨ s.awn.badEntries.contains i then done s
    else done { s.noteFault 1 with awn := { s.awn with badEntries := s.awn.badEntries ++ [i] } }

end Sys2Proof.Machine
end

