-- ==== Sys2Proof/Machine/TrustCmds.lean ====
section
/-! DEFINITION. Owner keys, the claim, rollback counters, the quote and succession (15_mailboxes_and_host_interface.md, R377;
18_trust_boot_and_updates.md, R408, R415, R417, R422, R424 to R427). -/

namespace Sys2Proof.Machine

/-! ### Owner keys (R408, R415) -/

/-- The owner-key digest (R415): SHA-512 of the four slots in order. -/
def State.ownerDigest (s : State) : Bytes :=
  sha512 (((List.range 4).map (fun k => (s.ownerKey k).getD (List.replicate 32 0))).flatten)

/-- Rows join the owner-key store: slot and key, none for a removal (Table 18-1). -/
def State.writeRows (s : State) (rows : List (Nat × Option Bytes)) : State :=
  let new : List (Nat × Bool × Bytes) := rows.map (fun (x : Nat × Option Bytes) => (x.1, x.2.isSome, x.2.getD (List.replicate 32 0)))
  let o := s.trust.otp
  { s with trust := { s.trust with otp := { o with rows := o.rows ++ new } } }

/-- A rollback counter takes a value (R417). -/
def State.setRollback (s : State) (k v : Nat) : State :=
  let o := s.trust.otp
  let old := padTo 4 (o.rollback.map (BitVec.ofNat 8))
  let new := (List.range 4).map (fun i => if i = k then v else (old.getD i 0).toNat)
  { s with trust := { s.trust with otp := { o with rollback := new } } }

/-- OWNER_KEY_SET (R415). With one owner key present, the request is signed by that key (assumption 69). -/
def execOwnerKeySet (r : Request) (s : State) : Res :=
  done (s.directReq 0x0B0A 3 r (fun key s =>
    let p := r.payload
    let slot := leAt p 0 1
    let k := slice p 8 32
    let removes := leNat k == 0
    let present := (List.range 4).filter (fun i => (s.ownerKey i).isSome)
    let signer := key.getD 0xFFFF - 0xFF00
    if p.length ≠ 40 ∨ leNat (slice p 1 7) ≠ 0 then ({ status := 0x0301 }, s)
    else if 4 ≤ slot then ({ status := 0x0302 }, s)
    else if removes ∧ !present.contains slot then ({ status := 0x0301 }, s)
    else if removes ∧ present = [slot] then ({ status := 0x0304 }, s)
    else if 2 ≤ present.length ∧ signer = slot then ({ status := 0x0204 }, s)
    else if s.rollback 2 = 255 ∨ 260 ≤ s.trust.otp.rows.length then ({ status := 0x0B03 }, s)
    else
      let s0 := (s.writeRows [(slot, if removes then none else some k)]).setRollback 2 (s.rollback 2 + 1)
      let s1 := s0.rekeyPermits (0xFF00 + slot) (s.keyOf (0xFF00 + slot)) (s0.keyOf (0xFF00 + slot))
      let d := s1.ownerDigest
      let s2 := s1.record { type := 7, source := 0x0100 + r.mb.val, key := key.getD 0xFFFF, digest := d.take 32 }
      ({}, s2.measure 7 d)))

/-! ### Claim (R377, R427) -/

/-- A request signed by a key that the device does not hold yet (R372, R377, assumption 70): the status of its refusal, or 0. -/
def State.newKeyStatus (s : State) (op cls : Nat) (r : Request) (keyFor : Nat → Option Bytes) : Nat :=
  match r.trailer with
  | none => 0x0201
  | some (id, sig) =>
    if !s.sealAny then 0x0208
    else match keyFor id with
      | none => 0x0203
      | some k =>
        if headerStatus op cls r ≠ 0 then headerStatus op cls r
        else if !edVerify k (reqCovered r op) sig then 0x0202
        else if r.boot ≠ s.keeper.boot % 2 ^ 32 ∨ r.counter < Tab.get 0 s.host.counters id then 0x0205
        else 0

/-- Keys of a claim. -/
def claimKeys (p : Bytes) : List Bytes := (List.range (leAt p 0 1)).map (fun i => slice p (8 + 32 * i) 32)

/-- The claim takes effect: keys, owned bit, the ledger's first record. -/
def State.applyClaim (s : State) (r : Request) : State :=
  let s1 := s.writeRows ((claimKeys r.payload).zipIdx.map (fun (x : Bytes × Nat) => (x.2, some x.1)))
  let s2 : State := { s1 with
    trust := { s1.trust with otp := { s1.trust.otp with owned := true } }
    ledger := { s1.ledger with next := 0, hash := List.replicate 64 0 } }
  let d := s2.ownerDigest
  let s3 := s2.record { type := 1, source := 0x0100 + r.mb.val, key := 0xFF00, digest := d.take 32,
                        detailB := edPublic Config.identitySeed ++ List.replicate 32 0 }
  ((s3.measure 7 d).spendCounter 0xFF00 r.counter).noteStatus

/-- CLAIM (R377): on MB0 to MB11 and MB14. -/
def execClaim (r : Request) (s : State) : Res :=
  done (s.serve 0x0B01 r (fun s =>
    let p := r.payload
    let n := leAt p 0 1
    let bad := headerStatus 0x0B01 3 r
    if bad ≠ 0 then ({ status := bad }, s)
    else if s.trust.recovery = 1 ∨ r.bale ≠ 0 then ({ status := 0x0304 }, s)
    else if s.owned then ({ status := 0x0207 }, s)
    else if r.mb.val = 12 ∨ r.mb.val = 13 then ({ status := 0x0206 }, s)
    else if p.length < 8 ∨ p.length ≠ 8 + 32 * n ∨ leNat (slice p 1 7) ≠ 0 then ({ status := 0x0301 }, s)
    else if n = 0 ∨ 4 < n then ({ status := 0x0302 }, s)
    else
      let st := s.newKeyStatus 0x0B01 3 r (fun id => if id = 0xFF00 then some (slice p 8 32) else none)
      if st ≠ 0 then ({ status := st }, s) else ({}, s.applyClaim r)))

/-! ### Rollback counters (R417) -/

/-- Upper limit of an advance (Table 18-7). -/
def State.rollbackLimit (s : State) (k : Nat) : Nat := if k = 0 then s.trust.imageSv else if k = 1 then s.eng.patchSv else 255

/-- The four counters as bytes. -/
def State.rollbackBytes (s : State) : Bytes := (List.range 4).map (fun k => BitVec.ofNat 8 (s.rollback k))

/-- ROLLBACK_ADVANCE (R417, R421). -/
def execRollbackAdvance (r : Request) (s : State) : Res :=
  done (s.directReq 0x0B09 3 r (fun _ s =>
    let k := leAt r.payload 0 1
    let v := leAt r.payload 1 1
    if r.payload.length ≠ 2 then ({ status := 0x0301 }, s)
    else if 4 ≤ k then ({ status := 0x0302 }, s)
    else if v ≤ s.rollback k ∨ s.rollbackLimit k < v then ({ status := 0x0B03 }, s)
    else
      let s1 := s.setRollback k v
      ({}, s1.measure 6 (sha512 s1.rollbackBytes))))

/-! ### Attestation (R421, R422) -/

/-- The quote (Table 18-11), before its signature. -/
def State.quoteBytes (s : State) (nonce : Bytes) : Bytes :=
  let t := s.trust
  let tampered := t.log.any (fun e => leAt e 4 1 == 8)
  natLe 4 0x4C5A5154 ++ [1] ++
  natLe 1 (b2n (decide (4096 < t.folded)) + 2 * b2n t.otp.owned + 4 * b2n t.otp.succeeded + 8 * b2n s.fault.safe + 16 * b2n tampered) ++
  [0, 0] ++ natLe 8 Config.serial ++ natLe 8 s.keeper.boot ++ nonce ++ edPublic Config.identitySeed ++ natLe 4 t.folded ++ natLe 4 0 ++
  padTo 64 t.running512 ++ s.rollbackBytes ++ natLe 4 t.firmware ++ s.stamp.bytes ++ s.ownerDigest.take 32 ++ padTo 64 Config.endorsement

/-- ATTESTATION_QUOTE (R422). -/
def execAttestationQuote (r : Request) (s : State) : Res :=
  s.plainRead 0x0B07 0 r (fun s =>
    if r.payload.length ≠ 32 then { status := 0x0301 }
    else
      let q := s.quoteBytes r.payload
      { resp := q ++ edSign Config.identitySeed q })

/-! ### The configuration of a package (R424) -/

/-- A bale action as bytes (Table 7-2). -/
def actionBytes (code scope : Nat) (body : Bytes) : Bytes := natLe 2 code ++ natLe 2 body.length ++ natLe 4 scope ++ body

/-- Actions of a configuration: code, scope and body; none where the bytes do not divide into actions. -/
def configActions : Nat → Bytes → Option (List (Nat × Nat × Bytes))
  | 0, bs => if bs.isEmpty then some [] else none
  | n + 1, bs =>
    if bs.isEmpty then some []
    else
      let len := leAt bs 2 2
      if bs.length < 8 + len ∨ 1016 < len then none
      else (configActions n (bs.drop (8 + len))).map (fun rest => (leAt bs 0 2, leAt bs 4 4, slice bs 8 len) :: rest)

/-- The settings that a master has set, an action each; the event groups of the requesting master stand for those of the importing one. -/
def State.configSettings (s : State) (master : Nat) : Bytes :=
  (s.settings.map (fun (x : Nat × List Int) =>
    let id := x.1 / 65536
    let t := x.1 % 65536
    match Catalogue.row? id with
    | none => []
    | some r =>
      if id = 0x0F05 ∧ t ≠ master then []
      else
        let v := writeItem r x.2
        let head := natLe 1 r.kind ++ [0] ++ natLe 2 (if id = 0x0F05 then 0 else t) ++ natLe 2 1 ++ [0, 0]
        actionBytes (r.op + 32768 * b2n r.expert) 0 (head ++ natLe 2 id ++ natLe 2 v.length ++ v))).flatten

/-- The op header of an add (R387). -/
def addHeader : Bytes := [0, 0, 0, 0]

/-- The records of a command, an action each. -/
def State.configRecords (s : State) (code : Nat) (k : ObjKind) : Bytes :=
  ((s.recordsOf k).map (fun b => actionBytes code 0 (addHeader ++ b))).flatten

/-- The word of a gate-list entry (Table 2-7). -/
def GateEntry.word (e : GateEntry) : Nat := e.start + 65536 * e.opens + 2 ^ 24 * b2n e.guarded
/-- A port's gate list, in one or two actions. -/
def State.configGates (s : State) (p : Nat) : Bytes :=
  let bank := (verAt (Tab.get [] s.sched.bankSel p) s.bales.epoch).getD 0
  let l := Tab.get [] s.sched.banks (2 * p + bank)
  let part (first n : Nat) : Bytes := if n = 0 then [] else
    actionBytes 0x0306 0 (addHeader ++ natLe 1 p ++ [0] ++ natLe 2 l.length ++ natLe 2 first ++ natLe 2 n ++
      (((l.drop first).take n).map (fun e => natLe 4 e.word)).flatten)
  part 0 (min 251 l.length) ++ part 251 (l.length - 251)

/-- Static MAC entries of each slice. -/
def State.configMacs (s : State) : Bytes :=
  ((List.range 8).flatMap (fun k => ((s.mac k).entries.filter (fun (x : Nat × MacEntry) => x.2.static && x.2.visible s.bales.epoch)).map
    (fun (x : Nat × MacEntry) => actionBytes 0x0407 (2 ^ k) (addHeader ++ x.2.bytes k x.1)))).flatten

/-- Match rows. -/
def State.configRows (s : State) : Bytes :=
  ((s.matcher.rows.filter (fun (x : Nat × MatchRow) => x.2.visible s.bales.epoch)).map
    (fun (x : Nat × MatchRow) => actionBytes 0x040E 0 (addHeader ++ padTo 104 x.2.rec_))).flatten

/-- The bytes written of the customer object region, an action for each run of 1,000 at most. -/
def regionRuns : Nat → List (Nat × Byte) → Bytes
  | 0, _ => []
  | _, [] => []
  | n + 1, (a, b) :: rest =>
    let more := (rest.zipIdx.takeWhile (fun (x : (Nat × Byte) × Nat) => decide (x.1.1 = a + x.2 + 1 ∧ x.2 < 999))).map (·.1)
    let run := b :: more.map (·.2)
    actionBytes 0x0506 0 (addHeader ++ natLe 4 a ++ natLe 2 run.length ++ [0, 0] ++ run) ++ regionRuns n (rest.drop more.length)

/-- The customer object region. -/
def State.configRegion (s : State) : Bytes :=
  let bs := s.eng.objects.filterMap (fun (x : Nat × Ver Byte) => (verAt x.2 s.bales.epoch).map (fun b => (x.1, b)))
  regionRuns bs.length bs

/-- The key ring. -/
def State.configKeys (s : State) : Bytes :=
  (s.gate.ring.map (fun (x : Nat × Bytes) => actionBytes 0x0602 0 (addHeader ++ padTo 64 x.2))).flatten

/-- The configuration: every setting and table that a master has set, what is named before what names it (R424). -/
def State.configBytes (s : State) (master : Nat) : Bytes :=
  s.configSettings master ++ s.configKeys ++ s.configRecords 0x0601 .gateProfile ++ ((List.range 96).map s.configGates).flatten ++
  s.configRecords 0x0307 .window ++ s.configRecords 0x0408 .vlan ++ s.configRecords 0x0409 .routerMac ++ s.configRecords 0x040B .nextHop ++
  s.configRecords 0x040C .multipath ++ s.configRecords 0x040A .route ++ s.configRecords 0x040D .lag ++ s.configMacs ++
  s.configRecords 0x040F .matchBank ++ s.configRows ++ s.configRegion ++ s.configRecords 0x0509 .lbGroup ++ s.configRecords 0x050A .lbMember ++
  s.configRecords 0x050B .transPool ++ s.configRecords 0x0501 .flowProfile

/-! ### Succession export (R425, R427) -/

/-- The selector of a succession record. -/
def successionSelector (old new : Nat) : Bytes := padTo 40 (natLe 8 old ++ natLe 8 new)

/-- The payload of Table 18-12 for this device, whose succession counter has been advanced. -/
def State.packageBytes (s : State) (config : Bytes) : Bytes :=
  let owners := (List.range 4).map (fun k => (s.ownerKey k).getD (List.replicate 32 0))
  natLe 8 Config.serial ++ natLe 8 0 ++ edPublic Config.identitySeed ++ natLe 1 (s.rollback 3) ++ [1] ++
  natLe 1 ((List.range 4).countP (fun k => (s.ownerKey k).isSome)) ++ natLe 1 (s.rollback 2) ++ natLe 4 0 ++
  natLe 8 (s.ledger.next - 1) ++ padTo 64 s.ledger.hash ++ owners.flatten ++ natLe 8 s.pairId ++
  ((List.range 32).map (fun i => BitVec.ofNat 8 (s.sn 0x0E02 0 i))) ++ natLe 4 config.length ++ natLe 4 0 ++ config

/-- SUCCESSION_EXPORT (R425): the tail is that of the succession record, the last that the export writes (assumption 71). -/
def execSuccessionExport (r : Request) (s : State) : Res :=
  done (s.directReq 0x0B0B 3 r (fun key s =>
    if !r.payload.isEmpty then ({ status := 0x0301 }, s)
    else if s.rollback 3 = 255 then ({ status := 0x0B03 }, s)
    else
      let config := s.configBytes (masterOf r.mb)
      let s1 := s.setRollback 3 (s.rollback 3 + 1)
      let s2 : State := { s1 with trust := { s1.trust with otp := { s1.trust.otp with succeeded := true } } }
      let s3 := s2.shutGate 11 (0x0100 + r.mb.val) (key.getD 0xFFFF)
      let s4 := s3.record { type := 10, code := 1, key := key.getD 0xFFFF, seq := s3.rollback 3,
                            selector := successionSelector Config.serial 0, digest := s3.ownerDigest.take 32, detailA := config.length,
                            detailB := edPublic Config.identitySeed ++ List.replicate 32 0 }
      ({ resp := s4.packageBytes config }, s4)))

/-! ### Succession import (R426, R427) -/

/-- Owner keys that a package lists, by slot. -/
def packageOwners (p : Bytes) : List (Nat × Option Bytes) :=
  (List.range 4).map (fun k => (k, let b := slice p (128 + 32 * k) 32; if leNat b = 0 then none else some b))

/-- A package's payload is laid out as Table 18-12 (assumption 72). -/
def packageMade (p : Bytes) : Bool :=
  let n := (packageOwners p).countP (fun (x : Nat × Option Bytes) => x.2.isSome)
  decide (304 ≤ p.length) && decide (leAt p 296 4 + 304 = p.length) && decide (leAt p 49 1 < 2) && leAt p 50 1 == n && decide (1 ≤ n) &&
  leAt p 52 4 == 0 && leAt p 300 4 == 0

/-- The package is not for this device (R426). -/
def State.notForUs (s : State) (p : Bytes) : Bool :=
  (leAt p 8 8 != 0 && leAt p 8 8 != Config.serial % 2 ^ 64) || decide (leAt p 48 1 ≤ s.rollback 3) || decide (leAt p 51 1 < s.rollback 2)

/-- One action of an imported configuration goes through the checks of a bale's action (R426, R27). -/
def importAction (mb key : Nat) (acc : Except (Nat × Nat) (Bale × State)) (x : (Nat × Nat × Bytes) × Nat) :
    Except (Nat × Nat) (Bale × State) :=
  match acc with
  | .error e => .error e
  | .ok (b, s) =>
    let a : Action := { code := x.1.1, scope := x.1.2.1, body := x.1.2.2, owner := true, key := key, mb := mb }
    match s.checkAction b a with
    | .error e => .error (e.1, x.2)
    | .ok y =>
      let b2 := { b with actions := b.actions ++ [s.recorded a y] }
      .ok (b2, y.st.putBale b2)

/-- A bale of the configuration's actions is opened, filled and committed at once (R426): the status of its refusal with the index of the
action, or 0. -/
def State.importBale (s : State) (mb key : Nat) (acts : List (Nat × Nat × Bytes)) : (Nat × Nat) × State :=
  let b0 := s.freshBale mb true
  match acts.zipIdx.foldl (importAction mb key) (.ok (b0, s.joinBale b0)) with
  | .error e => (e, s)
  | .ok (b, s1) => match s1.recheck b with
    | some e => (e, s)
    | none =>
      let s2 := s1.arm b none
      ((0, 0), s2.runTick s2.tickRoom [{ b with st := .pending, armed := s1.bales.arm }])

/-- The configuration is applied as consecutive bales of at most 16,384 actions; a refusal keeps the bales before it. -/
def State.importConfig (mb key : Nat) : Nat → Nat → List (Nat × Nat × Bytes) → State → (Nat × Nat) × State
  | 0, _, _, s => ((0, 0), s)
  | n + 1, first, acts, s =>
    if acts.isEmpty then ((0, 0), s)
    else
      let (e, s1) := s.importBale mb key (acts.take 16384)
      if e.1 ≠ 0 then ((e.1, first + e.2), s1) else State.importConfig mb key n (first + 16384) (acts.drop 16384) s1

/-- The rows that an import writes: one for each slot with a key in the package, and one, of no key, for each other slot in use
(Table 18-1, R426). -/
def State.importRows (s : State) (p : Bytes) : List (Nat × Option Bytes) :=
  (packageOwners p).filter (fun (x : Nat × Option Bytes) => x.2.isSome || (s.ownerKey x.1).isSome)

/-- Steps 1 to 3 of an accepted import (R426, R427). -/
def State.takeOver (s : State) (b p : Bytes) : State :=
  let s0 : State := { s with trust := { s.trust with otp := { s.trust.otp with owned := true } } }
  let s1 := (s0.writeRows (s.importRows p)).setRollback 2 (leAt p 51 1)
  let s2 := s1.setRollback 3 (leAt p 48 1)
  let tail := leAt p 56 8
  let s3 : State := { s2 with
    ledger := { s2.ledger with next := tail + 1, mark := tail + 1, hash := slice p 64 64 } }
  let d := s3.ownerDigest
  let s4 := s3.record { type := 10, flags := b2n (!(leAt p 49 1).testBit 0), key := imgKey b, seq := leAt p 48 1,
                        selector := successionSelector (leAt p 0 8) Config.serial, digest := d.take 32, detailA := leAt p 296 4,
                        detailB := slice p 16 32 ++ edPublic Config.identitySeed }
  (s4.measure 7 d).noteStatus

/-- An import that its request's checks have let through. -/
def State.takePackage (s : State) (r : Request) : Ans × State :=
  let b := r.payload
  let p := imgPayload b
  if s.owned ∧ !s.trust.otp.succeeded then ({ status := 0x0207 }, s)
  else match s.imgFault 5 b with
    | some e => ({ status := e.1, detail := e.2 }, s)
    | none => match configActions p.length (p.drop 304) with
      | none => ({ status := 0x0301 }, s)
      | some acts =>
        if !packageMade p then ({ status := 0x0301 }, s)
        else if s.notForUs p then ({ status := 0x0B05 }, s)
        else if 260 < s.trust.otp.rows.length + (s.importRows p).length then ({ status := 0x0B03 }, s)
        else
          let (e, s1) := State.importConfig r.mb (imgKey b) acts.length 0 acts (s.takeOver b p)
          ({ status := e.1, detail := e.2 }, s1)

/-- SUCCESSION_IMPORT (R426): an unowned device takes a request signed by an owner key that the package lists (assumption 70); a succeeded
device takes one that its own owner signed. -/
def execSuccessionImport (r : Request) (s : State) : Res :=
  if s.owned then done (s.directReq 0x0B0C 3 r (fun _ s => s.takePackage r))
  else
    done (s.serve 0x0B0C r (fun s =>
      let bad := headerStatus 0x0B0C 3 r
      if bad ≠ 0 then ({ status := bad }, s)
      else if s.trust.recovery = 1 ∨ r.bale ≠ 0 then ({ status := 0x0304 }, s)
      else if r.mb.val = 12 ∨ r.mb.val = 13 then ({ status := 0x0206 }, s)
      else
        let st := s.newKeyStatus 0x0B0C 3 r (fun id =>
          if 0xFF00 ≤ id ∧ id ≤ 0xFF03 then
            (List.find? (fun (x : Nat × Option Bytes) => x.1 == id - 0xFF00) (packageOwners (imgPayload r.payload))).bind (·.2)
          else none)
        if st ≠ 0 then ({ status := st }, s)
        else s.takePackage r |> fun (x : Ans × State) => (x.1, match r.trailer with | some t => x.2.spendCounter t.1 r.counter | none => x.2)))

end Sys2Proof.Machine
end

