-- ==== Sys2Proof/Machine/Dispatch.lean ====
section
/-! DEFINITION. Which meaning each command has: one arm for each constructor of Instr. -/

namespace Sys2Proof.Machine

/-- The effect of a command on everything but the queue. -/
def exec (i : Instr) (s : State) : Host.Outcome State Fault Refusal :=
  match i with
  | .frameArrival p bytes e => Sys2Proof.Machine.execFrameArrival p bytes e s
  | .frameReceiveComplete pkt codeError => Sys2Proof.Machine.execFrameReceiveComplete pkt codeError s
  | .flowSequencerRelease pkt => Sys2Proof.Machine.execFlowSequencerRelease pkt s
  | .memoryReadComplete rd res => Sys2Proof.Machine.execMemoryReadComplete rd res s
  | .flowRecordWaitTimeout pkt => Sys2Proof.Machine.execFlowRecordWaitTimeout pkt s
  | .routineDispatch pkt fault => Sys2Proof.Machine.execRoutineDispatch pkt fault s
  | .aluNop x => Sys2Proof.Machine.execAluNop x s
  | .aluAdd x => Sys2Proof.Machine.execAluAdd x s
  | .aluSub x => Sys2Proof.Machine.execAluSub x s
  | .aluMul x => Sys2Proof.Machine.execAluMul x s
  | .aluCsum x => Sys2Proof.Machine.execAluCsum x s
  | .aluAnd x => Sys2Proof.Machine.execAluAnd x s
  | .aluOr x => Sys2Proof.Machine.execAluOr x s
  | .aluXor x => Sys2Proof.Machine.execAluXor x s
  | .aluShl x => Sys2Proof.Machine.execAluShl x s
  | .aluShr x => Sys2Proof.Machine.execAluShr x s
  | .aluSar x => Sys2Proof.Machine.execAluSar x s
  | .aluRol x => Sys2Proof.Machine.execAluRol x s
  | .aluMov x => Sys2Proof.Machine.execAluMov x s
  | .aluMinu x => Sys2Proof.Machine.execAluMinu x s
  | .aluMaxu x => Sys2Proof.Machine.execAluMaxu x s
  | .aluBswap x => Sys2Proof.Machine.execAluBswap x s
  | .aluExt x => Sys2Proof.Machine.execAluExt x s
  | .aluIns x => Sys2Proof.Machine.execAluIns x s
  | .aluSel x => Sys2Proof.Machine.execAluSel x s
  | .aluCrc x => Sys2Proof.Machine.execAluCrc x s
  | .memNone x => Sys2Proof.Machine.execMemNone x s
  | .hdrLd x => Sys2Proof.Machine.execHdrLd x s
  | .hdrSt x => Sys2Proof.Machine.execHdrSt x s
  | .metaLd x => Sys2Proof.Machine.execMetaLd x s
  | .descSt x => Sys2Proof.Machine.execDescSt x s
  | .keySt x => Sys2Proof.Machine.execKeySt x s
  | .recLock x => Sys2Proof.Machine.execRecLock x s
  | .recLockReply ctx res => Sys2Proof.Machine.execRecLockReply ctx res s
  | .recLd x => Sys2Proof.Machine.execRecLd x s
  | .recSt x => Sys2Proof.Machine.execRecSt x s
  | .mrgAdd x => Sys2Proof.Machine.execMrgAdd x s
  | .mrgOr x => Sys2Proof.Machine.execMrgOr x s
  | .mrgMax x => Sys2Proof.Machine.execMrgMax x s
  | .mrgMin x => Sys2Proof.Machine.execMrgMin x s
  | .mrgAvg x => Sys2Proof.Machine.execMrgAvg x s
  | .objLd x => Sys2Proof.Machine.execObjLd x s
  | .objLdReply ctx res => Sys2Proof.Machine.execObjLdReply ctx res s
  | .cntAdd x => Sys2Proof.Machine.execCntAdd x s
  | .evt x => Sys2Proof.Machine.execEvt x s
  | .brNext x => Sys2Proof.Machine.execBrNext x s
  | .brJump x => Sys2Proof.Machine.execBrJump x s
  | .brCall x => Sys2Proof.Machine.execBrCall x s
  | .brReturn x => Sys2Proof.Machine.execBrReturn x s
  | .brEnd x => Sys2Proof.Machine.execBrEnd x s
  | .packetBaleApply pkt => Sys2Proof.Machine.execPacketBaleApply pkt s
  | .egressQueueAdmission pkt => Sys2Proof.Machine.execEgressQueueAdmission pkt s
  | .schedulerSelect p => Sys2Proof.Machine.execSchedulerSelect p s
  | .transmitDone p corrupt => Sys2Proof.Machine.execTransmitDone p corrupt s
  | .residueTimerExpiry pkt => Sys2Proof.Machine.execResidueTimerExpiry pkt s
  | .bufferAudit => Sys2Proof.Machine.execBufferAudit s
  | .xoffRefresh p c => Sys2Proof.Machine.execXoffRefresh p c s
  | .xoffLimitExpiry p c => Sys2Proof.Machine.execXoffLimitExpiry p c s
  | .pauseBackoffEnd p c => Sys2Proof.Machine.execPauseBackoffEnd p c s
  | .pauseFrameReceive p f => Sys2Proof.Machine.execPauseFrameReceive p f s
  | .pauseWatchdogTrip p c => Sys2Proof.Machine.execPauseWatchdogTrip p c s
  | .pauseWatchdogRecoveryEnd p c => Sys2Proof.Machine.execPauseWatchdogRecoveryEnd p c s
  | .chaffSampleWrite => Sys2Proof.Machine.execChaffSampleWrite s
  | .cycRefEdge rising t => Sys2Proof.Machine.execCycRefEdge rising t s
  | .tillerStuck => Sys2Proof.Machine.execTillerStuck s
  | .tillerLapse => Sys2Proof.Machine.execTillerLapse s
  | .holdoverExpired => Sys2Proof.Machine.execHoldoverExpired s
  | .tillerLocked => Sys2Proof.Machine.execTillerLocked s
  | .cycOutToggle => Sys2Proof.Machine.execCycOutToggle s
  | .taiSecondBoundary => Sys2Proof.Machine.execTaiSecondBoundary s
  | .ppsOutRise => Sys2Proof.Machine.execPpsOutRise s
  | .ppsOutFall => Sys2Proof.Machine.execPpsOutFall s
  | .ppsInEdge t => Sys2Proof.Machine.execPpsInEdge t s
  | .ptpMessageReceive p m => Sys2Proof.Machine.execPtpMessageReceive p m s
  | .commitTick => Sys2Proof.Machine.execCommitTick s
  | .epochDrained => Sys2Proof.Machine.execEpochDrained s
  | .gateBankRelease p => Sys2Proof.Machine.execGateBankRelease p s
  | .baleIdleTimeout bale => Sys2Proof.Machine.execBaleIdleTimeout bale s
  | .trainingAttemptStart p => Sys2Proof.Machine.execTrainingAttemptStart p s
  | .retryWaitExpiry p => Sys2Proof.Machine.execRetryWaitExpiry p s
  | .suspensionIntervalExpiry p => Sys2Proof.Machine.execSuspensionIntervalExpiry p s
  | .negotiationComplete p partner => Sys2Proof.Machine.execNegotiationComplete p partner s
  | .negotiationTimeout p => Sys2Proof.Machine.execNegotiationTimeout p s
  | .trainingTimeout p => Sys2Proof.Machine.execTrainingTimeout p s
  | .partnerCoefficientRequest l q => Sys2Proof.Machine.execPartnerCoefficientRequest l q s
  | .coefficientResponse l => Sys2Proof.Machine.execCoefficientResponse l s
  | .nextPageReceive p => Sys2Proof.Machine.execNextPageReceive p s
  | .trainingComplete p => Sys2Proof.Machine.execTrainingComplete p s
  | .signalAppears l => Sys2Proof.Machine.execSignalAppears l s
  | .lossOfSignal l => Sys2Proof.Machine.execLossOfSignal l s
  | .refclkLineLoss n => Sys2Proof.Machine.execRefclkLineLoss n s
  | .dampingEvaluation => Sys2Proof.Machine.execDampingEvaluation s
  | .lanePowerExitDone l => Sys2Proof.Machine.execLanePowerExitDone l s
  | .recalibrationPassStart => Sys2Proof.Machine.execRecalibrationPassStart s
  | .laneTemperatureStep l temp => Sys2Proof.Machine.execLaneTemperatureStep l temp s
  | .laneRecalibrationDone l better => Sys2Proof.Machine.execLaneRecalibrationDone l better s
  | .fullLaneRecalibration r => Sys2Proof.Machine.execFullLaneRecalibration r s
  | .otu4FrameReceive p f => Sys2Proof.Machine.execOtu4FrameReceive p f s
  | .otu4FrameTransmit p => Sys2Proof.Machine.execOtu4FrameTransmit p s
  | .otnPersistenceExpiry p => Sys2Proof.Machine.execOtnPersistenceExpiry p s
  | .dlosClearTimeout p => Sys2Proof.Machine.execDlosClearTimeout p s
  | .otnSecondEnd => Sys2Proof.Machine.execOtnSecondEnd s
  | .learnRequestApply k => Sys2Proof.Machine.execLearnRequestApply k s
  | .moveWindowClose k loc => Sys2Proof.Machine.execMoveWindowClose k loc s
  | .macThaw k loc => Sys2Proof.Machine.execMacThaw k loc s
  | .macFlushOnPortDown p => Sys2Proof.Machine.execMacFlushOnPortDown p s
  | .macAgeingSweepVisit k loc => Sys2Proof.Machine.execMacAgeingSweepVisit k loc s
  | .macStaticRestore k vid mac => Sys2Proof.Machine.execMacStaticRestore k vid mac s
  | .routeEntryRefresh k t id => Sys2Proof.Machine.execRouteEntryRefresh k t id s
  | .lacpFrameReceive p x => Sys2Proof.Machine.execLacpFrameReceive p x s
  | .lagMemberJoin p => Sys2Proof.Machine.execLagMemberJoin p s
  | .lagSlotDrained g slot => Sys2Proof.Machine.execLagSlotDrained g slot s
  | .lagMoveLimitExpiry g => Sys2Proof.Machine.execLagMoveLimitExpiry g s
  | .flowSweepVisit loc => Sys2Proof.Machine.execFlowSweepVisit loc s
  | .flowSweepPassEnd => Sys2Proof.Machine.execFlowSweepPassEnd s
  | .overflowRelocationMove idx => Sys2Proof.Machine.execOverflowRelocationMove idx s
  | .blockHoldExpiry pool block => Sys2Proof.Machine.execBlockHoldExpiry pool block s
  | .exportMessageSend => Sys2Proof.Machine.execExportMessageSend s
  | .templateResend => Sys2Proof.Machine.execTemplateResend s
  | .matchRelocationStep src dst => Sys2Proof.Machine.execMatchRelocationStep src dst s
  | .matchRowRewrite k idx => Sys2Proof.Machine.execMatchRowRewrite k idx s
  | .matchRowScrub k idx differs => Sys2Proof.Machine.execMatchRowScrub k idx differs s
  | .segmentScanStart => Sys2Proof.Machine.execSegmentScanStart s
  | .segmentScanComplete a lane fault => Sys2Proof.Machine.execSegmentScanComplete a lane fault s
  | .profiledWorkDeadlineExpiry pkt => Sys2Proof.Machine.execProfiledWorkDeadlineExpiry pkt s
  | .automataEntryRewrite entry => Sys2Proof.Machine.execAutomataEntryRewrite entry s
  | .awnKnownAnswerScan a pass => Sys2Proof.Machine.execAwnKnownAnswerScan a pass s
  | .commandDigestComplete pkt wrong => Sys2Proof.Machine.execCommandDigestComplete pkt wrong s
  | .permitTableLookup pkt => Sys2Proof.Machine.execPermitTableLookup pkt s
  | .holdLimitExpiry pkt => Sys2Proof.Machine.execHoldLimitExpiry pkt s
  | .permitFrameReceive p body => Sys2Proof.Machine.execPermitFrameReceive p body s
  | .aggregateRefusalRecord => Sys2Proof.Machine.execAggregateRefusalRecord s
  | .sealVerdict sp err0 err1 => Sys2Proof.Machine.execSealVerdict sp err0 err1 s
  | .permitEntryWrite key seq => Sys2Proof.Machine.execPermitEntryWrite key seq s
  | .permitNotBeforeReached loc => Sys2Proof.Machine.execPermitNotBeforeReached loc s
  | .permitWindowOpen loc => Sys2Proof.Machine.execPermitWindowOpen loc s
  | .permitExpiryRemoval loc => Sys2Proof.Machine.execPermitExpiryRemoval loc s
  | .gateShutAssert => Sys2Proof.Machine.execGateShutAssert s
  | .gateShutDeassert => Sys2Proof.Machine.execGateShutDeassert s
  | .gateShutRelease => Sys2Proof.Machine.execGateShutRelease s
  | .ledgerRecordWrite => Sys2Proof.Machine.execLedgerRecordWrite s
  | .ledgerSeal => Sys2Proof.Machine.execLedgerSeal s
  | .hashKnownAnswerTest h pass => Sys2Proof.Machine.execHashKnownAnswerTest h pass s
  | .sealPairKnownAnswerTest sp pass => Sys2Proof.Machine.execSealPairKnownAnswerTest sp pass s
  | .knownAnswerRoutine k e res => Sys2Proof.Machine.execKnownAnswerRoutine k e res s
  | .controlStoreScrub k bank word bad => Sys2Proof.Machine.execControlStoreScrub k bank word bad s
  | .controlStoreRewriteDone k bank word => Sys2Proof.Machine.execControlStoreRewriteDone k bank word s
  | .onDieSramScrub e => Sys2Proof.Machine.execOnDieSramScrub e s
  | .serviceEngineInterrupt k v why => Sys2Proof.Machine.execServiceEngineInterrupt k v why s
  | .serviceRoutineResume k v => Sys2Proof.Machine.execServiceRoutineResume k v s
  | .memoryRequestIssue u => Sys2Proof.Machine.execMemoryRequestIssue u s
  | .refreshIssue u bank => Sys2Proof.Machine.execRefreshIssue u bank s
  | .rowActivation u bank row => Sys2Proof.Machine.execRowActivation u bank row s
  | .activationTableClear u => Sys2Proof.Machine.execActivationTableClear u s
  | .patrolScrubRead u addr res => Sys2Proof.Machine.execPatrolScrubRead u addr res s
  | .retrainStart u => Sys2Proof.Machine.execRetrainStart u s
  | .retrainComplete u res => Sys2Proof.Machine.execRetrainComplete u res s
  | .retrainRetry u => Sys2Proof.Machine.execRetrainRetry u s
  | .policyMirrorCopyDone pc => Sys2Proof.Machine.execPolicyMirrorCopyDone pc s
  | .ledgerMirrorRebuildDone d => Sys2Proof.Machine.execLedgerMirrorRebuildDone d s
  | .memoryTrainingDone failed => Sys2Proof.Machine.execMemoryTrainingDone failed s
  | .sheafSymbolLockLoss l => Sys2Proof.Machine.execSheafSymbolLockLoss l s
  | .sheafTrainingFrame l q converged => Sys2Proof.Machine.execSheafTrainingFrame l q converged s
  | .sheafTrainingRetry n => Sys2Proof.Machine.execSheafTrainingRetry n s
  | .superframeReceive n x => Sys2Proof.Machine.execSuperframeReceive n x s
  | .superframeSend n => Sys2Proof.Machine.execSuperframeSend n s
  | .sheafLaneLossOfSignal l => Sys2Proof.Machine.execSheafLaneLossOfSignal l s
  | .sheafHeartbeatTimeout n => Sys2Proof.Machine.execSheafHeartbeatTimeout n s
  | .twinHeartbeatTimeout => Sys2Proof.Machine.execTwinHeartbeatTimeout s
  | .refclkSheafLoss => Sys2Proof.Machine.execRefclkSheafLoss s
  | .heartbeatSend => Sys2Proof.Machine.execHeartbeatSend s
  | .heartbeat n x => Sys2Proof.Machine.execHeartbeat n x s
  | .pairing n x => Sys2Proof.Machine.execPairing n x s
  | .reservation msg key seq => Sys2Proof.Machine.execReservation msg key seq s
  | .reservationResult msg key seq granted => Sys2Proof.Machine.execReservationResult msg key seq granted s
  | .permitCopy msg body st => Sys2Proof.Machine.execPermitCopy msg body st s
  | .consumption msg key seq uses => Sys2Proof.Machine.execConsumption msg key seq uses s
  | .consumptionAcknowledge msg key seq => Sys2Proof.Machine.execConsumptionAcknowledge msg key seq s
  | .windowMerge msg ws => Sys2Proof.Machine.execWindowMerge msg ws s
  | .delayExchange n x => Sys2Proof.Machine.execDelayExchange n x s
  | .delayExchangeSend n => Sys2Proof.Machine.execDelayExchangeSend n s
  | .translationCheckpoint msg x => Sys2Proof.Machine.execTranslationCheckpoint msg x s
  | .checkpointSend => Sys2Proof.Machine.execCheckpointSend s
  | .sheafGuoloMessage msg m => Sys2Proof.Machine.execSheafGuoloMessage msg m s
  | .resyncDone msg count => Sys2Proof.Machine.execResyncDone msg count s
  | .messageResendTimeout msg => Sys2Proof.Machine.execMessageResendTimeout msg s
  | .reqProdDoorbell mb v => Sys2Proof.Machine.execReqProdDoorbell mb v s
  | .cplConsWrite mb v => Sys2Proof.Machine.execCplConsWrite mb v s
  | .ringConsWrite g v => Sys2Proof.Machine.execRingConsWrite g v s
  | .ringCtrlWrite g v => Sys2Proof.Machine.execRingCtrlWrite g v s
  | .intCauseWrite v => Sys2Proof.Machine.execIntCauseWrite v s
  | .intSetWrite v => Sys2Proof.Machine.execIntSetWrite v s
  | .intMaskWrite v => Sys2Proof.Machine.execIntMaskWrite v s
  | .eventLostRead => Sys2Proof.Machine.execEventLostRead s
  | .registerWrite addr v => Sys2Proof.Machine.execRegisterWrite addr v s
  | .pcieFunctionReset => Sys2Proof.Machine.execPcieFunctionReset s
  | .eventDelivery m => Sys2Proof.Machine.execEventDelivery m s
  | .mgmtFrameReceive src payload => Sys2Proof.Machine.execMgmtFrameReceive src payload s
  | .mgmtReassemblyTimeout mb => Sys2Proof.Machine.execMgmtReassemblyTimeout mb s
  | .mgmtGapTimeout mb => Sys2Proof.Machine.execMgmtGapTimeout mb s
  | .jtagMb14Data w => Sys2Proof.Machine.execJtagMb14Data w s
  | .jtagBypass b => Sys2Proof.Machine.execJtagBypass b s
  | .mcLockstepMismatch q => Sys2Proof.Machine.execMcLockstepMismatch q s
  | .mcPairSelfTestDone q pass => Sys2Proof.Machine.execMcPairSelfTestDone q pass s
  | .settleTimeExpiry u => Sys2Proof.Machine.execSettleTimeExpiry u s
  | .sliceDrainComplete k => Sys2Proof.Machine.execSliceDrainComplete k s
  | .sliceReturn k => Sys2Proof.Machine.execSliceReturn k s
  | .sliceReturnTimeout k => Sys2Proof.Machine.execSliceReturnTimeout k s
  | .sysclkLoss => Sys2Proof.Machine.execSysclkLoss s
  | .sysclkPeriodGlitch => Sys2Proof.Machine.execSysclkPeriodGlitch s
  | .vcoreGlitch => Sys2Proof.Machine.execVcoreGlitch s
  | .vkeepLoss => Sys2Proof.Machine.execVkeepLoss s
  | .resetNAssert => Sys2Proof.Machine.execResetNAssert s
  | .bootStart x => Sys2Proof.Machine.execBootStart x s
  | .switchoverHandoverDone => Sys2Proof.Machine.execSwitchoverHandoverDone s
  | .switchoverTimeout => Sys2Proof.Machine.execSwitchoverTimeout s
  | .sagWarnInput v => Sys2Proof.Machine.execSagWarnInput v s
  | .railMonitorTrigger m lvl => Sys2Proof.Machine.execRailMonitorTrigger m lvl s
  | .shedRankTimer rank => Sys2Proof.Machine.execShedRankTimer rank s
  | .ledgerCloseDone => Sys2Proof.Machine.execLedgerCloseDone s
  | .sagReleaseHoldExpiry => Sys2Proof.Machine.execSagReleaseHoldExpiry s
  | .level5ReleaseReset => Sys2Proof.Machine.execLevel5ReleaseReset s
  | .vcoreAdaptStep x => Sys2Proof.Machine.execVcoreAdaptStep x s
  | .thermalThresholdCrossing temp => Sys2Proof.Machine.execThermalThresholdCrossing temp s
  | .counterSnapshotTake => Sys2Proof.Machine.execCounterSnapshotTake s
  | .counterPeriodExpiry k n => Sys2Proof.Machine.execCounterPeriodExpiry k n s
  | .counterCaptureTimeout k n => Sys2Proof.Machine.execCounterCaptureTimeout k n s
  | .deviceStatus r => Sys2Proof.Machine.execDeviceStatus r s
  | .eventSubscribe r => Sys2Proof.Machine.execEventSubscribe r s
  | .eventSubscribeRead r => Sys2Proof.Machine.execEventSubscribeRead r s
  | .managementPortSet r => Sys2Proof.Machine.execManagementPortSet r s
  | .managementPortSetRead r => Sys2Proof.Machine.execManagementPortSetRead r s
  | .engineSet r => Sys2Proof.Machine.execEngineSet r s
  | .engineSetRead r => Sys2Proof.Machine.execEngineSetRead r s
  | .engineFenceOrReturn r => Sys2Proof.Machine.execEngineFenceOrReturn r s
  | .faultStatus r => Sys2Proof.Machine.execFaultStatus r s
  | .faultPolicySet r => Sys2Proof.Machine.execFaultPolicySet r s
  | .faultPolicySetRead r => Sys2Proof.Machine.execFaultPolicySetRead r s
  | .sliceDrainAndReset r => Sys2Proof.Machine.execSliceDrainAndReset r s
  | .clearSafeState r => Sys2Proof.Machine.execClearSafeState r s
  | .portModeSet r => Sys2Proof.Machine.execPortModeSet r s
  | .portModeSetRead r => Sys2Proof.Machine.execPortModeSetRead r s
  | .laneConfigSet r => Sys2Proof.Machine.execLaneConfigSet r s
  | .laneConfigSetRead r => Sys2Proof.Machine.execLaneConfigSetRead r s
  | .portTrainingSet r => Sys2Proof.Machine.execPortTrainingSet r s
  | .portTrainingSetRead r => Sys2Proof.Machine.execPortTrainingSetRead r s
  | .portDampingSet r => Sys2Proof.Machine.execPortDampingSet r s
  | .portDampingSetRead r => Sys2Proof.Machine.execPortDampingSetRead r s
  | .portPauseSet r => Sys2Proof.Machine.execPortPauseSet r s
  | .portPauseSetRead r => Sys2Proof.Machine.execPortPauseSetRead r s
  | .portPolicerSet r => Sys2Proof.Machine.execPortPolicerSet r s
  | .portPolicerSetRead r => Sys2Proof.Machine.execPortPolicerSetRead r s
  | .laneTestSet r => Sys2Proof.Machine.execLaneTestSet r s
  | .laneTestSetRead r => Sys2Proof.Machine.execLaneTestSetRead r s
  | .lanePowerSet r => Sys2Proof.Machine.execLanePowerSet r s
  | .lanePowerSetRead r => Sys2Proof.Machine.execLanePowerSetRead r s
  | .laneRecalibrateSet r => Sys2Proof.Machine.execLaneRecalibrateSet r s
  | .laneRecalibrateSetRead r => Sys2Proof.Machine.execLaneRecalibrateSetRead r s
  | .otnOverheadSet r => Sys2Proof.Machine.execOtnOverheadSet r s
  | .otnOverheadSetRead r => Sys2Proof.Machine.execOtnOverheadSetRead r s
  | .otnMaintenanceSet r => Sys2Proof.Machine.execOtnMaintenanceSet r s
  | .otnMaintenanceSetRead r => Sys2Proof.Machine.execOtnMaintenanceSetRead r s
  | .bufferPoolSet r => Sys2Proof.Machine.execBufferPoolSet r s
  | .bufferPoolSetRead r => Sys2Proof.Machine.execBufferPoolSetRead r s
  | .portQueueSet r => Sys2Proof.Machine.execPortQueueSet r s
  | .portQueueSetRead r => Sys2Proof.Machine.execPortQueueSetRead r s
  | .portSchedulerSet r => Sys2Proof.Machine.execPortSchedulerSet r s
  | .portSchedulerSetRead r => Sys2Proof.Machine.execPortSchedulerSetRead r s
  | .portStatus r => Sys2Proof.Machine.execPortStatus r s
  | .tillerReferenceSet r => Sys2Proof.Machine.execTillerReferenceSet r s
  | .tillerReferenceSetRead r => Sys2Proof.Machine.execTillerReferenceSetRead r s
  | .tillerHoldoverSet r => Sys2Proof.Machine.execTillerHoldoverSet r s
  | .tillerHoldoverSetRead r => Sys2Proof.Machine.execTillerHoldoverSetRead r s
  | .tillerModeSet r => Sys2Proof.Machine.execTillerModeSet r s
  | .tillerModeSetRead r => Sys2Proof.Machine.execTillerModeSetRead r s
  | .tillerTimeSourceSet r => Sys2Proof.Machine.execTillerTimeSourceSet r s
  | .tillerTimeSourceSetRead r => Sys2Proof.Machine.execTillerTimeSourceSetRead r s
  | .tillerOutputSet r => Sys2Proof.Machine.execTillerOutputSet r s
  | .tillerOutputSetRead r => Sys2Proof.Machine.execTillerOutputSetRead r s
  | .gateListSet r => Sys2Proof.Machine.execGateListSet r s
  | .windowSet r => Sys2Proof.Machine.execWindowSet r s
  | .tillerStatus r => Sys2Proof.Machine.execTillerStatus r s
  | .bridgeTableSet r => Sys2Proof.Machine.execBridgeTableSet r s
  | .bridgeTableSetRead r => Sys2Proof.Machine.execBridgeTableSetRead r s
  | .bridgeLearnSet r => Sys2Proof.Machine.execBridgeLearnSet r s
  | .bridgeLearnSetRead r => Sys2Proof.Machine.execBridgeLearnSetRead r s
  | .bridgeAgeingSet r => Sys2Proof.Machine.execBridgeAgeingSet r s
  | .bridgeAgeingSetRead r => Sys2Proof.Machine.execBridgeAgeingSetRead r s
  | .bridgeCopy r => Sys2Proof.Machine.execBridgeCopy r s
  | .routeOptionsSet r => Sys2Proof.Machine.execRouteOptionsSet r s
  | .routeOptionsSetRead r => Sys2Proof.Machine.execRouteOptionsSetRead r s
  | .aggregationSet r => Sys2Proof.Machine.execAggregationSet r s
  | .aggregationSetRead r => Sys2Proof.Machine.execAggregationSetRead r s
  | .bridgeEntrySet r => Sys2Proof.Machine.execBridgeEntrySet r s
  | .vlanSet r => Sys2Proof.Machine.execVlanSet r s
  | .routerMacSet r => Sys2Proof.Machine.execRouterMacSet r s
  | .prefixSet r => Sys2Proof.Machine.execPrefixSet r s
  | .nextHopSet r => Sys2Proof.Machine.execNextHopSet r s
  | .multipathSet r => Sys2Proof.Machine.execMultipathSet r s
  | .aggregationGroupSet r => Sys2Proof.Machine.execAggregationGroupSet r s
  | .matchRowSet r => Sys2Proof.Machine.execMatchRowSet r s
  | .matchBankSet r => Sys2Proof.Machine.execMatchBankSet r s
  | .matchArraySet r => Sys2Proof.Machine.execMatchArraySet r s
  | .matchArraySetRead r => Sys2Proof.Machine.execMatchArraySetRead r s
  | .matchRead r => Sys2Proof.Machine.execMatchRead r s
  | .bridgeRead r => Sys2Proof.Machine.execBridgeRead r s
  | .routeRead r => Sys2Proof.Machine.execRouteRead r s
  | .flowProfileSet r => Sys2Proof.Machine.execFlowProfileSet r s
  | .flowRecordSet r => Sys2Proof.Machine.execFlowRecordSet r s
  | .flowAgeingSet r => Sys2Proof.Machine.execFlowAgeingSet r s
  | .flowAgeingSetRead r => Sys2Proof.Machine.execFlowAgeingSetRead r s
  | .flowTableSet r => Sys2Proof.Machine.execFlowTableSet r s
  | .flowTableSetRead r => Sys2Proof.Machine.execFlowTableSetRead r s
  | .flowRead r => Sys2Proof.Machine.execFlowRead r s
  | .objectWrite r => Sys2Proof.Machine.execObjectWrite r s
  | .patternLoad r => Sys2Proof.Machine.execPatternLoad r s
  | .patternSwitch r => Sys2Proof.Machine.execPatternSwitch r s
  | .lbGroupSet r => Sys2Proof.Machine.execLbGroupSet r s
  | .lbMemberSet r => Sys2Proof.Machine.execLbMemberSet r s
  | .translationPoolSet r => Sys2Proof.Machine.execTranslationPoolSet r s
  | .exportSet r => Sys2Proof.Machine.execExportSet r s
  | .exportSetRead r => Sys2Proof.Machine.execExportSetRead r s
  | .exportStatus r => Sys2Proof.Machine.execExportStatus r s
  | .archiveRead r => Sys2Proof.Machine.execArchiveRead r s
  | .flowStatus r => Sys2Proof.Machine.execFlowStatus r s
  | .gateProfileSet r => Sys2Proof.Machine.execGateProfileSet r s
  | .keyRingSet r => Sys2Proof.Machine.execKeyRingSet r s
  | .gateIntakeSet r => Sys2Proof.Machine.execGateIntakeSet r s
  | .gateIntakeSetRead r => Sys2Proof.Machine.execGateIntakeSetRead r s
  | .gateOptionsSet r => Sys2Proof.Machine.execGateOptionsSet r s
  | .gateOptionsSetRead r => Sys2Proof.Machine.execGateOptionsSetRead r s
  | .ledgerOptionsSet r => Sys2Proof.Machine.execLedgerOptionsSet r s
  | .ledgerOptionsSetRead r => Sys2Proof.Machine.execLedgerOptionsSetRead r s
  | .ledgerAcknowledge r => Sys2Proof.Machine.execLedgerAcknowledge r s
  | .gateShut r => Sys2Proof.Machine.execGateShut r s
  | .gateReopen r => Sys2Proof.Machine.execGateReopen r s
  | .permitSubmit r => Sys2Proof.Machine.execPermitSubmit r s
  | .permitRevoke r => Sys2Proof.Machine.execPermitRevoke r s
  | .permitRead r => Sys2Proof.Machine.execPermitRead r s
  | .ledgerRead r => Sys2Proof.Machine.execLedgerRead r s
  | .gateStatus r => Sys2Proof.Machine.execGateStatus r s
  | .baleOpen r => Sys2Proof.Machine.execBaleOpen r s
  | .baleCommit r => Sys2Proof.Machine.execBaleCommit r s
  | .baleAbort r => Sys2Proof.Machine.execBaleAbort r s
  | .baleStatus r => Sys2Proof.Machine.execBaleStatus r s
  | .baleOptionsSet r => Sys2Proof.Machine.execBaleOptionsSet r s
  | .baleOptionsSetRead r => Sys2Proof.Machine.execBaleOptionsSetRead r s
  | .memorySchedulerSet r => Sys2Proof.Machine.execMemorySchedulerSet r s
  | .memorySchedulerSetRead r => Sys2Proof.Machine.execMemorySchedulerSetRead r s
  | .memoryRetrainSet r => Sys2Proof.Machine.execMemoryRetrainSet r s
  | .memoryRetrainSetRead r => Sys2Proof.Machine.execMemoryRetrainSetRead r s
  | .retrainUnitNow r => Sys2Proof.Machine.execRetrainUnitNow r s
  | .memoryScrubSet r => Sys2Proof.Machine.execMemoryScrubSet r s
  | .memoryScrubSetRead r => Sys2Proof.Machine.execMemoryScrubSetRead r s
  | .granaryRegionSet r => Sys2Proof.Machine.execGranaryRegionSet r s
  | .granaryRegionSetRead r => Sys2Proof.Machine.execGranaryRegionSetRead r s
  | .memoryRetire r => Sys2Proof.Machine.execMemoryRetire r s
  | .memoryStatus r => Sys2Proof.Machine.execMemoryStatus r s
  | .sheafPairSet r => Sys2Proof.Machine.execSheafPairSet r s
  | .sheafPairSetRead r => Sys2Proof.Machine.execSheafPairSetRead r s
  | .sheafLaneSet r => Sys2Proof.Machine.execSheafLaneSet r s
  | .sheafLaneSetRead r => Sys2Proof.Machine.execSheafLaneSetRead r s
  | .sheafPowerSet r => Sys2Proof.Machine.execSheafPowerSet r s
  | .sheafPowerSetRead r => Sys2Proof.Machine.execSheafPowerSetRead r s
  | .sheafStatus r => Sys2Proof.Machine.execSheafStatus r s
  | .chaffSet r => Sys2Proof.Machine.execChaffSet r s
  | .chaffSetRead r => Sys2Proof.Machine.execChaffSetRead r s
  | .strawSet r => Sys2Proof.Machine.execStrawSet r s
  | .strawSetRead r => Sys2Proof.Machine.execStrawSetRead r s
  | .strawRead r => Sys2Proof.Machine.execStrawRead r s
  | .counterRead r => Sys2Proof.Machine.execCounterRead r s
  | .counterSnapshot r => Sys2Proof.Machine.execCounterSnapshot r s
  | .counterFreeze r => Sys2Proof.Machine.execCounterFreeze r s
  | .counterSamplingSet r => Sys2Proof.Machine.execCounterSamplingSet r s
  | .counterSamplingSetRead r => Sys2Proof.Machine.execCounterSamplingSetRead r s
  | .claim r => Sys2Proof.Machine.execClaim r s
  | .microcodeLoad r => Sys2Proof.Machine.execMicrocodeLoad r s
  | .microcodeSwitch r => Sys2Proof.Machine.execMicrocodeSwitch r s
  | .microcodeRead r => Sys2Proof.Machine.execMicrocodeRead r s
  | .firmwareLoad r => Sys2Proof.Machine.execFirmwareLoad r s
  | .firmwareSwitch r => Sys2Proof.Machine.execFirmwareSwitch r s
  | .attestationQuote r => Sys2Proof.Machine.execAttestationQuote r s
  | .attestationLogRead r => Sys2Proof.Machine.execAttestationLogRead r s
  | .rollbackAdvance r => Sys2Proof.Machine.execRollbackAdvance r s
  | .ownerKeySet r => Sys2Proof.Machine.execOwnerKeySet r s
  | .successionExport r => Sys2Proof.Machine.execSuccessionExport r s
  | .successionImport r => Sys2Proof.Machine.execSuccessionImport r s
  | .powerStatus r => Sys2Proof.Machine.execPowerStatus r s
  | .sagPortSet r => Sys2Proof.Machine.execSagPortSet r s
  | .sagPortSetRead r => Sys2Proof.Machine.execSagPortSetRead r s
  | .sagOptionsSet r => Sys2Proof.Machine.execSagOptionsSet r s
  | .sagOptionsSetRead r => Sys2Proof.Machine.execSagOptionsSetRead r s
  | .commandedTestLevel r => Sys2Proof.Machine.execCommandedTestLevel r s
  | .sagRecordRead r => Sys2Proof.Machine.execSagRecordRead r s
  | .timeRefLoss => Sys2Proof.Machine.execTimeRefLoss s
  | .sysclkReturn => Sys2Proof.Machine.execSysclkReturn s
  | .vkeepReturn => Sys2Proof.Machine.execVkeepReturn s
  | .xtal32Loss => Sys2Proof.Machine.execXtal32Loss s
  | .sheafSymbolLockGain l => Sys2Proof.Machine.execSheafSymbolLockGain l s
  | .pauseQuantaExpiry p c => Sys2Proof.Machine.execPauseQuantaExpiry p c s
  | .lacpTimeout p => Sys2Proof.Machine.execLacpTimeout p s
  | .switchoverImageStaged ok => Sys2Proof.Machine.execSwitchoverImageStaged ok s
  | .longRequestProgress mb percent => Sys2Proof.Machine.execLongRequestProgress mb percent s

end Sys2Proof.Machine
end

