-- ==== Sys2Proof/Machine/Step.lean ====
section
/-! DEFINITION. One step of the device: the command at the front of the queue, or a core clock when none waits. -/

namespace Sys2Proof.Machine

/-- One step: the command that waits first is carried out with the queue's rest; with none waiting, one core clock passes
(assumption 3). -/
def step (s : State) : Host.Outcome State Fault Refusal :=
  match s.pending with
  | [] => .next s.coreClock
  | c :: rest => exec c { s with pending := rest }

/-- `s` with the command that a word of the opcode table spells at the front of its queue; no word spells one. -/
def State.withFetchWord (s : State) (nbits w : Nat) : State :=
  match decodeTableWord nbits w with
  | some c => { s with pending := c :: s.pending }
  | none => s

end Sys2Proof.Machine
end

