-- ==== Sys2Proof/Safety.lean ====
section
/-! DEFINITION. What counts as a safe run: one in which no step stops the device. What the statements say of states and
requests: a slot that runs, a request that passes every check, the commands of one shape, and what OTP may become. -/

namespace Sys2Proof.Machine

/-- The device answers a step with a next state. -/
def Answers (s : State) : Prop := ∃ t, step s = .next t

/-- The device runs `n` steps from `s` without a stop. -/
def RunsFor : Nat → State → Prop
  | 0, _ => True
  | n + 1, s => ∃ t, step s = .next t ∧ RunsFor n t

/-- The ALU slot of operation `op` executes: its context issues its present word, whose ALU slot spells it and has not executed, and no
hardware fault strikes it (R185, R190, R192). -/
def State.AluRuns (s : State) (op : Nat) (x : AluSlot) (p : Packet) (c : Context) : Prop :=
  s.runningCtx x.ctx = some (p, c) ∧ x.fault = none ∧ c.aluDone = false ∧ wordAlu (s.wordOf c) = aluSpelling op x
/-- The memory slot of operation `op` executes, its condition being met (R185, R190, R192, Table 8-4). -/
def State.MemRuns (s : State) (op : Nat) (x : MemSlot) (p : Packet) (c : Context) : Prop :=
  s.runningCtx x.ctx = some (p, c) ∧ x.fault = none ∧ c.memDone = false ∧ wordMem (s.wordOf c) = memSpelling op x ∧ c.holds x.cond = true
/-- The branch slot of operation `op` executes and ends the word: the other slots have executed, and the context waits for nothing (R185,
R190, R192), none having met a program cause. -/
def State.BrRuns (s : State) (op : Nat) (x : BrSlot) (p : Packet) (c : Context) : Prop :=
  s.runningCtx x.ctx = some (p, c) ∧ x.fault = none ∧ wordBr (s.wordOf c) = brSpelling op x ∧ c.waiting = none ∧
  c.slotsDone (s.wordOf c) = true ∧ c.check = none

/-- The context whose ALU slot, or memory slot, has executed in the word that it issues now. -/
def State.aluCtx (s : State) (c : Context) : Context := { s.issued c with aluDone := true }
def State.memCtx (s : State) (c : Context) : Context := { s.issued c with memDone := true }
/-- What the execution of a memory slot begins with. -/
def State.memBegun (s : State) (x : MemSlot) (p : Packet) (c : Context) : State :=
  (s.noteWord (sliceOf p.port) c).setCtx x.ctx (s.memCtx c)

/-- What it ends in where it meets a program cause, which the word's end takes (Tables 8-7 and 8-8). -/
def State.memChecked (s : State) (x : MemSlot) (p : Packet) (c : Context) (cause : Nat) : State :=
  (s.memBegun x p c).setCtx x.ctx { s.memCtx c with check := some cause }
/-- The bytes that a memory slot names may be written (R188, R196). -/
def State.memWritable (s : State) (x : MemSlot) (p : Packet) (c : Context) : Bool :=
  (s.memBegun x p c).writable { p with ctx := some (s.memCtx c) } (s.memCtx c) (recHandle x) (recOffset x) (memLen x)
/-- A write of a memory slot may join the bale: its bytes may be written, and the bale keeps to its 256 bytes and four records (R178, R188,
R196). -/
def State.mayStage (s : State) (x : MemSlot) (p : Packet) (c : Context) (w : Staged) : Prop :=
  s.memWritable x p c = true ∧ Context.baleBytes { s.memCtx c with staged := c.staged ++ [w] } ≤ 256 ∧
  Context.records { s.memCtx c with staged := c.staged ++ [w] } ≤ 4

/-- The operations of the ALU slot whose result is a function of their operands: code, command and result (Table 8-5). -/
def aluResults (c : Context) (x : AluSlot) : List (Nat × (AluSlot → Instr) × (W64 → W64 → W64)) :=
  [(1, Instr.aluAdd, fun a b => BitVec.ofNat 64 (a.toNat + b.toNat)),
   (2, Instr.aluSub, fun a b => BitVec.ofInt 64 ((a.toNat : Int) - b.toNat)),
   (3, Instr.aluMul, fun a b => BitVec.ofNat 64 (a.toNat % 2 ^ 32 * (b.toNat % 2 ^ 32))),
   (4, Instr.aluCsum, csum64),
   (5, Instr.aluAnd, fun a b => BitVec.ofNat 64 (a.toNat &&& b.toNat)),
   (6, Instr.aluOr, fun a b => BitVec.ofNat 64 (a.toNat ||| b.toNat)),
   (7, Instr.aluXor, fun a b => BitVec.ofNat 64 (a.toNat ^^^ b.toNat)),
   (8, Instr.aluShl, fun a b => BitVec.ofNat 64 (a.toNat * 2 ^ (b.toNat % 64))),
   (9, Instr.aluShr, fun a b => BitVec.ofNat 64 (a.toNat / 2 ^ (b.toNat % 64))),
   (10, Instr.aluSar, fun a b => BitVec.ofInt 64 (a.toInt / 2 ^ (b.toNat % 64))),
   (11, Instr.aluRol, fun a b => BitVec.ofNat 64 (a.toNat * 2 ^ (b.toNat % 64) + a.toNat / 2 ^ (64 - b.toNat % 64))),
   (12, Instr.aluMov, fun _ b => b),
   (13, Instr.aluMinu, fun a b => BitVec.ofNat 64 (min a.toNat b.toNat)),
   (14, Instr.aluMaxu, fun a b => BitVec.ofNat 64 (max a.toNat b.toNat)),
   (16, Instr.aluExt, fun a _ => BitVec.ofNat 64 (a.toNat / 2 ^ fieldPos x % 2 ^ fieldWidth x)),
   (18, Instr.aluSel, fun a b => if c.start.f.z then b else a),
   (19, Instr.aluCrc, fun a b => (crc32c (a.truncate 32) (natBe 8 b.toNat)).zeroExtend 64)]
/-- The result of ins: the low imm[13:8] bits of b at bit imm[5:0] of a (Table 8-5). -/
def InsResult (c : Context) (x : AluSlot) (r : W64) : Prop :=
  ∀ i, i < 64 → r.getLsbD i = if fieldPos x ≤ i ∧ i < fieldPos x + fieldWidth x then (aluB c x).getLsbD (i - fieldPos x) else (aluA c x).getLsbD i
/-- The result of bswap over 2, 4 or 8 bytes (Table 8-5). -/
def SwapResult (c : Context) (x : AluSlot) (r : W64) : Prop :=
  natLe 8 r.toNat = ((natLe 8 (aluA c x).toNat).take (2 ^ ((aluB c x).toNat % 4))).reverse ++
    (natLe 8 (aluA c x).toNat).drop (2 ^ ((aluB c x).toNat % 4))

/-- The lookup of a packet's record may run: the packet wants its record, no read of it is open, and the sequencer's release condition
holds (R148). -/
def State.MayLook (s : State) (n : Nat) (p : Packet) : Prop :=
  s.pkt? n = some p ∧ p.record = .wanted ∧ (p.stage = .lookedUp ∨ p.stage = .waitRecord) ∧ p.locks = [] ∧ p.ctx = none ∧
  (s.readsOf n).isEmpty = true ∧ s.flow.poolWait.contains n = false ∧ s.allIssued p = true

/-! ### Requests (R369 to R377) -/

/-- Scemas takes a request now: it is ready and runs, out of recovery and not handing over, the mailbox exists for requests, its completion ring has
room, and the request is the next of its mailbox. -/
def State.Serves (s : State) (r : Request) : Prop :=
  s.trust.ready = true ∧ s.scemasRuns = true ∧ s.noMaster r.mb = false ∧ s.trust.recovery ≠ 1 ∧
  s.quiesced = false ∧ s.cplFull r.mb = false ∧ (s.box r.mb).inOrder r = true

/-- A request of an opcode and class passes every check of R370: its header, the claim of the device, and its signature where one is
due. `key` is the key that signed it. -/
def State.Admits (s : State) (op cls : Nat) (read_ : Bool) (r : Request) (key : Option Nat) : Prop :=
  s.Serves r ∧ headerStatus op cls r = 0 ∧
  (s.owned = true ∨ (read_ = true ∧ effClass op cls r.expert = 0 ∧ r.mb.val ≠ 12 ∧ r.mb.val ≠ 13)) ∧
  (match key with
   | none => s.mustSign r.mb (effClass op cls r.expert) = false
   | some id => s.mustSign r.mb (effClass op cls r.expert) = true ∧ s.checkSignature op (effClass op cls r.expert) r = .ok id)

/-- The state in which the command of such a request is carried out: the request stands in its mailbox's line, and its key's counter is
spent. -/
def State.admitted (s : State) (op : Nat) (r : Request) (key : Option Nat) : State :=
  match key with
  | none => s.openLine op r
  | some id => (s.openLine op r).spendCounter id r.counter

/-- A request asks for a change: not for the read that the basic form of an all-expert command is (R383). -/
def asksChange (op : Nat) (r : Request) : Bool := !(allExpert op && !r.expert)

/-- Commands of settings (Table 16-6) with their opcodes and classes. -/
def SettingRow (mk : Request → Instr) (op cls : Nat) : Prop :=
  (mk, op, cls) ∈ ((
    [(Instr.fullLaneRecalibration, 0x0209, 1), (Instr.eventSubscribe, 0x0102, 1), (Instr.managementPortSet, 0x0103, 1),
     (Instr.engineSet, 0x0104, 1), (Instr.engineFenceOrReturn, 0x0104, 1), (Instr.faultPolicySet, 0x0106, 1),
     (Instr.sliceDrainAndReset, 0x0106, 1), (Instr.clearSafeState, 0x0106, 1), (Instr.portModeSet, 0x0201, 1),
     (Instr.laneConfigSet, 0x0202, 1), (Instr.portTrainingSet, 0x0203, 1), (Instr.portDampingSet, 0x0204, 1),
     (Instr.portPauseSet, 0x0205, 1), (Instr.portPolicerSet, 0x0206, 1), (Instr.laneTestSet, 0x0207, 1), (Instr.lanePowerSet, 0x0208, 1),
     (Instr.laneRecalibrateSet, 0x0209, 1), (Instr.otnOverheadSet, 0x020A, 1), (Instr.otnMaintenanceSet, 0x020B, 1),
     (Instr.bufferPoolSet, 0x020C, 1)] ++
    [(Instr.portQueueSet, 0x020D, 1), (Instr.portSchedulerSet, 0x020E, 1), (Instr.tillerReferenceSet, 0x0301, 1),
     (Instr.tillerHoldoverSet, 0x0302, 1), (Instr.tillerModeSet, 0x0303, 1), (Instr.tillerTimeSourceSet, 0x0304, 1),
     (Instr.tillerOutputSet, 0x0305, 1), (Instr.bridgeTableSet, 0x0401, 1), (Instr.bridgeLearnSet, 0x0402, 1),
     (Instr.bridgeAgeingSet, 0x0403, 1), (Instr.routeOptionsSet, 0x0405, 1), (Instr.aggregationSet, 0x0406, 1),
     (Instr.matchArraySet, 0x0410, 1), (Instr.flowAgeingSet, 0x0503, 1), (Instr.flowTableSet, 0x0504, 1), (Instr.exportSet, 0x050C, 1),
     (Instr.gateIntakeSet, 0x0603, 1), (Instr.gateOptionsSet, 0x0604, 1), (Instr.ledgerOptionsSet, 0x0605, 6),
     (Instr.baleOptionsSet, 0x0705, 1)] ++
    [(Instr.memorySchedulerSet, 0x0801, 1), (Instr.memoryRetrainSet, 0x0802, 1), (Instr.retrainUnitNow, 0x0802, 1),
     (Instr.memoryScrubSet, 0x0803, 1), (Instr.granaryRegionSet, 0x0804, 1), (Instr.memoryRetire, 0x0805, 1),
     (Instr.sheafPairSet, 0x0901, 3), (Instr.sheafLaneSet, 0x0902, 1), (Instr.sheafPowerSet, 0x0903, 1), (Instr.chaffSet, 0x0A01, 1),
     (Instr.strawSet, 0x0A02, 1), (Instr.counterSamplingSet, 0x0A07, 1), (Instr.sagPortSet, 0x0C02, 1), (Instr.sagOptionsSet, 0x0C03, 1),
     (Instr.commandedTestLevel, 0x0C03, 1)]) : List ((Request → Instr) × Nat × Nat))

/-- Reads of settings (R383) with the opcodes of the commands that they read. -/
def SettingReadRow (mk : Request → Instr) (op : Nat) : Prop :=
  (mk, op) ∈ ((
    [(Instr.eventSubscribeRead, 0x0102), (Instr.managementPortSetRead, 0x0103), (Instr.engineSetRead, 0x0104),
     (Instr.faultPolicySetRead, 0x0106), (Instr.portModeSetRead, 0x0201), (Instr.laneConfigSetRead, 0x0202),
     (Instr.portTrainingSetRead, 0x0203), (Instr.portDampingSetRead, 0x0204), (Instr.portPauseSetRead, 0x0205),
     (Instr.portPolicerSetRead, 0x0206), (Instr.laneTestSetRead, 0x0207), (Instr.lanePowerSetRead, 0x0208),
     (Instr.laneRecalibrateSetRead, 0x0209), (Instr.otnOverheadSetRead, 0x020A), (Instr.otnMaintenanceSetRead, 0x020B),
     (Instr.bufferPoolSetRead, 0x020C), (Instr.portQueueSetRead, 0x020D), (Instr.portSchedulerSetRead, 0x020E),
     (Instr.tillerReferenceSetRead, 0x0301), (Instr.tillerHoldoverSetRead, 0x0302)] ++
    [(Instr.tillerModeSetRead, 0x0303), (Instr.tillerTimeSourceSetRead, 0x0304), (Instr.tillerOutputSetRead, 0x0305),
     (Instr.bridgeTableSetRead, 0x0401), (Instr.bridgeLearnSetRead, 0x0402), (Instr.bridgeAgeingSetRead, 0x0403),
     (Instr.routeOptionsSetRead, 0x0405), (Instr.aggregationSetRead, 0x0406), (Instr.matchArraySetRead, 0x0410),
     (Instr.flowAgeingSetRead, 0x0503), (Instr.flowTableSetRead, 0x0504), (Instr.exportSetRead, 0x050C),
     (Instr.gateIntakeSetRead, 0x0603), (Instr.gateOptionsSetRead, 0x0604), (Instr.ledgerOptionsSetRead, 0x0605),
     (Instr.baleOptionsSetRead, 0x0705), (Instr.memorySchedulerSetRead, 0x0801), (Instr.memoryRetrainSetRead, 0x0802),
     (Instr.memoryScrubSetRead, 0x0803), (Instr.granaryRegionSetRead, 0x0804)] ++
    [(Instr.sheafPairSetRead, 0x0901), (Instr.sheafLaneSetRead, 0x0902), (Instr.sheafPowerSetRead, 0x0903), (Instr.chaffSetRead, 0x0A01),
     (Instr.strawSetRead, 0x0A02), (Instr.counterSamplingSetRead, 0x0A07), (Instr.sagPortSetRead, 0x0C02),
     (Instr.sagOptionsSetRead, 0x0C03)]) : List ((Request → Instr) × Nat))

/-- Commands that are bale actions (use B of Table 16-6) with their opcodes and classes. -/
def BaleRow (mk : Request → Instr) (op cls : Nat) : Prop :=
  (mk, op, cls) ∈ ((
    [(Instr.gateListSet, 0x0306, 1), (Instr.windowSet, 0x0307, 1), (Instr.bridgeEntrySet, 0x0407, 1), (Instr.vlanSet, 0x0408, 1),
     (Instr.routerMacSet, 0x0409, 1), (Instr.prefixSet, 0x040A, 1), (Instr.nextHopSet, 0x040B, 1), (Instr.multipathSet, 0x040C, 1),
     (Instr.aggregationGroupSet, 0x040D, 1), (Instr.matchRowSet, 0x040E, 1), (Instr.matchBankSet, 0x040F, 1),
     (Instr.flowProfileSet, 0x0501, 1), (Instr.flowRecordSet, 0x0502, 1), (Instr.objectWrite, 0x0506, 1),
     (Instr.patternSwitch, 0x0508, 1), (Instr.lbGroupSet, 0x0509, 1), (Instr.lbMemberSet, 0x050A, 1),
     (Instr.translationPoolSet, 0x050B, 1), (Instr.gateProfileSet, 0x0601, 1), (Instr.keyRingSet, 0x0602, 3)] ++
    [(Instr.permitRevoke, 0x060A, 1), (Instr.microcodeSwitch, 0x0B03, 1)]) : List ((Request → Instr) × Nat × Nat))

/-- Every command that an open bale takes as an action: the bale actions, the settings, the gate's shut and reopen, and Permit submit. -/
def ActionRow (mk : Request → Instr) (op cls : Nat) : Prop :=
  BaleRow mk op cls ∨ SettingRow mk op cls ∨
  (mk, op, cls) ∈ ([(Instr.gateShut, 0x0607, 4), (Instr.gateReopen, 0x0608, 5), (Instr.permitSubmit, 0x0609, 0)] : List ((Request → Instr) × Nat × Nat))

/-- A bale has room for one more action (R165). -/
def Bale.hasRoom (b : Bale) (a : Action) : Bool :=
  decide (b.actions.length < 16384) && decide ((b.actions.map (·.size)).sum + a.size ≤ 2 ^ 24)

/-- The rows of a settings command that its read answers in a form: all of them in the expert form, and where every row is expert. -/
def readRows (op : Nat) (expert : Bool) : List Row :=
  if expert = true ∨ allExpert op = true then rowsOf op else (rowsOf op).filter (fun r => !r.expert)

/-- A device takes the package of an import over: its image passes, it is laid out right with the actions `acts`, it is for the device, and
OTP has room for its rows (R426). -/
def State.Takes (s : State) (r : Request) (acts : List (Nat × Nat × Bytes)) : Prop :=
  s.imgFault 5 r.payload = none ∧ configActions (imgPayload r.payload).length ((imgPayload r.payload).drop 304) = some acts ∧
  packageMade (imgPayload r.payload) = true ∧ s.notForUs (imgPayload r.payload) = false ∧
  s.trust.otp.rows.length + (s.importRows (imgPayload r.payload)).length ≤ 260

/-- The owner keys that a package lists, by which an unowned device checks its import (R426). -/
def packageKey (r : Request) (id : Nat) : Option Bytes :=
  if 0xFF00 ≤ id ∧ id ≤ 0xFF03 then
    (List.find? (fun (x : Nat × Option Bytes) => x.1 == id - 0xFF00) (packageOwners (imgPayload r.payload))).bind (·.2)
  else none

/-! ### OTP (R408, Table 18-1) -/

/-- OTP is laid out as Table 18-1 has it: four revocation bits, four rollback counters and the keeper epoch of 0 to 255, at most 260
rows of the owner-key store, each of one of the four slots with a 32-byte key; and a device that is not owned has no row. -/
def OtpOk (o : Otp) : Prop :=
  o.revoked < 16 ∧ o.rollback.length = 4 ∧ (∀ x ∈ o.rollback, x ≤ 255) ∧ o.keeperEpoch ≤ 255 ∧ o.rows.length ≤ 260 ∧
  (∀ x ∈ o.rows, x.1 < 4 ∧ x.2.2.length = 32) ∧ (o.owned = false → o.rows = [])

/-- Nothing that is set in OTP `a` is cleared in `b`: revoked keys stay revoked, the counters and the epoch do not fall, the rows stand
where they stood with new ones behind them, and the owned and the succeeded bit stay. -/
def OtpGrows (a b : Otp) : Prop :=
  (∀ i, a.revoked.testBit i = true → b.revoked.testBit i = true) ∧ (∀ i, a.rollback.getD i 0 ≤ b.rollback.getD i 0) ∧
  a.keeperEpoch ≤ b.keeperEpoch ∧ (∃ x, b.rows = a.rows ++ x) ∧ (a.owned = true → b.owned = true) ∧
  (a.succeeded = true → b.succeeded = true)

end Sys2Proof.Machine
end

