-- ==== Sys2Proof/Certificates/Slice0/Obligations.lean ====
section
/-! DEFINITION. The statements for the provers, each with the rules of spec/ that it formalises. -/

open Sys2Proof Sys2Proof.Machine

/-- What an edge of CYC_REF does: the first becomes the anchor, an accepted one is tracked, a rejected one is counted. For every edge of
the chosen direction, while Tiller neither ignores its reference nor follows the twin: (a) with no reference tracked and no anchor, the
edge, less the reference delay of setting 0x0203, becomes the anchor; (b) with a reference tracked, an edge judged accepted that does not
exceed the chatter limit, when the reference was neither stuck nor lapsed by then, becomes the last accepted edge, clears the count of
rejected edges, and Tiller is locked or slewing by the edge's error; (c) with a reference tracked, a rejected edge that reaches neither the
rejection limit nor the chatter limit is counted and leaves the tracked frequency; (d) with a reference tracked that was stuck or had
lapsed by the edge, holdover is entered with that cause, and the edge becomes the anchor; (e) an edge of the other direction, or one that
comes while the reference is ignored, changes nothing. Frames: (a), (c) write tiller alone; (b) writes tiller and the host interface's
events. (R42, R43, R46, R47, R48, R51, R69) -/
def Obligations.TillerReferenceEdge : Prop :=
  (∀ (s : State) (rising : Bool) (t : Nat), rising = (s.sn 0x0201 == 0) → s.tiller.ignoring = false → s.following = false →
      s.tracking = false → s.tiller.anchored = false →
      exec (.cycRefEdge rising t) s = .next { s with tiller := { s.tiller with
        anchored := true, qualCount := 0, shadow := s.baseFreq, shadowRate := 0, lastEdge := some (t - s.sn 0x0203),
        lastAccepted := some (t - s.sn 0x0203), rejected := 0, recent := [t - s.sn 0x0203], stuckMul := s.sn 0x0209
        refDelay := s.sn 0x0203, periods := [], jitter := wholeCycle } }) ∧
  (∀ (s : State) (rising : Bool) (t a : Nat), rising = (s.sn 0x0201 == 0) → s.tiller.ignoring = false → s.following = false →
      s.tracking = true → s.tiller.lastAccepted = some a → s.judge (t - s.sn 0x0203 - a) = .accepted →
      s.lossAt (t - s.sn 0x0203) = none → (s.recentEdges (t - s.sn 0x0203)).length ≤ s.sn 0x020A →
      ∃ t', exec (.cycRefEdge rising t) s = .next t' ∧ t'.tiller.lastAccepted = some (t - s.sn 0x0203) ∧ t'.tiller.rejected = 0 ∧
        t'.tiller.error = -(toAu (s.edgeError (t - s.sn 0x0203))) ∧
        t'.tiller.st = (if (s.edgeError (t - s.sn 0x0203)).natAbs ≤ s.sn 0x020D * 2 ^ 40 then .locked else .slewing) ∧
        { t' with tiller := s.tiller, host := s.host, outbox := s.outbox } = s) ∧
  (∀ (s : State) (rising : Bool) (t a : Nat), rising = (s.sn 0x0201 == 0) → s.tiller.ignoring = false → s.following = false →
      s.tracking = true → s.tiller.lastAccepted = some a → s.judge (t - s.sn 0x0203 - a) ≠ .accepted →
      s.lossAt (t - s.sn 0x0203) = none → s.tiller.rejected + 1 < s.sn 0x0208 →
      (s.recentEdges (t - s.sn 0x0203)).length ≤ s.sn 0x020A →
      exec (.cycRefEdge rising t) s = .next { s with tiller := { s.tiller with
        lastEdge := some (t - s.sn 0x0203), recent := s.recentEdges (t - s.sn 0x0203), stuckMul := s.sn 0x0209
        refDelay := s.sn 0x0203, rejected := s.tiller.rejected + 1 } }) ∧
  (∀ (s : State) (rising : Bool) (t c : Nat), rising = (s.sn 0x0201 == 0) → s.tiller.ignoring = false → s.following = false →
      s.tracking = true → s.lossAt (t - s.sn 0x0203) = some c →
      exec (.cycRefEdge rising t) s = .next ((s.enterHoldover c).anchorEdge (t - s.sn 0x0203))) ∧
  (∀ (s : State) (rising : Bool) (t : Nat), (rising ≠ (s.sn 0x0201 == 0) ∨ s.tiller.ignoring = true) →
      exec (.cycRefEdge rising t) s = .next s)

/-- Holdover is entered when the reference is stuck or lapses, expires after its limit, and lock is declared within the lock limit. With the
reference not ignored: when no edge has come for the stuck time (TILLER_STUCK), or no edge was accepted for it though edges came
(TILLER_LAPSE), a Tiller that tracks a reference enters holdover with cause 1 or 2, holding the tracked frequency, and raises event 0x0301,
and the fault is counted in its class; one that tracks none drops its anchor. HOLDOVER_EXPIRED makes holdover expired after the holdover
limit and raises 0x0302. TILLER_LOCKED turns slewing into locked when the remaining difference is within the lock limit and raises 0x0303
with the frequency in units of 10^6. Each writes tiller, the fault counts and the events' host interface alone. (R43, R44, R45, R47, R48,
R393) -/
def Obligations.TillerTimers : Prop :=
  (∀ s : State, s.overdue s.tiller.lastEdge = true → s.tiller.ignoring = false → s.tracking = true →
      ∃ t, exec .tillerStuck s = .next t ∧ t.tiller.st = .holdover ∧ t.tiller.cause = 1 ∧ t.tiller.freq = s.frozenFreq ∧
        t.tiller.holdAt = s.now ∧ t.tiller.anchored = false ∧ t.host.eventIndex = s.host.eventIndex + 1 ∧
        { t with tiller := s.tiller, host := s.host, outbox := s.outbox } = s.noteFault 13) ∧
  (∀ s : State, s.overdue s.tiller.lastEdge = true → s.tiller.ignoring = false → s.tracking = false →
      exec .tillerStuck s = .next { s with tiller := { s.tiller with anchored := false, qualCount := 0 } }) ∧
  (∀ s : State, s.overdue s.tiller.lastAccepted = true → s.overdue s.tiller.lastEdge = false → s.tiller.ignoring = false → s.tracking = true →
      ∃ t, exec .tillerLapse s = .next t ∧ t.tiller.st = .holdover ∧ t.tiller.cause = 2 ∧ t.tiller.freq = s.frozenFreq ∧
        t.tiller.holdAt = s.now ∧ t.tiller.anchored = false ∧
        { t with tiller := s.tiller, host := s.host, outbox := s.outbox } = s.noteFault 13) ∧
  (∀ s : State, s.tiller.st = .holdover → s.tiller.holdAt + ns (s.sn 0x020E) ≤ s.now →
      exec .holdoverExpired s = .next ((s.setTiller { s.tiller with st := .expired }).raise 0x0302 srcDevice [])) ∧
  (∀ s : State, s.tiller.st = .slewing → s.tiller.gap.natAbs ≤ s.sn 0x020D * 2 ^ 40 →
      exec .tillerLocked s = .next ((s.setTiller { s.tiller with st := .locked }).raise 0x0303 srcDevice (natLe 4 (s.tiller.freq / 1000000))))

/-- TAI sources, PTP messages and the CYC_OUT and PPS_OUT pins. For every state: CYC_OUT takes the level of its angle window. PPS_OUT
rises, with its time kept, once in a TAI second after the delay compensation, when the angle is loaded and the output enabled, and falls
after its width. At a TAI second boundary with TAI qualified by PTP or 1PPS and VKEEP present the RTC takes the TAI second, with sub-second
0, and the seed flag is set, before the PTP messages and the LACPDUs of the second leave. An edge of PPS_IN with TIME_REF present makes
1PPS qualified and disciplines the clock by the edge's offset; without TIME_REF it changes nothing. Loss of TIME_REF disqualifies 1PPS and
turns a clock disciplined by it into TAI holdover (tai_state 4). A PTP peer-delay request on a port that takes part is answered with the
time from its receipt to the answer in the correction; a peer-delay follow-up computes the port's delay; a boundary clock notes each
announce with its port, and that of its master gives the UTC offset and the profile's fields; a one-step sync from the master disciplines
the clock, and one from elsewhere changes nothing; a two-step sync from the master is kept with its correction, and its follow-up
disciplines the clock by both corrections; a message on a port that takes no part, or of another domain, changes nothing. (R52,
R53, R66, R67, R68, R432, R467) -/
def Obligations.TillerTimeAndOutputs : Prop :=
  (∀ s : State, exec .cycOutToggle s = .next { s with tiller := { s.tiller with cycOut := s.cycLevel } }) ∧
  (∀ s : State, exec .ppsOutRise s = .next (
      if s.tiller.loaded ∧ s.son 0x0216 0 1 ∧ s.sn 0x0217 ≤ s.tiller.taiNs ∧ s.tiller.ppsSec ≠ some s.tiller.taiSec then
      { s with tiller := { s.tiller with ppsOut := true, ppsRose := s.now, ppsSec := some s.tiller.taiSec } } else s)) ∧
  (∀ s : State, exec .ppsOutFall s = .next (if s.tiller.ppsRose + ns (s.sn 0x0216) ≤ s.now then
      { s with tiller := { s.tiller with ppsOut := false } } else s)) ∧
  (∀ s s0 : State, s0 = s.dropSilent → exec .taiSecondBoundary s = .next ((Tab.keys s.ports).foldl (fun s p => s.sendLacp p)
      (if (s0.tiller.taiState = 2 ∨ s0.tiller.taiState = 3) ∧ s.keeper.vkeep then
        { s0 with keeper := { s.keeper with rtc := s.tiller.taiSec, sub := 0, seed := true } } else s0).sendPdelay)) ∧
  (∀ (s : State) (t : Nat) (off : Int), s.tiller.timeRef = true →
      (off - ((s.tai : Int) - ((toNs s.now : Int) - (t : Int)))) % 1000000000 = 0 → -500000000 ≤ off → off < 500000000 →
      exec (.ppsInEdge t) s = .next (({ s with tiller := { s.tiller with ppsOk := true, ppsAt := s.now } }).discipline 1 3
        (off + s.ppsSeconds off))) ∧
  (∀ (s : State) (t : Nat), s.tiller.timeRef = false → exec (.ppsInEdge t) s = .next s) ∧
  (∀ s : State, ∃ t, exec .timeRefLoss s = .next t ∧ t.tiller.timeRef = false ∧ t.tiller.ppsOk = false ∧
      t.tiller.taiState = (if s.tiller.taiState = 3 then 4 else s.tiller.taiState) ∧
      { t with tiller := s.tiller, host := s.host, outbox := s.outbox } = s) ∧
  (∀ (s : State) (p : PortId) (m : PtpMessage), s.ptpPort p = true → m.domain = s.sn 0x0213 0 2 →
      (m.kind = .pdelayReq → exec (.ptpMessageReceive p m) s = .next (s.emit (.ptp p { s.ptpMsg p .pdelayResp m.seq 0 with
        corrNs := m.corrNs + (s.txTime p - s.rxTime p : Nat) }))) ∧
      (m.kind = .pdelayRespFollowUp → exec (.ptpMessageReceive p m) s = .next (s.setPtp p { s.ptpOf p with
        delay := ((((s.ptpOf p).t4 : Int) - ((s.ptpOf p).t1 : Int)) -
          (((m.tsSec * 1000000000 + m.tsNs : Nat) : Int) - ((s.ptpOf p).t2 : Int)) - (s.ptpOf p).respCorr - m.corrNs) / 2 })) ∧
      (m.kind = .announce → s.sn 0x0213 0 1 ≠ 1 → ∀ t, t = s.setPtp p { s.ptpOf p with foreign := some (m.clock, s.now) } →
        exec (.ptpMessageReceive p m) s = .next (if t.facesMaster p then { t with tiller := { t.tiller with
          utcOffset := m.utcOffset, gmId := m.gmId, inaccuracy := m.inaccuracy } } else t)) ∧
      (m.kind = .sync → m.twoStep = false → s.sn 0x0213 0 1 ≠ 1 → exec (.ptpMessageReceive p m) s = .next (
        if s.facesMaster p then ({ s with tiller := { s.tiller with
          ptpOk := true, ptpAt := s.now, ptpOffset := s.syncOffset p (s.rxTime p) m.corrNs m } }).discipline 0 2
          (s.syncOffset p (s.rxTime p) m.corrNs m) else s)) ∧
      (m.kind = .sync → m.twoStep = true → s.sn 0x0213 0 1 ≠ 1 → s.facesMaster p = true → exec (.ptpMessageReceive p m) s =
        .next (s.setPtp p { s.ptpOf p with syncAt := some (m.seq, s.rxTime p, m.corrNs) })) ∧
      (∀ rx c, m.kind = .followUp → (s.ptpOf p).syncAt = some (m.seq, rx, c) → s.sn 0x0213 0 1 ≠ 1 → s.facesMaster p = true →
        exec (.ptpMessageReceive p m) s = .next (({ s with tiller := { s.tiller with
          ptpOk := true, ptpAt := s.now, ptpOffset := s.syncOffset p rx (c + m.corrNs) m } }).discipline 0 2 (s.syncOffset p rx (c + m.corrNs) m)))) ∧
  (∀ (s : State) (p : PortId) (m : PtpMessage), (s.ptpPort p = false ∨ m.domain ≠ s.sn 0x0213 0 2) →
      exec (.ptpMessageReceive p m) s = .next s)

/-- Attempts of a port: their start, negotiation, the failures of Table 3-3 and the waits of Table 3-4. (a) A failed attempt counts one
failure, keeps its cause, raises event 0x0203 with cause and count, and waits by Table 3-4 (0 s at first, then 1, 2, 4, 8, 16, 32 s) or,
from the eighth failure on, is suspended for the suspension interval, with event 0x0204 at the eighth. (b) TRAINING_ATTEMPT_START begins
an attempt that is due; RETRY_WAIT_EXPIRY does so for a port that is not suspended and SUSPENSION_INTERVAL_EXPIRY for one that is; when it
is not due nothing changes. (c) NEGOTIATION_COMPLETE takes the fastest mode that both advertise into training, or fails with cause 5. (d)
NEGOTIATION_TIMEOUT and TRAINING_TIMEOUT fail the attempt after their limits, with cause 1 or 3, or 6 where no signal was seen (an OTU4
port: its highest defect, and cause 3 when none is present). (e) A next page beyond the page limit fails the attempt with cause 2, any other is
counted. The cause codes are the model's (log 20). (R77, R79, R81, Table 3-4) -/
def Obligations.PortAttempts : Prop :=
  (∀ (s : State) (p cause : Nat), s.failAttempt p cause =
      (let n := (s.port p).failures + 1
       let t := (s.raise 0x0203 (src 1 p) (natLe 1 cause ++ natLe 1 (min n 255))).setPort p { s.port p with
         failures := n, attempt := false, cause := cause, st := if n < 8 then s.startState p else .suspended,
         waitUntil := s.now + (if n < 8 then sec ([0, 0, 1, 2, 4, 8, 16, 32].getD n 32) else ns (s.sn 0x0306 p)) }
       if n = 8 then t.raise 0x0204 (src 1 p) [] else t)) ∧
  (∀ (s : State) (p : PortId), exec (.trainingAttemptStart p) s = .next (if s.attemptDue p then s.beginAttempt p else s)) ∧
  (∀ (s : State) (p : PortId), exec (.retryWaitExpiry p) s =
      .next (if s.attemptDue p ∧ (s.port p).st ≠ .suspended then s.beginAttempt p else s)) ∧
  (∀ (s : State) (p : PortId), exec (.suspensionIntervalExpiry p) s =
      .next (if s.attemptDue p ∧ (s.port p).st = .suspended then s.beginAttempt p else s)) ∧
  (∀ (s : State) (p : PortId) (partner : ModeSet), (s.port p).attempt = true → (s.port p).st = .negotiating →
      exec (.negotiationComplete p partner) s = .next (match (s.advertised p).filter (fun m => partner.val.testBit (m - 1)) with
        | m :: _ => s.setPort p { s.port p with st := .training, runMode := m, attemptAt := s.now }
        | [] => s.failAttempt p 5)) ∧
  (∀ (s : State) (p : PortId), (s.port p).attempt = true → (s.port p).st = .negotiating →
      (s.port p).attemptAt + ns (s.sn 0x0305 p 0) ≤ s.now →
      exec (.negotiationTimeout p) s = .next (s.failAttempt p (if (s.port p).sawSignal then 1 else 6))) ∧
  (∀ (s : State) (p : PortId), (s.port p).attempt = true → (s.port p).st = .training → (s.port p).runMode ≠ 6 →
      (s.port p).attemptAt + ns (s.sn 0x0305 p (if (s.port p).runMode = 4 ∨ (s.port p).runMode = 5 then 3 else 2)) ≤ s.now →
      exec (.trainingTimeout p) s = .next (s.failAttempt p (if (s.port p).sawSignal then 3 else 6))) ∧
  (∀ (s : State) (p : PortId), (s.port p).attempt = true → (s.port p).st = .training → (s.port p).runMode = 6 →
      (s.port p).attemptAt + ns (s.sn 0x0305 p 2) ≤ s.now →
      exec (.trainingTimeout p) s = .next (s.failAttempt p (match activeRows (s.otnOf p).defects with
        | r :: _ => causeDefect r
        | [] => 3))) ∧
  (∀ (s : State) (p : PortId), (s.port p).attempt = true → (s.port p).st = .negotiating →
      exec (.nextPageReceive p) s = .next (
        let t := s.setPort p { s.port p with pages := (s.port p).pages + 1 }
        if s.sn 0x0305 p 1 < (s.port p).pages + 1 then t.failAttempt p 2 else t))

/-- Coefficient requests and their answers, signal, and the completion of training. (a) A partner's coefficient request during training is
counted and becomes the pending one of its lane, or past the limit fails the attempt with cause 4. (b) The pending request is answered
once the gap since the last answer has passed: status 3 (hold) for no step, 1 (maximum) or 2 (minimum) where the tap would leave its
range, with the tap as it was, else 0 (updated) with the tap stepped; the answer leaves the lane. (c) Signal that appears sets the lane's
signal, is noted in an attempt, and on an OTU4 port with signal on both lanes starts the interval that clears dLOS, and with signal on one
ends that lane's loss. (d) TRAINING_COMPLETE
brings the port up: no failures, no attempt, the equaliser settings of its lanes kept, and event 0x0201 with the running mode unless the
port is damped; an OTU4 port needs the conditions of R103. (R74, R78, R79, R81, R89, R98, R99, R103) -/
def Obligations.LaneTraining : Prop :=
  (∀ (s : State) (l : LaneId) (q : CoefRequest), (s.port (l / 2)).attempt = true → (s.port (l / 2)).st = .training →
      (s.port (l / 2)).runMode ≠ 6 →
      exec (.partnerCoefficientRequest l q) s = .next (
        let t := s.setPort (l / 2) { s.port (l / 2) with requests := (s.port (l / 2)).requests + 1 }
        if s.sn 0x0305 (l / 2) 5 < (s.port (l / 2)).requests + 1 then t.failAttempt (l / 2) 4
        else t.setLane l { t.lane l with pendingReq := some q })) ∧
  (∀ (s : State) (l : LaneId) (q : CoefRequest) (lo hi cur : Int) (st : Nat) (v : Int), (s.lane l).pendingReq = some q →
      (∀ t, (s.lane l).lastAnswer = some t → t + ns (s.sn 0x0305 (l / 2) 4) ≤ s.now) →
      tapBounds (s.port (l / 2)).runMode q.tap = (lo, hi) → (s.lane l).taps.getD q.tap 0 = cur →
      ((st = 3 ∧ v = cur ∧ q.delta = 0) ∨ (st = 1 ∧ v = cur ∧ q.delta ≠ 0 ∧ hi < cur + q.delta) ∨
        (st = 2 ∧ v = cur ∧ q.delta ≠ 0 ∧ cur + q.delta ≤ hi ∧ cur + q.delta < lo) ∨
        (st = 0 ∧ v = cur + q.delta ∧ q.delta ≠ 0 ∧ cur + q.delta ≤ hi ∧ lo ≤ cur + q.delta)) →
      exec (.coefficientResponse l) s = .next ((s.setLane l { s.lane l with
        pendingReq := none, lastAnswer := some s.now, taps := (s.lane l).taps.set q.tap v }).emit (.coefStatus l q.tap st))) ∧
  (∀ (s : State) (l : LaneId), ∃ t, exec (.signalAppears l) s = .next t ∧
      { t with lanes := s.lanes, ports := s.ports, otn := s.otn } = s ∧
      t.lanes = Tab.put {} s.lanes l { s.lane l with signal := true } ∧
      t.ports = Tab.put {} s.ports (l / 2) { s.port (l / 2) with sawSignal := (s.port (l / 2)).sawSignal || (s.port (l / 2)).attempt } ∧
      t.otn = (if (s.port (l / 2)).runMode = 6 ∧ (t.lane (2 * (l / 2))).signal = true ∧ (t.lane (2 * (l / 2) + 1)).signal = true then
        Tab.put {} s.otn (l / 2) { s.otnOf (l / 2) with sigSince := some s.now, lossAt := none, laneLossAt := [] }
        else if (s.port (l / 2)).runMode = 6 then
          Tab.put {} s.otn (l / 2) { s.otnOf (l / 2) with laneLossAt := Tab.put none (s.otnOf (l / 2)).laneLossAt (l % 2) none }
        else s.otn)) ∧
  (∀ (s : State) (p : PortId), (s.port p).attempt = true → (s.port p).st = .training → ((s.port p).runMode = 6 → s.otnReady p = true) →
      exec (.trainingComplete p) s = .next (
        let t := ((lanesOf p (s.port p).runMode).foldl (fun s l => s.modLane l (fun y => { y with savedEq := y.eq })) s).setPort p
          { s.port p with st := .up, attempt := false, failures := 0 }
        if (s.port p).isDamped then t else t.raise 0x0201 (src 1 p) (natLe 1 (s.port p).runMode)))

/-- Received pause and its watchdog, damping, lane power and lane recalibration. (a) A pause frame on a port that is up gives each class
that honours it its quanta (of 64 bytes each), quanta 0 ending the pause; on a port that is not up nothing changes. (b) A pause ends when
its time has come, and a watchdog recovery when its time has come. (c) The watchdog trips once the clock has passed on which a class had
been held for the watchdog time, on a port that is up and not in recovery: recovery starts, count 19 goes up, event 0x0207 names class and
action, and the action (0 ignore, 1 discard the queue, 2 port down) is carried out. (d) Every 100 ms damping evaluates each port whose state
is held. (e) A lane whose exit from a power state is done is active again, with the equaliser settings kept where it left deep rest; the
port begins an attempt when none of its lanes rests. (f) A recalibration pass starts when its period is over, or on a lane whose temperature
moved by the step or more, which asks for another pass while one runs; the lane at its head done goes out of the pass, which at its end
raises 0x0208 with the number of lanes changed, and is at its end at once where no lane is active. (R82, R83, R88, R89, R90, R91, Table 3-5) -/
def Obligations.PortPauseAndRecalibration : Prop :=
  (∀ (s : State) (p : PortId) (f : PauseFrame), exec (.pauseFrameReceive p f) s = .next (if (s.port p).isUp then
      (List.range 8).foldl (fun s c => if s.honours p c f then s.pauseClass p c (f.quanta.getD (if f.pfc then c else 0) 0) else s) s else s)) ∧
  (∀ (s : State) (p c q : Nat), s.pauseClass p c q = (if q = 0 then s.setPauseRx p c { s.pauseRx p c with until_ := none, held := 0 }
      else s.setPauseRx p c { s.pauseRx p c with until_ := some (s.now + s.wireTime p (q * 64)) })) ∧
  (∀ (s : State) (p : PortId) (c : ClassId) (t : Nat), (s.pauseRx p c).until_ = some t → t ≤ s.now →
      exec (.pauseQuantaExpiry p c) s = .next (s.setPauseRx p c { s.pauseRx p c with until_ := none, held := 0 })) ∧
  (∀ (s : State) (p : PortId) (c : ClassId) (t : Nat), (s.pauseRx p c).recovery = some t → t ≤ s.now →
      exec (.pauseWatchdogRecoveryEnd p c) s = .next (s.setPauseRx p c { s.pauseRx p c with recovery := none, held := 0 })) ∧
  (∀ (s : State) (p : PortId) (c : ClassId), (s.pauseRx p c).recovery = none → (∃ t, (s.pauseRx p c).reachedAt = some t ∧ t < s.now) →
      (s.port p).isUp = true →
      exec (.pauseWatchdogTrip p c) s = .next (
        let t := ((s.setPauseRx p c { s.pauseRx p c with
          recovery := some (s.now + ns (s.sn 0x030D p)), held := 0, reachedAt := none }).count 1 (256 * p + 19)).raise
          0x0207 (src 1 p) (natLe 1 c ++ natLe 1 (s.sn 0x030E p))
        if s.sn 0x030E p = 1 then t.flushQueue (8 * p + c) (fun s => s)
        else if s.sn 0x030E p = 2 then (t.portDown p causeCommanded true).modPort p (fun q => { q with waitUntil := s.now + ns (s.sn 0x030D p) })
        else t)) ∧
  (∀ s : State, exec .dampingEvaluation s = .next (if s.recal.dampAt + ms 100 ≤ s.now then
      (Tab.keys s.ports).foldl (fun s p => s.evaluateDamping p) { s with recal := { s.recal with dampAt := s.now - s.now % ms 100 } }
      else s)) ∧
  (∀ (s : State) (l : LaneId), (s.lane l).exitAt ≠ none →
      exec (.lanePowerExitDone l) s = .next (
        let t := s.setLane l { s.lane l with
          power := 0, exitAt := none, eq := if (s.lane l).power = 2 then (s.lane l).savedEq else (s.lane l).eq }
        if t.restState (l / 2) = none ∧ ((s.port (l / 2)).st = .laneIdle ∨ (s.port (l / 2)).st = .deepRest) ∧ (s.port (l / 2)).shed = false ∧
          (s.port (l / 2)).sliceDown = false ∧ s.portMode (l / 2) ≠ 0 then t.beginAttempt (l / 2) else t)) ∧
  (∀ s : State, s.recal.running = false → s.recal.lastPass + ns (s.sn 0x0312) ≤ s.now →
      exec .recalibrationPassStart s = .next (
        let r : Recal := { s.recal with left := s.activeLanes, changed := 0, lastPass := s.now, again := false }
        if s.activeLanes = [] then ({ s with recal := { r with running := false } }).raise 0x0208 srcDevice (natLe 1 0)
        else { s with recal := { r with running := true } })) ∧
  (∀ (s : State) (l : LaneId) (temp : Int), (s.sn 0x0313 : Int) ≤ (temp - (s.lane l).calTemp).natAbs →
      exec (.laneTemperatureStep l temp) s = .next (
        let t := s.setLane l { s.lane l with calTemp := temp, calDue := true }
        if s.recal.running then { t with recal := { s.recal with again := true } } else t.startPass)) ∧
  (∀ (s : State) (l : LaneId) (better : Bool) (ks : List Nat), s.recal.left = l.val :: ks → (s.port (l / 2)).attempt = false →
      exec (.laneRecalibrationDone l better) s = .next (
        let n := s.recal.changed + b2n better
        let t := { s.setLane l { s.lane l with calDue := false } with recal := { s.recal with left := ks, changed := n, running := !ks.isEmpty } }
        if ks.isEmpty then
          if s.recal.again then (t.raise 0x0208 srcDevice (natLe 1 n)).startPass else t.raise 0x0208 srcDevice (natLe 1 n)
        else t))

/-- Loss of signal and of a line reference clock, and the OTU4 framing: frames, overhead, persistence and seconds. (a) Loss of signal on a
lane clears its signal and lock, and is counted in its class of faults where there was signal; on a lane that its port does not use nothing
else happens; on an OTU4 port the dLOS defect (row 1 of Table 4-2) is declared, its clear interval ends, and an attempt fails; on an
Ethernet port that is up the link goes down with the cause of Table 16-9 (log 20) and a new attempt begins; on a port in an attempt that
saw the signal the attempt fails. (b) Loss of a line reference clock is kept,
and the 32 lanes it serves that have signal lose it. (c) An OTU4 frame counts the corrected bits and symbols and uncorrectable codewords,
becomes the port's framing and its defects are compared again; losing the client's PCS lock is kept, and once its clock has passed takes an
up port down with its highest fault cause. (d) A transmitted OTU4
frame, which leaves while both lanes send the device's own data, carries the backward indications of the active defects, the status of the
port, the payload type 0x07 and the trace bytes set, or the LCK pattern, and the BIP-8 of the OPU4 of two frames before; the
MFAS counts modulo 256 and the lane marker modulo 240; the justification control of a client is free. (e)
OTN_PERSISTENCE_EXPIRY makes each alignment defect follow its stage once that has held 3 ms. (f) dLOS clears after 1 ms of signal. (g) The
end of a second closes it on every OTU4 port. (R75, R79, R80, R97, R98, R99, R102, R104, R105, R107, R108, R393) -/
def Obligations.OtnAndSignalLoss : Prop :=
  (∀ (s : State) (l : LaneId), exec (.lossOfSignal l) s = .next (
      let p : Nat := l / 2
      let t := (if (s.lane l).signal then s.noteFault 12 else s).setLane l { s.lane l with signal := false, locked := false }
      if s.laneUsed l = false ∧ l.val ≠ 2 * p then t
      else if s.sn 0x0301 p = 6 then
        let u := (t.setOtn p (if (s.lane l).signal then (s.otnOf p).losing (l % 2) s.now else { s.otnOf p with sigSince := none })).setDefects p
          ((s.otnOf p).defects ||| rowBit 1)
        if (s.port p).attempt ∧ (s.lane l).signal then u.failAttempt p 6 else u
      else if (s.port p).st = .up then (t.portDown p 7 false).beginAttempt p
      else if (s.port p).attempt ∧ (s.lane l).signal ∧ ((s.port p).st = .negotiating → l.val = 2 * p) then t.failAttempt p 6
      else t)) ∧
  (∀ (s : State) (n : Fin 6), s.refclkLost.contains n.val = false →
      exec (.refclkLineLoss n) s = .next ((List.range 32).foldl
        (fun s k => if (s.lane (32 * n + k)).signal then s.laneLoss (32 * n + k) else s) { s with refclkLost := s.refclkLost ++ [n.val] })) ∧
  (∀ (s : State) (p : PortId) (f : OtuFrame), s.sn 0x0301 p = 6 → (s.port p).shed = false →
      exec (.otu4FrameReceive p f) s = .next (
        let t := ((s.draw.2.count 3 (256 * p + 16) f.fecBits).count 3 (256 * p + 17) f.fecSymbols).count 3 (256 * p + 18) f.fecUncorrectable
        let o := s.otnFrame p (s.draw.1.toNat % 16384) f
        (t.setOtn p o).setDefects p (t.frameDefects p o))) ∧
  (∀ (s : State) (p : PortId) (f : OtuFrame), s.sn 0x0301 p = 6 → (s.port p).shed = false → ∃ t o, exec (.otu4FrameReceive p f) s = .next t ∧
      o = s.otnFrame p (s.draw.1.toNat % 16384) f ∧ o.pcsLock = f.pcsLock ∧
      o.pcsLostAt = (if (s.otnOf p).pcsLock = true ∧ f.pcsLock = false then some s.now else (s.otnOf p).pcsLostAt)) ∧
  (∀ (s : State) (p t : Nat), (s.otnOf p).pcsLostAt = some t → t < s.now → (s.port p).st = .up →
      s.pcsDown p = ((s.setOtn p { s.otnOf p with pcsLostAt := none }).portDown p (match activeRows (s.otnOf p).defects with
        | r :: _ => causeDefect r
        | [] => causeClientPcs) false).beginAttempt p) ∧
  (∀ (s : State) (p : PortId), s.sn 0x0301 p = 6 →
      exec (.otu4FrameTransmit p) s = .next (
        (if s.towardPartner (2 * p) = .own ∧ s.towardPartner (2 * p + 1) = .own then s.draw.2.emit (.otuOverhead p (s.otuSent p s.draw.1))
          else s.draw.2).setOtn p { s.otnOf p with
          txMfas := ((s.otnOf p).txMfas + 1) % 256, txMarker := ((s.otnOf p).txMarker + 1) % 240
          opuBips := s.opuBip p s.draw.1 :: (s.otnOf p).opuBips.take 1 })) ∧
  (∀ (s : State) (p m : Nat) (r : W64) (tim : Bool) (x : OtuSent), m = (s.otnOf p).defects → tim = s.son 0x0404 p → x = s.otuSent p r →
      x.marker = (s.otnOf p).txMarker ∧ x.mfas = (s.otnOf p).txMfas ∧
      x.smBdi = (hasAny m sectionBits || (tim && hasAny m (rowBit 5))) ∧
      x.smBei = (if hasAny m sectionBits then 0 else (s.otnOf p).smBeiTx) ∧
      x.pmBdi = (hasAny m oduBits || (tim && hasAny m (rowBit 10)) || hasAny m (rowBit 12)) ∧
      x.pmBei = (if hasAny m oduBits then 0 else (s.otnOf p).pmBeiTx) ∧
      x.pmStat = (if (s.port p).st = .test ∨ s.son 0x0406 p then 5 else if (s.port p).st = .disabled then 6 else 1) ∧
      (x.lck = false → x.mfas = 0 → x.psi = 7) ∧ (x.lck = true → x.psi = 0x55 ∧ x.jc = List.replicate 6 0x55) ∧
      x.lck = (decide ((s.port p).st = .test) || s.son 0x0406 p) ∧
      (∀ a b l, (s.otnOf p).opuBips = a :: b :: l → x.smBip = b.toNat ∧ x.pmBip = b.toNat) ∧
      x.smTti = s.sn 0x0401 p (x.mfas % 64) ∧ x.pmTti = s.sn 0x0401 p (64 + x.mfas % 64) ∧
      x.remoteFault = x.pmBdi) ∧
  (∀ (s : State) (p : PortId), s.sn 0x0301 p = 6 → (s.port p).shed = false →
      exec (.otnPersistenceExpiry p) s = .next (
        let o := s.otnOf p
        let now (x : Stage) (was : Bool) := if x.since + ms 3 ≤ s.now then x.out else was
        s.setDefects p (setRow (setRow (setRow o.defects 2 (now o.lane (o.defects.testBit 1))) 3 (now o.frame (o.defects.testBit 2)))
          4 (now o.multi (o.defects.testBit 3))))) ∧
  (∀ (s : State) (p : PortId) (t : Nat), (s.otnOf p).sigSince = some t → s.sn 0x0301 p = 6 →
      exec (.dlosClearTimeout p) s = .next (if t + ms 1 ≤ s.now then s.setDefects p (setRow (s.otnOf p).defects 1 false) else s)) ∧
  (∀ s : State, exec .otnSecondEnd s = .next ((List.range 96).foldl (fun s p => if s.sn 0x0301 p = 6 then s.endSecond p else s) s))

/-- MAC learning, moves, freezing, ageing and restore, and the refresh of a route entry. (a) LEARN_REQUEST_APPLY takes the oldest request of
the slice's queue. An address not in the slice is placed as a learned entry with its hit bit set and the present sweep number, and counted
where it found a place; an entry at the same destination gets hit set; a static entry at another stands and the violation is counted; a
frozen entry that would move stands and the move is counted; any other entry moves: destination, hit, move count, window, counts 1 and 2,
and the freeze with event 0x0402 at the move limit. (b) A window that has closed resets the move count, and a thaw clears frozen and raises
0x0403. (c) A port that is down, with flushing on, loses its learned entries in every slice whose service engines run, and a port that is up
again those that were due. (d) A sweep visit, where they run, on an entry that may age and that no hit or learn of this clock has touched:
hit becomes clear and the present sweep is kept, else stale is set, else the entry is aged, to be removed and counted when the clock has
passed; one that the clock touched survives. (e) A lost static entry goes back to its place from the master copy, from which it evicts a
learned entry. (f) A marked route entry is refreshed with event 0x0405. (R117, R118, R119, R120, R121, R122, R129, R201) -/
def Obligations.BridgeLearningAndAgeing : Prop :=
  (∀ (s : State) (k : SliceId) (r : LearnReq) (rest : List LearnReq), (s.mac k).queue = r :: rest →
      exec (.learnRequestApply k) s = .next (
        let t := (s.setMac k { s.mac k with queue := rest }).pmu k 14
        match (t.mac k).lookup r.vid r.mac s.bales.epoch with
        | none =>
          let u := t.placeLearned k { mac := r.mac, vid := r.vid, dest := r.dest, hit := true, lastSeen := (s.mac k).sweep, touch := some (s.now, 0) }
          if u.2 then u.1.count 4 (256 * k + 1) else u.1
        | some (i, e) =>
          if e.dest = r.dest then t.putMac k i { e with hit := true, touch := (e.sourceHit s.now).touch }
          else if e.static then t.count 4 (256 * k + 7)
          else if e.frozen then t.count 4 (256 * k + 2)
          else t.moveEntry k i e r.dest)) ∧
  (∀ (s : State) (k i : Nat) (e : MacEntry) (dest : Nat), e.moves + 1 < s.sn 0x0504 → (∀ t, e.windowEnd = some t → s.now ≤ t) →
      s.moveEntry k i e dest = ((s.count 4 (256 * k + 1)).count 4 (256 * k + 2)).putMac k i { e with
        dest := dest, hit := true, stale := false, touch := (e.moved dest s.now).touch, moves := min (e.moves + 1) 255,
        windowEnd := some (e.windowEnd.getD (s.now + ns (s.sn 0x0505))) }) ∧
  (∀ (s : State) (k : SliceId) (loc : MacLoc) (e : MacEntry) (t : Nat), Tab.find? (s.mac k).entries (macIndex loc) = some e →
      e.windowEnd = some t → t < s.now → e.frozen = false →
      exec (.moveWindowClose k loc) s = .next (s.putMac k (macIndex loc) { e with windowEnd := none, moves := 0 })) ∧
  (∀ (s : State) (k : SliceId) (loc : MacLoc) (e : MacEntry) (t : Nat), Tab.find? (s.mac k).entries (macIndex loc) = some e →
      e.frozen = true → e.thawAt = some t → t ≤ s.now →
      exec (.macThaw k loc) s = .next ((s.putMac k (macIndex loc) { e with frozen := false, thawAt := none, moves := 0, windowEnd := none }).raise
        0x0403 (src 5 k) (natLe 2 e.vid ++ natBe 6 e.mac))) ∧
  (∀ (s : State) (p : PortId), s.son 0x0507 = true →
      exec (.macFlushOnPortDown p) s = .next ((List.range 8).foldl (fun s k => if s.sweeps k then
        (s.setMac k { s.mac k with entries := (s.mac k).entries.filter (fun x =>
          x.2.static || x.2.dest != p.val || ((s.port p).isUp && !x.2.flushDue)) }).safePoint k else s) s)) ∧
  (∀ (s : State) (k : SliceId) (loc : MacLoc) (e : MacEntry), Tab.find? (s.mac k).entries (macIndex loc) = some e →
      s.sweeps k = true → e.static = false → e.frozen = false → s.son 0x0509 k = true → macIndex loc ≠ macOverflow + 4095 →
      (∀ t n, e.touch = some (t, n) → t ≠ s.now) →
      exec (.macAgeingSweepVisit k loc) s = .next (
        let t := if e.hit then s.putMac k (macIndex loc) { e with hit := false, stale := false, lastSeen := (s.mac k).sweep }
          else if e.stale then s.setMac k { s.mac k with aged := macIndex loc :: (s.mac k).aged.filter (· != macIndex loc) }
          else s.putMac k (macIndex loc) { e with stale := true }
        (t.setMac k { t.mac k with sweep := (t.mac k).sweep }).safePoint k)) ∧
  (∀ (s : State) (k : SliceId) (loc : MacLoc) (e : MacEntry) (n : Nat), Tab.find? (s.mac k).entries (macIndex loc) = some e →
      s.sweeps k = true → e.static = false → e.frozen = false → s.son 0x0509 k = true → macIndex loc ≠ macOverflow + 4095 →
      e.touch = some (s.now, n) →
      exec (.macAgeingSweepVisit k loc) s = .next (
        let t := s.putMac k (macIndex loc) (match n with
          | 0 => e
          | 1 => { e with stale := true }
          | _ => { e with stale := false, lastSeen := (s.mac k).sweep })
        (t.setMac k { t.mac k with sweep := (t.mac k).sweep }).safePoint k)) ∧
  (∀ (s : State) (k : SliceId) (loc : MacLoc), s.sweeps k = false → exec (.macAgeingSweepVisit k loc) s = .next s) ∧
  (∀ (s : State) (k : SliceId) (vid mac i : Nat) (e : MacEntry) (l : List (Nat × MacEntry)), (s.mac k).lost = (i, e) :: l → e.vid = vid →
      e.mac = mac → (∀ y, Tab.find? (s.mac k).entries i = some y → y.evictable = true) →
      (∀ x ∈ (s.mac k).entries, x.2.vid = vid → x.2.mac = mac → x.2.evictable = false) →
      exec (.macStaticRestore k vid mac) s = .next (
        let t := s.setMac k { s.mac k with entries := Tab.insert (s.mac k).entries i e, lost := l }
        if (Tab.find? (s.mac k).entries i).isSome then t.count 4 (256 * k + 5) else t)) ∧
  (∀ (s : State) (k : SliceId) (t : RouteTable) (id : Nat), s.bridge.badRoutes.contains (badRoute k (routeTableNum t) id) = true →
      exec (.routeEntryRefresh k t id) s = .next (({ s with bridge := { s.bridge with
        badRoutes := s.bridge.badRoutes.filter (· != badRoute k (routeTableNum t) id) } }).raise 0x0405 (src 5 k) (natLe 1 (routeTableNum t))))

/-- LACP and the slots of an aggregation group. (a) A received LACP frame makes the port's member collect exactly when the partner is in
sync, and distribute exactly when it is collecting as well, and keeps its time; a member of a group with LACP that stops distributing leaves
its slots. (b) LACP_TIMEOUT after 3 s without a frame (log 24) stops it; the partner hears of each change. (c) LAG_MEMBER_JOIN takes back
the member's share of slots. (d) LAG_SLOT_DRAINED switches a slot whose old queue no longer holds an earlier packet, and no other. (e)
LAG_MOVE_LIMIT_EXPIRY switches every slot whose limit has passed; where some were undrained it counts one reordering risk and raises 0x0406
with their number. (R130, R132, R133) -/
def Obligations.AggregationMembers : Prop :=
  (∀ (s : State) (p : PortId) (x : LacpInfo), exec (.lacpFrameReceive p x) s = .next (
      let on := x.inSync && x.collecting
      let t := s.setPort p { s.port p with lacpRx := x.inSync, lacp := on, lacpAt := s.now }
      let u := if (s.port p).lacpRx = x.inSync ∧ (s.port p).lacp = on then t else t.sendLacp p
      match s.lagOfPort p with
      | some g => if (s.port p).lacp ∧ on = false ∧ s.son 0x050D g then u.memberStops g p else u
      | none => u)) ∧
  (∀ (s : State) (p : PortId), (s.port p).lacpRx = true → (s.port p).lacpAt + sec 3 ≤ s.now →
      exec (.lacpTimeout p) s = .next (
        let t := (s.setPort p { s.port p with lacpRx := false, lacp := false }).sendLacp p
        match s.lagOfPort p with
        | some g => if (s.port p).lacp ∧ s.son 0x050D g then t.memberStops g p else t
        | none => t)) ∧
  (∀ (s : State) (p : PortId) (g : Nat), s.lagOfPort p = some g → exec (.lagMemberJoin p) s = .next (s.memberStarts g p)) ∧
  (∀ (s : State) (g : GroupId) (i : Fin 256), exec (.lagSlotDrained g i) s = .next (if s.undrained g i then s else s.switchSlot g i)) ∧
  (∀ (s : State) (g i : Nat) (m : SlotMove), Tab.find? (s.lag g).moves i = some m →
      s.switchSlot g i = (s.setLag g { s.lag g with
        slots := Tab.insert (s.lag g).slots i (m.target + 1), moves := Tab.erase (s.lag g).moves i }).releaseSlot g i m.target) ∧
  (∀ (s : State) (g : GroupId), exec (.lagMoveLimitExpiry g) s = .next (
      let due := (s.lag g).moves.filter (fun x => decide (x.2.since + ns (s.sn 0x050E g) ≤ s.now))
      let late := due.filter (fun x => s.undrained g x.1)
      let t := due.foldl (fun s x => s.switchSlot g x.1) s
      if late.isEmpty then t
      else (t.setLag g { t.lag g with risks := (t.lag g).risks + 1, undrained := late.length }).raise 0x0406 (src 9 g) (natLe 2 late.length)))

/-- The flow table's sweep, relocation out of overflow, and the end of a port block's hold. (a) A sweep visit, the first of the pass by the
service engines of the place's slice, is issued to the sequencer, where it waits for its turn, once for its record; a second visit of the
pass, one by a slice whose service engines do not run, and one to a place without a valid record change nothing. At its turn, where the
class is evaluated in this pass, with ageing on and the record neither pinned, shadowed nor superseded: with hit clear and stale set the
record is removed with its ageing reason; otherwise hit becomes clear and stale becomes the opposite of what hit was, and a record whose
profile exports in the sweep (flag 7) is exported. (b) A pass end, once the pass period is over, takes the pace that the settings ask for:
from pass 0 when it changed, else the next pass, and, where the pass has seen every scan state, entries of a replaced pattern set whose
epoch had drained become free. (c) A relocation move, when on, of an overflow record which came there in an earlier pass is issued to the
sequencer, and at its turn takes the record to the first free place of its two buckets. (d) A block whose hold has expired and in which no
port is in use goes back to the pool, its use exported with event 17 where a holder had it. (R148, R151, R152, R153, R161, R202, R218, R254) -/
def Obligations.FlowTableUpkeep : Prop :=
  (∀ (s : State) (loc : FlowLoc) (r : FlowRec), s.recAt (flowIndex loc) = some r →
      (r.live = false ∨ r.visited = s.flow.passes ∨ s.sweeps (sweepOwner (flowIndex loc)) = false) →
      exec (.flowSweepVisit loc) s = .next s) ∧
  (∀ (s : State) (loc : FlowLoc) (r : FlowRec), s.recAt (flowIndex loc) = some r → r.live = true → r.visited ≠ s.flow.passes →
      s.sweeps (sweepOwner (flowIndex loc)) = true →
      exec (.flowSweepVisit loc) s = .next (
        if s.flow.visits.any (fun x => x.loc == flowIndex loc && x.key == recKey r.bytes && x.kind == .sweep) then s
        else { s with flow := { s.flow with visits := s.flow.visits ++ [
          { key := recKey r.bytes, loc := flowIndex loc, stamp := s.angle, port := 96, kind := .sweep }] } })) ∧
  (∀ (s : State) (v : Visit) (r : FlowRec), v.kind = .sweep → s.recAt v.loc = some r → r.live = true → recKey r.bytes = v.key →
      s.runVisit v = ({ s with flow := { s.flow with visits := s.flow.visits.filter (· != v) } }).sweepVisit v.loc) ∧
  (∀ (s t : State) (l : Nat) (r q : FlowRec), s.recAt l = some r → r.live = true →
      t = ((s.setRec l { r with visited := s.flow.passes }).sweepScan l).dropHist l →
      t.recAt l = some q → t.evaluates (recClass q.bytes) = true → q.till = none →
      t.son 0x0604 = true → recBit q.bytes bitPinned = false → t.shadowed (recKey q.bytes) = false →
      s.sweepVisit l = State.safePoint (
        if recBit q.bytes bitHit = false ∧ recBit q.bytes bitStale = true then t.removeRec l (agedReason q.bytes)
        else
          let u := t.sweepRec l (fun b => recSetBit (recSetBit b bitHit false) bitStale (!recBit q.bytes bitHit))
          let pr := t.profile (recProfile q.bytes) t.bales.epoch
          if pr.flags.testBit 7 then u.exportRecord pr q.bytes (u.histBytes q.bytes) 2 else u) (sweepOwner l)) ∧
  (∀ s : State, s.now < s.flow.passAt + ns s.flow.passNs → exec .flowSweepPassEnd s = .next s) ∧
  (∀ s : State, s.flow.passAt + ns s.flow.passNs ≤ s.now → ∃ t, exec .flowSweepPassEnd s = .next t ∧ t.flow.passes = s.flow.passes + 1 ∧
      t.flow.passAt = s.now ∧
      (t.flow.passNs, t.flow.passEval) = s.sweepPlan ∧
      t.flow.pass = (if s.sweepPlan.1 = s.flow.passNs ∧ s.sweepPlan.2 = s.flow.passEval then s.flow.pass + 1 else 0) ∧ t.flow.passDrained = s.bales.drained ∧
      t.awn.sets = (if s.scansSwept then s.awn.sets.filter (fun x => !(x.till.any (fun e => decide (e < s.flow.passDrained)))) else s.awn.sets) ∧
      { t with flow := s.flow, awn := s.awn } = s) ∧
  (∀ (s : State) (idx : Nat) (r : FlowRec), s.recAt (flowOverflow + idx % 262144) = some r → s.son 0x0606 = true →
      r.live = true → r.placed < s.flow.passes → s.sweeps (sweepOwner (flowOverflow + idx % 262144)) = true →
      exec (.overflowRelocationMove idx) s = .next (
        if s.flow.visits.any (fun x => x.loc == flowOverflow + idx % 262144 && x.key == recKey r.bytes && x.kind == .move) then s
        else { s with flow := { s.flow with visits := s.flow.visits ++ [
          { key := recKey r.bytes, loc := flowOverflow + idx % 262144, stamp := s.angle, port := 96, kind := .move }] } })) ∧
  (∀ (s t : State) (v : Visit) (r : FlowRec) (b : Nat) (rest : List Nat), v.kind = .move → s.recAt v.loc = some r → r.live = true →
      recKey r.bytes = v.key → t = { s with flow := { s.flow with visits := s.flow.visits.filter (· != v) } } →
      t.bucketFree (t.flowBuckets (recKey r.bytes)).1 ++ t.bucketFree (t.flowBuckets (recKey r.bytes)).2 = b :: rest →
      s.runVisit v = (t.moveRec v.loc b).safePoint (sweepOwner v.loc)) ∧
  (∀ (s : State) (pool : Fin 1024) (block t : Nat) (c : PoolConf), Tab.find? (s.alloc pool).holding block = some t →
      s.poolConf pool s.bales.epoch = some c → t ≤ s.now → (s.alloc pool).used.any (fun u => c.blockOfPort u == block) = false →
      exec (.blockHoldExpiry pool block) s = .next (
        let u := match (s.alloc pool).holder block with | some b => s.exportBlock c b block 17 | none => s
        u.setAlloc pool (releaseBlock c (u.alloc pool) block)))

/-- The flow sequencer: a packet's record operation, the memory read that answers it, and the wait that ends in a drop. For a packet that
wants its record, has no read outstanding and whose operation the release condition lets run: (a) an earlier operation on its key makes it
wait; (b) a record found in the cache is taken at once; (c) a record that is not cached, when the slice has a transaction free, has its
directory read from what is not fenced and the packet waits exempt from the timeout, and when it has none the packet waits for one. (d) A
read that completes with good data is ended, and where a directory read leaves no other read open the packet goes on to the places that it
named; a read of a record whose key is the packet's gives that record, and one of another key leads to the next place. (e) A wait beyond the limit of
setting 0x0609 drops the packet and those of its flow behind it, each counted in count 8 of its slice and reported at most once a second
by 0x0504. (R148, R158, R332) -/
def Obligations.FlowSequencer : Prop :=
  (∀ (s : State) (n : Nat) (p : Packet), s.MayLook n p → s.seqBlocked n p p.key = true →
      exec (.flowSequencerRelease n) s = .next ((if p.stage = .lookedUp then s.pmuPkt n 6 else s).waitForRecord n p false)) ∧
  (∀ (s : State) (n l : Nat) (p : Packet), s.MayLook n p → s.seqBlocked n p p.key = false → s.findRec p.key p.epoch = some l →
      s.cached l = true →
      exec (.flowSequencerRelease n) s = .next ((s.pmuPkt n 3).foundRecord n l)) ∧
  (∀ (s : State) (n : Nat) (p : Packet), s.MayLook n p → s.seqBlocked n p p.key = false →
      (∀ l, s.findRec p.key p.epoch = some l → s.cached l = false) → p.exempt = false →
      exec (.flowSequencerRelease n) s = .next (if s.transactionFree (sliceOf p.port) n then
        let q := { p.offFence s.now with stage := .waitRecord, waitAt := none, exempt := true }
        let t := ((s.pmuPkt n 4).setPkt n q).readDirectory p.key (.record n)
        if (t.readsOf n).isEmpty then t.lookOn n q else t
        else s.waitForRecord n p true)) ∧
  (∀ (s : State) (rd n : Nat) (r : MemRead) (p : Packet), s.mem.reads.find? (fun x => x.id == rd) = some r → s.readIssued r = true →
      r.owner = .record n → s.pkt? n = some p → p.record = .wanted →
      exec (.memoryReadComplete rd .ok) s = .next (
        let t := { s with mem := { s.mem with reads := s.mem.reads.filter (fun x => x.id != r.id) } }
        if r.directory then (if (t.readsOf n).isEmpty then t.lookOn n p else t)
        else if t.keyAt r.place p.key then t.foundRecord n r.place
        else ((t.pmuPkt n 7).setPkt n { p with tried := p.tried ++ [r.place] }).lookOn n { p with tried := p.tried ++ [r.place] })) ∧
  (∀ (s : State) (n t : Nat) (p : Packet), s.pkt? n = some p → p.waitAt = some t → t + ns (s.sn 0x0609) < s.now →
      exec (.flowRecordWaitTimeout n) s = .next ((n :: (s.packets.filter (fun (x : Nat × Packet) => x.2.waitKey == p.waitKey &&
          (x.2.record == .wanted || x.2.waitsLock) && x.1 != n &&
          (opOf n p p.waitKey).before (opOf x.1 x.2 p.waitKey))).map (·.1)).foldl (fun s m => match s.pkt? m with
        | some q => ((s.count 4 (256 * sliceOf q.port + 8)).raiseLimited 0x0504 (src 5 (sliceOf q.port)) (sec 1) [] 4).endPacket m false true
        | none => s) s))

/-- Rows of the match array, scans of the pattern engines, and command digests. (a) A relocation step moves a row to the empty neighbouring
place of its bank that is nearer to the spacing, once no rewrite of it is due, is a safe point of each slice's service engines that run, and
ends a respacing that it completes. (b) A row rewrite clears the slice's mark of that row, and a scrub that finds the row different, or
marked, clears the mark, counts a correctable fault it had not yet seen, and raises 0x0408 with its index. (c) When the work past its
deadline is dropped, a free lane takes the oldest segment that may begin, from its state. (d) A scan that ends without a fault and meets no
entry being rewritten frees its lane, saves its end, adds the bytes scanned to the performance count and gives the packet its result. (e)
Work that has waited beyond its deadline outside a lane, the time that it waited on fenced pseudo-channels apart, is dropped with its
packet. (f) An automata entry rewritten is no longer bad. (g) An engine that fails its known-answer scan while fenced is retired; one that
passes then returns; one that passes in use changes nothing. (h) A packet whose PDUs are in a hash engine carries the digest of each of its
PDUs and goes on to be judged while its permit buckets are read, and the engine takes the next work. (R28, R29, R244, R245, R249, R252,
R255, R256, R262) -/
def Obligations.MatchAndAutomata : Prop :=
  (∀ (s : State) (a b : Nat) (r : MatchRow), a / 256 = b / 256 → (a + 1 = b ∨ b + 1 = a) → a < 65536 → b < 65536 → s.stepSpaces a b = true →
      (List.range 8).any s.sweeps = true → (∀ m ∈ s.matcher.bad, m % 65536 ≠ a) → s.rowAt a = some r → s.rowAt b = none →
      exec (.matchRelocationStep a b) s = .next ((List.range 8).foldl (fun (s : State) k => if s.sweeps k then s.safePoint k else s)
        ((s.putRow b r).eraseRow a)).settleSpacing) ∧
  (∀ (s : State) (k : SliceId) (i : Nat), exec (.matchRowRewrite k i) s = .next { s with matcher := { s.matcher with
      bad := s.matcher.bad.filter (· != 65536 * k.val + i) } }) ∧
  (∀ (s : State) (k : SliceId) (i : Nat) (d : Bool), exec (.matchRowScrub k i d) s = .next (
      if d ∨ s.matcher.bad.contains (65536 * k.val + i) then
        let t := { s with matcher := { s.matcher with bad := s.matcher.bad.filter (· != 65536 * k.val + i) } }
        (if s.matcher.bad.contains (65536 * k.val + i) then t else t.noteFault 1).raise 0x0408 (src 5 k) (natLe 2 i)
      else s)) ∧
  (∀ (s : State) (n l : Nat) (ls : List Nat), s.dropLate.freeLanes = l :: ls → s.dropLate.oldestSegment l = some n →
      exec .segmentScanStart s = .next (s.dropLate.intoLane n l)) ∧
  (∀ (s : State) (a : AwnId) (lane : Fin 2) (sc : Scan) (p : Packet) (x : PatternSet), Tab.find? s.awn.lanes (2 * a + lane) = some sc →
      s.pkt? sc.pkt = some p → s.patternAt p.epoch = some x →
      (scanRun x sc.start (segmentOf p.bytes)).visited.any (fun st => s.awn.badEntries.contains st) = false →
      exec (.segmentScanComplete a lane none) s = .next (
        let run := scanRun x sc.start (segmentOf p.bytes)
        let r := scanResult x (s.awnProfile p) run
        let t := { s with awn := { s.awn with lanes := Tab.erase s.awn.lanes (2 * a + lane) } }
        ((t.saveScan p x sc.lost r).pmu (sliceOf p.port) 11 (segmentOf p.bytes).length).scanDone sc.pkt x r)) ∧
  (∀ (s : State) (n : Nat) (p : Packet), s.pkt? n = some p → p.stage = .queued → (Tab.values s.awn.lanes).any (fun x => x.pkt == n) = false →
      ((Tab.find? s.awn.rescans n).map (·.at_)).getD (p.at_ + p.fenced) + ns (s.sn 0x0A0A) < s.now →
      exec (.profiledWorkDeadlineExpiry n) s = .next (((s.count 4 (256 * sliceOf p.port + 10)).raiseLimited 0x0509 (src 5 (sliceOf p.port))
        (sec 1) [] 4).endPacket n false true)) ∧
  (∀ (s : State) (e : Nat), exec (.automataEntryRewrite e) s = .next { s with awn := { s.awn with badEntries := s.awn.badEntries.filter (· != e) } }) ∧
  (∀ (s : State) (a : AwnId), s.awnState a = 0 → exec (.awnKnownAnswerScan a true) s = .next s) ∧
  (∀ (s : State) (a : AwnId), s.awnState a = 1 → exec (.awnKnownAnswerScan a true) s =
      .next (((s.setAwn a 0).settle (64 + a.val)).faultReport 9 3 1 2 a (srcAwn a) 0)) ∧
  (∀ (s : State) (a : AwnId), s.awnState a = 1 → exec (.awnKnownAnswerScan a false) s = .next (
      let ls := [2 * a.val, 2 * a.val + 1]
      ((((s.setAwn a 1).rescanLanes ls).awnFault a 2 (s.inScan ls)).retireAwn a).faultReport 9 4 1 2 a (srcAwn a) 0)) ∧
  (∀ (s : State) (n : Nat) (p : Packet), s.pkt? n = some p → p.stage = .digest → s.isHashing n = true →
      exec (.commandDigestComplete n false) s = .next (
        let us := p.pdus.map (fun u => { u with digest := commandDigest p.judged u })
        ((s.setPkt n { p with pdus := us, stage := .judge }).readPermits us).giveHashes))

/-- Export messages and templates. (a) EXPORT_MESSAGE_SEND with records staged, a destination, sag level 0 and a record that fits: the
oldest staged records of one template leave in one IPFIX message of at most the message size, the sequence counts the records sent, and
the message counter goes up; over UDP one copy goes to each collector. Records lost to a memory error are passed over first. (b)
TEMPLATE_RESEND at sag level 0 over UDP after the resend period, or when the templates changed, sends the template set and starts the
period again; from sag level 1 on it sends nothing. (R231, R235) -/
def Obligations.ExportMessages : Prop :=
  (∀ (z s t : State) (x : Bytes) (q : List Bytes) (n : Nat) (bs : Bytes) (rest : List Bytes), s = z.skipLost → s.svc.staging = x :: q →
      takeStaged (beAt x 0 2) (s.sn 0x090B 0 0 - 20) s.svc.staging = (bs, n, rest) → n ≠ 0 → (s.toRing = true ∨ s.collectors ≠ 0) →
      s.power.level = 0 → s.sendExport (s.ipfixMessage (ipfixSet (beAt x 0 2) bs)) = some t →
      exec .exportMessageSend z = .next { t with svc := { t.svc with
        staging := rest, exportSeq := t.svc.exportSeq + n, exportMsgs := t.svc.exportMsgs + 1 } }) ∧
  (∀ (s : State) (m : Bytes), s.toRing = false → s.sendExport m = some ((List.range s.collectors).foldl (fun s c => s.toCollector c m) s)) ∧
  (∀ s : State, s.power.level = 0 → s.toRing = false → (s.svc.templateDue = true ∨ s.svc.templateAt + ns (s.sn 0x090B 0 1) ≤ s.now) →
      exec .templateResend s = .next (
        let t := (List.range s.collectors).foldl (fun u c => u.toCollector c (s.ipfixMessage (ipfixSet 2 templates))) s
        { t with svc := { t.svc with templateDue := false, templateAt := s.now, exportMsgs := t.svc.exportMsgs + 1 } })) ∧
  (∀ s : State, 1 ≤ s.power.level → exec .templateResend s = .next s)

/-- Permit frames, their signature's verdict, the write of a permit entry, and the seal and hash engines. (a) A permit frame on a port that
is up and takes permits gives its body to the intake; on any other port nothing happens. (b) The verdict of a seal pair whose two engines
agree frees the pair: a good signature makes the permit wait for its turn, a bad one refuses it with cause 17 (unknown key) or 18; engines
that disagree raise 0x0607 and fence the pair; a full ledger queue leaves the verdict standing. (c) A granted permit with no lower sequence
of its key left is written: its entry takes its place with its source, record 3 code 1 is written, its spent mark goes, and packets held on
its selector are judged again. (d) A permit whose not_before or window has come makes the packets held on its selector look again. (e) An
expired entry with no bale on it is removed by a service engine that runs, at a safe point. (f) A hash engine that fails is retired with
event 0x0606, and the work in it goes to another; one that passes is unchanged. (g) A seal pair that passes in use is unchanged, and a
retired one stays so. (R263, R267, R268, R270, R272, R275, R278, R288, R395) -/
def Obligations.GateIntake : Prop :=
  (∀ (s : State) (p : PortId) (b : Bytes), exec (.permitFrameReceive p b) s =
      .next (if (s.port p).isUp ∧ s.son 0x0B05 p then (s.takeBody b p).2 else s)) ∧
  (∀ (s : State) (sp : SealPairId) (e : Bool) (i : Intake), Tab.find? s.gate.verifying sp.val = some i → ¬(s.owned ∧ s.ledgerFull) →
      exec (.sealVerdict sp e e) s = .next (
        let t := { s with gate := { s.gate with verifying := Tab.erase s.gate.verifying sp.val } }
        let u := if s.signedBy i.body ≠ e then { t with gate := { t.gate with waiting := t.gate.waiting ++ [i] } }
          else t.refuseIntake i (if (s.keyOf (bodyKey i.body)).isNone then 17 else 18)
        State.feedSeals 32 u.advanceIntake)) ∧
  (∀ (s : State) (sp : SealPairId) (e : Bool) (i : Intake), Tab.find? s.gate.verifying sp.val = some i → ¬(s.owned ∧ s.ledgerFull) →
      exec (.sealVerdict sp e (!e)) s = .next ((s.raise 0x0607 srcDevice (natLe 1 sp.val ++ [0] ++ natLe 2 (bodyKey i.body) ++
        natLe 8 (bodySeq i.body))).sealFault sp.val 1)) ∧
  (∀ (s : State) (key seq loc : Nat) (i : Intake), s.gate.waiting.find? (fun i => i.granted && i.named key seq) = some i → s.lowerLeft i = false →
      ¬(s.owned ∧ s.ledgerFull) → s.bodyKeyOk i.body = true → s.gate.isShut = false → s.lateCause i = none →
      s.slotFor i = some loc →
      exec (.permitEntryWrite key seq) s = .next (
        let t := { s with gate := { s.gate with waiting := s.gate.waiting.erase i } }
        let u := (t.putPermit loc { bytes := entryOf i.body i.source }).permitRecord i.body i.source 1 0
        (((u.unspend i.body).relookupSel (bodySelector i.body)).endSubmit i none).advanceIntake)) ∧
  (∀ (s : State) (loc : PermitLoc) (e : PermitEntry), s.permitAt (permitIndex loc) = some e →
      leAt e.bytes 88 8 * 1000000000 ≤ s.tai + s.sn 0x0B07 → s.tai ≤ leAt e.bytes 96 8 * 1000000000 →
      exec (.permitNotBeforeReached loc) s = .next (s.relookupSel (slice e.bytes 0 40))) ∧
  (∀ (s : State) (loc : PermitLoc) (e : PermitEntry), s.permitAt (permitIndex loc) = some e → (entryFlags e.bytes).testBit 1 = true →
      leAt e.bytes 104 8 ≤ s.angle → s.angle ≤ leAt e.bytes 112 8 →
      exec (.permitWindowOpen loc) s = .next (s.relookupSel (slice e.bytes 0 40))) ∧
  (∀ (s : State) (loc : PermitLoc) (e : PermitEntry) (k : Nat), s.permitAt (permitIndex loc) = some e →
      leAt e.bytes 96 8 * 1000000000 < s.tai → e.bale = none → e.waits = false → (List.range 8).find? s.sweeps = some k →
      exec (.permitExpiryRemoval loc) s = .next (
        (({ s with gate := { s.gate with permits := Tab.erase s.gate.permits (permitIndex loc) } }).permitLevel).safePoint k)) ∧
  (∀ (s : State) (h : HashId), exec (.hashKnownAnswerTest h true) s = .next s) ∧
  (∀ (s : State) (h : HashId), Tab.get 0 s.gate.hashSt h.val ≠ 2 → exec (.hashKnownAnswerTest h false) s = .next (
      let t := (({ s with gate := { s.gate with hashSt := Tab.put 0 s.gate.hashSt h.val 2 } }).loseHash h).raise 0x0606 srcDevice (natLe 1 h.val)
      (((t.openFault (48 + h.val) 2 h srcDevice (fun _ => 4)).2).noteRetire).settle (48 + h.val))) ∧
  (∀ (s : State) (sp : SealPairId), Tab.get 0 s.gate.sealSt sp.val = 0 → exec (.sealPairKnownAnswerTest sp true) s = .next s) ∧
  (∀ (s : State) (sp : SealPairId), Tab.get 0 s.gate.sealSt sp.val ≠ 2 → exec (.sealPairKnownAnswerTest sp false) s = .next (s.sealFault sp.val 2))

/-- The judgement of a command at the gate, the hold limit, and the GATE_SHUT pin. (a) A command that reaches the permit lookup in its
flow's order while the gate is shut, and is not a repeat of a recent discard, is discarded with verdict shut and the gate's cause. (b)
With the gate open and its flow held it goes behind; otherwise with permits for every PDU, room for the verdict and no pair consumption to
wait for, each permit's use is taken and the command passes. (c) A held command whose hold time is over and that waits for no consumption
gets the final verdict of the reasons met, and its flow is released. (d) GATE_SHUT asserted shuts an open gate with cause 10, sets the
pin and takes back what the gate has passed on this clock; on a gate already shut it counts a toggle; while the pin stands it changes
nothing. (e) Deasserted, the pin is clear and the release time starts; after it, in level mode and where nothing else keeps the gate shut,
the gate that the pin shut opens, its replay floor is set, and the ledger and event 0x0602 record it. (R276, R277, R279, R281, R282) -/
def Obligations.GatePassage : Prop :=
  (∀ (s : State) (n : Nat) (p : Packet), s.pkt? n = some p → s.gate.isShut = true →
      s.lookupCmd n = s.discardCmd n vShut s.gate.cause) ∧
  (∀ (s : State) (n : Nat) (p : Packet), s.pkt? n = some p → p.stage = .judge → s.earlierOnPath n p = false → s.earlierCommand n p = false →
      s.mem.reads = [] →
      s.recentOf p = none →
      exec (.permitTableLookup n) s = .next (if s.flowHeld p.key ∧ s.gate.isShut = false then s.goBehind n p else s.lookupCmd n)) ∧
  (∀ (s t : State) (n : Nat) (p : Packet) (gs : List Grant), s.pkt? n = some p → s.gate.isShut = false → s.verdictRoom p = true → p.acked = false →
      s.grants (s.cmdProfile p) p.pdus [] = some gs →
      t = gs.foldl (fun s g => s.takeGrant n g) (s.setPkt n { p with
        pdus := (p.pdus.zip gs).map (fun (x : Pdu × Grant) => { x.1 with used := some (x.2.key, x.2.seq, x.2.left, x.2.flags) }),
        holdAt := some (p.holdAt.getD s.now) }) →
      t.isConsuming n = false → s.lookupCmd n = t.passCmd n) ∧
  (∀ (s : State) (n : Nat) (p : Packet), s.pkt? n = some p → p.stage = .held → s.holdOver p = true → s.isConsuming n = false →
      exec (.holdLimitExpiry n) s = .next ((s.discardCmd n (finalVerdict p.reasons).1 (finalVerdict p.reasons).2).releaseFlow p.key)) ∧
  (∀ s : State, exec .gateShutAssert s = .next (if s.gate.pin then s
      else if s.gate.isShut then
        { s with gate := { s.gate with pin := true, releasedAt := none, toggles := s.gate.toggles + 1 } }
      else s.passedNow.foldl (fun s n => s.discardCmd n vShut 10)
        (({ s with gate := { s.gate with pin := true, releasedAt := none } }).shutGate 10 0xFFFF 0xFFFF))) ∧
  (∀ (s : State) (cause source key : Nat), s.son 0x0B08 = false → s.shutGate cause source key =
      ((({ s with gate := { s.gate with isShut := true, cause := cause } }).gateState true cause source key 0).dropHeld cause).noteStatus) ∧
  (∀ s : State, exec .gateShutDeassert s = .next { s with gate := { s.gate with pin := false, releasedAt := some s.now } }) ∧
  (∀ (s : State) (t : Nat), s.sn 0x0B09 0 0 = 1 → s.gate.pin = false → s.gate.isShut = true → s.gate.cause = 10 → s.gate.releasedAt = some t →
      t + ns (s.sn 0x0B09 0 2) ≤ s.now → s.staysShut = false →
      exec .gateShutRelease s = .next ((({ s with gate := { s.gate with
        isShut := false, floor := some (s.gate.floor.getD (s.tai + s.sn 0x0B07)) } }).gateState false 0 0xFFFF 0xFFFF 0).noteStatus))

/-- The ledger writer, seals, and the records of aggregated refusals. (a) The oldest record of the queue, with room in the ring and a mirror
that takes it, is written at its index, the record a ring's length earlier leaves, the keeper keeps index and hash while VKEEP stands, a
record that waited for room joins the queue, the levels are compared again, and commands and permits that waited for room are looked at
again; a record without room, or that no mirror takes, leaves the queue as it is and shuts an open gate with cause 12. (b) On an owned
device with the ledger queue not full, a seal that is due writes record 8 with the number of records since the last one. (c) With room for
them in the ledger queue, each aggregate of refusals of a second that has ended writes one record 4 with cause, source and count, and those
of the second in progress stay; one aggregate that finds the queue of an owned device full stays too. (R267, R286, R287, R288, R289) -/
def Obligations.LedgerAndRefusals : Prop :=
  (∀ (s : State) (r : Bytes) (rest : List Bytes), s.ledger.queue = r :: rest →
      (s.ledger.mark + s.ledgerRing ≤ leAt r 0 8 ∨ s.ledgerTakes (leAt r 0 8 % 8) = false) →
      exec .ledgerRecordWrite s = .next (if s.gate.isShut then s else s.shutGate 12 0xFFFF 0xFFFF)) ∧
  (∀ (s : State) (r : Bytes) (rest : List Bytes), s.ledger.queue = r :: rest → leAt r 0 8 < s.ledger.mark + s.ledgerRing →
      s.ledgerTakes (leAt r 0 8 % 8) = true →
      exec .ledgerRecordWrite s = .next (
        let t := ((s.writeRecord r rest).relookup (fun p => p.noRoom)).advanceIntake
        if t.ringFull ∧ t.gate.isShut = false then t.shutGate 12 0xFFFF 0xFFFF else t)) ∧
  (∀ (s : State) (r : Bytes) (rest : List Bytes), s.writeRecord r rest = (
      let i := leAt r 0 8
      let ring := Tab.insert s.ledger.ring i r
      let owed := [128 + i % 8, 136 + i % 8].filter s.fenced
      State.ledgerLevel (State.joinLate { s with
        ledger := { s.ledger with queue := rest, ring := if s.ledgerRing ≤ i then Tab.erase ring (i - s.ledgerRing) else ring }
        mem := { s.mem with owed := s.mem.owed ++ owed.map (fun u => (i, u)) }
        keeper := if s.keeper.vkeep then { s.keeper with tail := some (i, sha512 r) } else s.keeper }))) ∧
  (∀ s : State, s.owned = true → s.ledger.queue.length < 8192 → s.ledger.started = true →
      (s.ledger.sealAt + ns (s.sn 0x0B0B 0 0) ≤ s.now ∨ s.sn 0x0B0B 0 1 ≤ s.ledger.sinceSeal) →
      exec .ledgerSeal s = .next (s.recordSigned { type := 8, detailA := s.ledger.sinceSeal })) ∧
  (∀ s : State, (s.owned = true → s.ledger.queue.length + (s.gate.aggregates.filter (fun a => decide (a.sec < s.now / sec 1))).length ≤ 8192) →
      ∃ t, exec .aggregateRefusalRecord s = .next t ∧
      t.gate.aggregates = s.gate.aggregates.filter (fun a => !decide (a.sec < s.now / sec 1)) ∧
      t.ledger = ((s.gate.aggregates.filter (fun a => decide (a.sec < s.now / sec 1))).foldl (fun s (a : Aggregate) =>
        s.record { type := 4, cause := a.cause, source := a.source, detailA := a.count }) s).ledger ∧
      { t with gate := s.gate, ledger := s.ledger } = s) ∧
  (∀ (s : State) (a : Aggregate), s.owned = true → s.ledgerFull = true → s.writeAggregate a = s)

/-- A frame that arrives: where it is consumed, where it enters, and what its end finds. (a) On a port held down by a slice reset the
frame is counted in count 16 and goes no further; on a port that is not up nothing happens. (b) On a port that is up the frame and its
bytes are counted; a pause frame ends at the port; any other that its VLAN rules discard is counted in count 22; of the rest a
slow-protocol frame is consumed by policer 8, a permit frame by policer 11, a PTP frame on a port that takes part by policer 9, and any
other enters the device in its class and VLAN. (c) At the end of a frame that is inside the device, a frame longer than its hint is cut and bad,
as is one with a code error or a wrong FCS, and bad frames are followed up; a good frame that waited for its end goes on to the gate or to
the pattern engines. (R20, R24, R83, R123, R297, R309, R310, R401) -/
def Obligations.FramesIn : Prop :=
  (∀ (s : State) (p : PortId) (b : Bytes) (e : LookupFaults), (s.port p).sliceDown = true →
      exec (.frameArrival p b e) s = .next (s.count 1 (256 * p + 16))) ∧
  (∀ (s : State) (p : PortId) (b : Bytes) (e : LookupFaults), (s.port p).sliceDown = false → (s.port p).isUp = false →
      exec (.frameArrival p b e) s = .next s) ∧
  (∀ (s t : State) (p : PortId) (b : Bytes) (e : LookupFaults), (s.port p).isUp = true →
      t = (s.count 1 (256 * p)).count 1 (256 * p + 1) b.length →
      (s.frameKind p s.bales.epoch b (parse b) = .pause → exec (.frameArrival p b e) s = .next (t.countFcs p b)) ∧
      (∀ vid pcp tagged, s.ingressVlan p s.bales.epoch (parse b) = .vlan vid pcp tagged →
        (s.frameKind p s.bales.epoch b (parse b) = .slow → exec (.frameArrival p b e) s = .next ((t.consume p 8 b).countFcs p b)) ∧
        (s.frameKind p s.bales.epoch b (parse b) = .permit → exec (.frameArrival p b e) s = .next ((t.consume p 11 b).countFcs p b)) ∧
        (s.frameKind p s.bales.epoch b (parse b) = .ptp → s.ptpPort p = true →
          exec (.frameArrival p b e) s = .next ((t.consume p 9 b).countFcs p b)) ∧
        (∀ k : FrameKind, s.frameKind p s.bales.epoch b (parse b) = k → k ∉ [.pause, .slow, .permit] → (k = .ptp → s.ptpPort p = false) →
          exec (.frameArrival p b e) s = .next (t.enterFrame p b e (parse b) k vid pcp tagged).xoffCheck)) ∧
      (s.frameKind p s.bales.epoch b (parse b) ≠ .pause → s.ingressVlan p s.bales.epoch (parse b) = .discard →
        exec (.frameArrival p b e) s = .next ((t.count 1 (256 * p + 22)).countFcs p b))) ∧
  (∀ (s : State) (n : Nat) (c : Bool) (x : Packet), s.pkt? n = some x → x.complete = false →
      exec (.frameReceiveComplete n c) s = .next (
        let long := decide (x.hint < x.bytes.length)
        let t := if long then (s.countFcs x.port x.bytes).count 1 (256 * x.port + 10) else s.countFcs x.port x.bytes
        let bad := long || c || fcsOf x.bytes != .good
        let u := t.setPkt n { x with complete := true, bad := bad, truncated := long, bytes := if long then x.bytes.take x.hint else x.bytes }
        if bad then (if long then u.sampleFate n 8 else u).foundBad n
        else if x.stage = .waitFrame then (if x.judged ≠ 0 then u.beginC1 n else u.joinWork n)
        else u))

/-- Admission to the egress queues, the scheduler, transmission and the buffers' upkeep. (a) EGRESS_QUEUE_ADMISSION of a packet at step 7
whose turn in its flow has come: a discarded one ends; one that must be stored first and is not complete waits; one whose aggregation slot
moves enters the move hold; any other is offered to the queues of its destinations, sampled, and holds the copies that were taken; with
none it is freed. (b) SCHEDULER_SELECT on a port that is up and idle starts the copy that the scheduler chooses. (c) TRANSMIT_DONE of a
complete copy puts its frame on the port, counts frame and bytes for port and class, drops the copy and frees the port. (d) A residue
timer that has come voids the copies not yet begun, counted in count 14. (e) The buffer audit after 10 s. (f) A superseded gate bank is
free when no packet names it any longer, and at the latest 50 µs after its commit, when the copies that wait under it pass to the bank in
force, counted in count 21; before that it stays. (g) A staged sample goes
into the host's ring when there is room, else to the fallback ring below sag level 2. (R20, R60, R177, R295, R300, R306, R309, R312, R313,
R314, R316, R318) -/
def Obligations.FramesThrough : Prop :=
  (∀ (s : State) (n : Nat) (x : Packet), s.pkt? n = some x → x.stage = .step7 → s.flowBlocked n x = false → x.discard = true →
      exec (.egressQueueAdmission n) s = .next (s.endDiscarded n x)) ∧
  (∀ (s : State) (n : Nat) (x y : Packet), s.pkt? n = some x → x.stage = .step7 → s.flowBlocked n x = false → x.discard = false →
      y = { x with dests := s.destsNow x } → (s.storesFirst y = true → y.complete = true) → s.slotMoves y = false →
      exec (.egressQueueAdmission n) s = .next (
        let z := { y with sf := s.storesFirst y }
        let o := (if s.storesFirst y then s.pmu (sliceOf y.port) 16 1 (some z) else s).offerAll n z
        let t := (o.1.sampleAt7 n z (match o.2 with | c :: _ => c.port | [] => 0xFF) false o.2.isEmpty).setPkt n { z with
          stage := .inQueues, copies := o.2, sampled := y.sampled || y.chaff != 0 }
        if o.2.isEmpty then t.freePacket n else t)) ∧
  (∀ (s t : State) (p : PortId) (c n : Nat), (s.port p).isUp = true → (s.port p).sending = none → (s.latchGates p).choose p = some (c, n, t) →
      exec (.schedulerSelect p) s = .next (t.startSend p c n)) ∧
  (∀ (s : State) (p : PortId) (corrupt : Bool) (n : Nat) (x : Packet) (c : Copy), (s.port p).sending = some n → s.pkt? n = some x →
      x.copyAt p = some c → x.complete = true →
      exec (.transmitDone p corrupt) s = .next (
        let f := egressFrame x c
        let t := ((((s.putFrame p x f corrupt).count 1 (256 * p + 2)).count 1 (256 * p + 3) f.length).countClass p c.cls 0).countClass p c.cls 1 f.length
        (((t.dropCopies n (fun (y : Copy) => y.port == p.val)).modPort p (fun q => { q with sending := none })).emptied p c.cls))) ∧
  (∀ (s : State) (n t : Nat) (x : Packet), s.pkt? n = some x → x.residueAt = some t → t ≤ s.now →
      exec (.residueTimerExpiry n) s = .next (s.voidWaiting n (fun q s => s.count 1 (256 * q + 14)))) ∧
  (∀ s : State, s.core.auditAt + sec 10 ≤ s.now →
      exec .bufferAudit s = .next (
        let back := (List.range 6).map (fun i => (s.poolOf i).lostSeen)
        let t := (List.range 6).foldl State.auditPool s
        let u := { t with core := { t.core with auditAt := s.now } }
        if back.all (· == 0) then u else (u.raise 0x020F srcDevice (back.map (natLe 4)).flatten).xonCheck)) ∧
  (∀ (s : State) (p : PortId) (t : Nat), Tab.find? s.sched.bankBusy p = some t →
      exec (.gateBankRelease p) s = .next (
        let b := (verNow (Tab.get [] s.sched.bankSel p)).getD 0
        let old (c : Copy) : Bool := c.port == p.val && c.state == .waiting && c.bank != b
        if s.now < t + us 50 ∧ s.packets.any (fun (y : Nat × Packet) => y.2.copies.any old || s.mayName p b y.2) = true then s else
        let moved := s.packets.foldl (fun n (y : Nat × Packet) => n + (y.2.copies.filter old).length) 0
        let u := { s with
          packets := s.packets.map (fun (y : Nat × Packet) =>
            (y.1, { y.2 with copies := y.2.copies.map (fun (c : Copy) => if old c then { c with bank := b } else c) }))
          sched := { s.sched with bankBusy := Tab.erase s.sched.bankBusy p } }
        if moved = 0 then u else u.count 1 (256 * p + 21) moved)) ∧
  (∀ (s : State) (x : Nat × Bytes) (rest : List (Nat × Bytes)), s.core.staged = x :: rest → (s.ringOf 1).enable = true →
      ((s.ringOf 1).prod + 2 ^ 32 - (s.ringOf 1).cons) % 2 ^ 32 < 2 ^ (s.ringOf 1).log2 →
      exec .chaffSampleWrite s = .next (
        let g := s.ringOf 1
        let t := (({ s with core := { s.core with staged := rest } }).emit (.dma 1 (g.prod % 2 ^ g.log2) (x.2.drop 64))).setRing 1 { g with
          prod := (g.prod + 1) % 2 ^ 32 }
        t.interrupt 9 g.interrupt))

/-- Pause that the device sends, and the counters' snapshots, periods and captures. (a) A standing XOFF is sent again 80 µs after the last,
short of its time limit; at the limit it ends with quanta 0, its back-off starts and 0x020C is raised (under link-level pause every XOFF of
the port ends with it); a back-off that has come ends, and the class may be paused again. (b) A snapshot armed before this clock copies
every counter, as it stood when the clock began, once its angle stamp, if it has one, is reached, with the stamp of that moment, and raises
0x0A03. (c) The oldest expiry of a counter's period: below its slice's limit of reports in the second, with sampling on and sag level 0, it
arms a capture, which counts from the expiry, and at the limit it is counted as suppressed. (d) A capture that found no packet within 64
core clocks is reported without one. (R305, R451, R454, R455, R457) -/
def Obligations.PauseAndCounters : Prop :=
  (∀ (s : State) (p : PortId) (c : ClassId) (t : Nat), (s.xoffOf p c).since = some t → (s.xoffOf p c).sentAt + us 80 ≤ s.now →
      s.now < t + ns (s.sn 0x0C10 p 0) →
      exec (.xoffRefresh p c) s = .next ((s.setXoff p c { s.xoffOf p c with sentAt := s.now }).sendXoff p c)) ∧
  (∀ (s : State) (p : PortId) (c : ClassId) (t : Nat), (s.xoffOf p c).since = some t → t + ns (s.sn 0x0C10 p 0) ≤ s.now →
      exec (.xoffLimitExpiry p c) s = .next (((((List.range 8).filter (fun d => d == c.val || (s.sn 0x0C0E p 0 == 1 &&
          (s.xoffOf p d).since.isSome))).foldl (fun s d => s.setXoff p d {
            since := none, sentAt := 0, backoff := some (s.now + ns (s.sn 0x0C10 p 1)) }) s).sendPause p c 0).raise 0x020C (src 1 p) (natLe 1 c))) ∧
  (∀ (s : State) (p : PortId) (c : ClassId) (t : Nat), (s.xoffOf p c).backoff = some t → t ≤ s.now →
      exec (.pauseBackoffEnd p c) s = .next (s.setXoff p c { s.xoffOf p c with backoff := none }).xoffCheck) ∧
  (∀ (s : State) (due : Option Nat), s.cnt.armed = some due → s.cnt.armedAt < s.now → (∀ d, due = some d → d ≤ s.angle) →
      exec .counterSnapshotTake s = .next (({ s with cnt := { s.cnt with
        snap := s.cnt.start, snapStamp := some s.stamp, armed := none } }).raise 0x0A03 srcDevice (natLe 8 s.angle))) ∧
  (∀ (s : State) (k : SliceId) (n : Fin 8) (x : Nat × Nat) (rest : List (Nat × Nat)), Tab.get [] s.cnt.expired (8 * k.val + n.val) = x :: rest →
      ((Tab.get [] s.cnt.raised k).filter (fun t => decide (s.now < t + sec 1))).length < s.sn 0x1403 → s.power.level = 0 → s.son 0x1404 = true →
      exec (.counterPeriodExpiry k n) s = .next { s with cnt := { s.cnt with
        expired := Tab.put [] s.cnt.expired (8 * k.val + n.val) rest
        raised := Tab.put [] s.cnt.raised k ((Tab.get [] s.cnt.raised k).filter (fun t => decide (s.now < t + sec 1)) ++ [s.now])
        capture := Tab.insert s.cnt.capture (8 * k.val + n.val) x } }) ∧
  (∀ (s : State) (k : SliceId) (n : Fin 8) (x : Nat × Nat) (rest : List (Nat × Nat)), Tab.get [] s.cnt.expired (8 * k.val + n.val) = x :: rest →
      s.sn 0x1403 ≤ ((Tab.get [] s.cnt.raised k).filter (fun t => decide (s.now < t + sec 1))).length →
      exec (.counterPeriodExpiry k n) s = .next { s with cnt := { s.cnt with
        expired := Tab.put [] s.cnt.expired (8 * k.val + n.val) rest
        suppressed := Tab.modify 0 s.cnt.suppressed k (· + 1) } }) ∧
  (∀ (s : State) (k : SliceId) (n : Fin 8) (t a : Nat), Tab.find? s.cnt.capture (8 * k.val + n.val) = some (t, a) → t + 64 * clk ≤ s.now →
      exec (.counterCaptureTimeout k n) s = .next (s.raiseOverflow k n 0 none a))

/-- What an error in an on-die SRAM does, by the structure that it is in. An error that the scrub or a use finds is handled by its
structure: a MAC entry goes with event 0x0404, a static one to be restored; a route entry and a match row are marked once; a packet
descriptor's packet is lost; a pointer of a free stack is lost to its pool, reported as error 2 of the buffer; a queue's links lose the
queue, counted in count 8 of the port; a copy count marks the packet; a scheduler's value that is struck becomes 0; an automata entry that
cannot be corrected is kept as bad once; a single-bit error of a flow cache line changes nothing but the count of faults, and a double-bit
error reads a clean line again and loses the record of a dirty one. (R122, R129, R147, R160, R244, R251, R313) -/
def Obligations.SramErrors : Prop :=
  (∀ (s : State) (k : SliceId) (loc : MacLoc), exec (.onDieSramScrub (.macEntry k loc)) s = .next (s.macParity k (macIndex loc))) ∧
  (∀ (s : State) (k i : Nat) (e : MacEntry), Tab.find? (s.mac k).entries i = some e → s.macParity k i =
      ((s.setMac k { s.mac k with
        entries := Tab.erase (s.mac k).entries i, lost := if e.static then (s.mac k).lost ++ [(i, e)] else (s.mac k).lost }).noteFault 1).raise
        0x0404 (src 5 k) (natLe 4 (locationField i))) ∧
  (∀ (s : State) (k : SliceId) (t : RouteTable) (id : Nat), exec (.onDieSramScrub (.routeEntry k t id)) s =
      .next (s.markRoute (badRoute k (routeTableNum t) id))) ∧
  (∀ (s : State) (k : SliceId) (i : Nat), exec (.onDieSramScrub (.matchRow k i)) s = .next (
      if s.matcher.bad.contains (65536 * k + i) then s
      else { s.noteFault 1 with matcher := { s.matcher with bad := s.matcher.bad ++ [65536 * k.val + i] } })) ∧
  (∀ (s : State) (n : Nat), exec (.onDieSramScrub (.descriptor n)) s = .next (s.loseDescriptor n)) ∧
  (∀ (s : State) (i : Fin 6), exec (.onDieSramScrub (.pointerStack i)) s = .next (
      (((s.setPool i { s.poolOf i with taken := (s.poolOf i).taken + 1, lostNew := (s.poolOf i).lostNew + 1 }).relevel i).bufferError 0 2 i).xoffCheck)) ∧
  (∀ (s : State) (p : PortId) (c : ClassId), exec (.onDieSramScrub (.queueLink p c)) s = .next (
      (s.bufferError (p / 12) 3 (8 * p + c)).flushQueue (8 * p + c) (fun s => s.count 1 (256 * p + 8)))) ∧
  (∀ (s : State) (n : Nat) (x : Packet), s.pkt? n = some x → exec (.onDieSramScrub (.copyCount n)) s =
      .next ((s.bufferError (x.port / 12) 4 n).setPkt n { x with countLost := true })) ∧
  (∀ (s t : State) (p : PortId) (c : ClassId) (v : SchedValue), t = s.bufferError (p / 12) 5 (8 * p + c) →
      exec (.onDieSramScrub (.scheduler p c v)) s = .next (match v with
        | .deficit => t.setSched p c { t.schedOf p c with deficit := 0 }
        | .credit => t.setSched p c { t.schedOf p c with credit := 0 }
        | .bucket => t.modPort p (fun q => { q with tokens := 0, tokensAt := t.now }))) ∧
  (∀ (s : State) (i : Nat) (b : Bool), exec (.onDieSramScrub (.automata i b)) s = .next (
      if b ∨ s.awn.badEntries.contains i then s else { s.noteFault 1 with awn := { s.awn with badEntries := s.awn.badEntries ++ [i] } })) ∧
  (∀ (s : State) (loc : FlowLoc) (d : Bool) (r : FlowRec) (c : CacheLine), s.recAt (flowIndex loc) = some r →
      (s.cacheSet (s.flowSet (recKey r.bytes))).find? (fun c => c.loc == flowIndex loc) = some c →
      exec (.onDieSramScrub (.cacheLine loc d)) s = .next (
        let l := flowIndex loc
        if d = false then s.noteFault 1
        else if c.dirty then (s.noteFault 1).loseRecord (s.placePc l) l
        else ((s.noteFault 1).uncache l).issueRead (s.placePc l) (s.placeAddr l) l false .refill 4))

/-- Requests, refreshes and row activations of a memory unit, and what a patrol read finds. For a unit in use with no fence: (a) a refresh
that can be postponed no more is issued first; (b) a read that a queued write to the same place holds is answered and leaves the queue; (c)
otherwise the scheduler's request leaves the queue as a read or write command of its bank and row, whose row stands open after it, and a row
that was not open is activated, which counts toward the bank's refresh management; a request that waited for room takes the place. (d) A due
refresh of a bank with a queued request is postponed by one interval while the standard's limit allows; otherwise it is issued, which closes
the bank's row; the next is due an interval later, or half of one where the stack or DIMM is above 85 °C; the sensor, whose value is free
(log 40), is read first. (e) A row activation counts in the activation table, which is empty again 32 ms after its window began. (f) A
patrol read without error changes nothing; an error is followed up, or kept while the unit is fenced. A unit that is not in use takes none
of these. (R328, R330, R331, R333) -/
def Obligations.MemoryScheduling : Prop :=
  (∀ (s : State) (u : UnitId) (b : Nat), (s.munit u).state = 0 → s.refreshForced u = some b →
      exec (.memoryRequestIssue u) s = .next (s.issueRefresh u b)) ∧
  (∀ (s : State) (u : UnitId) (r : MemReq), (s.munit u).state = 0 → s.refreshForced u = none →
      (s.munit u).queue.find? (fun r => !r.write && earlierSame (s.munit u).queue r true) = some r →
      exec (.memoryRequestIssue u) s = .next (s.setUnit u ({ s.munit u with
        queue := (s.munit u).queue.filter (fun x => !(x.id == r.id && x.addr == r.addr)) }.fill u s.now))) ∧
  (∀ (s : State) (u : UnitId) (r : MemReq), (s.munit u).state = 0 → s.refreshForced u = none →
      (s.munit u).queue.find? (fun r => !r.write && earlierSame (s.munit u).queue r true) = none → s.nextRequest u = some r →
      exec (.memoryRequestIssue u) s = .next (
        let bank := (s.placeOf u r.addr).1
        let row := (s.placeOf u r.addr).2
        let t := (s.setUnit u ({ s.munit u with
          queue := (s.munit u).queue.filter (fun x => !(x.id == r.id && x.addr == r.addr))
          openRow := Tab.insert (s.munit u).openRow bank (row + 1) }.fill u s.now)).emit (.dram u (if r.write then 2 else 1) bank row)
        if s.rowHit u r then t else t.activateRows u bank 4096 [row])) ∧
  (∀ (s t : State) (u : UnitId) (b : Nat) (x : BankRefresh), t = s.senseTemp u → (s.munit u).used = true →
      Tab.get ({} : BankRefresh) (s.munit u).refresh b = x → x.due ≤ s.now →
      ((s.munit u).queue.any (fun r => (s.placeOf u r.addr).1 == b) = true → x.postponed < Config.postponeLimit (isHbm u) →
        exec (.refreshIssue u b) s = .next (t.setUnit u { s.munit u with refresh := Tab.put {} (s.munit u).refresh b {
          due := x.due + (if 85 < t.memTemp u then Config.refreshInterval (isHbm u) / 2 else Config.refreshInterval (isHbm u))
          postponed := x.postponed + 1 } })) ∧
      ((s.munit u).queue.any (fun r => (s.placeOf u r.addr).1 == b) = false → x.postponed = 0 →
        exec (.refreshIssue u b) s = .next ((t.setUnit u { s.munit u with
          openRow := Tab.erase (s.munit u).openRow b
          refresh := Tab.put {} (s.munit u).refresh b {
            due := x.due + (if 85 < t.memTemp u then Config.refreshInterval (isHbm u) / 2 else Config.refreshInterval (isHbm u))
            postponed := 0 } }).emit (.dram u 0 b 0)))) ∧
  (∀ (s : State) (u : UnitId) (b row : Nat), exec (.rowActivation u b row) s =
      .next (if (s.munit u).used then s.activateRows u b 4096 [row] else s)) ∧
  (∀ (s : State) (u : UnitId), exec (.activationTableClear u) s = .next (if (s.munit u).windowAt + ms 32 ≤ s.now then
      s.setUnit u { s.munit u with activations := [], windowAt := s.now } else s)) ∧
  (∀ (s : State) (u : UnitId) (a : Nat) (res : ReadResult), (s.munit u).used = true →
      exec (.patrolScrubRead u a res) s = .next (if res = .ok then s
        else if (s.munit u).state = 1 then s.setUnit u { s.munit u with
          patrolErr := (s.munit u).patrolErr ++ [(decide (res = .uncorrectable), a)] }
        else s.patrolFound u a (decide (res = .uncorrectable))))

/-- Retraining of a memory unit and the copies that replace one. (a) A unit that may be fenced is fenced by RETRAIN_START when
its period has passed or the temperature that its sensor reports, which is free (log 40), has changed by the step since its last
training; and by RETRAIN_RETRY once its retry
has fallen due. (b) Of a fenced unit, a retraining that found a new setting lifts the fence with no attempts
left counted (outcome 0); one that kept the previous setting counts an attempt, raises 0x0803 with the number, and lifts the fence until a
retry 1 s later (outcome 1), or at the third retires the unit (outcome 2); one where none works retires it. Outcome codes are the model's
(log 53). (c) A policy mirror whose copy is done serves no longer. (d) A ledger mirror rebuilt after its time takes the stripe, and a
continuation record says so. (R333, R335, R336, R337, R340, R341, Table 13-5) -/
def Obligations.MemoryRetraining : Prop :=
  (∀ (s t : State) (u : UnitId), t = s.senseTemp u →
      exec (.retrainStart u) s = .next (if s.mayFence u = true ∧ ((s.munit u).trainedAt + ns (s.sn 0x0D02) ≤ s.now ∨
          s.sn 0x0D03 ≤ (t.memTemp u - (s.munit u).trainedTemp).natAbs) then
        t.setUnit u { s.munit u with state := 1, trainedAt := s.now, trainedTemp := t.memTemp u } else t)) ∧
  (∀ (s : State) (u : UnitId) (t : Nat), s.mayFence u = true → (s.munit u).retryAt = some t → t ≤ s.now →
      exec (.retrainRetry u) s = .next ((s.setUnit u { s.munit u with retryAt := none }).fenceUnit u)) ∧
  (∀ (s : State) (u : UnitId), (s.munit u).state = 1 → exec (.retrainComplete u .newSetting) s =
      .next (((s.setUnit u { s.munit u with attempts := 0, retryAt := none }).liftFence u).retrainDone u 0)) ∧
  (∀ (s : State) (u : UnitId), (s.munit u).state = 1 → exec (.retrainComplete u .keptPrevious) s = .next (
      let n := (s.munit u).attempts + 1
      let t := ((s.setUnit u { s.munit u with attempts := n, retryAt := some (s.now + sec 1) }).countUnit u 3).raise 0x0803 (srcUnit u) (natLe 1 n)
      if 3 ≤ n then (t.retireUnit u).retrainDone u 2 else (t.liftFence u).retrainDone u 1)) ∧
  (∀ (s : State) (u : UnitId), (s.munit u).state = 1 → exec (.retrainComplete u .noneWorks) s =
      .next ((s.retireUnit u).retrainDone u 2)) ∧
  (∀ (s : State) (p : PcId), exec (.policyMirrorCopyDone p) s = .next { s with mem := { s.mem with
      policyMirror := s.mem.policyMirror.filter (fun x => x.1 != p.val) } }) ∧
  (∀ (s : State) (d : DdrId) (r : Rebuild), Tab.find? s.mem.rebuilding (d % 8) = some r → r.failed = d.val → r.at_ + s.rebuildTime ≤ s.now →
      exec (.ledgerMirrorRebuildDone d) s = .next (({ s with mem := { s.mem with
        rebuilding := Tab.erase s.mem.rebuilding (d % 8), rebuilt := s.mem.rebuilt ++ [d.val % 8] } }).record
        { type := 9, flags := 0, detailA := d + 32 }))

/-- Lanes, training, superframes and the going down of the Sheaf links. (a) A powered lane gains lock and signal, which shows
that its clock lane has signal and REFCLK_SHEAF is there again (log 43); a lane that loses lock or signal is lost with its cause, the clock
lane with the lock of every lane, and a data lane in an attempt fails it; loss of REFCLK_SHEAF takes both links down and unlocks their
lanes. (b) A training frame in an attempt within its bounds keeps convergence, counts and keeps the request that it carries, if any, ends
the attempt when all eight data lanes have converged, and lets the lane answer and adapt; a pending request whose response interval is
over moves the tap (status 3, 1, 2 or 0 as on line lanes), and the answer leaves the lane. (c) A due retry begins an attempt on a link
whose lanes are active; an attempt past its bound fails on its first lane that has not converged. (d) A superframe
on a powered, aligned link with a good header CRC counts towards eight in a row, which put the link in service; in service its header is
taken. With a bad CRC it counts towards eight, which take a link in service down with cause CRC. (e) A superframe that is due leaves with
up to 255 queued slots, idle slots after them, and the next number. (f) A paired link in service without a heartbeat for 300 µs goes down.
(R87, R345, R346, R347, R348, R349, R350, R467) -/
def Obligations.SheafLinks : Prop :=
  (∀ (s : State) (l : SheafLaneId), ((s.link (linkOf l)).lane (laneNo l)).power = 0 →
      exec (.sheafSymbolLockGain l) s = .next (
        let t := s.setLink (linkOf l) (((s.link (linkOf l)).modLane (laneNo l) (fun y => { y with lock := true, signal := true })).modLane 8
          (fun y => { y with signal := true }))
        { t with sheaf := { t.sheaf with refclk := true } })) ∧
  (∀ (s : State) (l : SheafLaneId), exec (.sheafSymbolLockLoss l) s =
      .next (s.lostLane l downFrame ((s.link (linkOf l)).lane (laneNo l)).signal)) ∧
  (∀ (s : State) (l : SheafLaneId), exec (.sheafLaneLossOfSignal l) s = .next (
      let t := s.lostLane l downSignal false
      let u := if laneNo l = 8 then t.setLink (linkOf l) (t.link (linkOf l)).unlocked else t
      if ((s.link (linkOf l)).lane (laneNo l)).signal = true ∧ laneNo l < 8 ∧ (s.link (linkOf l)).up = false ∧
          (s.link (linkOf l)).attemptAt.isSome = true then u.sheafFail (linkOf l) l causeNoSignal else u)) ∧
  (∀ s : State, exec .refclkSheafLoss s = .next (
      let t := (({ s with sheaf := { s.sheaf with refclk := false } }).sheafDown 0 downOther).sheafDown 1 downOther
      let u := t.setLink 0 (t.link 0).unlocked
      u.setLink 1 (u.link 1).unlocked)) ∧
  (∀ (s : State) (l : SheafLaneId) (q : CoefRequest) (c : Bool) (t : Nat), (s.link (linkOf l)).attemptAt = some t →
      (s.link (linkOf l)).up = false → s.linkPowered (linkOf l) = true → s.linkTest (linkOf l) = false → laneNo l ≠ 8 →
      s.now < t + ns (sheafBound 3) → (q.delta ≠ 0 → (s.link (linkOf l)).requests + 1 ≤ sheafBound 5) →
      exec (.sheafTrainingFrame l q c) s = .next (
        let x := (s.link (linkOf l)).modLane (laneNo l) (fun y => { y with
          signal := true, converged := y.converged || c, pendingReq := if q.delta = 0 then y.pendingReq else some q })
        ((s.setLink (linkOf l) { x with
          requests := if q.delta = 0 then (s.link (linkOf l)).requests else (s.link (linkOf l)).requests + 1
          attemptAt := if (List.range 8).all (fun j => (x.lane j).converged) then none else some t }).answerSheaf l).adaptSheaf l)) ∧
  (∀ (s : State) (l : SheafLaneId) (q : CoefRequest) (st : Nat) (v : Int), ((s.link (linkOf l)).lane (laneNo l)).pendingReq = some q →
      (∀ t, ((s.link (linkOf l)).lane (laneNo l)).lastAnswer = some t → t + ns (sheafBound 4) ≤ s.now) → 2 ≤ q.tap.val →
      answerTap (tapBounds 4 q.tap).1 (tapBounds 4 q.tap).2 (((s.link (linkOf l)).lane (laneNo l)).taps.getD (q.tap - 2) 0) q.delta = (st, v) →
      s.answerSheaf l = (s.setLink (linkOf l) ((s.link (linkOf l)).modLane (laneNo l) (fun y => { y with
        pendingReq := none, lastAnswer := some s.now, taps := y.taps.set (q.tap - 2) v }))).emit (.sheafCoef l q.tap st)) ∧
  (∀ (s : State) (n : LinkId) (t : Nat), (s.link n).retryAt = some t → t ≤ s.now →
      exec (.sheafTrainingRetry n) s = .next (s.setLink n (if (s.link n).active then (s.link n).attempt s.now else (s.link n).rest))) ∧
  (∀ (s : State) (n : LinkId) (t k : Nat), (s.link n).retryAt = none → (s.link n).attemptAt = some t → t + ns (sheafBound 3) ≤ s.now →
      (s.link n).up = false → (List.range 8).find? (fun k => !((s.link n).lane k).converged) = some k →
      exec (.sheafTrainingRetry n) s = .next (s.sheafFail n (9 * n + k) (if ((s.link n).lane k).signal then causeTrainTimeout else causeNoSignal))) ∧
  (∀ (s : State) (n : LinkId) (x : Superframe) (l : SheafLink), s.linkPowered n = true → s.linkTest n = false →
      l = { s.link n with
        lanes := ((s.link n).lanes.zipIdx).map (fun (y : SheafLane × Nat) => if y.2 < 8 then y.1.frame (x.seen.getD y.2 []) else y.1) } →
        l.aligned = true →
      exec (.superframeReceive n x) s = .next (
        if crc32c crcOnes ((x.payload.take 32).take 28) = BitVec.ofNat 32 (beAt (x.payload.take 32) 28 4) then
          let t := (s.setLink n l).setLink n { l with crcOk := (s.link n).crcOk + 1, crcBad := 0 }
          if (s.link n).up then t.header n (x.payload.take 32) else if 8 ≤ (s.link n).crcOk + 1 then t.sheafUp n else t
        else
          let t := (s.setLink n l).setLink n { l with crcOk := 0, crcBad := (s.link n).crcBad + 1 }
          if (s.link n).up ∧ 8 ≤ (s.link n).crcBad + 1 then t.sheafDown n downCrc else t)) ∧
  (∀ (s : State) (n : LinkId), s.linkPowered n = true → s.linkTest n = false → ((s.link n).lanes.take 8).all (fun x => x.converged) = true →
      (s.link n).sentAt + superframeTime ≤ s.now →
      exec (.superframeSend n) s = .next (
        let slots := (s.link n).txq.take 255
        (s.setLink n { s.link n with txq := (s.link n).txq.drop 255, sfNumber := (s.link n).sfNumber + 1, sentAt := s.now }).emit
          (.superframe n ((List.range 8).map (laneSymbols ((s.superHeader n ++ slots.flatten).map Symbol.data ++
            (List.replicate (255 - slots.length) idleSlot).flatten)))))) ∧
  (∀ (s : State) (n : LinkId), exec (.sheafHeartbeatTimeout n) s = .next (
      if (s.link n).up ∧ (s.link n).paired ∧ (s.link n).beatAt + us 300 ≤ s.now then s.sheafDown n downBeat else s))

/-- Heartbeats, pairing, delay exchanges and the loss of the twin. (a) A heartbeat is sent on each link in service when 100 µs have passed
since the last. (b) A heartbeat from the paired twin on a link in service keeps its time on link and twin, and the twin's gate, Tiller and
sag state; any other changes nothing. (c) A twin from which no heartbeat came on either link for its loss time is lost, and its links that
have been silent for 300 µs leave service. (d) A pairing with another pair ID is refused with code 1 and one with another key with code 2,
in event 0x0904, after which the link carries no shared state; one whose nonce is known and whose signature verifies under the configured
key accepts the twin, and one whose signature does not is refused with code 3. (e) A delay request is sent, as a numbered message, once a
second on each link in use; the next message, where it is a request, is answered on its link with the time of its arrival, and where it is
an answer gives link delay, half the round trip, and the round trip. (R350, R352, R353, R356) -/
def Obligations.SheafTwin : Prop :=
  (∀ s : State, exec .heartbeatSend s = .next (s.linksUp.foldl (fun s n => if s.now < (s.link n).beatSent + us 100 then s
      else (s.setLink n { s.link n with beatSent := s.now }).enqueueMsg n 0
        (.heartbeat (b2n s.gate.isShut) s.tiller.st.code s.power.level s.sheaf.rank)) s)) ∧
  (∀ (s : State) (n : LinkId) (x : HeartbeatBody), exec (.heartbeat n x) s = .next (
      if (s.link n).up ∧ (s.link n).paired ∧ s.sheaf.twin = 1 then
        let t := s.setLink n { s.link n with beatAt := s.now }
        { t with sheaf := { t.sheaf with beatAt := s.now, twinGate := x.gateShut, twinTiller := x.tiller, twinSag := x.sag } }
      else s)) ∧
  (∀ s : State, exec .twinHeartbeatTimeout s = .next (
      if s.sheaf.twin = 1 ∧ s.sheaf.beatAt + ns (s.sn 0x0E05) ≤ s.now then
        let t := [0, 1].foldl (fun (t : State) n =>
          if (t.link n).up ∧ (t.link n).paired ∧ (t.link n).beatAt + us 300 ≤ t.now then t.sheafDown n downBeat else t) s
        if t.sheaf.twin = 1 then t.twinLost else t
      else s)) ∧
  (∀ (s t : State) (n : LinkId) (x : PairingBody) (key : Bytes), s.twinKey = some key → (s.link n).up = true → s.pairId ≠ 0 →
      t = s.setLink n { s.link n with paired := false } →
      (x.pairId ≠ s.pairId → exec (.pairing n x) s = .next (t.raise 0x0904 srcDevice (natLe 1 n ++ natLe 1 1))) ∧
      (x.pairId = s.pairId → x.key ≠ key → exec (.pairing n x) s = .next (t.raise 0x0904 srcDevice (natLe 1 n ++ natLe 1 2))) ∧
      (∀ g, x.pairId = s.pairId → x.key = key → (s.link n).twinNonce = x.nonce → x.sig = some g →
        exec (.pairing n x) s = .next (if edVerify key (pairSigned x.nonce (s.link n).nonce s.pairId) g then s.acceptTwin n x.serial
          else t.raise 0x0904 srcDevice (natLe 1 n ++ natLe 1 3)))) ∧
  (∀ (s : State) (n : LinkId), (s.link n).up = true → (s.link n).paired = true → (s.link n).delayAt + sec 1 ≤ s.now →
      exec (.delayExchangeSend n) s = .next ((s.setLink n { s.link n with delayAt := s.now }).tellOn n (.delay n s.tai 0 0 0))) ∧
  (∀ (s t : State) (n : LinkId) (x : DelayBody), (s.link n).up = true → (s.link n).paired = true → s.sheaf.twin = 1 →
      x.num = s.sheaf.rxNum + 1 → s.sheaf.early = [] → t = { s with sheaf := { s.sheaf with rxNum := x.num } } →
      (x.t2 = 0 → exec (.delayExchange n x) s = .next (t.tellOn n (.delay n x.t1 s.tai s.tai 0))) ∧
      (x.t2 ≠ 0 → x.t3 ≠ 0 → exec (.delayExchange n x) s = .next (
        let rtt := (s.tai - x.t1) - (x.t3 - x.t2)
        let u := t.setLink n { t.link n with delay := rtt / 2 }
        { u with sheaf := { u.sheaf with roundTrip := rtt } })))

/-- Numbered messages of the twin are applied once and in the order of their numbers. For each of the ten numbered messages (reservation,
its result, permit copy, consumption, its acknowledge, window merge, delay exchange on a paired link, translation checkpoint, Guolo message,
resync done), from a twin that is present: the message whose number is the next is applied and the ones kept behind it after it; a number
already applied changes nothing; a number further ahead is kept once and changes nothing else. Without the twin nothing happens. While a
link in service has no pairing, whether a message came over it, to be left unapplied, is free (log 259). A checkpoint that waits is sent 50
ns after the last, and after a resync's pairs are out its done message; a message that no ack has covered for 6.4 µs goes again on the first
link in service. (R344, R350, R351, R355, R356, R357, R368) -/
def Obligations.SheafNumberedMessages : Prop :=
  (∀ (s : State) (num : Nat) (c : Instr) (m : Msg),
      ((∃ key seq, c = .reservation num key seq ∧ m = .reservation key seq) ∨
       (∃ key seq g, c = .reservationResult num key seq g ∧ m = .result key seq g) ∨
       (∃ b st, c = .permitCopy num b st ∧ m = .permitCopy b st) ∨
       (∃ key seq uses, c = .consumption num key seq uses ∧ m = .consumption key seq uses) ∨
       (∃ key seq, c = .consumptionAcknowledge num key seq ∧ m = .ack key seq) ∨
       (∃ ws, c = .windowMerge num ws ∧ m = .windows ws) ∨
       (∃ (n : LinkId) (x : DelayBody), c = .delayExchange n x ∧ x.num = num ∧ (s.link n).up = true ∧ (s.link n).paired = true ∧
         m = if x.t2 = 0 then .delay n x.t1 s.tai 0 0 else .delay n x.t1 x.t2 x.t3 s.tai) ∨
       (∃ x, c = .translationCheckpoint num x ∧ m = .checkpoint x) ∨
       (∃ b, c = .sheafGuoloMessage num b ∧ m = .guolo b) ∨
       (∃ n, c = .resyncDone num n ∧ m = .resyncDone n)) → s.strangeLink = false →
      (s.sheaf.twin = 1 → num = s.sheaf.rxNum + 1 →
        exec c s = .next (
          let t := ({ s with sheaf := { s.sheaf with rxNum := num } }).applyMsg m
          State.applyEarly t.sheaf.early.length t)) ∧
      ((s.sheaf.twin ≠ 1 ∨ num ≤ s.sheaf.rxNum ∨ s.sheaf.early.any (fun x => x.1 == num) = true) → num ≠ s.sheaf.rxNum + 1 → exec c s = .next s) ∧
      (s.sheaf.twin = 1 → s.sheaf.rxNum + 1 < num → s.sheaf.early.any (fun x => x.1 == num) = false →
        exec c s = .next { s with sheaf := { s.sheaf with early := s.sheaf.early ++ [(num, m)] } })) ∧
  (∀ (s : State) (num key seq : Nat) (g : Bool), s.strangeLink = true →
      exec (.reservationResult num key seq g) s = .next (
        if s.draw.1.getLsbD 0 then s.draw.2.takeMsg num (.result key seq g) else s.draw.2)) ∧
  (∀ (s : State) (c : Checkpoint) (rest : List Checkpoint), s.sheaf.twin = 1 → s.sheaf.outq = c :: rest → s.sheaf.checkpointAt + ns 50 ≤ s.now →
      exec .checkpointSend s = .next (({ s with sheaf := { s.sheaf with outq := rest, checkpointAt := s.now } }).tell (.checkpoint c))) ∧
  (∀ s : State, s.sheaf.twin = 1 → s.sheaf.outq = [] → s.sheaf.resyncOn = true → s.sheaf.checkpointAt + ns 500 ≤ s.now → s.sheaf.resyncLeft = [] →
      exec .checkpointSend s = .next (({ s with sheaf := { s.sheaf with resyncOn := false } }).tell (.resyncDone s.sheaf.resync))) ∧
  (∀ (s : State) (num n : Nat) (ls : List Nat) (m : Sent), s.sheaf.unacked.find? (fun m => m.num == num) = some m → m.at_ + ns 6400 ≤ s.now →
      s.linksUp = n :: ls →
      exec (.messageResendTimeout num) s = .next (
        let t := s.enqueueMsg n m.num m.msg
        { t with sheaf := { t.sheaf with unacked := t.sheaf.unacked.map (fun x => if x.num = num then { x with at_ := s.now } else x) } }))

/-- Writes of the host's registers: interrupts, doorbells, rings and windows. (a) A write to INT_CAUSE clears the bits written as 1, one to
INT_SET sets those that exist as if their cause came, one to INT_MASK keeps the bits that exist, and a read of EVENT_LOST answers it and
clears it. (b) A REQ_PROD write that goes backwards, or beyond 256 requests ahead, sets overrun and nothing else; one in range on an enabled
mailbox takes each request in ring order and moves both counters. (c) A CPL_CONS write frees slots, ends the stall when the ring has room,
and what waited is written. (d) RING_CONS is kept; RING_CTRL enables a ring only with a size within its limits and an aligned base, or one
that is enabled already. (e) A register write to an aligned window address writes its four bytes little-endian; to a mailbox, ring or MSI-X
register it writes that register; a write anywhere else, or unaligned, changes nothing. (f) A vector whose mask bit is cleared while it is
pending is signalled, and pends no longer. (g) Reads: a register reads what writes and causes have left in it, a write-1-to-set register as
INT_CAUSE, a doorbell as its counter, a reserved bit as 0, and an address that the layout does not name as 0. (R363, R364, R365, R366, R369,
section 0) -/
def Obligations.HostRegisterWrites : Prop :=
  (∀ (s : State) (v : W32), exec (.intCauseWrite v) s = .next { s with host := { s.host with
      intCause := s.host.intCause - (s.host.intCause &&& v.toNat) } }) ∧
  (∀ (s : State) (v : W32), exec (.intSetWrite v) s = .next (((List.range 13).filter (fun b => intBits.testBit b && v.getLsbD b)).foldl
      (fun s b => s.interrupt b) s)) ∧
  (∀ (s : State) (v : W32), exec (.intMaskWrite v) s = .next { s with host := { s.host with intMask := v.toNat &&& intBits } }) ∧
  (∀ s : State, exec .eventLostRead s =
      .next (({ s with host := { s.host with eventLost := 0 } }).emit (.regRead 0x30 s.host.eventLost))) ∧
  (∀ (s : State) (mb : HostMbId) (v : W32), (s.mbRegs mb).enable = true →
      exec (.reqProdDoorbell mb v) s = .next (
        if 256 < aheadOf (s.mbRegs mb).reqCons v.toNat ∨
            aheadOf (s.mbRegs mb).reqCons v.toNat < aheadOf (s.mbRegs mb).reqCons (s.mbRegs mb).reqProd then
          s.setMbRegs mb { s.mbRegs mb with overrun := true }
        else
          ((List.range (aheadOf (s.mbRegs mb).reqCons v.toNat)).foldl (fun t i => t.takeDescriptor mb ((s.mbRegs mb).reqCons + i)) s).setMbRegs mb
            { s.mbRegs mb with reqProd := v.toNat, reqCons := v.toNat })) ∧
  (∀ (s : State) (mb : HostMbId) (v : W32), exec (.cplConsWrite mb v) s = .next (
      let t := s.setMbRegs mb ((s.mbRegs mb).consume v.toNat)
      State.flushLine mb ((t.box mb).line.length + 1) t)) ∧
  (∀ (m : MbRegs) (v : Nat), m.consume v =
      (if MbRegs.full { m with cplCons := v } then { m with cplCons := v } else { m with cplCons := v, stalled := false })) ∧
  (∀ (s : State) (g : RingId) (v : W32), exec (.ringConsWrite g v) s = .next (s.setRing g { s.ringOf g with cons := v.toNat })) ∧
  (∀ (s : State) (g : RingId) (v : W32), exec (.ringCtrlWrite g v) s = .next (s.setRing g { s.ringOf g with
      enable := v.getLsbD 0 && ((s.ringOf g).enable || decide ((ringLimits g).1 ≤ (s.ringOf g).log2 ∧ (s.ringOf g).log2 ≤ (ringLimits g).2 ∧
        (s.ringOf g).base % 64 = 0))
      interrupt := v.getLsbD 1 })) ∧
  (∀ (s : State) (a : Nat) (v : W32), exec (.registerWrite a v) s = .next (
      if a % 4 ≠ 0 then s
      else if 0x100 ≤ a ∧ a < 0x200 then s.mbWrite ((a - 0x100) / 0x20) (a % 0x20) v
      else if 0x200 ≤ a ∧ a < 0x260 then s.ringWrite ((a - 0x200) / 0x20) (a % 0x20) v
      else if 0x1000 ≤ a ∧ a < 0x1400 then s.writeMsix ((a - 0x1000) / 4) v.toNat
      else if 0x100000 ≤ a ∧ a < 0x900000 then
        { s with host := { s.host with windows := Tab.putBytes s.host.windows (a - 0x100000) (natLe 4 v.toNat) } }
      else s)) ∧
  (∀ (s : State) (n : Nat) (v : W32), n < 64 → v.getLsbD 0 = false → s.host.pba.testBit n = true →
      exec (.registerWrite (0x1000 + 16 * n + 12) v) s = .next (({ s with host := { s.host with
        msix := Tab.put 1 s.host.msix (4 * n + 3) v.toNat, pba := s.host.pba ^^^ (1 <<< n) } }).emit (.msix n))) ∧
  (∀ (s : State) (v : W32), ∃ t, exec (.intMaskWrite v) s = .next t ∧ t.readRegister 0x24 = v.toNat &&& 0x17FF) ∧
  (∀ s : State, s.readRegister 0x00 = 0x9600A200 ∧ s.readRegister 0x20 = s.host.intCause &&& 0x17FF ∧
      s.readRegister 0x28 = s.readRegister 0x20 ∧ s.readRegister 0x2C = 0) ∧
  (∀ (s : State) (mb : HostMbId), s.readRegister (0x100 + 0x20 * mb) = (s.mbRegs mb).reqProd ∧
      s.readRegister (0x100 + 0x20 * mb + 0x10) = b2n (s.mbRegs mb).enable + 2 * b2n (s.mbRegs mb).interrupt) ∧
  (∀ (s : State) (g : RingId) (v : W32), ∃ t, exec (.ringConsWrite g v) s = .next t ∧ t.readRegister (0x200 + 0x20 * g + 0x10) = v.toNat) ∧
  (∀ (s : State) (a : Nat), a % 4 = 0 → (0x260 ≤ a ∧ a < 0x1000 ∨ 0x900000 ≤ a) → s.readRegister a = 0)

/-- Event delivery, management frames, JTAG, progress, and a function reset. While a management-core pair is in service and no switchover has quiesced Scemas: (a) an event for
the host goes into the event ring when that is enabled and has room, and its cause follows; one for a known supervisor leaves as a Guolo
message of type 4 by MGMT where events are not signed, one for a present twin by Sheaf; otherwise the queue keeps it. An event
taken from a queue that has lost some lets an events-lost record of their number and first index join it. (b) A management frame takes a
token of the bucket or is counted in device count 8; a whole header of Guolo version 1 for MB8 to MB11 makes its fragment join. (c) A
partial message 100 ms after its first fragment is discarded and counted. (d) A gap that has stood for its time refuses the held requests
with 0x0106 in order, and expects one past the highest. (e) JTAG words join until a whole message is there, which MB14 then takes; BYPASS
changes nothing else. (f) A long request's progress, a second after the last, is kept and raised as 0x0106. (g) A function reset clears what
belongs to the function: causes, masks, mailboxes' and rings' registers, MSI-X, the host's events and unanswered requests, and counts the
events that were waiting as lost. (R362, R367, R375, R376, R379, R469) -/
def Obligations.HostEventsAndManagement : Prop :=
  (∀ (s : State) (e : EventRec) (rest : List EventRec), s.scemasRuns = true → s.quiesced = false → (s.masterQ 1).queue = e :: rest →
      (s.ringOf 0).enable = true → (s.ringOf 0).room = true →
      exec (.eventDelivery .host) s = .next (
        let r := s.ringOf 0
        let t := ((s.popEvents 1 1).emit
          (.dma 0 (r.prod % 2 ^ r.log2) e.bytes)).setRing 0 { r with prod := (r.prod + 1) % 2 ^ 32 }
        t.interrupt 8 r.interrupt)) ∧
  (∀ (s : State) (e : EventRec) (rest : List EventRec), s.scemasRuns = true → s.quiesced = false → (s.masterQ 0).queue = e :: rest →
      allZero s.supervisor = false → s.mgmtSigned = false →
      exec (.eventDelivery .supervisor) s = .next ((mgmtFrames 8 (guoloOut 4 e.code (e.index % 2 ^ 32) 0 e.bytes false)).foldl
        (fun (t : State) f => t.emit (.mgmt s.supervisor f)) (s.popEvents 0 1))) ∧
  (∀ (s : State) (e : EventRec) (rest : List EventRec), s.scemasRuns = true → s.quiesced = false → (s.masterQ 2).queue = e :: rest →
      s.sheaf.twin = 1 → exec (.eventDelivery .twin) s = .next ((s.popEvents 2 1).tell
          (.guolo (guoloOut 4 e.code (e.index % 2 ^ 32) 0 e.bytes false)))) ∧
  (∀ (s : State) (m : Master), s.scemasRuns = false ∨ s.quiesced = true → exec (.eventDelivery m) s = .next s) ∧
  (∀ (s : State) (m : Nat) (e : EventRec) (rest : List EventRec), (s.masterQ m).queue = e :: rest →
      ((s.masterQ m).lost = 0 → (s.popEvents m 1) = { s with host := { s.host with
        masters := Tab.put {} s.host.masters m { s.masterQ m with queue := rest } } }) ∧
      ((s.masterQ m).lost ≠ 0 → ((s.popEvents m 1).masterQ m).queue = rest ++ [{
        code := 0x0101, masked := false, source := srcDevice, index := s.host.eventIndex, stamp := s.stamp, at_ := s.now
        body := natLe 4 (s.masterQ m).lost ++ natLe 8 (s.masterQ m).firstLost }])) ∧
  (∀ (s : State) (src b : Bytes), exec (.mgmtFrameReceive src b) s = .next (
      if s.mgmtTake.1 = false then s.mgmtTake.2.count 12 8
      else if b.length < 12 ∨ beAt b 0 2 ≠ 0x4755 ∨ beAt b 2 1 ≠ 1 ∨ beAt b 3 1 < 8 ∨ 11 < beAt b 3 1 ∨ beAt b 6 2 ≤ beAt b 4 2 then s.mgmtTake.2
      else s.mgmtTake.2.fragment src (beAt b 3 1) (beAt b 4 2) (beAt b 6 2) (beAt b 8 4) (b.drop 12))) ∧
  (∀ (s : State) (mb : MbId), (s.box mb).frags ≠ [] → (s.box mb).fragAt + ms 100 ≤ s.now →
      exec (.mgmtReassemblyTimeout mb) s = .next (s.setBox mb { s.box mb with
        frags := [], fragTotal := 0, fragCount := 0, discards := (s.box mb).discards + 1 })) ∧
  (∀ (s : State) (mb : MbId), (s.box mb).gapAt.any (fun t => decide (t + ns (s.sn 0x0F04) ≤ s.now)) = true →
      exec (.mgmtGapTimeout mb) s = .next (
        let held := (s.box mb).gap.mergeSort (fun x y => decide (aheadOf (s.box mb).next x.seq ≤ aheadOf (s.box mb).next y.seq))
        held.foldl (fun u x => u.deliver mb { seq := x.seq, opcode := x.opcode, status := 0x0106, tag := x.tag, stamp := u.stamp })
          (s.setBox mb ((s.box mb).closeGap (held.foldl (fun n x => max n (aheadOf (s.box mb).next x.seq)) 0))))) ∧
  (∀ (s : State) (w : W32), (s.host.jtag ++ [w.toNat]).length < 8 →
      exec (.jtagMb14Data w) s = .next { s with host := { s.host with jtag := s.host.jtag ++ [w.toNat], bypass := false } }) ∧
  (∀ (s : State) (b : Bool), exec (.jtagBypass b) s = .next { s with host := { s.host with bypass := true } }) ∧
  (∀ (s : State) (mb : MbId) (pc : Nat) (x : LongReq), s.host.longs.find? (fun x => x.mb == mb.val && x.kind != 0) = some x →
      x.at_ + sec 1 ≤ s.now →
      exec (.longRequestProgress mb pc) s = .next (({ s with host := { s.host with
        progress := Tab.put 0 s.host.progress mb pc
        longs := s.host.longs.map (fun y => if y = x then { x with at_ := s.now } else y) } }).raise
        0x0106 srcDevice (natLe 2 x.opcode ++ natLe 2 0 ++ natLe 4 x.seq ++ natLe 1 mb ++ natLe 1 pc))) ∧
  (∀ s : State, exec .pcieFunctionReset s = .next (
      let t := (List.range 8).foldl (fun s mb => s.setBox mb { s.box mb with taken := [], gap := [], gapAt := none, line := [] })
        { s with host := { s.host with
          intCause := 0, intMask := 0, eventLost := 0, mbs := [], rings := [], msix := [], pba := 0, masters := Tab.erase s.host.masters 1 } }
      if (s.masterQ 1).queue = [] then t else t.hostLost (s.masterQ 1).queue.length))

/-- A window write reads back, and every other byte of every inbound window stays. For every state whose window memory is in its canonical
form and every aligned address of an inbound window: after REGISTER_WRITE the four bytes at that address are the value's, little-endian,
every other byte of the windows reads as before, the memory is in its canonical form again, and nothing else of the device has changed.
That an unwritten byte reads 0 is the model's choice (log 83); the statement does not rest on it. (R363, R364, section 15) -/
def Obligations.WindowWriteReadsBack : Prop :=
  ∀ (s : State) (a : Nat) (v : W32), Tab.wf 0 s.host.windows = true → a % 4 = 0 → 0x100000 ≤ a → a < 0x900000 →
    ∃ t, exec (.registerWrite a v) s = .next t ∧
      Tab.getBytes t.host.windows (a - 0x100000) 4 = natLe 4 v.toNat ∧
      (∀ b, (b < a - 0x100000 ∨ a - 0x100000 + 4 ≤ b) → Tab.get 0 t.host.windows b = Tab.get 0 s.host.windows b) ∧
      Tab.wf 0 t.host.windows = true ∧ { t with host := { t.host with windows := s.host.windows } } = s

/-- The sag level: its triggers, shedding, release, the close at level 5 and the reset that ends it. (a) SAG_WARN sets its input, a rail
monitor sets the level it requests where Table 19-2 lets it, and the level follows: it rises at once to the highest request, and a lower
request at levels 1 to 4 starts the release hold; that the VCORE monitor has requested a level is kept for the record. (b) The rank timer
sheds the sheddable ports of its rank once 5 us times the rank have passed at level 2 or above. (c) When the release hold has run out, the
level steps down by one, the record is kept when level 3 is left, the change is raised as event 0x0C01, the ports shed for the level left
return, and at level 0 the episode is over. (d) At level 5 the close is carried out once; the ledger queue is written, then the final
record. (e) When every trigger has been clear for the release time at level 5, internal reset follows. The lowest code of equal triggers is
named: the model's choice (log 135). (R434, R435, R436, R437, R438, R439, R441) -/
def Obligations.SagLevels : Prop :=
  (∀ (s : State) (v : Fin 8), exec (.sagWarnInput v) s = .next (State.sagUpdate { s with power := { s.power with sagWarn := v.val } })) ∧
  (∀ (s : State) (m : RailMonitor) (lvl : Fin 6), exec (.railMonitorTrigger m lvl) s = .next (if monitorMay m lvl then
      State.sagUpdate { s with power := { s.power with monitors := Tab.put 0 s.power.monitors (monitorNo m) lvl.val
                                                       vcoreOut := s.power.vcoreOut || (decide (m = .vcore) && lvl.val != 0) } } else s)) ∧
  (∀ s : State, s.power.level < s.sagRequest.2 → s.sagUpdate = s.raiseSag s.sagRequest.2 s.sagRequest.1) ∧
  (∀ s : State, s.sagRequest.2 < s.power.level → s.power.level < 5 → s.sagUpdate =
      { s with power := { s.power with releaseAt := some (s.power.releaseAt.getD (s.now + ns (s.sn 0x1306))) } }) ∧
  (∀ (s : State) (rank : Fin 16), exec (.shedRankTimer rank) s = .next (
      if 2 ≤ s.power.level ∧ s.power.level2At + us (5 * rank.val) ≤ s.now then
        ((List.range 96).filter (fun p => s.sagRole p == 0 && s.sn 0x1302 p == rank.val)).foldl (fun t p => t.shedPort p 2) s
      else s)) ∧
  (∀ (s : State) (t : Nat), 1 ≤ s.power.level → s.power.level ≤ 4 → s.sagRequest.2 < s.power.level → s.power.releaseAt = some t → t ≤ s.now →
      exec .sagReleaseHoldExpiry s = .next (
        let old := s.power.level
        let kept := if old = 3 then (s.keepSag (s.sagRecord 0 0 0)).settleCreation else s
        let p : Power := { s.power with
          level := old - 1, releaseAt := if s.sagRequest.2 < old - 1 then some (s.now + ns (s.sn 0x1306)) else none }
        let u := (({ kept with power := if old = 1 then { p with deepest := 0, deepTrigger := 0, deepStamp := {}, vcoreOut := false }
          else p } : State).raise 0x0C01 srcDevice
          (natLe 1 old ++ natLe 1 (old - 1) ++ natLe 1 (if s.sagRequest.2 = 0 then s.power.trigger else s.sagRequest.1))).noteStatus
        ((List.range 96).filter (fun q => (u.port q).shedAt == old)).foldl (fun u q => u.unshedPort q) u)) ∧
  (∀ s : State, exec .ledgerCloseDone s = .next (if s.power.level = 5 ∧ s.power.closed = false then s.closeLedger else s)) ∧
  (∀ s : State, exec .level5ReleaseReset s = .next (
      if s.power.level = 5 ∧ s.power.clearSince.any (fun t => decide (t + ns (s.sn 0x1307) ≤ s.now)) = true then s.internalReset else s))

/-- VCORE, temperature, SYSCLK, the tamper inputs and the keeper's supply and clock. (a) A VCORE step moves the setpoint by 5 mV towards
the lowest voltage of 700 to 800 mV that gives the margin, 100 us after the last at the earliest, while adaptation is on and PMBus
answers; an unacknowledged one is not in force, and the third in a row ends the attempts. (b) The temperature crossing the threshold
upward, or falling 5 degrees below it, raises event 0x0C02 and changes the state. (c) A glitch of VCORE or of the SYSCLK period latches
its tamper source, is measured with its digest, and raises 0x0B03. (d) VKEEP loss loses the keeper's state, VKEEP's return restarts the
RTC at 0, and loss of the 32 kHz crystal stops the RTC. (e) RESET_N shuts the gate with cause 13, writes the ledger queue, or finishes the
close at level 5, and internal reset follows. (R401, R421, R423, R430, R433, R444, R463, R465, R467) -/
def Obligations.SupplyClockAndTemperature : Prop :=
  (∀ (s : State) (x : VcoreStep), s.son 0x130B = true → s.power.pmbusLost = false → s.power.vcoreAt + us 100 ≤ s.now →
      exec (.vcoreAdaptStep x) s = .next (
        if x.marginMet then (if s.power.vcore ≤ 700 then s else s.setVcore (s.power.vcore - 5) x.acked)
        else if 800 ≤ s.power.vcore then s else s.setVcore (s.power.vcore + 5) x.acked)) ∧
  (∀ (s : State) (mv : Nat), (s.setVcore mv true).power = { s.power with vcore := mv, pmbusFails := 0, vcoreAt := s.now } ∧
      (s.setVcore mv false).power = { s.power with
        pmbusFails := s.power.pmbusFails + 1, pmbusLost := decide (3 ≤ s.power.pmbusFails + 1), vcoreAt := s.now }) ∧
  (∀ (s : State) (temp : Int), s.power.therm = false → (s.sn 0x130A : Int) ≤ temp →
      exec (.thermalThresholdCrossing temp) s = .next (State.raise { s with power := { s.power with temp := temp, therm := true } }
        0x0C02 srcDevice (natLe 1 1 ++ [0] ++ natLe 2 (unsigned 16 temp)))) ∧
  (∀ (s : State) (temp : Int), s.power.therm = true → temp ≤ (s.sn 0x130A : Int) - 5 →
      exec (.thermalThresholdCrossing temp) s = .next (State.raise { s with power := { s.power with temp := temp, therm := false } }
        0x0C02 srcDevice (natLe 1 0 ++ [0] ++ natLe 2 (unsigned 16 temp)))) ∧
  (∀ (s : State) (temp : Int), (s.power.therm = true → (s.sn 0x130A : Int) - 5 < temp) → (s.power.therm = false → temp < (s.sn 0x130A : Int)) →
      exec (.thermalThresholdCrossing temp) s = .next { s with power := { s.power with temp := temp } }) ∧
  (∀ s : State, s.keeper.vkeep = true → exec .vcoreGlitch s = .next ((State.measure { s with keeper := { s.keeper with tamper := 1 } }
      8 (sha512 [1]) 0xFF 0 1).raise 0x0B03 srcDevice [1])) ∧
  (∀ s : State, s.keeper.vkeep = true → exec .sysclkPeriodGlitch s = .next ((State.measure { s with keeper := { s.keeper with tamper := 3 } }
      8 (sha512 [3]) 0xFF 0 3).raise 0x0B03 srcDevice [3])) ∧
  (∀ s : State, exec .vkeepLoss s = .next { s with keeper := { vkeep := false, lost := true, boot := s.keeper.boot, xtal := s.keeper.xtal } }) ∧
  (∀ s : State, exec .vkeepReturn s = .next (if s.keeper.vkeep then s else
      { s with keeper := { s.keeper with vkeep := true, rtc := 0, sub := 0, seed := false } })) ∧
  (∀ s : State, exec .xtal32Loss s = .next { s with keeper := { s.keeper with xtal := false } }) ∧
  (∀ s : State, exec .resetNAssert s = .next (
      let t := if s.gate.isShut = true ∧ s.gate.cause = 13 then s else s.shutGate 13 0xFFFF 0xFFFF
      State.internalReset (if t.power.level = 5 ∧ t.power.closed = false then t.closeLedger else t.writeLedger)))

/-- Settling, the slice reset, management cores and SYSCLK. (a) A settling entry closes when its time has passed, one in handling stays.
(b) A drain is complete at its bound of 1 ms or when nothing is left: what remains of the slice's packets is dropped, the slice's tables
are rewritten and it is drained. (c) A drained slice returns with its ports, its entries settle and the next ordered drain begins. (d) A
slice that has not returned 150 ms after its drain began puts the device in the safe state with cause 5. (e) A lockstep mismatch of a pair
in service or resetting opens its log entry: rung 2 retires the pair, otherwise it resets; a self test that passes returns it to service,
one that fails retires it. (f) Loss of SYSCLK counts class 15, puts the TAI clock in holdover and enters the safe state with cause 4;
SYSCLK's return restores the clock and nothing else. Which waiting requests ran on a resetting pair is free (log 64). (R393, R396, R397,
R398, R399, R401, R406) -/
def Obligations.FaultEvents : Prop :=
  (∀ (s : State) (u : FaultUnit), exec (.settleTimeExpiry u) s = .next (s.setLog (unitNo u)
      ((s.logOf (unitNo u)).filter (fun e => !(e.st == 1 && decide (e.settleAt ≤ s.now)))))) ∧
  (∀ (s : State) (k : SliceId) (d : Drain), s.fault.drain = some d → d.slice = k.val → d.drained = false →
      (d.at_ + ms 1 ≤ s.now ∨ (s.slicePackets k).isEmpty = true) →
      exec (.sliceDrainComplete k) s = .next (
        let t := ((s.slicePackets k).foldl (fun t n => t.dropDrained n) s).resetSlice k
        { t with fault := { t.fault with drain := some { d with drained := true } } })) ∧
  (∀ (s : State) (k : SliceId) (d : Drain), s.fault.drain = some d → d.slice = k.val → d.drained = true →
      exec (.sliceReturn k) s = .next (((slicePorts k).foldl (fun t p => t.returnPort p) s).sliceBack k d.cls)) ∧
  (∀ (s : State) (k : SliceId), exec (.sliceReturnTimeout k) s = .next (
      if s.fault.drain.any (fun d => d.slice == k.val && decide (d.at_ + ms 150 ≤ s.now)) = true then s.enterSafe 5 else s)) ∧
  (∀ (s : State) (q : Fin 2), s.mcState q ≠ 2 → exec (.mcLockstepMismatch q) s = .next (
      let o := s.openFault (96 + q.val) 1 q.val srcDevice (fun r => if r = 2 then 4 else 6)
      if o.1 = 2 then ((o.2.returnRetry.setMc q 2).settle (96 + q.val)).noteRetire else o.2.returnRetry.setMc q 1)) ∧
  (∀ (s : State) (q : Fin 2), s.mcState q = 1 →
      exec (.mcPairSelfTestDone q true) s = .next (((s.setMc q 0).settle (96 + q.val)).faultReport 10 3 1 1 q.val srcDevice 0) ∧
      exec (.mcPairSelfTestDone q false) s = .next ((((s.setMc q 2).settle (96 + q.val)).faultReport 10 4 1 2 q.val srcDevice 0).noteRetire)) ∧
  (∀ s : State, s.fault.sysclk = true → exec .sysclkLoss s = .next ((({ s with
      fault := { s.fault with sysclk := false, counts := Tab.modify 0 s.fault.counts 15 (· + 1) }
      tiller := { s.tiller with taiState := 4 } } : State).faultReport 15 (if s.fault.safe then 0 else 9) 3 0 0 srcDevice 0).enterSafe 4)) ∧
  (∀ s : State, exec .sysclkReturn s = .next { s with fault := { s.fault with sysclk := true } })

/-- The rung that a fault reaches, the entry that it opens, and the safe state at rung 3. For every state whose fault tables are in
canonical form and every fault of a unit outside a draining slice: with an open entry of another unit of its class the fault is at rung 3
(but where that unit has a higher number and met its fault on the same clock: then the lower one is at rung 1, and the higher one's entry
passes to rung 3 with the safe state); with two entries of its own at rung 3, with one at rung 2 (at rung 3 for an engine while another
slice drains), with none at rung 1. Its
class is counted by one, the unit's log grows by one entry of that rung while it holds fewer than two, no other unit's log changes, and no
packet, port, table or setting changes at rungs 1 and 2. At rung 3 what follows is the safe state's entry, with cause 6 for the unit's own
second entry and 1 otherwise. (R394, R395, R397, R401, R406, Table 17-3) -/
def Obligations.FaultRungs : Prop :=
  ∀ (s : State) (u cause detail source : Nat) (act : Nat → Nat), Tab.wf [] s.fault.logs = true → Tab.wf 0 s.fault.counts = true →
    s.drainingUnit u = false →
    (s.openFault u cause detail source act).1 =
      (if (s.outranked u).isSome then 1 else if (s.otherOpen u).isSome then 3 else if 2 ≤ (s.logOf u).length then 3 else if (s.logOf u).length = 0 then 1
       else if u < 16 ∧ s.fault.drain.isSome then 3 else 2) ∧
    ∃ t : State, t.faultCount (unitClass u) = s.faultCount (unitClass u) + 1 ∧
      (t.logOf u).length = min (max 2 (s.logOf u).length) ((s.logOf u).length + 1) ∧ (∀ v, v ≠ u → t.logOf v = s.logOf v) ∧
      { t with fault := { t.fault with counts := s.fault.counts, logs := s.fault.logs }, host := s.host, outbox := s.outbox } = s ∧
      (s.openFault u cause detail source act).2 = (match s.outranked u with
        | some v => t.outrank v
        | none => if (s.openFault u cause detail source act).1 = 3 then
            t.enterSafe (if (s.otherOpen u).isSome then 1 else if 2 ≤ (s.logOf u).length then 6 else 1) else t)

/-- The start sequence and the firmware switchover. (a) BOOT_START acts once after a reset: the keeper's step, then the start stops for
straps of 4 or more, with tamper source 4 for OTP or an identity that fails, and otherwise takes the slots. (b) With the slot of the boot
record passing, as its bytes or the check tell, its image runs; if it fails, tamper source 5 is set and the other slot is taken; if both
fail the device is in recovery. (c) MEMORY_TRAINING_DONE without failed units, once, marks the memories trained, each unit at the
temperature that its sensor reports, forms the Granary, and completes the start when Scemas runs. (d) A staged image that passes quiesces
the mailboxes; one that fails ends the switchover with the check's status. (e) The handover runs the image of the slot, whose version
numbers no header gives and are free (log 106), revokes keys where the header says so, is measured, raises 0x0B02 and ends the long request.
(f) After 40 ms without it the old image resumes with status 0x0001. (R325, R410, R413, R414, R419, R420, R421, R466) -/
def Obligations.BootAndSwitchover : Prop :=
  (∀ (s : State) (x : BootInputs), exec (.bootStart x) s = .next (
      if s.trust.folded ≠ 0 then s
      else
        let t := State.bootKeeper { s with trust := { s.trust with straps := x.straps.val } }
        if 4 ≤ x.straps.val then t.bootStop
        else if x.otpOk = false ∨ x.identityOk = false then (t.bootTamper 4).bootStop
        else t.bootSlots x)) ∧
  (∀ (s : State) (x : BootInputs), s.trust.flash.record.2.2 ≠ 1 →
      s.slotOk (s.slotCheck s.trust.flash.record.2.1 (if s.trust.flash.record.2.1 = 0 then x.slotA else x.slotB)) = true →
      s.bootSlots x = (
        let t := (s.runSlot s.trust.flash.record.2.1
          (s.slotCheck s.trust.flash.record.2.1 (if s.trust.flash.record.2.1 = 0 then x.slotA else x.slotB))).populate x.granary
        if t.mem.trained then t.startDone else t)) ∧
  (∀ (s : State) (x : BootInputs), s.trust.flash.record.2.2 ≠ 1 → s.trust.flash.record.2.1 = 0 → s.slotOk (s.slotCheck 0 x.slotA) = false →
      (s.bootTamper 5).slotOk (s.slotCheck 1 x.slotB) = false → s.bootSlots x = (s.bootTamper 5).recover) ∧
  (∀ s : State, s.mem.trained = false → exec (.memoryTrainingDone []) s = .next (
      let u := s.trainUnits
      let t := { u with mem := { u.mem with
        trained := true, regions := regionSizes u.mem.shares u.granary
        ledgerPart := (regionSizes u.mem.shares u.granary).getD 0 0 * 2 ^ 23 / u.granaryUsed.length } }
      if s.trust.recovery ≠ 0 ∨ s.trust.folded = 0 then t else t.startDone)) ∧
  (∀ (s : State) (x : Switchover), s.trust.switchover = some x → x.quiesced = none → s.slotFault x.slot = none →
      exec (.switchoverImageStaged true) s = .next (State.noteStatus { s with trust := { s.trust with
        switchover := some { x with quiesced := some s.now } } })) ∧
  (∀ (s : State) (x : Switchover) (st d : Nat) (ok : Bool), s.trust.switchover = some x → x.quiesced = none → s.slotFault x.slot = some (st, d) →
      exec (.switchoverImageStaged ok) s = .next (s.endSwitch st d)) ∧
  (∀ (s : State) (x : Switchover), s.trust.switchover = some x → x.quiesced.isSome = true → ∃ version, exec .switchoverHandoverDone s = .next (
      let t := ({ s.draw.2 with trust := { s.trust with
        switchover := none, running := x.slot, imageSv := imgSv x.header, firmware := version * 65536 + imgBuild x.header % 65536 } } : State)
      ((((((t.writeBoot x.slot 0).revokeBelow x.header).measure 2 (imgDigest x.header) x.slot (imgSv x.header) 0 (imgBuild x.header)).noteStatus).raise
        0x0B02 srcDevice (switchBody x.slot x.header)).endLong 3 0 0 0 [] 0))) ∧
  (∀ (s : State) (x : Switchover), s.trust.switchover = some x → exec .switchoverTimeout s = .next (
      if x.quiesced.any (fun t => decide (t + ms 40 ≤ s.now)) = true then s.endSwitch 1 0 else s))

/-- Every operation of the ALU slot: its result from its two operands, and where it goes. A slot that executes, in a word that its context
issues and that spells it, reads both operands as they stood at the start of the word (b from the immediate where bsel is set); with its
condition met and setf clear it puts its result into its destination; the word's issue is counted, and the slot has executed. A write to
g00 is ignored. The results: sums, differences and products modulo 2^64, bitwise operations, shifts and the rotation by b mod 64, the
unsigned lesser and greater, the one's-complement checksum, the byte reversals, the field extracted or inserted at imm[5:0] of width
imm[13:8], the selection by Z, and the CRC. For bswap with b mod 4 = 0 the result is free (log 31). That the CRC takes b most significant
byte first is the model's choice (log 178). A slot that the present word does not spell, or that has executed, changes nothing. (R190,
R192, R193, Table 8-4, Table 8-5) -/
def Obligations.AluResults : Prop :=
  (∀ (s t : State) (x : AluSlot) (p : Packet) (c d : Context), c.holds x.cond = true → x.setf = false → t = s.noteWord (sliceOf p.port) c →
      d = s.aluCtx c →
    (∀ op ∈ aluResults c x, s.AluRuns op.1 x p c →
      exec (op.2.1 x) s = .next (t.setCtx x.ctx (d.setReg x.dst (op.2.2 (aluA c x) (aluB c x))))) ∧
    (s.AluRuns 17 x p c → ∃ r : W64, InsResult c x r ∧ exec (.aluIns x) s = .next (t.setCtx x.ctx (d.setReg x.dst r))) ∧
    (s.AluRuns 15 x p c → (aluB c x).toNat % 4 ≠ 0 → ∃ r : W64, SwapResult c x r ∧
      exec (.aluBswap x) s = .next (t.setCtx x.ctx (d.setReg x.dst r))) ∧
    (s.AluRuns 15 x p c → (aluB c x).toNat % 4 = 0 → ∃ r : W64,
      exec (.aluBswap x) s = .next (State.setCtx { t with fresh := t.fresh + 1 } x.ctx (d.setReg x.dst r))) ∧
    d.setReg 0 (aluA c x) = d) ∧
  (∀ (s : State) (x : AluSlot) (p : Packet) (c : Context), s.AluRuns 0 x p c →
    exec (.aluNop x) s = .next ((s.noteWord (sliceOf p.port) c).setCtx x.ctx (s.aluCtx c))) ∧
  (∀ (s : State) (x : AluSlot) (p : Packet) (c : Context), s.runningCtx x.ctx = some (p, c) → x.fault = none →
    ∀ op ∈ aluResults c x, (c.aluDone = true ∨ wordAlu (s.wordOf c) ≠ aluSpelling op.1 x) → exec (op.2.1 x) s = .next s)

/-- The flags that an ALU slot with setf sets. A slot that executes with setf set puts the same result into its destination as with setf
clear, and sets the flags besides: Z where the result is 0 and N where its bit 63 is set, for every operation; for an addition C where the
unsigned sum does not fit 64 bits, and V where the signed sum does not; for a subtraction C where b is above a, and V where the signed
difference does not fit. For the other operations the spec gives C and V no value: they are free (log 30). A slot whose condition is not
met writes nothing, and one that a hardware fault strikes takes that machine check. (R192, R193, Table 8-5) -/
def Obligations.AluFlags : Prop :=
  (∀ (s t : State) (x : AluSlot) (p : Packet) (c d : Context), c.holds x.cond = true → x.setf = true → t = s.noteWord (sliceOf p.port) c →
      d = s.aluCtx c →
    (s.AluRuns 1 x p c → exec (.aluAdd x) s = .next (
      let a := aluA c x
      let b := aluB c x
      let e := d.setReg x.dst (a + b)
      t.setCtx x.ctx { e with regs := { e.regs with f := { z := decide (a + b = 0), c := decide (2 ^ 64 ≤ a.toNat + b.toNat)
                                                           n := decide (2 ^ 63 ≤ (a + b).toNat), v := decide ((a + b).toInt ≠ a.toInt + b.toInt) } } })) ∧
    (s.AluRuns 2 x p c → exec (.aluSub x) s = .next (
      let a := aluA c x
      let b := aluB c x
      let e := d.setReg x.dst (a - b)
      t.setCtx x.ctx { e with regs := { e.regs with f := { z := decide (a = b), c := decide (a.toNat < b.toNat)
                                                           n := decide (2 ^ 63 ≤ (a - b).toNat), v := decide ((a - b).toInt ≠ a.toInt - b.toInt) } } })) ∧
    (∀ op ∈ aluResults c x, 2 < op.1 → s.AluRuns op.1 x p c → ∃ fc fv : Bool, exec (op.2.1 x) s = .next (
      let r := op.2.2 (aluA c x) (aluB c x)
      let e := d.setReg x.dst r
      State.setCtx { t with fresh := t.fresh + 1 } x.ctx { e with regs := { e.regs with
        f := { z := decide (r = 0), c := fc, n := decide (2 ^ 63 ≤ r.toNat), v := fv } } })) ∧
    (s.AluRuns 17 x p c → ∃ (r : W64) (fc fv : Bool), InsResult c x r ∧ exec (.aluIns x) s = .next (
      let e := d.setReg x.dst r
      State.setCtx { t with fresh := t.fresh + 1 } x.ctx { e with regs := { e.regs with
        f := { z := decide (r = 0), c := fc, n := decide (2 ^ 63 ≤ r.toNat), v := fv } } })) ∧
    (s.AluRuns 15 x p c → (aluB c x).toNat % 4 ≠ 0 → ∃ (r : W64) (fc fv : Bool), SwapResult c x r ∧ exec (.aluBswap x) s = .next (
      let e := d.setReg x.dst r
      State.setCtx { t with fresh := t.fresh + 1 } x.ctx { e with regs := { e.regs with
        f := { z := decide (r = 0), c := fc, n := decide (2 ^ 63 ≤ r.toNat), v := fv } } }))) ∧
  (∀ (s : State) (x : AluSlot) (p : Packet) (c : Context), s.runningCtx x.ctx = some (p, c) →
    ∀ op ∈ [(15, Instr.aluBswap), (17, Instr.aluIns)] ++ (aluResults c x).map (fun op => (op.1, op.2.1)),
      (∀ h, x.fault = some h → exec (op.2 x) s = .next (s.hwCheck x.ctx (sliceOf p.port) c.engine c.bank c.pc h)) ∧
      (s.AluRuns op.1 x p c → c.holds x.cond = false → exec (op.2 x) s = .next ((s.noteWord (sliceOf p.port) c).setCtx x.ctx (s.aluCtx c))))

/-- The memory slot's loads: header, metadata, records and customer objects. A memory slot that executes, its condition met: (a) mem.none
writes nothing. (b) hdr.ld from an offset of at most 255 puts the bytes there into the data register, in network order, with a free byte for
each past the frame's end (log 32); beyond 255 it meets cause 6, which the word's end takes. (c) meta.ld puts the named field into the
register. (d) rec.ld puts the record's bytes, with the routine's own staged writes, little-endian, into the register, or meets cause 6
without that handle or past the record. (e) obj.ld outside the region meets cause 6; else the context gives its hardware context back and
waits, and the read is issued with a transaction to be had. (f) A reply to a lock or object read that has been issued is taken; a reply to
none changes nothing. (g) A slot whose condition is not met writes nothing. A field beyond the table's meets cause 6: the model's choice
(log 179). (R178, R183, R192, R194, R196, Table 8-6, Table 10-5) -/
def Obligations.MemoryLoads : Prop :=
  (∀ (s t : State) (x : MemSlot) (p q : Packet) (c d : Context), t = s.memBegun x p c → d = s.memCtx c → q = { p with ctx := some d } →
    (s.MemRuns 0 x p c → exec (.memNone x) s = .next t) ∧
    (s.MemRuns 1 x p c → memAddr c x ≤ 255 → ∃ rest : Bytes, rest.length = memLen x - (p.len - memAddr c x) ∧
      exec (.hdrLd x) s = .next (State.setCtx { t with fresh := t.fresh + rest.length } x.ctx
        (d.setReg x.mreg (BitVec.ofNat 64 (beNat (slice p.bytes (memAddr c x) (min (memLen x) (p.len - memAddr c x)) ++ rest)))))) ∧
    (s.MemRuns 1 x p c → 255 < memAddr c x → exec (.hdrLd x) s = .next (s.memChecked x p c 6)) ∧
    (s.MemRuns 3 x p c →
      (∀ f ∈ [(0, p.stamp.angle), (1, p.stamp.ns), (2, p.stamp.sec), (3, p.profile), (4, p.zone), (5, p.vid), (6, p.cls), (8, p.epoch % 256)],
        memField x = f.1 → exec (.metaLd x) s = .next (t.setCtx x.ctx (d.setReg x.mreg (BitVec.ofNat 64 f.2)))) ∧
      (memField x = 7 → exec (.metaLd x) s = .next (t.setCtx x.ctx (d.setReg x.mreg (matchVector p.scan)))) ∧
      (8 < memField x → exec (.metaLd x) s = .next (s.memChecked x p c 6))) ∧
    (s.MemRuns 7 x p c →
      (∀ b, Tab.find? c.snaps (recHandle x) = some b → recOffset x + memLen x ≤ 128 →
        exec (.recLd x) s = .next (t.setCtx x.ctx (d.setReg x.mreg (BitVec.ofNat 64
          (leAt (d.withStaged q (t.profile p.profile p.epoch) b (recHandle x)) (recOffset x) (memLen x)))))) ∧
      ((Tab.find? c.snaps (recHandle x) = none ∨ 128 < recOffset x + memLen x) → exec (.recLd x) s = .next (s.memChecked x p c 6))) ∧
    (s.MemRuns 14 x p c →
      (objectRegion < memAddr c x + memLen x → exec (.objLd x) s = .next (s.memChecked x p c 6)) ∧
      (∀ u, memAddr c x + memLen x ≤ objectRegion →
        u = t.setCtx x.ctx { d with waiting := some (.object (memAddr c x) x.mreg.val (memLen x)), hw := none } →
        exec (.objLd x) s = .next (if 4096 ≤ u.transactions (sliceOf p.port) then u else u.readObject x.ctx (memAddr c x))))) ∧
  (∀ (s : State) (n : Nat) (res : ReadResult) (r : MemRead), s.mem.reads.find? (fun r => r.owner == .object n && s.readIssued r) = some r →
    exec (.objLdReply n res) s = .next (s.objectReply n r res)) ∧
  (∀ (s : State) (n : Nat) (res : ReadResult) (r : MemRead), s.mem.reads.find? (fun r => r.owner == .lock n && s.readIssued r) = some r →
    exec (.recLockReply n res) s = .next (s.lockReply n r res)) ∧
  (∀ (s : State) (n : Nat) (res : ReadResult), s.mem.reads = [] → exec (.objLdReply n res) s = .next s ∧ exec (.recLockReply n res) s = .next s) ∧
  (∀ (s : State) (x : MemSlot) (p : Packet) (c : Context), s.runningCtx x.ctx = some (p, c) → x.fault = none → c.memDone = false →
    c.holds x.cond = false →
    ∀ op ∈ [(0, Instr.memNone), (1, Instr.hdrLd), (2, Instr.hdrSt), (3, Instr.metaLd), (4, Instr.descSt), (5, Instr.keySt), (6, Instr.recLock),
        (7, Instr.recLd), (8, Instr.recSt), (9, Instr.mrgAdd), (10, Instr.mrgOr), (11, Instr.mrgMax), (12, Instr.mrgMin), (13, Instr.mrgAvg),
        (14, Instr.objLd), (15, Instr.cntAdd), (16, Instr.evt)],
      wordMem (s.wordOf c) = memSpelling op.1 x → exec (op.2 x) s = .next (s.memBegun x p c))

/-- The memory slot's stores, merges, locks and the customer's counters and events each complete with their own effect. They are hdrSt,
descSt, keySt, recLock, recSt, mrgAdd, mrgOr, mrgMax, mrgMin, mrgAvg, cntAdd and evt. A memory slot that executes, its condition met: (a)
hdr.st within the frame and from one of its first 256 bytes, clear of the packet's other edits, the sixteenth at most, adds an edit of its
bytes in network order, and tells whether sixteen are now reached. (b) desc.st sets one of five descriptor fields, and key.st the 8 key
bytes at its offset. (c) rec.st stages bytes, and a merge stages its operation on 4 or 8 bytes, at a free service word of a handle that may
be written, while the bale keeps to 256 bytes and four records. (d) rec.lock of handle 2 or 3 issues the lock of the key buffer's record in
the sequencer, and the context waits, behind an earlier operation on the key, or begins to look the record up. (e) cnt.add and evt join the
bale. (f) Elsewhere the slot meets a program cause, which the word's end takes: 6 for an edit that lies outside, overlaps an earlier one or
is the seventeenth, a field or an offset beyond the table's (log 179), a handle or a size that may not be written, and the lock of a handle
below 2; 5 for a write beyond the bale's room. (R178, R179, R183, R188, R189, R192, R194, R195, R196, Table 8-6) -/
def Obligations.MemoryStores : Prop :=
  (∀ (s : State) (x : MemSlot) (p : Packet) (c : Context), s.MemRuns 2 x p c → memAddr c x ≤ 255 → memAddr c x + memLen x ≤ p.len →
    c.edits.length < 16 → (∀ e ∈ c.edits, memAddr c x + memLen x ≤ e.off ∨ e.off + e.bytes.length ≤ memAddr c x) →
    exec (.hdrSt x) s = .next ((s.memBegun x p c).setCtx x.ctx { s.memCtx c with
      edits := c.edits ++ [{ off := memAddr c x, bytes := natBe (memLen x) ((memData c x).toNat % 2 ^ (8 * memLen x)) }]
      condsNext := some { c.condsNext.getD c.conds with editsFull := decide (c.edits.length = 15) } })) ∧
  (∀ (s : State) (x : MemSlot) (p : Packet) (c : Context), s.MemRuns 4 x p c → memField x ≤ 4 →
    exec (.descSt x) s = .next ((s.memBegun x p c).setCtx x.ctx { s.memCtx c with
      desc := Tab.insert c.desc (memField x) (memData c x).toNat })) ∧
  (∀ (s : State) (x : MemSlot) (p : Packet) (c : Context), s.MemRuns 5 x p c → memAddr c x ≤ 32 →
    exec (.keySt x) s = .next ((s.memBegun x p c).setCtx x.ctx { s.memCtx c with
      key := patch c.key (memAddr c x) (natLe 8 (memData c x).toNat) })) ∧
  (∀ (s : State) (x : MemSlot) (p : Packet) (c : Context), s.MemRuns 8 x p c →
    s.mayStage x p c (.store (recHandle x) (recOffset x) (natLe (memLen x) (memData c x).toNat)) → (recHandle x = 0 → c.hold = true) →
    exec (.recSt x) s = .next ((s.memBegun x p c).setCtx x.ctx { s.memCtx c with
      staged := c.staged ++ [.store (recHandle x) (recOffset x) (natLe (memLen x) (memData c x).toNat)] })) ∧
  (∀ op ∈ [(9, Instr.mrgAdd, Merge.add), (10, Instr.mrgOr, Merge.or), (11, Instr.mrgMax, Merge.max), (12, Instr.mrgMin, Merge.min),
      (13, Instr.mrgAvg, Merge.avg)],
    ∀ (s : State) (x : MemSlot) (p : Packet) (c : Context) (w : Staged), s.MemRuns op.1 x p c → memLen x = 4 ∨ memLen x = 8 →
      w = .merge (recHandle x) op.2.2 (recOffset x) (memLen x) ((memData c x).toNat % 2 ^ (8 * memLen x)) → s.mayStage x p c w →
      exec (op.2.1 x) s = .next ((s.memBegun x p c).setCtx x.ctx { s.memCtx c with staged := c.staged ++ [w] })) ∧
  (∀ (s t u : State) (x : MemSlot) (p q : Packet) (c e : Context), t = s.memBegun x p c → q = { p with ctx := some (s.memCtx c) } →
    e = { s.memCtx c with waiting := some (.lock (lockHandle x) (lockCreates x)), tried := [] } →
    u = (if t.flow.ops.any (fun o => o.pkt == x.ctx && o.key == c.key) then t else t.issueOp x.ctx q c.key).setPkt x.ctx
      { q with ctx := some e } →
    s.MemRuns 6 x p c → 2 ≤ lockHandle x →
    (u.seqBlocked x.ctx q c.key = true → exec (.recLock x) s = .next (u.pmuPkt x.ctx 6)) ∧
    (u.seqBlocked x.ctx q c.key = false →
      exec (.recLock x) s = .next (u.lockStart x.ctx { q with ctx := some e } e (lockHandle x) (lockCreates x)))) ∧
  (∀ (s : State) (x : MemSlot) (p : Packet) (c : Context), s.MemRuns 15 x p c →
    exec (.cntAdd x) s = .next ((s.memBegun x p c).setCtx x.ctx { s.memCtx c with
      staged := c.staged ++ [.count (bits x.moff.toNat 13 0) (memData c x).toNat] })) ∧
  (∀ (s : State) (x : MemSlot) (p : Packet) (c : Context), s.MemRuns 16 x p c →
    exec (.evt x) s = .next ((s.memBegun x p c).setCtx x.ctx { s.memCtx c with staged := c.staged ++ [.event (memData c x).toNat] })) ∧
  (∀ (s : State) (x : MemSlot) (p : Packet) (c : Context),
    (s.MemRuns 2 x p c → (255 < memAddr c x ∨ p.len < memAddr c x + memLen x ∨ 16 ≤ c.edits.length ∨
        (∃ e ∈ c.edits, memAddr c x < e.off + e.bytes.length ∧ e.off < memAddr c x + memLen x)) →
      exec (.hdrSt x) s = .next (s.memChecked x p c 6)) ∧
    (s.MemRuns 4 x p c → 4 < memField x → exec (.descSt x) s = .next (s.memChecked x p c 6)) ∧
    (s.MemRuns 5 x p c → 32 < memAddr c x → exec (.keySt x) s = .next (s.memChecked x p c 6)) ∧
    (s.MemRuns 6 x p c → lockHandle x < 2 → exec (.recLock x) s = .next (s.memChecked x p c 6)) ∧
    (s.MemRuns 8 x p c → (s.memWritable x p c = false ∨ recHandle x = 0 ∧ c.hold = false) →
      exec (.recSt x) s = .next (s.memChecked x p c 6)) ∧
    (s.MemRuns 8 x p c → s.memWritable x p c = true → (recHandle x = 0 → c.hold = true) →
      ¬ s.mayStage x p c (.store (recHandle x) (recOffset x) (natLe (memLen x) (memData c x).toNat)) →
      exec (.recSt x) s = .next (s.memChecked x p c 5)) ∧
    (∀ op ∈ [(9, Instr.mrgAdd, Merge.add), (10, Instr.mrgOr, Merge.or), (11, Instr.mrgMax, Merge.max), (12, Instr.mrgMin, Merge.min),
        (13, Instr.mrgAvg, Merge.avg)],
      (s.MemRuns op.1 x p c → (s.memWritable x p c = false ∨ (memLen x ≠ 4 ∧ memLen x ≠ 8)) →
        exec (op.2.1 x) s = .next (s.memChecked x p c 6)) ∧
      (s.MemRuns op.1 x p c → s.memWritable x p c = true → (memLen x = 4 ∨ memLen x = 8) →
        ¬ s.mayStage x p c (.merge (recHandle x) op.2.2 (recOffset x) (memLen x) ((memData c x).toNat % 2 ^ (8 * memLen x))) →
        exec (op.2.1 x) s = .next (s.memChecked x p c 5))))

/-- The branch slot, the dispatch of a routine, and the control store. (a) A branch slot that executes, after the word's other slots and
while its context waits for nothing, ends the word: br.next goes to the next word, br.jump to its target, br.call there too with the next
word on the call stack, at depth 4 taking cause 7, br.return to the address on top (with none, cause 6: log 33), br.end ends the routine;
one whose condition fails goes to the next word; a program cause that the memory slot met is taken instead. (b) A next word outside the
customer region takes cause 6, a 257th word cause 7; otherwise the word's writes become what the next one reads. (c) A packet that is ready,
with none before it that could be dispatched, takes a context on the engine with most room, and waits when there is none. (d) A bad
control-store word is counted and stalls fetches until it is rewritten from the master copy, which lets the engines that stopped at it go
on. (e) A service engine that is interrupted checkpoints and yields, its registers, call stack and next word free (log 34); its routine
resumes on its engine, or on the first of the slice in service, and a failure of the engine that runs it is a machine check first. (R183,
R184, R191, R192, R193, R195, R199, R202, Table 8-7) -/
def Obligations.BranchesAndDispatch : Prop :=
  (∀ (s t : State) (x : BrSlot) (p : Packet) (c d : Context), t = s.noteWord (sliceOf p.port) c → d = s.issued c → c.holds x.cond = true →
    (s.BrRuns 0 x p c → exec (.brNext x) s = .next (t.goTo x.ctx p d (c.pc + 1))) ∧
    (s.BrRuns 1 x p c → exec (.brJump x) s = .next (t.goTo x.ctx p d x.target)) ∧
    (s.BrRuns 2 x p c → exec (.brCall x) s = .next (if 4 ≤ c.stack.length then t.programCheck x.ctx p d 7
      else t.goTo x.ctx p { d with stack := (c.pc + 1) :: c.stack } x.target)) ∧
    (s.BrRuns 3 x p c → ∀ a rest, c.stack = a :: rest → exec (.brReturn x) s = .next (t.goTo x.ctx p { d with stack := rest } a)) ∧
    (s.BrRuns 3 x p c → c.stack = [] → exec (.brReturn x) s = .next (t.programCheck x.ctx p d 6)) ∧
    (s.BrRuns 4 x p c →
      exec (.brEnd x) s = .next (t.setPkt x.ctx { p with ctx := some { d.endWord c.pc with ended := true, hw := none }, stage := .ended }))) ∧
  (∀ (s : State) (x : BrSlot) (p : Packet) (c : Context), c.holds x.cond = false →
    ∀ op ∈ [(0, Instr.brNext), (1, Instr.brJump), (2, Instr.brCall), (3, Instr.brReturn), (4, Instr.brEnd)], s.BrRuns op.1 x p c →
      exec (op.2 x) s = .next ((s.noteWord (sliceOf p.port) c).goTo x.ctx p (s.issued c) (c.pc + 1))) ∧
  (∀ (s : State) (x : BrSlot) (p : Packet) (c : Context) (cause : Nat), s.runningCtx x.ctx = some (p, c) → x.fault = none →
    c.waiting = none → c.slotsDone (s.wordOf c) = true → c.check = some cause →
    ∀ op ∈ [(0, Instr.brNext), (1, Instr.brJump), (2, Instr.brCall), (3, Instr.brReturn), (4, Instr.brEnd)],
      wordBr (s.wordOf c) = brSpelling op.1 x →
      exec (op.2 x) s = .next ((s.noteWord (sliceOf p.port) c).programCheck x.ctx p (s.issued c) cause)) ∧
  (∀ (s : State) (n : Nat) (p : Packet) (c : Context) (w : Nat), s.goTo n p c w =
    if w < 0x3000 ∨ 0x4000 ≤ w then s.programCheck n p c 6 else if 256 ≤ c.words + 1 then s.programCheck n p c 7
    else s.setCtx n { c with start := c.regs, conds := c.condsNext.getD c.conds, condsNext := none, pc := w, words := c.words + 1
                             aluDone := false, memDone := false }) ∧
  (∀ (s : State) (n e : Nat) (p : Packet), s.pkt? n = some p → p.stage = .ready → s.contexts (sliceOf p.port) < 4096 →
    s.dispatchAhead (sliceOf p.port) n = false → s.pickEngine (sliceOf p.port) p.avoid = some e →
    ((s.plan p (s.recOf p)).hold = true → s.recOf p = none ∨ s.holdsLock n p.key = true) →
    exec (.routineDispatch n none) s = .next (
      let c := s.newContext n p e (s.plan p (s.recOf p))
      s.setPkt n { s.dispatched p (s.plan p (s.recOf p)) with ctx := some c, stage := if c.ended then .ended else .running })) ∧
  (∀ (s : State) (n : Nat) (p : Packet) (h : Option LarzenuFault), s.pkt? n = some p → p.stage = .ready →
    (s.pickEngine (sliceOf p.port) p.avoid = none ∨ s.dispatchAhead (sliceOf p.port) n = true ∨ 4096 ≤ s.contexts (sliceOf p.port)) →
    exec (.routineDispatch n h) s = .next s) ∧
  (∀ (s : State) (k : SliceId) (bank : Fin 2) (word : Nat), s.eng.badWords.contains (wordIndex k bank (word % 16384)) = false →
    exec (.controlStoreScrub k bank word true) s = .next { s.noteFault 2 with eng := { s.eng with
      badWords := s.eng.badWords ++ [wordIndex k bank (word % 16384)] } }) ∧
  (∀ (s : State) (k : SliceId) (bank : Fin 2) (word : Nat), exec (.controlStoreScrub k bank word false) s = .next s) ∧
  (∀ (s : State) (k : SliceId) (bank : Fin 2) (word : Nat), exec (.controlStoreRewriteDone k bank word) s = .next { s with eng := { s.eng with
      store := Tab.put 0 s.eng.store (16384 * bank.val + word % 16384) (Tab.get 0 s.eng.master (16384 * bank.val + word % 16384))
      badWords := s.eng.badWords.filter (· != wordIndex k bank (word % 16384))
      stopped := s.eng.stopped.filter (fun x => x.2 != wordIndex k bank (word % 16384)) } }) ∧
  (∀ (s : State) (k : SliceId) (v : SvId) (w : SvInterrupt), ∃ (regs : Tab W64) (next : Nat) (stack : List Nat),
    regs.map (·.1) = (List.range 31).map (· + 1) ∧ next < 12288 ∧ stack.length ≤ 4 ∧ exec (.serviceEngineInterrupt k v w) s = .next (
      let old := Tab.get ({ runsOn := v.val } : Service) s.eng.services (4 * k.val + v.val)
      let new := { old with regs := regs, stack := stack, next := next, pendingInt := false, yielded := true }
      { s with fresh := s.fresh + 37, eng := { s.eng with services := Tab.insert s.eng.services (4 * k.val + v.val) new } })) ∧
  (∀ (s : State) (k : SliceId) (v : SvId) (e : Nat), (if s.svOk k v then some v.val else (List.range 4).find? (s.svOk k)) = some e →
    s.resumeService k v = (
      let old := Tab.get ({ runsOn := v.val } : Service) s.eng.services (4 * k.val + v.val)
      { s with eng := { s.eng with
        services := Tab.insert s.eng.services (4 * k.val + v.val) { old with yielded := false, runsOn := e } } })) ∧
  (∀ (s : State) (k : SliceId) (v : SvId), exec (.serviceRoutineResume k ⟨v, none⟩) s = .next (s.resumeService k v)) ∧
  (∀ (s : State) (k : SliceId) (v : SvId) (f : LarzenuFault) (n : Nat),
    n = (Tab.get ({ runsOn := v.val } : Service) s.eng.services (4 * k.val + v.val)).runsOn → s.svOk k n = true →
    exec (.serviceRoutineResume k ⟨v, some f⟩) s = .next ((s.larzenuCheck k (.service (Fin.ofNat 4 n)) f).resumeService k v))

/-- Opening, committing, aborting and asking after a bale. For a request that passes every check, outside a bale: (a) BALE_OPEN with no
payload and room for one more opens a bale of the mailbox's master and answers its ID; with as many as its master may hold, or with
every ID of 32 bits issued (log 225), it is answered 0x0702. (b) BALE_COMMIT that states no time arms an open
bale of the master whose checks still hold, and waits for its tick; with a check that no longer holds the bale is refused with that status
and the action's index. (c) A commit that names no open bale of the master is answered 0x0701. (d) BALE_ABORT of an open bale frees its
room, ends it and is answered 0, as does one of a pending bale in the clock of its arming; of a pending one that states no time it is
answered 0x0709 later. (e) BALE_STATUS answers the bale's state,
actions, first refusal and status, and keeps an open bale from expiring. (R163, R164, R167, R168, R169, R173, R174, R370, Table 7-1, Table
7-4) -/
def Obligations.BaleCommands : Prop :=
  (∀ (s : State) (r : Request) (key : Option Nat), s.Admits 0x0701 1 false r key → r.bale = 0 → r.payload = [] →
      (s.sn 0x0701 ≤ s.balesHeld (masterOf r.mb) ∨ s.idsSpent = true → exec (.baleOpen r) s = .next (
        (s.admitted 0x0701 r key).answer r.mb r.seq 0x0702 0 [] 0))) ∧
  (∀ (s : State) (r : Request) (key : Option Nat), s.Admits 0x0701 1 false r key → r.bale = 0 → r.payload = [] →
      s.balesHeld (masterOf r.mb) < s.sn 0x0701 → s.idsSpent = false →
      exec (.baleOpen r) s = .next (((s.admitted 0x0701 r key).joinBale (s.freshBale r.mb false)).answer r.mb r.seq 0 0 (natLe 4 s.bales.next) 0)) ∧
  (∀ (s : State) (r : Request) (key : Option Nat) (b : Bale), s.namedBale (leAt r.payload 0 4) (masterOf r.mb) = some b → b.st = .opened →
      s.Admits 0x0702 b.cls false r key → r.bale = 0 → r.payload.length = 16 → leAt r.payload 4 1 = 0 → leAt r.payload 5 1 < 2 →
      ((s.admitted 0x0702 r key).recheck b = none → exec (.baleCommit r) s = .next (
        let t := (s.admitted 0x0702 r key).arm b none
        { t with host := { t.host with longs := t.host.longs ++ [{
          mb := r.mb.val, seq := r.seq, opcode := reqCode r 0x0702, kind := 0, idx := b.id, at_ := s.now }] } })) ∧
      (∀ st i, (s.admitted 0x0702 r key).recheck b = some (st, i) → exec (.baleCommit r) s = .next (
        ((s.admitted 0x0702 r key).endBale b .refused st i 0).answer r.mb r.seq st i [] 0))) ∧
  (∀ (s : State) (r : Request) (key : Option Nat), s.Admits 0x0702 1 false r key → r.bale = 0 → r.payload.length = 16 → leAt r.payload 4 1 < 2 →
      leAt r.payload 5 1 < 2 → s.namedBale (leAt r.payload 0 4) (masterOf r.mb) = none →
      exec (.baleCommit r) s = .next ((s.admitted 0x0702 r key).answer r.mb r.seq 0x0701 0 [] 0)) ∧
  (∀ (s : State) (r : Request) (key : Option Nat) (b : Bale), s.Admits 0x0703 1 false r key → r.bale = 0 → r.payload.length = 4 →
      s.namedBale (leAt r.payload 0 4) (masterOf r.mb) = some b →
      (b.st = .opened → exec (.baleAbort r) s = .next (
        ((((s.admitted 0x0703 r key).endBale b .aborted 0 0 0).endLong 0 b.id 0x0701 0 [] 0)).answer r.mb r.seq 0 0 [] 0)) ∧
      (b.st = .pending → b.armedAt = s.now → exec (.baleAbort r) s = .next (
        ((((s.admitted 0x0703 r key).endBale b .aborted 0 0 0).endLong 0 b.id 0x0701 0 [] 0)).answer r.mb r.seq 0 0 [] 0)) ∧
      (b.st = .pending → b.armedAt ≠ s.now → b.due = none → exec (.baleAbort r) s = .next (
        (s.admitted 0x0703 r key).answer r.mb r.seq 0x0709 0 [] 0))) ∧
  (∀ (s : State) (r : Request) (key : Option Nat) (b : Bale), s.Admits 0x0704 0 true r key → r.bale = 0 → r.payload.length = 4 →
      s.bales.list.find? (fun b => b.id == leAt r.payload 0 4 && !b.single) = some b →
      exec (.baleStatus r) s = .next (
        let t := s.admitted 0x0704 r key
        (if b.st = .opened then t.putBale { b with touched := s.now } else t).answer r.mb r.seq 0 0
          (natLe 1 b.st.code ++ [0] ++ natLe 2 b.actions.length ++ natLe 4 b.firstBad ++ natLe 2 b.status) s.bales.lastTick))

/-- Commit ticks, the order of a tick's bales, expiry and draining. (a) COMMIT_TICK off the 1 us grid does nothing unless an armed commit's
stated time has come; else what drained epochs leave is reclaimed, the tick is noted, and its bales are those that state no time or whose
time has come. (b) The bales whose shadow versions a retirement still rewrites may be deferred (which is free, log 226), the rest are run,
at most 16 of them, or none when one more epoch would be the 129th live one. (c) The bales come one after another in the order of R175.
One without a reopen is refused with 0x0707 by an earlier bale that shares an object, else by its own checks; else it waits for the next
tick when the tick has applied as many as it may, else it is applied at the new epoch, which stands if any was. A reopen is refused with
0x0602 while GATE_SHUT is low, and with 0x0707 by a shut that the tick applies. (d) A bale that waits is counted; an outcome ends its bale,
raises 0x0702 and completes its requests. (e) An open bale that nothing has touched for its time is aborted with event 0x0701, later than
that time only. (f) EPOCH_DRAINED notes the oldest epoch that a packet needs. (R163, R167, R169, R170, R175, R176, Table 7-3) -/
def Obligations.BaleTicks : Prop :=
  (∀ s : State, s.onGrid = false → s.insertedTick = false → exec .commitTick s = .next s) ∧
  (∀ s t : State, s.onGrid = true ∨ s.insertedTick = true →
      t = { s.reclaimDrained with bales := { s.reclaimDrained.bales with
        tickAt := if s.onGrid then s.now - (s.now - s.bales.tickAt) % us 1 else s.bales.tickAt, lastTick := s.angle } } →
      (t.tickBales = [] → exec .commitTick s = .next t) ∧
      (t.tickBales ≠ [] → (∀ b ∈ t.tickBales, b.rewriting = false) → exec .commitTick s = .next (t.runTick t.tickRoom t.tickBales)) ∧
      ∃ (late : List Bale) (n : Nat), late.Sublist (t.tickBales.filter (fun b => b.rewriting)) ∧ exec .commitTick s = .next (
        let u := State.deferBales { t with fresh := n } late
        let tick := t.tickBales.filter (fun b => !late.any (fun x => x.id == b.id))
        if tick = [] then u else u.runTick u.tickRoom tick)) ∧
  (∀ s : State, s.tickRoom = if 128 < s.bales.epoch + 2 - s.bales.drainedTo then 0 else 16) ∧
  (∀ (s : State) (room : Nat) (tick : List Bale), s.runTick room tick = (
      let t := Tick.run (s.bales.epoch + 1) room (s.tickOrder tick) { st := { s with bales := { s.bales with epoch := s.bales.epoch + 1 } } }
      t.outs.foldl (fun u o => u.closeBale s.angle o) ((if t.applied = [] then s else t.st).deferBales t.later))) ∧
  (∀ (e room : Nat) (b : Bale) (rest : List Bale) (t : Tick), b.reopens = false →
      Tick.run e room (b :: rest) t = Tick.run e room rest (
        match t.applied.find? (fun x => bothTouch x b), t.st.recheck b with
        | some w, _ => { t with outs := t.outs ++ [{ bale := b, status := 0x0707, winner := some w }] }
        | none, some (st, i) => if st = 0 then
            (if room ≤ t.applied.length then { t with later := t.later ++ [b] }
             else { t with st := t.st.applyBale e b, applied := t.applied ++ [b], outs := t.outs ++ [{ bale := b, first := i }] })
          else { t with outs := t.outs ++ [{ bale := b, status := st, first := i }] }
        | none, none => if room ≤ t.applied.length then { t with later := t.later ++ [b] }
          else { t with st := t.st.applyBale e b, applied := t.applied ++ [b], outs := t.outs ++ [{ bale := b }] })) ∧
  (∀ (e room : Nat) (b : Bale) (rest : List Bale) (t : Tick), b.reopens = true →
      (t.st.gate.pin = true → Tick.run e room (b :: rest) t = Tick.run e room rest { t with outs := t.outs ++ [{ bale := b, status := 0x0602 }] }) ∧
      (t.st.gate.pin = false → ∀ w, (Tick.run e room rest t).applied.find? (fun x => x.shuts) = some w →
        Tick.run e room (b :: rest) t =
          Tick.run e room rest { t with outs := t.outs ++ [{ bale := b, status := 0x0707, winner := some w }] })) ∧
  (∀ (s : State) (bs : List Bale), (s.deferBales bs).bales.deferrals = s.bales.deferrals + bs.length) ∧
  (∀ (s : State) (stamp : Nat) (o : Outcome), s.closeBale stamp o = (
      let tick := if o.status = 0 then stamp else 0
      ((s.endBale o.bale (if o.status = 0 then .committed else .refused) o.status o.first tick).raise 0x0702 srcDevice (o.body stamp)).endLong
        0 o.bale.id o.status o.first [] tick)) ∧
  (∀ (s : State) (bale : Nat) (b : Bale), s.bales.list.find? (fun b => b.id == bale && b.st == .opened) = some b →
      (b.touched + ns (s.sn 0x0702) < s.now →
        exec (.baleIdleTimeout bale) s = .next ((s.endBale b .aborted 0 0 0).raise 0x0701 srcDevice (natLe 4 b.id))) ∧
      (s.now ≤ b.touched + ns (s.sn 0x0702) → exec (.baleIdleTimeout bale) s = .next s)) ∧
  (∀ s : State, exec .epochDrained s = .next (if s.oldestEpoch ≤ s.bales.drainedTo then s
      else { s with bales := { s.bales with drainedTo := s.oldestEpoch } }))

/-- Every settings command, and GATE_SHUT and GATE_REOPEN, outside a bale: a bale of one action. For every command of the settings table
and the gate's shut and reopen, and every request of it that asks for a change, names no bale and passes every check: if its action is
refused, the request is answered with that status and detail and nothing else changes; if it is accepted, it becomes a bale of that action
alone, which is pending and states no time, its ID is used up, and the request waits for its tick; with every bale ID issued it is
answered 0x0702 (log 225). That a change outside a bale is carried
out so is the model's reading (log 87, DEDUCED from R381). (R164, R166, R370, R381, R383, R386, Table 16-6) -/
def Obligations.StateChangesOutsideABale : Prop :=
  ∀ (mk : Request → Instr) (op cls : Nat), (SettingRow mk op cls ∨
      (mk, op, cls) = (Instr.gateShut, 0x0607, 4) ∨ (mk, op, cls) = (Instr.gateReopen, 0x0608, 5)) →
    ∀ (s : State) (r : Request) (key : Option Nat), (isSettings op = true → asksChange op r = true) → r.bale = 0 → s.Admits op cls false r key →
      (s.idsSpent = true → exec (mk r) s = .next ((s.admitted op r key).answer r.mb r.seq 0x0702 0 [] 0)) ∧
      (s.idsSpent = false → ∀ e, (s.admitted op r key).checkAction (s.freshBale r.mb true) (actionOf r op key) = .error e →
        exec (mk r) s = .next ((s.admitted op r key).answer r.mb r.seq e.1 e.2 [] 0)) ∧
      (s.idsSpent = false → ∀ x, (s.admitted op r key).checkAction (s.freshBale r.mb true) (actionOf r op key) = .ok x →
        exec (mk r) s = .next (
          let t := (x.st.joinBale { (s.freshBale r.mb true) with actions := [(s.admitted op r key).recorded (actionOf r op key) x] }).arm
            { (s.freshBale r.mb true) with actions := [(s.admitted op r key).recorded (actionOf r op key) x] } none
          { t with host := { t.host with longs := t.host.longs ++
            [{ mb := r.mb.val, seq := r.seq, opcode := reqCode r op, kind := 0, idx := s.bales.next, at_ := s.now }] } }))

/-- Every bale action and every state change in an open bale of its master. (a) For every command of the bale table, of the settings table,
the gate's shut and reopen, and PERMIT_SUBMIT, and every request that asks for a change, names an open bale of its mailbox's master and
passes every check: an action of at most 1,016 bytes for which the bale has room and which its checks accept is added, the bale's class
rises to the request's, and the answer is the action's index. (b) An action over 1,016 bytes is answered 0x0104 and one for which the bale
has no room 0x0703; one whose checks refuse it is answered with that status and detail, and a refused permit body is recorded; in all
three the bale keeps its actions. (c) A request that names no open bale of its master is answered 0x0701. (d) A bale action outside a bale
is answered 0x0304. The bale actions are GATE_LIST_SET, WINDOW_SET, BRIDGE_ENTRY_SET, VLAN_SET, ROUTER_MAC_SET, PREFIX_SET, NEXT_HOP_SET,
MULTIPATH_SET, AGGREGATION_GROUP_SET, MATCH_ROW_SET, MATCH_BANK_SET, FLOW_PROFILE_SET, FLOW_RECORD_SET, OBJECT_WRITE, PATTERN_SWITCH,
LB_GROUP_SET, LB_MEMBER_SET, TRANSLATION_POOL_SET, GATE_PROFILE_SET, KEY_RING_SET, PERMIT_REVOKE and MICROCODE_SWITCH. (R164, R165, R166,
R267, R286, R370, R381, R386, Table 16-6) -/
def Obligations.ActionsInABale : Prop :=
  (∀ (mk : Request → Instr) (op cls : Nat), ActionRow mk op cls → ∀ (s : State) (r : Request) (key : Option Nat) (b : Bale),
      (isSettings op = true → asksChange op r = true) → s.Admits op cls false r key → r.bale ≠ 0 →
      s.namedBale r.bale (masterOf r.mb) = some b → b.st = .opened → r.payload.length ≤ 1016 → b.hasRoom (actionOf r op key) = true →
      ∀ x, ((s.admitted op r key).putBale { b with touched := s.now }).checkAction { b with touched := s.now } (actionOf r op key) = .ok x →
      exec (mk r) s = .next ((x.st.putBale { b with
        touched := s.now
        actions := b.actions ++ [(s.admitted op r key).recorded (actionOf r op key) x]
        cls := max b.cls (effClass op cls r.expert) }).answer r.mb r.seq 0 0 (natLe 4 b.actions.length) 0)) ∧
  (∀ (mk : Request → Instr) (op cls : Nat), ActionRow mk op cls → ∀ (s t : State) (r : Request) (key : Option Nat) (b : Bale),
      (isSettings op = true → asksChange op r = true) → s.Admits op cls false r key → r.bale ≠ 0 →
      s.namedBale r.bale (masterOf r.mb) = some b → b.st = .opened → t = (s.admitted op r key).putBale { b with touched := s.now } →
      (1016 < r.payload.length → exec (mk r) s = .next (t.answer r.mb r.seq 0x0104 0 [] 0)) ∧
      (r.payload.length ≤ 1016 → b.hasRoom (actionOf r op key) = false → exec (mk r) s = .next (t.answer r.mb r.seq 0x0703 0 [] 0)) ∧
      (r.payload.length ≤ 1016 → b.hasRoom (actionOf r op key) = true →
        ∀ e, t.checkAction { b with touched := s.now } (actionOf r op key) = .error e →
        exec (mk r) s = .next ((t.noteRefused { b with touched := s.now } (actionOf r op key) e).answer r.mb r.seq e.1 e.2 [] 0))) ∧
  (∀ (mk : Request → Instr) (op cls : Nat), ActionRow mk op cls → ∀ (s : State) (r : Request) (key : Option Nat),
      (isSettings op = true → asksChange op r = true) → s.Admits op cls false r key → r.bale ≠ 0 →
      (∀ b, s.namedBale r.bale (masterOf r.mb) = some b → b.st ≠ .opened) →
      exec (mk r) s = .next ((s.admitted op r key).answer r.mb r.seq 0x0701 0 [] 0)) ∧
  (∀ (mk : Request → Instr) (op cls : Nat), BaleRow mk op cls → ∀ (s : State) (r : Request) (key : Option Nat), s.Admits op cls false r key →
      r.bale = 0 → exec (mk r) s = .next ((s.admitted op r key).answer r.mb r.seq 0x0304 0 [] 0))

/-- Every read of settings answers the items of its targets as of the last tick, and changes nothing. (a) For each of the 48 reads of
settings commands (eventSubscribeRead, managementPortSetRead, engineSetRead, faultPolicySetRead, portModeSetRead, laneConfigSetRead,
portTrainingSetRead, portDampingSetRead, portPauseSetRead, portPolicerSetRead, laneTestSetRead, lanePowerSetRead, laneRecalibrateSetRead,
otnOverheadSetRead, otnMaintenanceSetRead, bufferPoolSetRead, portQueueSetRead, portSchedulerSetRead, tillerReferenceSetRead,
tillerHoldoverSetRead, tillerModeSetRead, tillerTimeSourceSetRead, tillerOutputSetRead, bridgeTableSetRead, bridgeLearnSetRead,
bridgeAgeingSetRead, routeOptionsSetRead, aggregationSetRead, matchArraySetRead, flowAgeingSetRead, flowTableSetRead, exportSetRead,
gateIntakeSetRead, gateOptionsSetRead, ledgerOptionsSetRead, baleOptionsSetRead, memorySchedulerSetRead, memoryRetrainSetRead,
memoryScrubSetRead, granaryRegionSetRead, sheafPairSetRead, sheafLaneSetRead, sheafPowerSetRead, chaffSetRead, strawSetRead,
counterSamplingSetRead, sagPortSetRead, sagOptionsSetRead), and every request of it that names no bale and passes the checks of a read, with
a payload of one target header or more, each of which names targets of the command: the request is answered with status 0, for each header
and each target it names the target's items in row order, and the last commit tick. (b) A payload with no header is answered 0x0301, and one
with a bad header that header's status and offset. (c) A settings command whose rows are all expert answers in its basic form as its read
does. (d) Nothing else of the device changes. (R370, R377, R381, R383, R384, Table 16-6) -/
def Obligations.SettingsReads : Prop :=
  (∀ (mk : Request → Instr) (op : Nat), SettingReadRow mk op → ∀ (s : State) (r : Request) (key : Option Nat) (heads : List (Nat × List Nat)),
      s.Admits (op + 0x80) 0 true r key → r.bale = 0 → heads ≠ [] → r.payload.length = 8 * heads.length →
      (∀ i, i < heads.length → headerTargets (kindsOf op) r.payload (8 * i) = .ok (heads.getD i (0, []))) →
      exec (mk r) s = .next ((s.admitted (op + 0x80) r key).answer r.mb r.seq 0 0 ((heads.map (fun (x : Nat × List Nat) =>
        (x.2.map (fun t => s.readTarget (readRows op r.expert) x.1 t (masterOf r.mb))).flatten)).flatten) s.bales.lastTick)) ∧
  (∀ (mk : Request → Instr) (op : Nat), SettingReadRow mk op → ∀ (s : State) (r : Request) (key : Option Nat),
      s.Admits (op + 0x80) 0 true r key → r.bale = 0 →
      (r.payload = [] → exec (mk r) s = .next ((s.admitted (op + 0x80) r key).answer r.mb r.seq 0x0301 0 [] s.bales.lastTick)) ∧
      (∀ i e, 8 * i < r.payload.length → headerTargets (kindsOf op) r.payload (8 * i) = .error e →
        (∀ j, j < i → (headerTargets (kindsOf op) r.payload (8 * j)).isOk = true) →
        exec (mk r) s = .next ((s.admitted (op + 0x80) r key).answer r.mb r.seq e (8 * i) [] s.bales.lastTick))) ∧
  (∀ (mk : Request → Instr) (op cls : Nat), SettingRow mk op cls → allExpert op = true → ∀ (s : State) (r : Request) (key : Option Nat),
      r.expert = false → s.Admits op 0 true r key → r.bale = 0 → exec (mk r) s = .next (
        let a := s.readItems op false (masterOf r.mb) r.payload
        (s.admitted op r key).answer r.mb r.seq a.status a.detail a.resp s.bales.lastTick)) ∧
  (∀ (s : State) (mb seq st d : Nat) (resp : Bytes) (tick : Nat),
      let t := s.answer mb seq st d resp tick
      { t with host := s.host, outbox := s.outbox, sheaf := s.sheaf } = s)

/-- A setting that a tick applies reads as written, and every other setting and everything else stays. For every state whose settings are
in order and every accepted item of one target, of a setting that orders nothing and does nothing besides standing (the list names those
that do): when a bale applies it, the setting reads the item's values for that target (for a policer item, the policers that it names
changed, the others as they were), every other setting reads as before, and nothing else of the device changes. (R16, R171, R383, R384,
R385, section 16) -/
def Obligations.SettingTakesEffect : Prop :=
  ∀ (s : State) (bale m t : Nat) (it : Item), Tab.risesFrom none s.settings = true → (Catalogue.row? it.id).isSome = true → it.targets = [t] →
    t < 65536 → m < 65536 → it.id ∉ [0x0210, 0x0211, 0x0212, 0x0215, 0x0216, 0x0301, 0x0302, 0x0305, 0x0306, 0x0307, 0x0308,
      0x0309, 0x030F, 0x0310, 0x0311, 0x0312, 0x0313, 0x0314, 0x0404, 0x0406, 0x050D, 0x0607, 0x0802, 0x0A04, 0x0C01, 0x0C02, 0x0C03, 0x0C0C, 0x0C0E, 0x0C0F, 0x0D04,
      0x0D0A, 0x0E01, 0x0E02, 0x0E07, 0x0E08, 0x1105, 0x1106, 0x1305, 0x1308, 0x1309, 0x130A, 0x130B, 0x1401, 0x1402] →
    (s.applyItems bale m [it]).settings.get it.id (if it.id = 0x0F05 then m else t) = it.vals ∧
    (∀ id i, i < 65536 → (id, i) ≠ (it.id, if it.id = 0x0F05 then m else t) →
      (s.applyItems bale m [it]).settings.get id i = s.settings.get id i) ∧
    { s.applyItems bale m [it] with settings := s.settings } = s

/-- The reads of the device, of its ports, memory units and slices, and of the gate and its power. For a read that passes the checks of an
unsigned or signed read, outside a bale: (a) a read of the whole device with no payload or one device header answers its record: fault
status, sag record, Tiller status, flow status, export status, Sheaf status (in the expert form with the lane checkers). (b) DEVICE_STATUS
with no payload answers the device registers. (c) A read of targets answers their records in the order named: ports, memory units, and the
routing tables once a slice. (d) POWER_STATUS and GATE_STATUS answer theirs; the power figure, and the last index before a first record, are
free (log 63). All name the last commit tick, and change nothing but their mailbox and the count of free values. The shape of a payload and
of a response is the model's (log 60). (R139, R231, R337, R353, R364, R370, R381, R388, R405, R439, R443, Table 16-6) -/
def Obligations.DeviceAndTargetReads : Prop :=
  (∀ e ∈ ([(Instr.faultStatus, 0x0105, fun r s => s.faultBytes r.expert), (Instr.sagRecordRead, 0x0C04, fun _ s => padTo 64 s.keeper.sag),
      (Instr.tillerStatus, 0x0308, fun r s => s.tillerBytes r.expert),
      (Instr.flowStatus, 0x050F, fun _ s => natLe 8 s.recordCount ++ natLe 4 s.overflowCount ++ natLe 4 s.mem.absent.length ++
        ((List.range 4).map (fun i => natLe 8 (s.flow.refused.getD i 0))).flatten),
      (Instr.exportStatus, 0x050D, fun _ s => natLe 4 Config.enterpriseNumber ++ natLe 8 s.svc.exportMsgs ++ natLe 8 s.svc.exportDropped ++
        natLe 8 s.svc.exportShed),
      (Instr.sheafStatus, 0x0904, fun r s => natLe 1 s.sheaf.twin ++ natLe 1 (b2n (s.link 0).up + b2n (s.link 1).up) ++ [0, 0] ++
        natLe 4 (unsigned 32 s.sheaf.angleOffset) ++ natLe 8 (unsigned 64 s.sheaf.cycleOffset) ++ natLe 4 s.sheaf.roundTrip ++
        natLe 8 s.sheaf.dropped ++ (if r.expert then s.sheafCheckers else []))] : List ((Request → Instr) × Nat × (Request → State → Bytes))),
    ∀ (s : State) (r : Request) (key : Option Nat), s.Admits e.2.1 0 true r key → r.bale = 0 → devicePayload r.payload = true →
      exec (e.1 r) s = .next ((s.admitted e.2.1 r key).answer r.mb r.seq 0 0 (e.2.2 r s) s.bales.lastTick)) ∧
  (∀ (s : State) (r : Request) (key : Option Nat), s.Admits 0x0101 0 true r key → r.bale = 0 → r.payload = [] →
      exec (.deviceStatus r) s = .next ((s.admitted 0x0101 r key).answer r.mb r.seq 0 0 (
        natLe 4 0x9600A200 ++ natLe 4 s.trust.firmware ++ natLe 8 Config.serial ++ natLe 4 s.status ++ natLe 4 s.keeper.boot ++
        natBe 6 Config.baseMac ++ [0, 0] ++ s.stamp.bytes) s.bales.lastTick)) ∧
  (∀ e ∈ ([(Instr.portStatus, 0x020F, 1, fun r s p => s.portBytes r.expert p), (Instr.memoryStatus, 0x0806, 12, fun _ s u => s.unitBytes u),
      (Instr.routeRead, 0x0413, 5, fun _ s _ => (s.recordsOf .route ++ s.recordsOf .nextHop ++ s.recordsOf .multipath).flatten)] :
        List ((Request → Instr) × Nat × Nat × (Request → State → Nat → Bytes))),
    ∀ (s : State) (r : Request) (key : Option Nat), s.Admits e.2.1 0 true r key → r.bale = 0 →
      (∀ ts, readTargets e.2.2.1 r.payload = .ok ts →
        exec (e.1 r) s = .next ((s.admitted e.2.1 r key).answer r.mb r.seq 0 0 ((ts.map (e.2.2.2 r s)).flatten) s.bales.lastTick)) ∧
      (∀ st off, readTargets e.2.2.1 r.payload = .error (st, off) →
        exec (e.1 r) s = .next ((s.admitted e.2.1 r key).answer r.mb r.seq st off [] s.bales.lastTick))) ∧
  (∀ (s : State) (r : Request) (key : Option Nat), s.Admits 0x0C01 0 true r key → r.bale = 0 → devicePayload r.payload = true →
      ∃ p : Nat, exec (.powerStatus r) s = .next (State.answer { (s.admitted 0x0C01 r key) with fresh := s.fresh + 1 } r.mb r.seq 0 0 (
        natLe 1 s.power.level ++ natLe 1 s.power.trigger ++ natLe 2 s.railFlags ++ natLe 4 p ++ s.stamp.bytes) s.bales.lastTick)) ∧
  (∀ (s : State) (r : Request) (key : Option Nat), s.Admits 0x060D 0 true r key → r.bale = 0 → devicePayload r.payload = true →
      ∃ last : Nat, (s.ledger.next ≠ 0 → last + 1 = s.ledger.next) ∧
        exec (.gateStatus r) s = .next (State.answer { (s.admitted 0x060D r key) with fresh := s.fresh + 1 } r.mb r.seq 0 0 (
          natLe 1 (b2n s.gate.isShut) ++ natLe 1 s.gate.cause ++ natLe 2 s.heldFlows ++ natLe 4 s.permitCount ++ natLe 8 last) s.bales.lastTick))

/-- Reads of rings, tables, counters, permits, microcode and the attestation log, and the quote. For a read that passes its checks, outside
a bale, with a payload of its form: (a) archive and Straw reads answer the entries of their rings from the index asked for, and the gap; a
ledger read the records in its range, queued ones among them. (b) The attestation log is read whole. (c) A bridge read answers the entries
of the slice that match under the masks. (d) A match read by ID answers the row that the present epoch sees, a flow read by key the record's
version of that epoch, with nothing where there is none. (e) A permit read answers the entries in force of a selector. (f) A counter read of
live counters that exist answers a stamp and their values. (g) A microcode read answers the words of each slice named, 0 in the Larzenu
region. (h) The quote covers the nonce and is signed with the identity key. (R112, R125, R154, R192, R234, R241, R274, R319, R388, R421,
R422, Table 16-6) -/
def Obligations.TableReads : Prop :=
  (∀ e ∈ ([(Instr.archiveRead, 0x050E, fun s => ringRead s.svc.archive s.svc.archiveBase s.svc.archiveSeq s.archiveSize),
      (Instr.strawRead, 0x0A03, fun s => ringRead s.core.straw s.core.strawBase s.core.strawNext s.strawSize),
      (Instr.ledgerRead, 0x060C, fun s first count =>
        ((s.ledgerRecords.filter (fun (x : Nat × Bytes) => decide (first ≤ x.1 ∧ x.1 < first + count))).map (·.2)).flatten)] :
        List ((Request → Instr) × Nat × (State → Nat → Nat → Bytes))),
    ∀ (s : State) (r : Request) (key : Option Nat), s.Admits e.2.1 0 true r key → r.bale = 0 → r.payload.length = 12 →
      exec (e.1 r) s = .next ((s.admitted e.2.1 r key).answer r.mb r.seq 0 0 (e.2.2 s (leAt r.payload 0 8) (leAt r.payload 8 4)) s.bales.lastTick)) ∧
  (∀ (s : State) (r : Request) (key : Option Nat), s.Admits 0x0B08 0 true r key → r.bale = 0 → r.payload = [] →
      exec (.attestationLogRead r) s = .next ((s.admitted 0x0B08 r key).answer r.mb r.seq 0 0 s.trust.log.flatten s.bales.lastTick)) ∧
  (∀ (s : State) (r : Request) (key : Option Nat), s.Admits 0x0412 0 true r key → r.bale = 0 → r.payload.length = 20 → leAt r.payload 1 1 = 0 →
      leAt r.payload 6 2 = 0 → leAt r.payload 0 1 < 8 →
      exec (.bridgeRead r) s = .next ((s.admitted 0x0412 r key).answer r.mb r.seq 0 0
        (((s.macsUnder (leAt r.payload 0 1) r.payload).map (fun (x : Nat × MacEntry) => x.2.bytes (leAt r.payload 0 1) x.1)).flatten) s.bales.lastTick)) ∧
  (∀ (s : State) (r : Request) (key : Option Nat), s.Admits 0x0411 0 true r key → r.bale = 0 → r.payload.length = 4 → leAt r.payload 0 1 < 8 →
      leAt r.payload 1 1 = 0 →
      exec (.matchRead r) s = .next ((s.admitted 0x0411 r key).answer r.mb r.seq 0 0
        (match List.find? (fun (x : Nat × MatchRow) => rowId x.2.rec_ == leAt r.payload 2 2 && x.2.visible s.bales.epoch) s.matcher.rows with
         | some x => s.rowAnswer (leAt r.payload 0 1) x.1 x.2
         | none => []) s.bales.lastTick)) ∧
  (∀ (s : State) (r : Request) (key : Option Nat), s.Admits 0x0505 0 true r key → r.bale = 0 → r.payload.length = 40 →
      exec (.flowRead r) s = .next ((s.admitted 0x0505 r key).answer r.mb r.seq 0 0
        (match (s.findRec r.payload s.bales.epoch).bind s.recAt with | some x => x.at s.bales.epoch | none => []) s.bales.lastTick)) ∧
  (∀ (s : State) (r : Request) (key : Option Nat), s.Admits 0x060B 0 true r key → r.bale = 0 → r.payload.length = 40 →
      exec (.permitRead r) s = .next ((s.admitted 0x060B r key).answer r.mb r.seq 0 0
        ((((s.permitsOf r.payload).filter (fun (x : Nat × PermitEntry) => x.2.inForce)).map (fun (x : Nat × PermitEntry) => x.2.bytes)).flatten)
        s.bales.lastTick)) ∧
  (∀ (s : State) (r : Request) (key : Option Nat) (n : Nat), s.Admits 0x0A04 0 true r key → r.bale = 0 → r.payload.length = 4 * n → 0 < n → n ≤ 4096 →
      (∀ i, i < n → counterKnown (leAt r.payload (4 * i) 4) = true ∧ leAt r.payload (4 * i) 4 < 2 ^ 31) →
      exec (.counterRead r) s = .next ((s.admitted 0x0A04 r key).answer r.mb r.seq 0 0
        (s.stamp.bytes ++ ((List.range n).map (fun i => natLe 8 (Tab.get 0 s.cnt.live (leAt r.payload (4 * i) 4)))).flatten) s.bales.lastTick)) ∧
  (∀ (s : State) (r : Request) (key : Option Nat) (kind : Nat) (ts : List Nat), s.Admits 0x0B04 2 true r key → r.bale = 0 → r.payload.length = 13 →
      headerTargets [5] r.payload 0 = .ok (kind, ts) → leAt r.payload 8 1 < 2 → leAt r.payload 9 2 + leAt r.payload 11 2 ≤ 16384 →
      exec (.microcodeRead r) s = .next ((s.admitted 0x0B04 r key).answer r.mb r.seq 0 0
        ((ts.map (fun _ => ((List.range (leAt r.payload 11 2)).map (fun i => natLe 24 (if leAt r.payload 9 2 + i < 0x3000 then 0
          else Tab.get 0 s.eng.store (16384 * leAt r.payload 8 1 + (leAt r.payload 9 2 + i))))).flatten)).flatten) s.bales.lastTick)) ∧
  (∀ (s : State) (r : Request) (key : Option Nat), s.Admits 0x0B07 0 true r key → r.bale = 0 → r.payload.length = 32 →
      exec (.attestationQuote r) s = .next ((s.admitted 0x0B07 r key).answer r.mb r.seq 0 0
        (s.quoteBytes r.payload ++ edSign Config.identitySeed (s.quoteBytes r.payload)) s.bales.lastTick))

/-- Bridge copy, ledger acknowledge, counter snapshot and freeze, and permit submit. For a request that passes its checks, outside a bale:
(a) COUNTER_SNAPSHOT that states no time, with none armed, arms one for the next clock, and one that states a time not more than 2^24
cycles ahead one for that time, or for the next clock where the time has passed. (b) With one armed it is answered 0x0303. (c)
COUNTER_FREEZE freezes or frees the counters by its byte. (d) LEDGER_ACKNOWLEDGE of an index written sets the retention mark and the level
that follows. (e) Of one not yet written it is answered 0x0604. (f) BRIDGE_COPY copies the learned entries that match into the other
slices of its mask and answers how many were copied and how many not. (g) PERMIT_SUBMIT of a body that passes the first checks, with room
in the intake queue and a seal pair, joins the queue, and the request waits for its decision. (h) A body that is not taken is answered
0x0603 with the cause. That the index acknowledged is compared with the last record written, and that a copy
leaves out its own slice, is the model's reading (logs 98 and 99). (R125, R263, R289, R370, R386, R456, R457, Table 16-6, Table 16-8) -/
def Obligations.DirectCommands : Prop :=
  (∀ (s : State) (r : Request) (key : Option Nat) (due : Option Nat), s.Admits 0x0A05 1 false r key → r.bale = 0 → r.payload.length = 16 →
      leAt r.payload 1 1 = 0 → leAt r.payload 4 4 = 0 → s.cnt.armed = none →
      (leAt r.payload 0 1 = 0 ∧ due = none) ∨ (leAt r.payload 0 1 = 1 ∧ leAt r.payload 8 8 ≤ s.angle / 65536 + 2 ^ 24 ∧
        due = if s.angle < leAt r.payload 8 8 * 65536 + leAt r.payload 2 2 then some (leAt r.payload 8 8 * 65536 + leAt r.payload 2 2) else none) →
      exec (.counterSnapshot r) s = .next (State.answer { (s.admitted 0x0A05 r key) with
        cnt := { s.cnt with armed := some due, armedAt := s.now } } r.mb r.seq 0 0 [] 0)) ∧
  (∀ (s : State) (r : Request) (key : Option Nat), s.Admits 0x0A05 1 false r key → r.bale = 0 → r.payload.length = 16 → leAt r.payload 0 1 = 0 →
      leAt r.payload 1 1 = 0 → leAt r.payload 4 4 = 0 → s.cnt.armed.isSome = true →
      exec (.counterSnapshot r) s = .next ((s.admitted 0x0A05 r key).answer r.mb r.seq 0x0303 0 [] 0)) ∧
  (∀ (s : State) (r : Request) (key : Option Nat), s.Admits 0x0A06 1 false r key → r.bale = 0 → r.payload.length = 1 → leAt r.payload 0 1 < 2 →
      exec (.counterFreeze r) s = .next (State.answer { (s.admitted 0x0A06 r key) with cnt := { s.cnt with
        frozen := leAt r.payload 0 1 == 1 } } r.mb r.seq 0 0 [] 0)) ∧
  (∀ (s : State) (r : Request) (key : Option Nat), s.Admits 0x0606 6 false r key → r.bale = 0 → r.payload.length = 8 →
      leAt r.payload 0 8 < s.ledger.next - s.ledger.queue.length → exec (.ledgerAcknowledge r) s = .next (
        (State.ledgerLevel { (s.admitted 0x0606 r key) with ledger := { s.ledger with mark := leAt r.payload 0 8 } }).answer r.mb r.seq 0 0 [] 0)) ∧
  (∀ (s : State) (r : Request) (key : Option Nat), s.Admits 0x0606 6 false r key → r.bale = 0 → r.payload.length = 8 →
      s.ledger.next - s.ledger.queue.length ≤ leAt r.payload 0 8 →
      exec (.ledgerAcknowledge r) s = .next ((s.admitted 0x0606 r key).answer r.mb r.seq 0x0604 0 [] 0)) ∧
  (∀ (s : State) (r : Request) (key : Option Nat), s.Admits 0x0404 1 false r key → r.bale = 0 → r.payload.length = 20 → leAt r.payload 6 2 = 0 →
      leAt r.payload 0 1 < 8 →
      exec (.bridgeCopy r) s = .next (
        let k := leAt r.payload 0 1
        let ts := (List.range 8).filter (fun t => t != k && (leAt r.payload 1 1).testBit t)
        let jobs := ((s.macsUnder k r.payload).filter (fun (x : Nat × MacEntry) => !x.2.static)).flatMap (fun (x : Nat × MacEntry) => ts.map (fun t => (x.2, t)))
        let a := jobs.foldl (fun (a : State × Nat) (j : MacEntry × Nat) => ((a.1.copyMac j.2 j.1).1, a.2 + b2n (a.1.copyMac j.2 j.1).2))
          (s.admitted 0x0404 r key, 0)
        a.1.answer r.mb r.seq 0 0 (natLe 4 a.2 ++ natLe 4 (jobs.length - a.2)) 0)) ∧
  (∀ (s : State) (r : Request) (key : Option Nat), s.Admits 0x0609 0 false r key → r.bale = 0 → r.payload.length = 192 →
      s.sameClock r.payload (0x0100 + r.mb.val) = none → s.bodyCause r.payload = none → s.gate.queue.length < 16384 → s.sealAny = true →
      exec (.permitSubmit r) s = .next (
        let x := State.feedSeals 32 { (s.admitted 0x0609 r key) with gate := { s.gate with
          queue := s.gate.queue ++ [{ body := r.payload, source := 0x0100 + r.mb.val, at_ := s.now }] } }
        { x with host := { x.host with longs := x.host.longs ++ [{
          mb := r.mb.val, seq := r.seq, opcode := reqCode r 0x0609, kind := 4, idx := bodyWait r.payload, at_ := s.now }] } })) ∧
  (∀ (s : State) (r : Request) (key : Option Nat) (c : Nat), s.Admits 0x0609 0 false r key → r.bale = 0 → r.payload.length = 192 →
      ((s.admitted 0x0609 r key).takeBody r.payload (0x0100 + r.mb.val)).1 = some c →
      exec (.permitSubmit r) s = .next (((s.admitted 0x0609 r key).takeBody r.payload (0x0100 + r.mb.val)).2.answer r.mb r.seq 0x0603 c [] 0))

/-- Loads of microcode, pattern sets and firmware, and the switchover's first step. For a request that passes its checks, outside a bale:
(a) a pattern image that passes its checks, is a legal automaton and finds room takes its range and is measured, and the handle is answered;
a set that is no legal automaton is answered 0x0B04 and the place, one without room 0x0705 where only sets that are leaving take the room,
0x0503 otherwise. (b) One that fails a check is refused with the check's status and detail; nothing is loaded. (c) A customer image whose
words all pass goes into the shadow bank, and a patch set too, with the handle answered; a busy shadow bank is answered 0x0B01, a failed
check its status, an offending word 0x0B04 with its index. (d) A firmware image and its patch set that pass are written into the slot that
does not run; where one fails, the first failure is answered. (e) FIRMWARE_SWITCH to a slot, with no long request or slice drain going on,
stages the switchover with event 0x0B01 and waits for its end. (f) Otherwise it is answered 0x0304. (R203, R250, R254, R410, R411, R418,
R419, Table 18-4, Table 18-5) -/
def Obligations.ImageLoads : Prop :=
  (∀ (s t : State) (r : Request) (key : Option Nat), s.Admits 0x0507 1 false r key → r.bale = 0 → t = s.admitted 0x0507 r key →
      s.imgFault 4 r.payload = none → exec (.patternLoad r) s = .next (
        match Config.dfaBad (imgPayload r.payload), patternBase s.awn.sets (imgPayload r.payload) with
        | none, some base => (State.measure { t with
            eng := { s.eng with nextLoad := s.eng.nextLoad + 1 }
            awn := { s.awn with sets := s.awn.sets ++ [{
              handle := s.eng.nextLoad, image := imgPayload r.payload, base := base, size := Config.dfaStates (imgPayload r.payload) }] } }
            5 (imgDigest r.payload) 0xFF (imgSv r.payload) 0 (imgBuild r.payload)).answer r.mb r.seq 0 0 (natLe 4 s.eng.nextLoad) 0
        | some i, _ => t.answer r.mb r.seq 0x0B04 i [] 0
        | none, none => t.answer r.mb r.seq
            (if (patternBase (s.awn.sets.filter (fun x => x.till.isNone)) (imgPayload r.payload)).isSome = true then 0x0705 else 0x0503) 0 [] 0)) ∧
  (∀ (s : State) (r : Request) (key : Option Nat) (e : Nat × Nat), s.Admits 0x0507 1 false r key → r.bale = 0 → s.imgFault 4 r.payload = some e →
      exec (.patternLoad r) s = .next ((s.admitted 0x0507 r key).answer r.mb r.seq e.1 e.2 [] 0)) ∧
  (∀ (s t : State) (r : Request) (key : Option Nat) (kind : Nat), s.Admits 0x0B02 1 false r key → r.bale = 0 →
      kind = (if leAt r.payload 4 1 = 2 then 2 else 3) → t = s.admitted 0x0B02 r key →
      (s.shadowBusy = true → exec (.microcodeLoad r) s = .next (t.answer r.mb r.seq 0x0B01 0 [] 0)) ∧
      (∀ e, s.shadowBusy = false → s.imgFault kind r.payload = some e → exec (.microcodeLoad r) s = .next (t.answer r.mb r.seq e.1 e.2 [] 0)) ∧
      (∀ i, s.shadowBusy = false → s.imgFault kind r.payload = none → kind = 3 →
        (microWords (imgPayload r.payload)).findIdx? (fun w => !microWordOk w) = some i →
        exec (.microcodeLoad r) s = .next (t.answer r.mb r.seq 0x0B04 i [] 0)) ∧
      (s.shadowBusy = false → s.imgFault kind r.payload = none →
        (kind = 3 → (microWords (imgPayload r.payload)).findIdx? (fun w => !microWordOk w) = none) →
        exec (.microcodeLoad r) s = .next ((t.microLoaded kind r.payload).2.answer r.mb r.seq 0 0 (natLe 4 t.eng.nextLoad) 0))) ∧
  (∀ (s t : State) (r : Request) (key : Option Nat) (image patch : Bytes), s.Admits 0x0B05 1 false r key → r.bale = 0 → s.trust.switchover = none →
      image = r.payload.take (192 + imgLength r.payload) → patch = r.payload.drop (192 + imgLength r.payload) → t = s.admitted 0x0B05 r key →
      exec (.firmwareLoad r) s = .next (match s.imgFault 1 image, s.imgFault 2 patch with
        | none, none => (t.writeSlot (1 - s.trust.running) image patch).answer r.mb r.seq 0 0 [] 0
        | some e, _ => t.answer r.mb r.seq e.1 e.2 [] 0
        | none, some e => t.answer r.mb r.seq e.1 e.2 [] 0)) ∧
  (∀ (s : State) (r : Request) (key : Option Nat), s.Admits 0x0B06 3 false r key → r.bale = 0 → r.payload.length = 1 → leAt r.payload 0 1 < 2 →
      s.host.longs.all (fun x => x.kind == 0 || x.kind == 4) = true → s.fault.drain = none →
      exec (.firmwareSwitch r) s = .next (
        let x := (s.admitted 0x0B06 r key).slotHeader (leAt r.payload 0 1)
        let u := State.raise { x.2 with trust := { x.2.trust with switchover := some { slot := leAt r.payload 0 1, header := x.1 } } }
          0x0B01 srcDevice (switchBody (leAt r.payload 0 1) x.1)
        { u with host := { u.host with longs := u.host.longs ++ [{
          mb := r.mb.val, seq := r.seq, opcode := reqCode r 0x0B06, kind := 3, idx := 0, at_ := s.now }] } })) ∧
  (∀ (s : State) (r : Request) (key : Option Nat), s.Admits 0x0B06 3 false r key → r.bale = 0 → r.payload.length = 1 → leAt r.payload 0 1 < 2 →
      s.host.longs.any (fun x => x.kind == 1 || x.kind == 2 || x.kind == 3) = true ∨ s.fault.drain.isSome = true →
      exec (.firmwareSwitch r) s = .next ((s.admitted 0x0B06 r key).answer r.mb r.seq 0x0304 0 [] 0))

/-- Owner keys and rollback counters. For an owner-signed request that passes its checks, outside a bale: (a) OWNER_KEY_SET of a key into
a slot 0 to 3, or its removal from a slot that is set beside another, signed by the key of another slot or by a lone key, with room in OTP
and the key epoch below 255, writes a row, raises the key epoch by one, kills the permits of a key that changed, makes a ledger record of
the new digest, and is measured. (b) Where two keys or more stand, a key may not set its own slot (0x0204). Removing the last key is
answered 0x0304, one that is absent 0x0301; with no room 0x0B03. (c) ROLLBACK_ADVANCE of a counter 0 to 3 to a value above its own and
within its limit sets it and is measured. (d) A value not above it, or beyond its limit, is answered 0x0B03. That a lone key may set its own
slot is the model's choice (log 69). (R266, R286, R408, R415, R417, R421, Table 18-1, Table 18-7) -/
def Obligations.OwnerKeysAndCounters : Prop :=
  (∀ (s : State) (r : Request) (key : Option Nat) (slot : Nat) (present : List Nat), s.Admits 0x0B0A 3 false r key → r.bale = 0 →
      r.payload.length = 40 →
      leNat (slice r.payload 1 7) = 0 → slot = leAt r.payload 0 1 → slot < 4 → present = (List.range 4).filter (fun i => (s.ownerKey i).isSome) →
      (leNat (slice r.payload 8 32) = 0 → slot ∈ present ∧ present ≠ [slot]) → (2 ≤ present.length → key.getD 0xFFFF - 0xFF00 ≠ slot) →
      s.rollback 2 < 255 → s.trust.otp.rows.length < 260 → exec (.ownerKeySet r) s = .next (
        let t := s.admitted 0x0B0A r key
        let k := if leNat (slice r.payload 8 32) = 0 then none else some (slice r.payload 8 32)
        let w := (t.writeRows [(slot, k)]).setRollback 2 (s.rollback 2 + 1)
        let u := w.rekeyPermits (0xFF00 + slot) (s.keyOf (0xFF00 + slot)) (w.keyOf (0xFF00 + slot))
        ((u.record { type := 7, source := 0x0100 + r.mb.val, key := key.getD 0xFFFF, digest := u.ownerDigest.take 32 }).measure 7 u.ownerDigest).answer
          r.mb r.seq 0 0 [] 0)) ∧
  (∀ (s : State) (r : Request) (key : Option Nat) (slot : Nat) (present : List Nat), s.Admits 0x0B0A 3 false r key → r.bale = 0 →
      r.payload.length = 40 →
      leNat (slice r.payload 1 7) = 0 → slot = leAt r.payload 0 1 → slot < 4 → present = (List.range 4).filter (fun i => (s.ownerKey i).isSome) →
      ∀ t, t = s.admitted 0x0B0A r key →
      (leNat (slice r.payload 8 32) = 0 → slot ∉ present → exec (.ownerKeySet r) s = .next (t.answer r.mb r.seq 0x0301 0 [] 0)) ∧
      (leNat (slice r.payload 8 32) = 0 → present = [slot] → exec (.ownerKeySet r) s = .next (t.answer r.mb r.seq 0x0304 0 [] 0)) ∧
      ((leNat (slice r.payload 8 32) = 0 → slot ∈ present) → 2 ≤ present.length → key.getD 0xFFFF - 0xFF00 = slot →
        exec (.ownerKeySet r) s = .next (t.answer r.mb r.seq 0x0204 0 [] 0)) ∧
      (leNat (slice r.payload 8 32) ≠ 0 → (2 ≤ present.length → key.getD 0xFFFF - 0xFF00 ≠ slot) →
        s.rollback 2 = 255 ∨ 260 ≤ s.trust.otp.rows.length → exec (.ownerKeySet r) s = .next (t.answer r.mb r.seq 0x0B03 0 [] 0))) ∧
  (∀ (s : State) (r : Request) (key : Option Nat) (k limit : Nat), s.Admits 0x0B09 3 false r key → r.bale = 0 → r.payload.length = 2 →
      k = leAt r.payload 0 1 → k < 4 → limit = (if k = 0 then s.trust.imageSv else if k = 1 then s.eng.patchSv else 255) →
      s.rollback k < leAt r.payload 1 1 → leAt r.payload 1 1 ≤ limit → exec (.rollbackAdvance r) s = .next (
        let t := s.admitted 0x0B09 r key
        ((t.setRollback k (leAt r.payload 1 1)).measure 6 (sha512 (t.setRollback k (leAt r.payload 1 1)).rollbackBytes)).answer r.mb r.seq 0 0 [] 0)) ∧
  (∀ (s : State) (r : Request) (key : Option Nat) (k limit : Nat), s.Admits 0x0B09 3 false r key → r.bale = 0 → r.payload.length = 2 →
      k = leAt r.payload 0 1 → k < 4 → limit = (if k = 0 then s.trust.imageSv else if k = 1 then s.eng.patchSv else 255) →
      leAt r.payload 1 1 ≤ s.rollback k ∨ limit < leAt r.payload 1 1 →
      exec (.rollbackAdvance r) s = .next ((s.admitted 0x0B09 r key).answer r.mb r.seq 0x0B03 0 [] 0))

/-- The claim, and succession's export and import. (a) A claim of one to four keys that the unowned device takes, from a mailbox that may
claim, signed by its first key, stores the keys, sets the owned bit, starts the ledger and is answered 0. (b) On an owned device it is
answered 0x0207. (c) An export outside a bale with no payload, while the succession counter is below 255, raises that counter, marks the
device succeeded, shuts the gate with cause 11, makes its record, and answers the package. (d) A succeeded device takes over a package
whose image passes, that is laid out right, is for it, and whose rows OTP has room for, then its configuration, and answers how the
configuration ended. (e) So does an unowned device whose request one of the package's owner keys signed, and it spends that key's counter.
(f) An import on an owned device that has not been succeeded is answered 0x0207. (g) A package whose image fails is refused with its status,
one laid out wrongly with 0x0301, one not for the device with 0x0B05, and one whose rows OTP has no room for with 0x0B03, and changes
nothing. (R370, R377, R408, R424, R425, R426, R427, Table 18-12) -/
def Obligations.ClaimAndSuccession : Prop :=
  (∀ (s : State) (r : Request) (n : Nat), s.Serves r → headerStatus 0x0B01 3 r = 0 → r.bale = 0 → s.owned = false → r.mb.val ≠ 12 → r.mb.val ≠ 13 →
      leAt r.payload 0 1 = n → 1 ≤ n → n ≤ 4 → r.payload.length = 8 + 32 * n → leNat (slice r.payload 1 7) = 0 →
      s.newKeyStatus 0x0B01 3 r (fun id => if id = 0xFF00 then some (slice r.payload 8 32) else none) = 0 →
      exec (.claim r) s = .next (((s.openLine 0x0B01 r).applyClaim r).answer r.mb r.seq 0 0 [] 0)) ∧
  (∀ (s : State) (r : Request), s.Serves r → headerStatus 0x0B01 3 r = 0 → r.bale = 0 → s.owned = true →
      exec (.claim r) s = .next ((s.openLine 0x0B01 r).answer r.mb r.seq 0x0207 0 [] 0)) ∧
  (∀ (s : State) (r : Request) (key : Option Nat), s.Admits 0x0B0B 3 false r key → r.bale = 0 → r.payload = [] → s.rollback 3 ≠ 255 →
      exec (.successionExport r) s = .next (
        let t := s.admitted 0x0B0B r key
        let config := t.configBytes (masterOf r.mb)
        let u := t.setRollback 3 (s.rollback 3 + 1)
        let v := State.shutGate { u with trust := { u.trust with otp := { u.trust.otp with succeeded := true } } } 11 (0x0100 + r.mb.val) (key.getD 0xFFFF)
        let w := v.record { type := 10, code := 1, key := key.getD 0xFFFF, seq := v.rollback 3,
                            selector := successionSelector Config.serial 0, digest := v.ownerDigest.take 32, detailA := config.length,
                            detailB := edPublic Config.identitySeed ++ List.replicate 32 0 }
        w.answer r.mb r.seq 0 0 (w.packageBytes config) 0)) ∧
  (∀ (s : State) (r : Request) (key : Option Nat) (acts : List (Nat × Nat × Bytes)), s.Admits 0x0B0C 3 false r key → r.bale = 0 → s.owned = true →
      s.trust.otp.succeeded = true → s.Takes r acts → exec (.successionImport r) s = .next (
        let c := State.importConfig r.mb (imgKey r.payload) acts.length 0 acts ((s.admitted 0x0B0C r key).takeOver r.payload (imgPayload r.payload))
        c.2.answer r.mb r.seq c.1.1 c.1.2 [] 0)) ∧
  (∀ (s : State) (r : Request) (acts : List (Nat × Nat × Bytes)) (id : Nat) (sig : Bytes), s.Serves r → headerStatus 0x0B0C 3 r = 0 → r.bale = 0 →
      s.owned = false → r.mb.val ≠ 12 → r.mb.val ≠ 13 → r.trailer = some (id, sig) → s.newKeyStatus 0x0B0C 3 r (packageKey r) = 0 →
      s.Takes r acts → exec (.successionImport r) s = .next (
        let c := State.importConfig r.mb (imgKey r.payload) acts.length 0 acts ((s.openLine 0x0B0C r).takeOver r.payload (imgPayload r.payload))
        (c.2.spendCounter id r.counter).answer r.mb r.seq c.1.1 c.1.2 [] 0)) ∧
  (∀ (s : State) (r : Request) (key : Option Nat), s.Admits 0x0B0C 3 false r key → r.bale = 0 → s.owned = true → s.trust.otp.succeeded = false →
      exec (.successionImport r) s = .next ((s.admitted 0x0B0C r key).answer r.mb r.seq 0x0207 0 [] 0)) ∧
  (∀ (s : State) (r : Request) (key : Option Nat), s.Admits 0x0B0C 3 false r key → r.bale = 0 → s.owned = true →
      s.trust.otp.succeeded = true → ∀ t p, t = s.admitted 0x0B0C r key → p = imgPayload r.payload →
      (∀ e, s.imgFault 5 r.payload = some e → exec (.successionImport r) s = .next (t.answer r.mb r.seq e.1 e.2 [] 0)) ∧
      (s.imgFault 5 r.payload = none → configActions p.length (p.drop 304) = none ∨ packageMade p = false →
        exec (.successionImport r) s = .next (t.answer r.mb r.seq 0x0301 0 [] 0)) ∧
      (s.imgFault 5 r.payload = none → (configActions p.length (p.drop 304)).isSome = true → packageMade p = true → s.notForUs p = true →
        exec (.successionImport r) s = .next (t.answer r.mb r.seq 0x0B05 0 [] 0)) ∧
      (s.imgFault 5 r.payload = none → (configActions p.length (p.drop 304)).isSome = true → packageMade p = true → s.notForUs p = false →
        260 < s.trust.otp.rows.length + (s.importRows p).length →
        exec (.successionImport r) s = .next (t.answer r.mb r.seq 0x0B03 0 [] 0)))

/-- A packet bale is applied as one operation, and what a known-answer routine decides. (a) Applying a packet bale is for a packet whose
routine has ended and behind which no earlier routine of the same record waits; on any other nothing happens. What its record locks have
reserved comes to stand, and the PRP test comes first when the routine staged one. When the packet passes, every staged write is applied in
the order of the routine, and the descriptor fields and header edits are the packet's; when it does not, only its telemetry and its pair's
hit are kept and the packet is discarded. Then the packet's context and locks are freed and it goes on past its routine. (b) A retired
engine's known-answer routine, of an action or a service engine, changes nothing, and one that a machine check stops is that check, behind
which the engine is fenced. A fenced engine that passes returns to service with its report; an engine in service that passes is unchanged.
An engine that fails is retired with event 0x0103 after its packets have been run again: a fenced one with its report, one in service as a
fault that the rungs handle. (R178, R200, R202, R210, R225) -/
def Obligations.PacketBales : Prop :=
  (∀ (s : State) (n : Nat), exec (.packetBaleApply n) s = .next (
      match s.pkt? n with
      | none => s
      | some p => match p.ctx with
        | none => s
        | some c =>
          if p.stage ≠ .ended ∨ s.earlierRoutine n p ∨ s.baleFenced c then s
          else
            let prp := c.staged.findSome? (fun w => match w with | .prp q => some q | _ => none)
            let opened := s.openReserved n
            let tested : Bool × State := match prp, opened.handleLoc p c 0 with
              | some q, some l => opened.applyPrp p l q
              | _, _ => (true, opened)
            let kept := if tested.1 then c.staged else c.staged.filterMap Staged.ofDuplicate
            let applied := kept.foldl (fun s w => s.applyStaged n p c w) tested.2
            let after : Packet := if tested.1 then applied.applyDesc p c else { p with discard := true }
            ((applied.setPkt n { after with edits := if tested.1 then c.edits else [], ctx := none }).releaseLocks n).afterRoutine n)) ∧
  (∀ (w : Staged), w.ofDuplicate = match w with
    | .telemetry => some .telemetry
    | .pair _ _ => some (.pair 0 none)
    | _ => none) ∧
  (∀ (s : State) (k : SliceId) (e : SliceEngine) (res : KnownAnswer), s.engineState (engineIndex k e) = 2 →
    exec (.knownAnswerRoutine k e res) s = .next s) ∧
  (∀ (s : State) (k : SliceId) (e : SliceEngine) (f : LarzenuFault), s.engineState (engineIndex k e) ≠ 2 →
    exec (.knownAnswerRoutine k e (.checked f)) s = .next (
      let t := s.larzenuCheck k e f
      if t.engineState (engineIndex k e) = 0 then t.setEngine (engineIndex k e) 1 else t)) ∧
  (∀ (s : State) (k : SliceId) (e : SliceEngine), s.engineState (engineIndex k e) = 1 →
    exec (.knownAnswerRoutine k e .passed) s =
      .next (((s.setEngine (engineIndex k e) 0).settle (engineUnit k e)).faultReport (unitClass (engineUnit k e)) 3 1 0 (engineNumber e)
        (srcEngine (engineIndex k e)) 0)) ∧
  (∀ (s : State) (k : SliceId) (e : SliceEngine), s.engineState (engineIndex k e) ≠ 1 → exec (.knownAnswerRoutine k e .passed) s = .next s) ∧
  (∀ (s : State) (k : SliceId) (e : SliceEngine), s.engineState (engineIndex k e) ≠ 2 →
    exec (.knownAnswerRoutine k e .failed) s = .next (
      let i := engineIndex k e
      let out := ((((s.engineResidents k e).foldl (fun s m => s.rerun m) s).setEngine i 2).raise 0x0103 (srcEngine i) []).noteRetire
      if s.engineState i = 1 then (out.settle (engineUnit k e)).faultReport (unitClass (engineUnit k e)) 4 1 3 (engineNumber e) (srcEngine i) 0
      else
        let opened := out.openFault (engineUnit k e) 3 (engineNumber e) (srcEngine i) (fun r => if r = 2 then 7 else 4)
        if opened.1 = 2 then opened.2.orderDrain k (unitClass (engineUnit k e)) else opened.2.settle (engineUnit k e)))

/-- A step carries out the command at the front of the queue on the rest. For every state and command: a step of the state with the
command in front of its queue is that command's effect on the state itself, and whatever stands behind it waits. The order of the queue is
the model's own (log 3). (R369, R370, section 15) -/
def Obligations.StepRunsTheFront : Prop :=
  (∀ (s : State) (c : Instr), step { s with pending := c :: s.pending } = exec c s) ∧
  (∀ (s : State) (c : Instr) (rest : List Instr), s.pending = c :: rest → step s = exec c { s with pending := rest })

/-- With no command waiting, one core clock passes, and what it carries forward. The model's choice (log entry 3): with an empty queue a
step is one core clock of 1.8 GHz, 5 ninths of a nanosecond. Time moves by that. A loaded phase accumulator takes its increment modulo
2^104, and one not loaded stays. While VKEEP and the crystal are there the keeper's RTC counts the crystal's ticks in 1/32768 s; else the
keeper stays. MAC entries that the sweep found aged on the clock that ends leave their tables. Then the clock is carried to the lanes and
OTN framing, the Sheaf lanes, the flow sequencer, the action engines, the shapers and watchdogs, the management frames that wait, and the
performance counters, and what a snapshot copies is as the clock begins. Where there is no lane, no OTN port, no Sheaf link, no packet, no
aged entry and nothing waiting at the flow sequencer, nothing else of the device changes but the shapers, the counters and the events that
an overflow raises. No word spells a command (log entry 1), so a word put in front leaves the device as it is. (R11, R37, R41, R46, R47, R57, R431,
R432) -/
def Obligations.CoreClock : Prop :=
  (∀ (s : State), s.pending = [] → ∃ t : State,
    step s = .next (t.laneClock.sheafClock.sequencerClock.engineClock.coreShapers.mgmtClock.pmuClock.countClock) ∧ t.now = s.now + 5 ∧
    t.tiller.loaded = s.tiller.loaded ∧
    t.tiller.phase = (if s.tiller.loaded = true then (s.tiller.phase + s.advance.1) % 2 ^ 104 else s.tiller.phase) ∧
    t.keeper.boot = s.keeper.boot ∧ t.keeper.tail = s.keeper.tail ∧ t.keeper.tamper = s.keeper.tamper ∧
    (s.keeper.vkeep = true ∧ s.keeper.xtal = true →
      t.keeper.sub < 32768 ∧
      t.keeper.rtc * 32768 + t.keeper.sub = s.keeper.rtc * 32768 + s.keeper.sub + (xtalTicks (s.now + 5) - xtalTicks s.now)) ∧
    (¬(s.keeper.vkeep = true ∧ s.keeper.xtal = true) → t.keeper = s.keeper) ∧
    ((∀ k, k < 8 → (s.mac k).aged = []) → s.macClock = s) ∧
    t = { s.macClock with now := t.now, tiller := t.tiller, keeper := t.keeper }) ∧
  (∀ (s : State), s.pending = [] → s.lanes = [] → s.otn = [] → s.sheaf.links = [] → s.packets = [] → s.flow.poolWait = [] → s.flow.visits = [] →
    (∀ k, k < 8 → (s.mac k).aged = []) → ∃ t, step s = .next t ∧ t.now = s.now + 5 ∧
      t.tiller.phase = (if s.tiller.loaded = true then (s.tiller.phase + s.advance.1) % 2 ^ 104 else s.tiller.phase) ∧
      t = { s with now := t.now, tiller := t.tiller, keeper := t.keeper, core := t.core, cnt := t.cnt, host := t.host, outbox := t.outbox }) ∧
  (∀ (s : State) (nbits w : Nat), decodeTableWord nbits w = none ∧ s.withFetchWord nbits w = s)

/-- What the state after reset holds. After reset nothing waits and nothing has left the device. Every setting reads its default. Tiller
is synthetic with its accumulator not loaded, and CYC_OUT and PPS_OUT are low. Every counter is 0, and counting is not frozen. Every key's
replay window has H = 0 and a clear bitmap. Every eviction LFSR holds 0xACE1. No permit, flow record, MAC entry, packet, bale or event
stands; INT_CAUSE and INT_MASK are 0 and no mailbox is enabled. The OTP of a new device has nothing set. (The values of OTP, of the empty
tables and of the queue are the model's choices: log entries 8 and 80.) (R39, R41, R68, R269, R363, R369, R450, R456, R477) -/
def Obligations.ResetState : Prop :=
  State.reset.pending = [] ∧ State.reset.outbox = [] ∧
  (∀ id i, (Catalogue.row? id).isSome = true → State.reset.settings.get id i = ((Catalogue.row? id).map (fun r => Catalogue.dflt r i)).getD []) ∧
  State.reset.tiller.st = .synthetic ∧ State.reset.tiller.loaded = false ∧ State.reset.tiller.cycOut = false ∧ State.reset.tiller.ppsOut = false ∧
  (∀ id, Tab.get 0 State.reset.cnt.live id = 0) ∧ State.reset.cnt.frozen = false ∧
  (∀ key, State.reset.windowOf key = { high := 0, bitmap := 0 }) ∧
  (∀ k, (State.reset.mac k).lfsr = 0xACE1 ∧ (State.reset.mac k).entries = []) ∧ State.reset.flow.lfsr = 0xACE1 ∧
  State.reset.gate.permits = [] ∧ State.reset.flow.records = [] ∧ State.reset.packets = [] ∧ State.reset.bales.list = [] ∧
  State.reset.host.intCause = 0 ∧ State.reset.host.intMask = 0 ∧ (∀ n, (State.reset.mbRegs n).enable = false) ∧
  State.reset.trust.otp = { revoked := 0, rollback := [0, 0, 0, 0], keeperEpoch := 0, rows := [], owned := false, succeeded := false }

/-- Every step of every state answers a next state, and takes one command from the queue. For every state there is a next state: no
command stops the device by a fault or a refusal, whatever its operands and whatever the state. The queue after the step is the queue
before it without its front, and an empty queue stays empty. (section 16, R369, R370) -/
def Obligations.EveryStepAnswers : Prop :=
  ∀ s : State, ∃ t, step s = .next t ∧ t.pending = s.pending.tail

/-- Every step keeps OTP laid out as its table has it. For every state whose OTP is laid out as Table 18-1 has it (four revocation bits,
four rollback counters and the keeper epoch of 0 to 255, at most 260 rows of the owner-key store, each of one of the four slots with 32
bytes, and no row on a device that is not owned): after any step it is laid out so again. (R408, R415, R417, R420, R425, R426, R433, Table
18-1) -/
def Obligations.OtpStaysLaidOut : Prop :=
  ∀ s t : State, OtpOk s.trust.otp → step s = .next t → OtpOk t.trust.otp

/-- No step clears anything that is set in OTP. An OTP bit can be set once and never cleared. For every state whose OTP is laid out as
Table 18-1 has it and every step from it: a revoked key stays revoked, no rollback counter falls, the keeper epoch does not fall, the
owner-key rows stand where they stood with any new ones behind them, and the owned and the succeeded bit stay set. (R408, R415, R417,
R420, R425, R426, R433, Table 18-1) -/
def Obligations.OtpIsNeverCleared : Prop :=
  ∀ s t : State, OtpOk s.trust.otp → step s = .next t → OtpGrows s.trust.otp t.trust.otp

/-- What a replay window passes, how it takes a sequence, and that nothing passes twice. (a) A sequence s passes when s > H, or when H −
64 ≤ s < H and bit (H − s − 1) of the bitmap is clear. (b) On acceptance of s > H the bitmap shifts left by s − H and takes bit (s − H −
1) for the old H, and H becomes s; otherwise the bit of s is set and H stays. Bits of 64 and above are never set. (c) The window of the
key alone changes, and nothing else of the device. (d) After reset every window starts with H = 0 and a clear bitmap. (e) A sequence that
has been accepted does not pass again, and one that does not pass never passes later: neither does after any acceptance. (That windows
survive pseudo-channel retirement is not part of this statement.) (R269) -/
def Obligations.ReplayWindow : Prop :=
  (∀ (w : Window64) (q : Nat), w.passes q = true ↔ w.high < q ∨ (q < w.high ∧ w.high ≤ q + 64 ∧ w.bitmap.testBit (w.high - q - 1) = false)) ∧
  (∀ (w : Window64) (q : Nat), w.bitmap < 2 ^ 64 → w.passes q = true →
    (w.take q).bitmap < 2 ^ 64 ∧
    (w.high < q → (w.take q).high = q ∧ ∀ i, i < 64 → (w.take q).bitmap.testBit i =
      ((decide (q - w.high ≤ i) && w.bitmap.testBit (i - (q - w.high))) || decide (i = q - w.high - 1))) ∧
    (q < w.high → (w.take q).high = w.high ∧ ∀ i, (w.take q).bitmap.testBit i = (w.bitmap.testBit i || decide (i = w.high - q - 1)))) ∧
  (∀ (s : State) (key q : Nat), Tab.risesFrom none s.gate.windows = true →
    (∀ j, (s.takeSeq key q).windowOf j = if j = key then (s.windowOf key).take q else s.windowOf j) ∧
    s.takeSeq key q = { s with gate := { s.gate with windows := (s.takeSeq key q).gate.windows } }) ∧
  (∀ key, State.reset.windowOf key = { high := 0, bitmap := 0 }) ∧
  (∀ (w : Window64) (q p : Nat), w.bitmap < 2 ^ 64 → w.passes q = true → (p = q ∨ w.passes p = false) → (w.take q).passes p = false)

/-- A completed switch revokes the keys below its image's, and an image of a revoked key fails. When a switch completes to an image whose
flags bit [1] is set, the device sets the revocation bit of every Larzenu key numbered below that image's key_id. A switch completes when
its handover is done, and then the revocation bits are those that stood and, where the flag is set, those of the keys below; with the flag
clear they are as they were. An image signed by a revoked key then fails R410: an image in flash fails the check of its slot, in either
slot, an image that a load brings fails its check, and a slot whose image has that key does not start. (R420) -/
def Obligations.KeyRevocation : Prop :=
  (∀ (s : State) (x : Switchover), s.trust.switchover = some x → x.quiesced.isSome = true → imgKey x.header < 4 →
    ∃ t, exec .switchoverHandoverDone s = .next t ∧ t.trust.switchover = none ∧ t.trust.running = x.slot ∧
      ∀ j, t.trust.otp.revoked.testBit j =
        (s.trust.otp.revoked.testBit j || ((leAt x.header 9 1).testBit 1 && decide (j < imgKey x.header)))) ∧
  (∀ (s : State) (kind : Nat) (b : Bytes), kind ≤ 2 → s.trust.otp.revoked.testBit (imgKey b) = true → (s.imgFault kind b).isSome = true) ∧
  (∀ (s : State) (slot : Nat),
    let image := (if slot = 0 then s.trust.flash.slotA else s.trust.flash.slotB).image
    image ≠ [] → s.trust.otp.revoked.testBit (imgKey image) = true → (s.slotFault slot).isSome = true) ∧
  (∀ (s : State) (c : SlotCheck), s.trust.otp.revoked.testBit c.keyId = true → s.slotOk c = false)

/-- The eviction LFSRs: the draw, the value after reset, when a draw is made, and that 0 is never reached. (a) A draw computes the
feedback bit s[0] XOR s[2] XOR s[3] XOR s[5], shifts the register right by one place, places the feedback bit in s[15] and uses the new
value; from a value that is not 0 it never gives 0, and it stays within 16 bits. (b) Each slice's MAC table has its own LFSR and the flow
table has one more; every one holds 0xACE1 after reset. (c) A learned entry that finds a free place draws nothing; one that must evict
draws nothing under the oldest rule, and under the random rule draws until the draw names a slot that may be evicted, each redraw being
one further draw; only the LFSR of that slice changes. (d) The same for the creation of a flow record and the flow table's LFSR. (R477) -/
def Obligations.EvictionDraws : Prop :=
  (∀ x, x < 2 ^ 16 → lfsrDraw x < 2 ^ 16 ∧ (x ≠ 0 → lfsrDraw x ≠ 0) ∧
    (lfsrDraw x).testBit 15 = (((x.testBit 0 ^^ x.testBit 2) ^^ x.testBit 3) ^^ x.testBit 5) ∧
    ∀ i, i < 15 → (lfsrDraw x).testBit i = x.testBit (i + 1)) ∧
  ((∀ k, (State.reset.mac k).lfsr = 0xACE1) ∧ State.reset.flow.lfsr = 0xACE1) ∧
  (∀ (s : State) (k : Nat) (e : MacEntry), Tab.risesFrom none s.bridge.macs = true →
    let t := (s.placeLearned k e).1
    (∀ j, j ≠ k → (t.mac j).lfsr = (s.mac j).lfsr) ∧ t.flow.lfsr = s.flow.lfsr ∧
    ((t.mac k).lfsr = (s.mac k).lfsr ∨
      ((s.mac k).free e.vid e.mac = none ∧ s.sn 0x0501 k ≠ 1 ∧ ∃ n, 0 < n ∧ (t.mac k).lfsr = lfsrDraw^[n] (s.mac k).lfsr ∧
        ∀ m, 0 < m → m ≤ n →
          ((Tab.find? (s.mac k).entries (4 * macBucket e.vid e.mac + lfsrDraw^[m] (s.mac k).lfsr % 4)).any (fun x => x.evictable) = true ↔ m = n)))) ∧
  (∀ (s : State) (key : Bytes) (pr : Nat) (oldest : Bool),
    let t := (s.placeFor key pr oldest).2
    (∀ j, (t.mac j).lfsr = (s.mac j).lfsr) ∧
    (t.flow.lfsr = s.flow.lfsr ∨
      (s.freePlace key = none ∧ oldest = false ∧ ∃ n, 0 < n ∧ t.flow.lfsr = lfsrDraw^[n] s.flow.lfsr)))
end

