-- ==== Sys2Proof/Laws/Keeps.lean ====
section
/-! SUPPORT. The queue and the OTP through the two shapes that every other function is made of: a choice and a fold. -/

namespace Sys2Proof.Machine

set_option maxRecDepth 4000
set_option simprocs false

@[simp] theorem ite_pending (c : Prop) [Decidable c] (a b : State) : (if c then a else b).pending = if c then a.pending else b.pending := by split <;> rfl
@[simp] theorem ite_otp (c : Prop) [Decidable c] (a b : State) : (if c then a else b).trust.otp = if c then a.trust.otp else b.trust.otp := by split <;> rfl
@[simp] theorem ite_snd_pending {α : Type} (c : Prop) [Decidable c] (a b : α × State) : (if c then a else b).2.pending = if c then a.2.pending else b.2.pending := by split <;> rfl
@[simp] theorem ite_snd_otp {α : Type} (c : Prop) [Decidable c] (a b : α × State) : (if c then a else b).2.trust.otp = if c then a.2.trust.otp else b.2.trust.otp := by split <;> rfl
@[simp] theorem ite_fst_pending {α : Type} (c : Prop) [Decidable c] (a b : State × α) : (if c then a else b).1.pending = if c then a.1.pending else b.1.pending := by split <;> rfl
@[simp] theorem ite_fst_otp {α : Type} (c : Prop) [Decidable c] (a b : State × α) : (if c then a else b).1.trust.otp = if c then a.1.trust.otp else b.1.trust.otp := by split <;> rfl
@[simp] theorem foldl_keeps {α : Type} (f : State → α → State) (l : List α) (s : State)
    (h : ∀ s x, (f s x).pending = s.pending ∧ (f s x).trust.otp = s.trust.otp) :
    (l.foldl f s).pending = s.pending ∧ (l.foldl f s).trust.otp = s.trust.otp := by
  induction l generalizing s with
  | nil => simp
  | cons a l ih => simp only [List.foldl_cons]; exact ⟨(ih _).1.trans (h s a).1, (ih _).2.trans (h s a).2⟩
@[simp] theorem foldl_fst_keeps {α β : Type} (f : State × β → α → State × β) (l : List α) (s : State × β)
    (h : ∀ s x, (f s x).1.pending = s.1.pending ∧ (f s x).1.trust.otp = s.1.trust.otp) :
    (l.foldl f s).1.pending = s.1.pending ∧ (l.foldl f s).1.trust.otp = s.1.trust.otp := by
  induction l generalizing s with
  | nil => simp
  | cons a l ih => simp only [List.foldl_cons]; exact ⟨(ih _).1.trans (h s a).1, (ih _).2.trans (h s a).2⟩
@[simp] theorem foldl_snd_keeps {α β : Type} (f : β × State → α → β × State) (l : List α) (s : β × State)
    (h : ∀ s x, (f s x).2.pending = s.2.pending ∧ (f s x).2.trust.otp = s.2.trust.otp) :
    (l.foldl f s).2.pending = s.2.pending ∧ (l.foldl f s).2.trust.otp = s.2.trust.otp := by
  induction l generalizing s with
  | nil => simp
  | cons a l ih => simp only [List.foldl_cons]; exact ⟨(ih _).1.trans (h s a).1, (ih _).2.trans (h s a).2⟩

/-- An answered next state keeps what the state it was built from keeps. -/
theorem next_keeps {s t u : State} (h : t.pending = s.pending ∧ t.trust.otp = s.trust.otp)
    (e : (Host.Outcome.next t : Host.Outcome State Fault Refusal) = .next u) :
    u.pending = s.pending ∧ u.trust.otp = s.trust.otp := by cases e; exact h

end Sys2Proof.Machine
end

