-- ==== Sys2Proof/Laws/Keeps01.lean ====
section
/-! SUPPORT. What the functions of Ops, Objects, Buffers, MemOps, PortBlocks, Export keep: the queue and the OTP (R408). -/

namespace Sys2Proof.Machine

set_option maxRecDepth 4000
set_option simprocs false

theorem done_keeps (s : State) :
    ∀ t9, done s = .next t9 → t9.pending = s.pending ∧ t9.trust.otp = s.trust.otp := by
  intro t9 h; simp only [done, done, Host.Outcome.next.injEq] at h; subst h; simp

@[simp] theorem State.setPort_keeps (s : State) (p : Nat) (x : Port) :
    (State.setPort s p x).pending = s.pending ∧ (State.setPort s p x).trust.otp = s.trust.otp := by
  simp [State.setPort]

@[simp] theorem State.modPort_keeps (s : State) (p : Nat) (f : Port → Port) :
    (State.modPort s p f).pending = s.pending ∧ (State.modPort s p f).trust.otp = s.trust.otp := by
  simp [State.modPort]

@[simp] theorem State.setLane_keeps (s : State) (l : Nat) (x : Lane) :
    (State.setLane s l x).pending = s.pending ∧ (State.setLane s l x).trust.otp = s.trust.otp := by
  simp [State.setLane]

@[simp] theorem State.modLane_keeps (s : State) (l : Nat) (f : Lane → Lane) :
    (State.modLane s l f).pending = s.pending ∧ (State.modLane s l f).trust.otp = s.trust.otp := by
  simp [State.modLane]

@[simp] theorem State.setOtn_keeps (s : State) (p : Nat) (x : Otn) :
    (State.setOtn s p x).pending = s.pending ∧ (State.setOtn s p x).trust.otp = s.trust.otp := by
  simp [State.setOtn]

@[simp] theorem State.setMac_keeps (s : State) (k : Nat) (x : MacTable) :
    (State.setMac s k x).pending = s.pending ∧ (State.setMac s k x).trust.otp = s.trust.otp := by
  simp [State.setMac]

@[simp] theorem State.setLag_keeps (s : State) (g : Nat) (x : Lag) :
    (State.setLag s g x).pending = s.pending ∧ (State.setLag s g x).trust.otp = s.trust.otp := by
  simp [State.setLag]

@[simp] theorem State.setPkt_keeps (s : State) (n : Nat) (x : Packet) :
    (State.setPkt s n x).pending = s.pending ∧ (State.setPkt s n x).trust.otp = s.trust.otp := by
  simp [State.setPkt]

@[simp] theorem State.setUnit_keeps (s : State) (u : Nat) (x : MemUnit) :
    (State.setUnit s u x).pending = s.pending ∧ (State.setUnit s u x).trust.otp = s.trust.otp := by
  simp [State.setUnit]

@[simp] theorem State.setLink_keeps (s : State) (n : Nat) (x : SheafLink) :
    (State.setLink s n x).pending = s.pending ∧ (State.setLink s n x).trust.otp = s.trust.otp := by
  simp [State.setLink]

@[simp] theorem State.setMbRegs_keeps (s : State) (n : Nat) (x : MbRegs) :
    (State.setMbRegs s n x).pending = s.pending ∧ (State.setMbRegs s n x).trust.otp = s.trust.otp := by
  simp [State.setMbRegs]

@[simp] theorem State.setRing_keeps (s : State) (r : Nat) (x : RingRegs) :
    (State.setRing s r x).pending = s.pending ∧ (State.setRing s r x).trust.otp = s.trust.otp := by
  simp [State.setRing]

@[simp] theorem State.setBox_keeps (s : State) (n : Nat) (x : Mailbox) :
    (State.setBox s n x).pending = s.pending ∧ (State.setBox s n x).trust.otp = s.trust.otp := by
  simp [State.setBox]

@[simp] theorem State.setPool_keeps (s : State) (i : Nat) (x : Pool) :
    (State.setPool s i x).pending = s.pending ∧ (State.setPool s i x).trust.otp = s.trust.otp := by
  simp [State.setPool]

@[simp] theorem State.setQueue_keeps (s : State) (q : Nat) (x : List Nat) :
    (State.setQueue s q x).pending = s.pending ∧ (State.setQueue s q x).trust.otp = s.trust.otp := by
  simp [State.setQueue]

@[simp] theorem State.setAlloc_keeps (s : State) (n : Nat) (x : PoolAlloc) :
    (State.setAlloc s n x).pending = s.pending ∧ (State.setAlloc s n x).trust.otp = s.trust.otp := by
  simp [State.setAlloc]

@[simp] theorem State.draw_keeps (s : State) :
    (State.draw s).2.pending = s.pending ∧ (State.draw s).2.trust.otp = s.trust.otp := by
  simp [State.draw]

@[simp] theorem State.drawBytes_keeps (s : State) (n : Nat) :
    (State.drawBytes s n).2.pending = s.pending ∧ (State.drawBytes s n).2.trust.otp = s.trust.otp := by
  simp [State.drawBytes]

@[simp] theorem State.checkpoint_keeps (s : State) (k n : Nat) (yields : Bool) :
    (State.checkpoint s k n yields).pending = s.pending ∧ (State.checkpoint s k n yields).trust.otp = s.trust.otp := by
  simp [State.checkpoint]

@[simp] theorem State.safePoint_keeps (s : State) (k : Nat) :
    (State.safePoint s k).pending = s.pending ∧ (State.safePoint s k).trust.otp = s.trust.otp := by
  unfold State.safePoint; split <;> simp

@[simp] theorem State.emit_keeps (s : State) (o : Output) :
    (State.emit s o).pending = s.pending ∧ (State.emit s o).trust.otp = s.trust.otp := by
  simp [State.emit]

@[simp] theorem State.signal_keeps (s : State) (v : Nat) :
    (State.signal s v).pending = s.pending ∧ (State.signal s v).trust.otp = s.trust.otp := by
  simp [State.signal]

@[simp] theorem State.interrupt_keeps (s : State) (b : Nat) (on : Bool) :
    (State.interrupt s b on).pending = s.pending ∧ (State.interrupt s b on).trust.otp = s.trust.otp := by
  unfold State.interrupt; (repeat' split) <;> simp

@[simp] theorem State.count_keeps (s : State) (block idx : Nat) (n : Nat) :
    (State.count s block idx n).pending = s.pending ∧ (State.count s block idx n).trust.otp = s.trust.otp := by
  simp [State.count]

@[simp] theorem State.countPort_keeps (s : State) (p n : Nat) (k : Nat) :
    (State.countPort s p n k).pending = s.pending ∧ (State.countPort s p n k).trust.otp = s.trust.otp := by
  simp [State.countPort]

@[simp] theorem State.countClass_keeps (s : State) (p c n : Nat) (k : Nat) :
    (State.countClass s p c n k).pending = s.pending ∧ (State.countClass s p c n k).trust.otp = s.trust.otp := by
  simp [State.countClass]

@[simp] theorem State.countSlice_keeps (s : State) (k n : Nat) (j : Nat) :
    (State.countSlice s k n j).pending = s.pending ∧ (State.countSlice s k n j).trust.otp = s.trust.otp := by
  simp [State.countSlice]

@[simp] theorem State.countProfile_keeps (s : State) (pr n : Nat) :
    (State.countProfile s pr n).pending = s.pending ∧ (State.countProfile s pr n).trust.otp = s.trust.otp := by
  simp [State.countProfile]

@[simp] theorem State.countDevice_keeps (s : State) (n : Nat) (k : Nat) :
    (State.countDevice s n k).pending = s.pending ∧ (State.countDevice s n k).trust.otp = s.trust.otp := by
  simp [State.countDevice]

@[simp] theorem State.hostLost_keeps (s : State) (n : Nat) :
    (State.hostLost s n).pending = s.pending ∧ (State.hostLost s n).trust.otp = s.trust.otp := by
  simp [State.hostLost]

@[simp] theorem State.enqueueEvent_keeps (s : State) (m : Nat) (e : EventRec) :
    (State.enqueueEvent s m e).pending = s.pending ∧ (State.enqueueEvent s m e).trust.otp = s.trust.otp := by
  simp [State.enqueueEvent]

@[simp] theorem State.popEvents_keeps (s : State) (m n : Nat) :
    (State.popEvents s m n).pending = s.pending ∧ (State.popEvents s m n).trust.otp = s.trust.otp := by
  simp [State.popEvents]

@[simp] theorem State.raise_keeps (s : State) (code source : Nat) (body : Bytes) (masked : Bool) :
    (State.raise s code source body masked).pending = s.pending ∧ (State.raise s code source body masked).trust.otp = s.trust.otp := by
  simp [State.raise]

@[simp] theorem State.raiseLimited_keeps (s : State) (code source gap : Nat) (pre : Bytes) (width : Nat) (post : Bytes) (sub : Nat) :
    (State.raiseLimited s code source gap pre width post sub).pending = s.pending ∧ (State.raiseLimited s code source gap pre width post sub).trust.otp = s.trust.otp := by
  simp [State.raiseLimited]

@[simp] theorem State.noteFault_keeps (s : State) (cls : Nat) :
    (State.noteFault s cls).pending = s.pending ∧ (State.noteFault s cls).trust.otp = s.trust.otp := by
  simp [State.noteFault]

@[simp] theorem State.noteStatus_keeps (s : State) :
    (State.noteStatus s).pending = s.pending ∧ (State.noteStatus s).trust.otp = s.trust.otp := by
  simp [State.noteStatus]

@[simp] theorem State.pushRecord_keeps (s : State) (bytes : Bytes) :
    (State.pushRecord s bytes).pending = s.pending ∧ (State.pushRecord s bytes).trust.otp = s.trust.otp := by
  simp [State.pushRecord]

@[simp] theorem State.joinLedger_keeps (s : State) (x : LateRec) :
    (State.joinLedger s x).pending = s.pending ∧ (State.joinLedger s x).trust.otp = s.trust.otp := by
  simp [State.joinLedger]

@[simp] theorem State.makeRecord_keeps (s : State) (x : LateRec) :
    (State.makeRecord s x).pending = s.pending ∧ (State.makeRecord s x).trust.otp = s.trust.otp := by
  simp [State.makeRecord]

@[simp] theorem State.joinLate_keeps (s : State) :
    (State.joinLate s).pending = s.pending ∧ (State.joinLate s).trust.otp = s.trust.otp := by
  unfold State.joinLate; (repeat' split) <;> simp

@[simp] theorem State.record_keeps (s : State) (r : LedgerRec) :
    (State.record s r).pending = s.pending ∧ (State.record s r).trust.otp = s.trust.otp := by
  simp [State.record]

@[simp] theorem State.recordSigned_keeps (s : State) (r : LedgerRec) :
    (State.recordSigned s r).pending = s.pending ∧ (State.recordSigned s r).trust.otp = s.trust.otp := by
  simp [State.recordSigned]

@[simp] theorem State.putObj_keeps (s : State) (key e : Nat) (x : Option Bytes) :
    (State.putObj s key e x).pending = s.pending ∧ (State.putObj s key e x).trust.otp = s.trust.otp := by
  simp [State.putObj]

@[simp] theorem State.relevel_keeps (s : State) (i : Nat) :
    (State.relevel s i).pending = s.pending ∧ (State.relevel s i).trust.otp = s.trust.otp := by
  simp [State.relevel]

@[simp] theorem State.takeBuffer_keeps (s : State) (i : Nat) :
    (State.takeBuffer s i).pending = s.pending ∧ (State.takeBuffer s i).trust.otp = s.trust.otp := by
  simp [State.takeBuffer]

@[simp] theorem State.giveBuffer_keeps (s : State) (i : Nat) :
    (State.giveBuffer s i).pending = s.pending ∧ (State.giveBuffer s i).trust.otp = s.trust.otp := by
  simp [State.giveBuffer]

@[simp] theorem State.loseBuffer_keeps (s : State) (i : Nat) :
    (State.loseBuffer s i).pending = s.pending ∧ (State.loseBuffer s i).trust.otp = s.trust.otp := by
  simp [State.loseBuffer]

@[simp] theorem State.setXoff_keeps (s : State) (p c : Nat) (x : Xoff) :
    (State.setXoff s p c x).pending = s.pending ∧ (State.setXoff s p c x).trust.otp = s.trust.otp := by
  simp [State.setXoff]

@[simp] theorem State.sendPause_keeps (s : State) (p c quanta : Nat) :
    (State.sendPause s p c quanta).pending = s.pending ∧ (State.sendPause s p c quanta).trust.otp = s.trust.otp := by
  simp [State.sendPause]

@[simp] theorem State.sendXoff_keeps (s : State) (p c : Nat) :
    (State.sendXoff s p c).pending = s.pending ∧ (State.sendXoff s p c).trust.otp = s.trust.otp := by
  simp [State.sendXoff]

@[simp] theorem State.xoffCheck_keeps (s : State) :
    (State.xoffCheck s).pending = s.pending ∧ (State.xoffCheck s).trust.otp = s.trust.otp := by
  simp [State.xoffCheck]

@[simp] theorem State.xonCheck_keeps (s : State) :
    (State.xonCheck s).pending = s.pending ∧ (State.xonCheck s).trust.otp = s.trust.otp := by
  simp [State.xonCheck]

@[simp] theorem State.toStraw_keeps (s : State) (rec_ : Bytes) (cause : Nat) :
    (State.toStraw s rec_ cause).pending = s.pending ∧ (State.toStraw s rec_ cause).trust.otp = s.trust.otp := by
  simp [State.toStraw]

@[simp] theorem State.takeSample_keeps (s : State) (n : Nat) (x : Packet) (out : Nat) (discarded dropped : Bool) :
    (State.takeSample s n x out discarded dropped).pending = s.pending ∧ (State.takeSample s n x out discarded dropped).trust.otp = s.trust.otp := by
  simp [State.takeSample]

@[simp] theorem State.sampleFate_keeps (s : State) (n flags : Nat) :
    (State.sampleFate s n flags).pending = s.pending ∧ (State.sampleFate s n flags).trust.otp = s.trust.otp := by
  simp [State.sampleFate]

@[simp] theorem State.freePacket_keeps (s : State) (n : Nat) :
    (State.freePacket s n).pending = s.pending ∧ (State.freePacket s n).trust.otp = s.trust.otp := by
  unfold State.freePacket; (repeat' split) <;> simp

@[simp] theorem State.dropCopies_keeps (s : State) (n : Nat) (gone : Copy → Bool) :
    (State.dropCopies s n gone).pending = s.pending ∧ (State.dropCopies s n gone).trust.otp = s.trust.otp := by
  unfold State.dropCopies; (repeat' split) <;> simp

@[simp] theorem State.flushQueue_keeps (s : State) (q : Nat) (cnt : State → State) (h_cnt : ∀ t, (cnt t).pending = t.pending ∧ (cnt t).trust.otp = t.trust.otp) :
    (State.flushQueue s q cnt).pending = s.pending ∧ (State.flushQueue s q cnt).trust.otp = s.trust.otp := by
  simp [State.flushQueue, h_cnt]

@[simp] theorem State.flushPort_keeps (s : State) (p : Nat) (cnt : State → State) (h_cnt : ∀ t, (cnt t).pending = t.pending ∧ (cnt t).trust.otp = t.trust.otp) :
    (State.flushPort s p cnt).pending = s.pending ∧ (State.flushPort s p cnt).trust.otp = s.trust.otp := by
  simp [State.flushPort, h_cnt]

@[simp] theorem State.endPacket_keeps (s : State) (n : Nat) (discarded dropped : Bool) :
    (State.endPacket s n discarded dropped).pending = s.pending ∧ (State.endPacket s n discarded dropped).trust.otp = s.trust.otp := by
  unfold State.endPacket; (repeat' split) <;> simp

@[simp] theorem State.drop_keeps (s : State) (n : Nat) (cnt : State → State) (h_cnt : ∀ t, (cnt t).pending = t.pending ∧ (cnt t).trust.otp = t.trust.otp) :
    (State.drop s n cnt).pending = s.pending ∧ (State.drop s n cnt).trust.otp = s.trust.otp := by
  simp [State.drop, h_cnt]

@[simp] theorem State.countUnit_keeps (s : State) (u n : Nat) (k : Nat) :
    (State.countUnit s u n k).pending = s.pending ∧ (State.countUnit s u n k).trust.otp = s.trust.otp := by
  simp [State.countUnit]

@[simp] theorem State.queueBursts_keeps (s : State) (u addr n : Nat) (write : Bool) :
    (State.queueBursts s u addr n write).pending = s.pending ∧ (State.queueBursts s u addr n write).trust.otp = s.trust.otp := by
  simp [State.queueBursts]

@[simp] theorem State.issueWrite_keeps (s : State) (u addr n : Nat) :
    (State.issueWrite s u addr n).pending = s.pending ∧ (State.issueWrite s u addr n).trust.otp = s.trust.otp := by
  simp [State.issueWrite]

@[simp] theorem State.issueRead_keeps (s : State) (u addr place : Nat) (directory : Bool) (owner : ReadOwner) (n : Nat) :
    (State.issueRead s u addr place directory owner n).pending = s.pending ∧ (State.issueRead s u addr place directory owner n).trust.otp = s.trust.otp := by
  simp [State.issueRead]

@[simp] theorem State.corrected_keeps (s : State) (u : Nat) :
    (State.corrected s u).pending = s.pending ∧ (State.corrected s u).trust.otp = s.trust.otp := by
  simp [State.corrected]

@[simp] theorem State.uncorrectable_keeps (s : State) (u addr : Nat) :
    (State.uncorrectable s u addr).pending = s.pending ∧ (State.uncorrectable s u addr).trust.otp = s.trust.otp := by
  simp [State.uncorrectable]

@[simp] theorem State.continuation_keeps (s : State) (d : Nat) (complete disc : Bool) (lost : Nat) :
    (State.continuation s d complete disc lost).pending = s.pending ∧ (State.continuation s d complete disc lost).trust.otp = s.trust.otp := by
  simp [State.continuation]

@[simp] theorem State.loseLedger_keeps (s : State) (u i : Nat) :
    (State.loseLedger s u i).pending = s.pending ∧ (State.loseLedger s u i).trust.otp = s.trust.otp := by
  simp [State.loseLedger]

@[simp] theorem State.mirrorDone_keeps (s : State) (u a : Nat) (rec_ : Option Nat) (bad : Bool) :
    (State.mirrorDone s u a rec_ bad).pending = s.pending ∧ (State.mirrorDone s u a rec_ bad).trust.otp = s.trust.otp := by
  unfold State.mirrorDone; (repeat' split) <;> simp

@[simp] theorem State.refusePort_keeps (s : State) (n cause : Nat) :
    (State.refusePort s n cause).pending = s.pending ∧ (State.refusePort s n cause).trust.otp = s.trust.otp := by
  simp [State.refusePort]

@[simp] theorem State.takePort_keeps (s : State) (n : Nat) (c : PoolConf) (source zone : Nat) :
    (State.takePort s n c source zone).2.pending = s.pending ∧ (State.takePort s n c source zone).2.trust.otp = s.trust.otp := by
  unfold State.takePort; dsimp only; (repeat' split) <;> simp_all

@[simp] theorem State.givePort_keeps (s : State) (n u : Nat) (c : PoolConf) :
    (State.givePort s n u c).pending = s.pending ∧ (State.givePort s n u c).trust.otp = s.trust.otp := by
  simp [State.givePort]

@[simp] theorem State.offer_keeps (s : State) (c : Checkpoint) :
    (State.offer s c).pending = s.pending ∧ (State.offer s c).trust.otp = s.trust.otp := by
  simp [State.offer]

@[simp] theorem State.stage_keeps (s : State) (r : Nat × Bytes) :
    (State.stage s r).pending = s.pending ∧ (State.stage s r).trust.otp = s.trust.otp := by
  simp [State.stage]

@[simp] theorem State.lostStaging_keeps (s : State) (a : Nat) :
    (State.lostStaging s a).pending = s.pending ∧ (State.lostStaging s a).trust.otp = s.trust.otp := by
  simp [State.lostStaging]

@[simp] theorem State.skipLost_keeps (s : State) :
    (State.skipLost s).pending = s.pending ∧ (State.skipLost s).trust.otp = s.trust.otp := by
  simp [State.skipLost]

@[simp] theorem State.exportRecord_keeps (s : State) (pr : Profile) (b hist : Bytes) (reason : Nat) :
    (State.exportRecord s pr b hist reason).pending = s.pending ∧ (State.exportRecord s pr b hist reason).trust.otp = s.trust.otp := by
  simp [State.exportRecord]

@[simp] theorem State.exportBlock_keeps (s : State) (c : PoolConf) (b : Binding) (block ev : Nat) :
    (State.exportBlock s c b block ev).pending = s.pending ∧ (State.exportBlock s c b block ev).trust.otp = s.trust.otp := by
  simp [State.exportBlock]

@[simp] theorem State.ringExport_keeps (s : State) (seq : Nat) (msg : Bytes) :
    ∀ t, State.ringExport s seq msg = some t → t.pending = s.pending ∧ t.trust.otp = s.trust.otp := by
  intro t h
  unfold State.ringExport at h
  dsimp only at h
  split at h
  · cases h; simp
  · cases h

end Sys2Proof.Machine
end

