-- ==== Sys2Proof/Laws/Keeps02.lean ====
section
/-! SUPPORT. What the functions of Export, Lag, Pmu, Bridge, FlowTable keep: the queue and the OTP (R408). -/

namespace Sys2Proof.Machine

set_option maxRecDepth 4000
set_option simprocs false

@[simp] theorem State.archiveLoss_keeps (s : State) (n : Nat) :
    (State.archiveLoss s n).pending = s.pending ∧ (State.archiveLoss s n).trust.otp = s.trust.otp := by
  simp [State.archiveLoss]

@[simp] theorem State.archivePut_keeps (s : State) (i n : Nat) (e : Bytes) :
    (State.archivePut s i n e).pending = s.pending ∧ (State.archivePut s i n e).trust.otp = s.trust.otp := by
  simp [State.archivePut]

@[simp] theorem State.archive_keeps (s : State) (b hist : Bytes) (reason : Nat) :
    (State.archive s b hist reason).pending = s.pending ∧ (State.archive s b hist reason).trust.otp = s.trust.otp := by
  simp [State.archive]

@[simp] theorem State.discard_keeps (s : State) (n : Nat) :
    (State.discard s n).pending = s.pending ∧ (State.discard s n).trust.otp = s.trust.otp := by
  simp [State.discard]

@[simp] theorem State.releaseSlot_keeps (s : State) (g i p : Nat) :
    (State.releaseSlot s g i p).pending = s.pending ∧ (State.releaseSlot s g i p).trust.otp = s.trust.otp := by
  simp [State.releaseSlot]

@[simp] theorem State.switchSlot_keeps (s : State) (g i : Nat) :
    (State.switchSlot s g i).pending = s.pending ∧ (State.switchSlot s g i).trust.otp = s.trust.otp := by
  unfold State.switchSlot; dsimp only; (repeat' split) <;> simp_all

@[simp] theorem State.memberStops_keeps (s : State) (g p : Nat) :
    (State.memberStops s g p).pending = s.pending ∧ (State.memberStops s g p).trust.otp = s.trust.otp := by
  unfold State.memberStops
  extract_lets l s0 toward away s1 s2 l2
  have h0 : s0.pending = s.pending ∧ s0.trust.otp = s.trust.otp := by simp [s0]
  have h1 : s1.pending = s0.pending ∧ s1.trust.otp = s0.trust.otp := by simp [s1]
  have h2 : s2.pending = s1.pending ∧ s2.trust.otp = s1.trust.otp := by simp [s2]
  clear_value s2 s1 s0
  exact ⟨by simp [h2.1, h1.1, h0.1], by simp [h2.2, h1.2, h0.2]⟩

@[simp] theorem State.takeSlot_keeps (s : State) (g p : Nat) (others : List Nat) :
    (State.takeSlot s g p others).pending = s.pending ∧ (State.takeSlot s g p others).trust.otp = s.trust.otp := by
  unfold State.takeSlot; dsimp only; (repeat' split) <;> simp_all

@[simp] theorem State.endMoves_keeps (s : State) (g : Nat) :
    (State.endMoves s g).pending = s.pending ∧ (State.endMoves s g).trust.otp = s.trust.otp := by
  simp [State.endMoves]

@[simp] theorem State.memberStarts_keeps (s : State) (g p : Nat) :
    (State.memberStarts s g p).pending = s.pending ∧ (State.memberStarts s g p).trust.otp = s.trust.otp := by
  simp [State.memberStarts]

theorem execLagMemberJoin_keeps (p : PortId) (s : State) :
    ∀ t9, execLagMemberJoin p s = .next t9 → t9.pending = s.pending ∧ t9.trust.otp = s.trust.otp := by
  intro t9 h; unfold execLagMemberJoin at h; simp only [done] at h; (repeat' split at h) <;> (cases h; simp)

theorem execLagSlotDrained_keeps (g : GroupId) (slot : Fin 256) (s : State) :
    ∀ t9, execLagSlotDrained g slot s = .next t9 → t9.pending = s.pending ∧ t9.trust.otp = s.trust.otp := by
  intro t9 h; unfold execLagSlotDrained at h; simp only [done] at h; (repeat' split at h) <;> (cases h; simp)

theorem execLagMoveLimitExpiry_keeps (g : GroupId) (s : State) :
    ∀ t9, execLagMoveLimitExpiry g s = .next t9 → t9.pending = s.pending ∧ t9.trust.otp = s.trust.otp := by
  intro t9 h; unfold execLagMoveLimitExpiry at h; simp only [done] at h; (repeat' split at h) <;> (cases h; simp)

@[simp] theorem State.sendLacp_keeps (s : State) (p : Nat) :
    (State.sendLacp s p).pending = s.pending ∧ (State.sendLacp s p).trust.otp = s.trust.otp := by
  unfold State.sendLacp; (repeat' split) <;> simp

@[simp] theorem State.setLacp_keeps (s : State) (p : Nat) (rx on : Bool) :
    (State.setLacp s p rx on).pending = s.pending ∧ (State.setLacp s p rx on).trust.otp = s.trust.otp := by
  unfold State.setLacp; dsimp only; (repeat' split) <;> simp

theorem execLacpFrameReceive_keeps (p : PortId) (x : LacpInfo) (s : State) :
    ∀ t9, execLacpFrameReceive p x s = .next t9 → t9.pending = s.pending ∧ t9.trust.otp = s.trust.otp := by
  intro t9 h; unfold execLacpFrameReceive at h; simp only [done] at h; (repeat' split at h) <;> (cases h; simp)

theorem execLacpTimeout_keeps (p : PortId) (s : State) :
    ∀ t9, execLacpTimeout p s = .next t9 → t9.pending = s.pending ∧ t9.trust.otp = s.trust.otp := by
  intro t9 h; unfold execLacpTimeout at h; simp only [done] at h; (repeat' split at h) <;> (cases h; simp)

@[simp] theorem State.setCaptures_keeps (s : State) (t : Tab (Nat × Nat)) :
    (State.setCaptures s t).pending = s.pending ∧ (State.setCaptures s t).trust.otp = s.trust.otp := by
  simp [State.setCaptures]

@[simp] theorem State.raiseOverflow_keeps (s : State) (k n skid : Nat) (p : Option Packet) (angle : Nat) :
    (State.raiseOverflow s k n skid p angle).pending = s.pending ∧ (State.raiseOverflow s k n skid p angle).trust.otp = s.trust.otp := by
  simp [State.raiseOverflow]

@[simp] theorem State.pmuOne_keeps (s : State) (k q : Nat) (n : Nat) :
    (State.pmuOne s k q n).pending = s.pending ∧ (State.pmuOne s k q n).trust.otp = s.trust.otp := by
  simp [State.pmuOne]

@[simp] theorem State.pmu_keeps (s : State) (k e : Nat) (q : Nat) (p : Option Packet) :
    (State.pmu s k e q p).pending = s.pending ∧ (State.pmu s k e q p).trust.otp = s.trust.otp := by
  unfold State.pmu
  refine foldl_keeps _ _ _ (fun t n => ?_)
  dsimp only
  split
  · simp
  · split <;> split <;> (try split) <;> simp

@[simp] theorem State.pmuPkt_keeps (s : State) (i e : Nat) :
    (State.pmuPkt s i e).pending = s.pending ∧ (State.pmuPkt s i e).trust.otp = s.trust.otp := by
  unfold State.pmuPkt; (repeat' split) <;> simp

@[simp] theorem State.suppress_keeps (s : State) (k : Nat) :
    (State.suppress s k).pending = s.pending ∧ (State.suppress s k).trust.otp = s.trust.otp := by
  simp [State.suppress]

@[simp] theorem State.shedCaptures_keeps (s : State) :
    (State.shedCaptures s).pending = s.pending ∧ (State.shedCaptures s).trust.otp = s.trust.otp := by
  simp [State.shedCaptures]

theorem execCounterPeriodExpiry_keeps (k : SliceId) (n : Fin 8) (s : State) :
    ∀ t9, execCounterPeriodExpiry k n s = .next t9 → t9.pending = s.pending ∧ t9.trust.otp = s.trust.otp := by
  intro t9 h; unfold execCounterPeriodExpiry at h; simp only [done] at h; (repeat' split at h) <;> (cases h; simp)

theorem execCounterCaptureTimeout_keeps (k : SliceId) (n : Fin 8) (s : State) :
    ∀ t9, execCounterCaptureTimeout k n s = .next t9 → t9.pending = s.pending ∧ t9.trust.otp = s.trust.otp := by
  intro t9 h; unfold execCounterCaptureTimeout at h; simp only [done] at h; (repeat' split at h) <;> (cases h; simp)

theorem execCounterSnapshotTake_keeps (s : State) :
    ∀ t9, execCounterSnapshotTake s = .next t9 → t9.pending = s.pending ∧ t9.trust.otp = s.trust.otp := by
  intro t9 h; unfold execCounterSnapshotTake at h; simp only [done] at h; (repeat' split at h) <;> (cases h; simp)

@[simp] theorem State.putMac_keeps (s : State) (k i : Nat) (e : MacEntry) :
    (State.putMac s k i e).pending = s.pending ∧ (State.putMac s k i e).trust.otp = s.trust.otp := by
  simp [State.putMac]

@[simp] theorem State.eraseMac_keeps (s : State) (k i : Nat) :
    (State.eraseMac s k i).pending = s.pending ∧ (State.eraseMac s k i).trust.otp = s.trust.otp := by
  simp [State.eraseMac]

@[simp] theorem State.placeLearned_keeps (s : State) (k : Nat) (e : MacEntry) :
    (State.placeLearned s k e).1.pending = s.pending ∧ (State.placeLearned s k e).1.trust.otp = s.trust.otp := by
  unfold State.placeLearned; (repeat' split) <;> simp

@[simp] theorem State.queueLearn_keeps (s : State) (k : Nat) (r : LearnReq) :
    (State.queueLearn s k r).pending = s.pending ∧ (State.queueLearn s k r).trust.otp = s.trust.otp := by
  simp [State.queueLearn]

@[simp] theorem State.moveEntry_keeps (s : State) (k i : Nat) (e : MacEntry) (dest : Nat) :
    (State.moveEntry s k i e dest).pending = s.pending ∧ (State.moveEntry s k i e dest).trust.otp = s.trust.otp := by
  simp [State.moveEntry]

theorem execLearnRequestApply_keeps (k : SliceId) (s : State) :
    ∀ t9, execLearnRequestApply k s = .next t9 → t9.pending = s.pending ∧ t9.trust.otp = s.trust.otp := by
  intro t9 h; unfold execLearnRequestApply at h; dsimp only at h; (repeat' split at h) <;> (simp only [done, Host.Outcome.next.injEq] at h; subst h; simp_all)

theorem execMoveWindowClose_keeps (k : SliceId) (loc : MacLoc) (s : State) :
    ∀ t9, execMoveWindowClose k loc s = .next t9 → t9.pending = s.pending ∧ t9.trust.otp = s.trust.otp := by
  intro t9 h; unfold execMoveWindowClose at h; simp only [done] at h; (repeat' split at h) <;> (cases h; simp)

theorem execMacThaw_keeps (k : SliceId) (loc : MacLoc) (s : State) :
    ∀ t9, execMacThaw k loc s = .next t9 → t9.pending = s.pending ∧ t9.trust.otp = s.trust.otp := by
  intro t9 h; unfold execMacThaw at h; simp only [done] at h; (repeat' split at h) <;> (cases h; simp)

@[simp] theorem State.flushMac_keeps (s : State) (p k : Nat) :
    (State.flushMac s p k).pending = s.pending ∧ (State.flushMac s p k).trust.otp = s.trust.otp := by
  simp [State.flushMac]

theorem execMacFlushOnPortDown_keeps (p : PortId) (s : State) :
    ∀ t9, execMacFlushOnPortDown p s = .next t9 → t9.pending = s.pending ∧ t9.trust.otp = s.trust.otp := by
  intro t9 h
  unfold execMacFlushOnPortDown at h
  split at h
  · cases h; simp
  · simp only [done, Host.Outcome.next.injEq] at h
    rw [← h]
    exact foldl_keeps _ _ _ (fun t k => by split <;> simp)

@[simp] theorem State.ageOut_keeps (s : State) (k i : Nat) :
    (State.ageOut s k i).pending = s.pending ∧ (State.ageOut s k i).trust.otp = s.trust.otp := by
  unfold State.ageOut; (try dsimp only); (repeat' split) <;> simp_all

@[simp] theorem State.ageSlice_keeps (s : State) (k : Nat) :
    (State.ageSlice s k).pending = s.pending ∧ (State.ageSlice s k).trust.otp = s.trust.otp := by
  unfold State.ageSlice; (try dsimp only); (repeat' split) <;> simp_all

@[simp] theorem State.macClock_keeps (s : State) :
    (State.macClock s).pending = s.pending ∧ (State.macClock s).trust.otp = s.trust.otp := by
  unfold State.macClock
  exact foldl_keeps _ _ _ (fun t k => by simp)

theorem execMacAgeingSweepVisit_keeps (k : SliceId) (loc : MacLoc) (s : State) :
    ∀ t9, execMacAgeingSweepVisit k loc s = .next t9 → t9.pending = s.pending ∧ t9.trust.otp = s.trust.otp := by
  intro t9 h; unfold execMacAgeingSweepVisit at h; simp only [done] at h; (repeat' split at h) <;> (cases h; simp)

@[simp] theorem State.macParity_keeps (s : State) (k i : Nat) :
    (State.macParity s k i).pending = s.pending ∧ (State.macParity s k i).trust.otp = s.trust.otp := by
  unfold State.macParity; dsimp only; (repeat' split) <;> simp_all

theorem execMacStaticRestore_keeps (k : SliceId) (vid mac : Nat) (s : State) :
    ∀ t9, execMacStaticRestore k vid mac s = .next t9 → t9.pending = s.pending ∧ t9.trust.otp = s.trust.otp := by
  intro t9 h; unfold execMacStaticRestore at h; simp only [done] at h; (repeat' split at h) <;> (cases h; simp)

@[simp] theorem State.copyMac_keeps (s : State) (k : Nat) (e : MacEntry) :
    (State.copyMac s k e).1.pending = s.pending ∧ (State.copyMac s k e).1.trust.otp = s.trust.otp := by
  unfold State.copyMac; (repeat' split) <;> simp

@[simp] theorem State.placeStatic_keeps (s : State) (mask : Nat) (e : MacEntry) :
    ∀ t, State.placeStatic s mask e = some t → t.pending = s.pending ∧ t.trust.otp = s.trust.otp := by
  intro t h
  unfold State.placeStatic at h
  dsimp only at h
  split at h
  · cases h
    refine foldl_keeps _ _ _ (fun t k => ?_)
    split
    · split <;> simp
    · simp
  · cases h

theorem execRouteEntryRefresh_keeps (k : SliceId) (t : RouteTable) (id : Nat) (s : State) :
    ∀ t9, execRouteEntryRefresh k t id s = .next t9 → t9.pending = s.pending ∧ t9.trust.otp = s.trust.otp := by
  intro t9 h; unfold execRouteEntryRefresh at h; simp only [done] at h; (repeat' split at h) <;> (cases h; simp)

@[simp] theorem State.setRec_keeps (s : State) (loc : Nat) (r : FlowRec) :
    (State.setRec s loc r).pending = s.pending ∧ (State.setRec s loc r).trust.otp = s.trust.otp := by
  simp [State.setRec]

@[simp] theorem State.modRec_keeps (s : State) (loc : Nat) (f : Bytes → Bytes) :
    (State.modRec s loc f).pending = s.pending ∧ (State.modRec s loc f).trust.otp = s.trust.otp := by
  unfold State.modRec; (repeat' split) <;> simp

@[simp] theorem State.setCache_keeps (s : State) (k : Nat) (ls : List CacheLine) :
    (State.setCache s k ls).pending = s.pending ∧ (State.setCache s k ls).trust.otp = s.trust.otp := by
  simp [State.setCache]

@[simp] theorem State.writeRec_keeps (s : State) (loc : Nat) :
    (State.writeRec s loc).pending = s.pending ∧ (State.writeRec s loc).trust.otp = s.trust.otp := by
  simp [State.writeRec]

@[simp] theorem State.writeDirectory_keeps (s : State) (loc : Nat) :
    (State.writeDirectory s loc).pending = s.pending ∧ (State.writeDirectory s loc).trust.otp = s.trust.otp := by
  simp [State.writeDirectory]

@[simp] theorem State.install_keeps (s : State) (loc : Nat) (dirty : Bool) :
    (State.install s loc dirty).pending = s.pending ∧ (State.install s loc dirty).trust.otp = s.trust.otp := by
  unfold State.install; dsimp only; (repeat' split) <;> simp_all

@[simp] theorem State.uncache_keeps (s : State) (loc : Nat) :
    (State.uncache s loc).pending = s.pending ∧ (State.uncache s loc).trust.otp = s.trust.otp := by
  unfold State.uncache; (repeat' split) <;> simp

@[simp] theorem State.fetchRec_keeps (s : State) (loc : Nat) :
    (State.fetchRec s loc).pending = s.pending ∧ (State.fetchRec s loc).trust.otp = s.trust.otp := by
  simp [State.fetchRec]

@[simp] theorem State.touchRec_keeps (s : State) (loc : Nat) (f : Bytes → Bytes) :
    (State.touchRec s loc f).pending = s.pending ∧ (State.touchRec s loc f).trust.otp = s.trust.otp := by
  simp [State.touchRec]

@[simp] theorem State.sweepRec_keeps (s : State) (loc : Nat) (f : Bytes → Bytes) :
    (State.sweepRec s loc f).pending = s.pending ∧ (State.sweepRec s loc f).trust.otp = s.trust.otp := by
  simp [State.sweepRec]

@[simp] theorem State.dropHist_keeps (s : State) (loc : Nat) :
    (State.dropHist s loc).pending = s.pending ∧ (State.dropHist s loc).trust.otp = s.trust.otp := by
  unfold State.dropHist; dsimp only; (repeat' split) <;> simp_all

@[simp] theorem State.threshold_keeps (s : State) (i table pct n cap : Nat) :
    (State.threshold s i table pct n cap).pending = s.pending ∧ (State.threshold s i table pct n cap).trust.otp = s.trust.otp := by
  simp [State.threshold]

@[simp] theorem State.occupancyCheck_keeps (s : State) :
    (State.occupancyCheck s).pending = s.pending ∧ (State.occupancyCheck s).trust.otp = s.trust.otp := by
  simp [State.occupancyCheck]

end Sys2Proof.Machine
end

