-- ==== Sys2Proof/Laws/Keeps03.lean ====
section
/-! SUPPORT. What the functions of FlowTable, Tiller, Services keep: the queue and the OTP (R408). -/

namespace Sys2Proof.Machine

set_option maxRecDepth 4000
set_option simprocs false

@[simp] theorem State.histAlloc_keeps (s : State) (b : Bytes) :
    (State.histAlloc s b).2.pending = s.pending ∧ (State.histAlloc s b).2.trust.otp = s.trust.otp := by
  simp [State.histAlloc]

@[simp] theorem State.untranslate_keeps (s : State) (b : Bytes) :
    (State.untranslate s b).pending = s.pending ∧ (State.untranslate s b).trust.otp = s.trust.otp := by
  unfold State.untranslate; (repeat' split) <;> simp

@[simp] theorem State.loseScan_keeps (s : State) (loc : Nat) :
    (State.loseScan s loc).pending = s.pending ∧ (State.loseScan s loc).trust.otp = s.trust.otp := by
  simp [State.loseScan]

@[simp] theorem State.removeOne_keeps (s : State) (loc reason : Nat) (lost : Bool) :
    (State.removeOne s loc reason lost).pending = s.pending ∧ (State.removeOne s loc reason lost).trust.otp = s.trust.otp := by
  unfold State.removeOne; (repeat' split) <;> simp

@[simp] theorem State.removeRec_keeps (s : State) (loc reason : Nat) (lost : Bool) :
    (State.removeRec s loc reason lost).pending = s.pending ∧ (State.removeRec s loc reason lost).trust.otp = s.trust.otp := by
  unfold State.removeRec; (repeat' split) <;> simp

@[simp] theorem State.fillShares_keeps (s : State) :
    (State.fillShares s).pending = s.pending ∧ (State.fillShares s).trust.otp = s.trust.otp := by
  simp [State.fillShares]

@[simp] theorem State.settleCreation_keeps (s : State) :
    (State.settleCreation s).pending = s.pending ∧ (State.settleCreation s).trust.otp = s.trust.otp := by
  simp [State.settleCreation]

@[simp] theorem State.spendCreation_keeps (s : State) (k pr rate : Nat) :
    (State.spendCreation s k pr rate).2.pending = s.pending ∧ (State.spendCreation s k pr rate).2.trust.otp = s.trust.otp := by
  simp [State.spendCreation]

@[simp] theorem State.refuseCreation_keeps (s : State) (pr cause : Nat) :
    (State.refuseCreation s pr cause).pending = s.pending ∧ (State.refuseCreation s pr cause).trust.otp = s.trust.otp := by
  simp [State.refuseCreation]

@[simp] theorem State.readAges_keeps (s : State) (key : Bytes) :
    (State.readAges s key).pending = s.pending ∧ (State.readAges s key).trust.otp = s.trust.otp := by
  simp [State.readAges]

@[simp] theorem State.placeFor_keeps (s : State) (key : Bytes) (pr : Nat) (oldest : Bool) :
    (State.placeFor s key pr oldest).2.pending = s.pending ∧ (State.placeFor s key pr oldest).2.trust.otp = s.trust.otp := by
  unfold State.placeFor; (repeat' split) <;> simp

@[simp] theorem State.placeRec_keeps (s : State) (loc : Nat) (b : Bytes) :
    (State.placeRec s loc b).pending = s.pending ∧ (State.placeRec s loc b).trust.otp = s.trust.otp := by
  simp [State.placeRec]

@[simp] theorem State.sweepScan_keeps (s : State) (loc : Nat) :
    (State.sweepScan s loc).pending = s.pending ∧ (State.sweepScan s loc).trust.otp = s.trust.otp := by
  unfold State.sweepScan; (repeat' split) <;> simp

@[simp] theorem State.evaluateRec_keeps (s : State) (l : Nat) (r : FlowRec) :
    (State.evaluateRec s l r).pending = s.pending ∧ (State.evaluateRec s l r).trust.otp = s.trust.otp := by
  simp [State.evaluateRec]

@[simp] theorem State.sweepVisit_keeps (s : State) (l : Nat) :
    (State.sweepVisit s l).pending = s.pending ∧ (State.sweepVisit s l).trust.otp = s.trust.otp := by
  unfold State.sweepVisit; dsimp only; (repeat' split) <;> simp_all

@[simp] theorem State.issueVisit_keeps (s : State) (l : Nat) (r : FlowRec) (kind : VisitKind) :
    (State.issueVisit s l r kind).pending = s.pending ∧ (State.issueVisit s l r kind).trust.otp = s.trust.otp := by
  simp [State.issueVisit]

theorem execFlowSweepVisit_keeps (loc : FlowLoc) (s : State) :
    ∀ t9, execFlowSweepVisit loc s = .next t9 → t9.pending = s.pending ∧ t9.trust.otp = s.trust.otp := by
  intro t9 h; unfold execFlowSweepVisit at h; simp only [done] at h; (repeat' split at h) <;> (cases h; simp)

theorem execFlowSweepPassEnd_keeps (s : State) :
    ∀ t9, execFlowSweepPassEnd s = .next t9 → t9.pending = s.pending ∧ t9.trust.otp = s.trust.otp := by
  intro t9 h; unfold execFlowSweepPassEnd at h; simp only [done] at h; (repeat' split at h) <;> (cases h; simp)

@[simp] theorem State.repair_keeps (s : State) (a b : Nat) :
    (State.repair s a b).pending = s.pending ∧ (State.repair s a b).trust.otp = s.trust.otp := by
  unfold State.repair; (repeat' split) <;> simp

@[simp] theorem State.moveRec_keeps (s : State) (a b : Nat) :
    (State.moveRec s a b).pending = s.pending ∧ (State.moveRec s a b).trust.otp = s.trust.otp := by
  unfold State.moveRec; (repeat' split) <;> simp

@[simp] theorem State.moveOverflow_keeps (s : State) (a : Nat) :
    (State.moveOverflow s a).pending = s.pending ∧ (State.moveOverflow s a).trust.otp = s.trust.otp := by
  unfold State.moveOverflow; dsimp only; (repeat' split) <;> simp_all

theorem execOverflowRelocationMove_keeps (idx : Nat) (s : State) :
    ∀ t9, execOverflowRelocationMove idx s = .next t9 → t9.pending = s.pending ∧ t9.trust.otp = s.trust.otp := by
  intro t9 h; unfold execOverflowRelocationMove at h; simp only [done] at h; (repeat' split at h) <;> (cases h; simp)

theorem execBlockHoldExpiry_keeps (pool : Fin 1024) (block : Nat) (s : State) :
    ∀ t9, execBlockHoldExpiry pool block s = .next t9 → t9.pending = s.pending ∧ t9.trust.otp = s.trust.otp := by
  intro t9 h; unfold execBlockHoldExpiry at h; simp only [done] at h; (repeat' split at h) <;> (cases h; simp)

@[simp] theorem State.tick_keeps (s : State) :
    (State.tick s).pending = s.pending ∧ (State.tick s).trust.otp = s.trust.otp := by
  simp [State.tick]

@[simp] theorem State.setTiller_keeps (s : State) (t : Tiller) :
    (State.setTiller s t).pending = s.pending ∧ (State.setTiller s t).trust.otp = s.trust.otp := by
  simp [State.setTiller]

@[simp] theorem State.enterHoldover_keeps (s : State) (cause : Nat) :
    (State.enterHoldover s cause).pending = s.pending ∧ (State.enterHoldover s cause).trust.otp = s.trust.otp := by
  simp [State.enterHoldover]

@[simp] theorem State.loopSeen_keeps (s : State) (d : Nat) :
    (State.loopSeen s d).pending = s.pending ∧ (State.loopSeen s d).trust.otp = s.trust.otp := by
  exact ⟨rfl, rfl⟩

@[simp] theorem State.trackEdge_keeps (s : State) (t d : Nat) (recent : List Nat) :
    (State.trackEdge s t d recent).pending = s.pending ∧ (State.trackEdge s t d recent).trust.otp = s.trust.otp := by
  simp [State.trackEdge]

@[simp] theorem State.seenEdge_keeps (s : State) (t : Nat) (recent : List Nat) :
    (State.seenEdge s t recent).pending = s.pending ∧ (State.seenEdge s t recent).trust.otp = s.trust.otp := by
  simp [State.seenEdge]

@[simp] theorem State.edgeAccepted_keeps (s : State) (t d : Nat) (recent : List Nat) :
    (State.edgeAccepted s t d recent).pending = s.pending ∧ (State.edgeAccepted s t d recent).trust.otp = s.trust.otp := by
  simp [State.edgeAccepted]

@[simp] theorem State.edgeRejected_keeps (s : State) (t : Nat) (recent : List Nat) :
    (State.edgeRejected s t recent).pending = s.pending ∧ (State.edgeRejected s t recent).trust.otp = s.trust.otp := by
  simp [State.edgeRejected]

@[simp] theorem State.trackedEdge_keeps (s : State) (t : Nat) :
    (State.trackedEdge s t).pending = s.pending ∧ (State.trackedEdge s t).trust.otp = s.trust.otp := by
  simp [State.trackedEdge]

@[simp] theorem State.qualify_keeps (s : State) (t f : Nat) (recent : List Nat) :
    (State.qualify s t f recent).pending = s.pending ∧ (State.qualify s t f recent).trust.otp = s.trust.otp := by
  simp [State.qualify]

@[simp] theorem State.anchorEdge_keeps (s : State) (t : Nat) :
    (State.anchorEdge s t).pending = s.pending ∧ (State.anchorEdge s t).trust.otp = s.trust.otp := by
  simp [State.anchorEdge]

@[simp] theorem State.shadowEdge_keeps (s : State) (t d f : Nat) (r : Int) (recent : List Nat) :
    (State.shadowEdge s t d f r recent).pending = s.pending ∧ (State.shadowEdge s t d f r recent).trust.otp = s.trust.otp := by
  simp [State.shadowEdge]

@[simp] theorem State.shadowAccepted_keeps (s : State) (t d : Nat) :
    (State.shadowAccepted s t d).pending = s.pending ∧ (State.shadowAccepted s t d).trust.otp = s.trust.otp :=
  State.shadowEdge_keeps s t d _ _ _

@[simp] theorem State.lateEdge_keeps (s : State) (t : Nat) :
    (State.lateEdge s t).pending = s.pending ∧ (State.lateEdge s t).trust.otp = s.trust.otp := by
  simp [State.lateEdge]

@[simp] theorem State.untrackedEdge_keeps (s : State) (t : Nat) :
    (State.untrackedEdge s t).pending = s.pending ∧ (State.untrackedEdge s t).trust.otp = s.trust.otp := by
  unfold State.untrackedEdge
  extract_lets d
  split
  · exact State.anchorEdge_keeps _ _
  · split
    · exact State.shadowAccepted_keeps _ _ _
    · exact State.anchorEdge_keeps _ _
    · exact State.lateEdge_keeps _ _

@[simp] theorem State.loseReference_keeps (s : State) (cause : Nat) :
    (State.loseReference s cause).pending = s.pending ∧ (State.loseReference s cause).trust.otp = s.trust.otp := by
  simp [State.loseReference]

@[simp] theorem State.referenceEdge_keeps (s : State) (t : Nat) :
    (State.referenceEdge s t).pending = s.pending ∧ (State.referenceEdge s t).trust.otp = s.trust.otp := by
  unfold State.referenceEdge; dsimp only; (repeat' split) <;> simp_all

theorem execCycRefEdge_keeps (rising : Bool) (t : Nat) (s : State) :
    ∀ t9, execCycRefEdge rising t s = .next t9 → t9.pending = s.pending ∧ t9.trust.otp = s.trust.otp := by
  intro t9 h; unfold execCycRefEdge at h; simp only [done] at h; (repeat' split at h) <;> (cases h; simp)

theorem execTillerStuck_keeps (s : State) :
    ∀ t9, execTillerStuck s = .next t9 → t9.pending = s.pending ∧ t9.trust.otp = s.trust.otp := by
  intro t9 h; unfold execTillerStuck at h; simp only [done] at h; (repeat' split at h) <;> (cases h; simp)

theorem execTillerLapse_keeps (s : State) :
    ∀ t9, execTillerLapse s = .next t9 → t9.pending = s.pending ∧ t9.trust.otp = s.trust.otp := by
  intro t9 h; unfold execTillerLapse at h; simp only [done] at h; (repeat' split at h) <;> (cases h; simp)

theorem execHoldoverExpired_keeps (s : State) :
    ∀ t9, execHoldoverExpired s = .next t9 → t9.pending = s.pending ∧ t9.trust.otp = s.trust.otp := by
  intro t9 h; unfold execHoldoverExpired at h; simp only [done] at h; (repeat' split at h) <;> (cases h; simp)

theorem execTillerLocked_keeps (s : State) :
    ∀ t9, execTillerLocked s = .next t9 → t9.pending = s.pending ∧ t9.trust.otp = s.trust.otp := by
  intro t9 h; unfold execTillerLocked at h; simp only [done] at h; (repeat' split at h) <;> (cases h; simp)

theorem execCycOutToggle_keeps (s : State) :
    ∀ t9, execCycOutToggle s = .next t9 → t9.pending = s.pending ∧ t9.trust.otp = s.trust.otp := by
  intro t9 h; simp only [execCycOutToggle, done, Host.Outcome.next.injEq] at h; subst h; simp

@[simp] theorem State.setPtp_keeps (s : State) (p : Nat) (x : PtpPort) :
    (State.setPtp s p x).pending = s.pending ∧ (State.setPtp s p x).trust.otp = s.trust.otp := by
  simp [State.setPtp]

@[simp] theorem State.sendPtp_keeps (s : State) (p : Nat) :
    (State.sendPtp s p).pending = s.pending ∧ (State.sendPtp s p).trust.otp = s.trust.otp := by
  simp [State.sendPtp]

@[simp] theorem State.sendPdelay_keeps (s : State) :
    (State.sendPdelay s).pending = s.pending ∧ (State.sendPdelay s).trust.otp = s.trust.otp := by
  simp [State.sendPdelay]

@[simp] theorem State.dropSilent_keeps (s : State) :
    (State.dropSilent s).pending = s.pending ∧ (State.dropSilent s).trust.otp = s.trust.otp := by
  simp [State.dropSilent]

theorem execTaiSecondBoundary_keeps (s : State) :
    ∀ t9, execTaiSecondBoundary s = .next t9 → t9.pending = s.pending ∧ t9.trust.otp = s.trust.otp := by
  intro t9 h; simp only [execTaiSecondBoundary, done, Host.Outcome.next.injEq] at h; subst h; simp

theorem execPpsOutRise_keeps (s : State) :
    ∀ t9, execPpsOutRise s = .next t9 → t9.pending = s.pending ∧ t9.trust.otp = s.trust.otp := by
  intro t9 h; unfold execPpsOutRise at h; simp only [done] at h; (repeat' split at h) <;> (cases h; simp)

theorem execPpsOutFall_keeps (s : State) :
    ∀ t9, execPpsOutFall s = .next t9 → t9.pending = s.pending ∧ t9.trust.otp = s.trust.otp := by
  intro t9 h; unfold execPpsOutFall at h; simp only [done] at h; (repeat' split at h) <;> (cases h; simp)

@[simp] theorem State.stepTai_keeps (s : State) (d : Int) :
    (State.stepTai s d).pending = s.pending ∧ (State.stepTai s d).trust.otp = s.trust.otp := by
  simp [State.stepTai]

@[simp] theorem State.discipline_keeps (s : State) (c st : Nat) (off : Int) :
    (State.discipline s c st off).pending = s.pending ∧ (State.discipline s c st off).trust.otp = s.trust.otp := by
  simp [State.discipline]

@[simp] theorem State.reorderSources_keeps (s : State) :
    (State.reorderSources s).pending = s.pending ∧ (State.reorderSources s).trust.otp = s.trust.otp := by
  simp [State.reorderSources]

@[simp] theorem State.commandStep_keeps (s : State) :
    (State.commandStep s).pending = s.pending ∧ (State.commandStep s).trust.otp = s.trust.otp := by
  simp [State.commandStep]

theorem execPpsInEdge_keeps (t : Nat) (s : State) :
    ∀ t9, execPpsInEdge t s = .next t9 → t9.pending = s.pending ∧ t9.trust.otp = s.trust.otp := by
  intro t9 h; unfold execPpsInEdge at h; simp only [done] at h; (repeat' split at h) <;> (cases h; simp)

@[simp] theorem State.ptpSync_keeps (s : State) (p rx : Nat) (corr : Int) (m : PtpMessage) :
    (State.ptpSync s p rx corr m).pending = s.pending ∧ (State.ptpSync s p rx corr m).trust.otp = s.trust.otp := by
  simp [State.ptpSync]

@[simp] theorem State.hearAnnounce_keeps (s : State) (p : Nat) (m : PtpMessage) :
    (State.hearAnnounce s p m).pending = s.pending ∧ (State.hearAnnounce s p m).trust.otp = s.trust.otp := by
  simp [State.hearAnnounce]

@[simp] theorem State.passPtp_keeps (s : State) (p q : Nat) (m : PtpMessage) :
    (State.passPtp s p q m).pending = s.pending ∧ (State.passPtp s p q m).trust.otp = s.trust.otp := by
  simp [State.passPtp]

theorem execPtpMessageReceive_keeps (p : PortId) (m : PtpMessage) (s : State) :
    ∀ t9, execPtpMessageReceive p m s = .next t9 → t9.pending = s.pending ∧ t9.trust.otp = s.trust.otp := by
  intro t9 h; unfold execPtpMessageReceive at h; simp only [done] at h; (repeat' split at h) <;> (cases h; simp)

theorem execTimeRefLoss_keeps (s : State) :
    ∀ t9, execTimeRefLoss s = .next t9 → t9.pending = s.pending ∧ t9.trust.otp = s.trust.otp := by
  intro t9 h; simp only [execTimeRefLoss, done, Host.Outcome.next.injEq] at h; subst h; simp

@[simp] theorem State.applyForced_keeps (s : State) (mode : Nat) :
    (State.applyForced s mode).pending = s.pending ∧ (State.applyForced s mode).trust.otp = s.trust.otp := by
  simp [State.applyForced]

@[simp] theorem State.loadAngle_keeps (s : State) (taiSec taiNs taiState : Nat) :
    (State.loadAngle s taiSec taiNs taiState).pending = s.pending ∧ (State.loadAngle s taiSec taiNs taiState).trust.otp = s.trust.otp := by
  simp [State.loadAngle]

@[simp] theorem State.translation_keeps (s : State) (p : Packet) (pr : Profile) (h : Parsed) :
    (State.translation s p pr h).2.pending = s.pending ∧ (State.translation s p pr h).2.trust.otp = s.trust.otp := by
  unfold State.translation
  split
  · dsimp only
    split
    · split <;> simp
    · simp
  · split
    · split <;> simp
    · split
      · simp
      · rename_i c _
        have k1 := State.takePort_keeps s pr.pool c (h.src) (recZone p.key)
        split
        · rename_i u nb s1 h1
          rw [h1] at k1
          dsimp only at k1 ⊢
          split
          · split <;> simp [k1]
          · simp [k1]
        · rename_i s1 h1
          rw [h1] at k1
          simpa using k1

end Sys2Proof.Machine
end

