-- ==== Sys2Proof/Laws/Keeps04.lean ====
section
/-! SUPPORT. What the functions of Services, GateCore, Sequencer keep: the queue and the OTP (R408). -/

namespace Sys2Proof.Machine

set_option maxRecDepth 4000
set_option simprocs false

theorem State.creationPlace_keeps (s : State) (k pr : Nat) (prof : Profile) (key : Bytes) :
    ∀ t, State.creationPlace s k pr prof key = .ok t → t.2.pending = s.pending ∧ t.2.trust.otp = s.trust.otp := by
  intro t h
  unfold State.creationPlace at h
  split at h
  · cases h
  · rename_i s1 h1
    have k1 := State.spendCreation_keeps s k pr prof.rate
    rw [h1] at k1
    dsimp only at k1
    split at h
    · cases h
    · rename_i loc s2 h2
      have k2 := State.placeFor_keeps s1 key pr (prof.evict == 1)
      rw [h2] at k2
      dsimp only at k2
      cases h
      exact ⟨k2.1.trans k1.1, k2.2.trans k1.2⟩

@[simp] theorem State.enterRec_keeps (s : State) (pr : Nat) (prof : Profile) (loc : Nat) (b : Bytes) :
    (State.enterRec s pr prof loc b).pending = s.pending ∧ (State.enterRec s pr prof loc b).trust.otp = s.trust.otp := by
  simp [State.enterRec]

theorem State.makeRec_keeps (s : State) (k pr : Nat) (prof : Profile) (b : Bytes) :
    ∀ t, State.makeRec s k pr prof b = .ok t → t.2.pending = s.pending ∧ t.2.trust.otp = s.trust.otp := by
  intro t h
  unfold State.makeRec at h
  split at h
  · cases h
  · rename_i loc s1 e
    have k1 := State.creationPlace_keeps _ _ _ _ _ _ e
    cases h
    simpa using k1

theorem State.reserveRec_keeps (s : State) (n k pr : Nat) (prof : Profile) (b : Bytes) :
    ∀ t, State.reserveRec s n k pr prof b = .ok t → t.2.pending = s.pending ∧ t.2.trust.otp = s.trust.otp := by
  intro t h
  unfold State.reserveRec at h
  split at h
  · cases h
  · rename_i loc s1 e
    have k1 := State.creationPlace_keeps _ _ _ _ _ _ e
    cases h
    simpa using k1

@[simp] theorem State.dropReserved_keeps (s : State) (n : Nat) :
    (State.dropReserved s n).pending = s.pending ∧ (State.dropReserved s n).trust.otp = s.trust.otp := by
  simp [State.dropReserved]

@[simp] theorem State.openOne_keeps (s : State) (x : Nat × FlowRec) :
    (State.openOne s x).pending = s.pending ∧ (State.openOne s x).trust.otp = s.trust.otp := by
  simp [State.openOne]

@[simp] theorem State.openReserved_keeps (s : State) (n : Nat) :
    (State.openReserved s n).pending = s.pending ∧ (State.openReserved s n).trust.otp = s.trust.otp := by
  simp [State.openReserved]

@[simp] theorem State.pairUp_keeps (s : State) (a b : Nat) :
    (State.pairUp s a b).pending = s.pending ∧ (State.pairUp s a b).trust.otp = s.trust.otp := by
  simp [State.pairUp]

@[simp] theorem State.newMapping_keeps (s : State) (p : Packet) (pr : Profile) (h : Parsed) :
    (State.newMapping s p pr h).2.pending = s.pending ∧ (State.newMapping s p pr h).2.trust.otp = s.trust.otp := by
  unfold State.newMapping; split <;> simp

@[simp] theorem State.createFor_keeps (s : State) (p : Packet) :
    (State.createFor s p).2.pending = s.pending ∧ (State.createFor s p).2.trust.otp = s.trust.otp := by
  unfold State.createFor
  extract_lets h pr k nat w5
  clear_value w5 nat k pr h
  split
  · simp
  · split
    · split
      · rename_i loc s1 e
        exact State.makeRec_keeps _ _ _ _ _ _ e
      · simp
    · have k1 := State.newMapping_keeps s p pr h
      split
      · rename_i s1 e
        rw [e] at k1
        exact k1
      · rename_i addr port s1 e
        rw [e] at k1
        dsimp only at k1 ⊢
        generalize (if nat then serviceWords addr port pr.pool false pr.destKind w5 else List.replicate 20 0 ++ natLe 4 w5) = fsvc
        cases e2 : s1.makeRec k p.profile pr (forwardRec p pr h fsvc) with
        | error c => simp
        | ok a =>
          have k2 := State.makeRec_keeps _ _ _ _ _ _ e2
          dsimp only
          split
          · simp
          · rename_i b s3 e3
            have k3 := State.makeRec_keeps _ _ _ _ _ _ e3
            split <;> simp_all

@[simp] theorem State.resetPair_keeps (s : State) (p : Packet) :
    (State.resetPair s p).pending = s.pending ∧ (State.resetPair s p).trust.otp = s.trust.otp := by
  unfold State.resetPair; (repeat' split) <;> simp

@[simp] theorem State.takeSeq_keeps (s : State) (key q : Nat) :
    (State.takeSeq s key q).pending = s.pending ∧ (State.takeSeq s key q).trust.otp = s.trust.otp := by
  simp [State.takeSeq]

@[simp] theorem State.permitRecord_keeps (s : State) (b : Bytes) (source code cause : Nat) :
    (State.permitRecord s b source code cause).pending = s.pending ∧ (State.permitRecord s b source code cause).trust.otp = s.trust.otp := by
  simp [State.permitRecord]

@[simp] theorem State.aggregate_keeps (s : State) (source cause : Nat) :
    (State.aggregate s source cause).pending = s.pending ∧ (State.aggregate s source cause).trust.otp = s.trust.otp := by
  simp [State.aggregate]

@[simp] theorem State.meetReason_keeps (s : State) (sel dig : Bytes) (code cause : Nat) :
    (State.meetReason s sel dig code cause).pending = s.pending ∧ (State.meetReason s sel dig code cause).trust.otp = s.trust.otp := by
  simp [State.meetReason]

@[simp] theorem State.refuseBody_keeps (s : State) (b : Bytes) (cause : Nat) :
    (State.refuseBody s b cause).pending = s.pending ∧ (State.refuseBody s b cause).trust.otp = s.trust.otp := by
  simp [State.refuseBody]

@[simp] theorem State.permitLevel_keeps (s : State) :
    (State.permitLevel s).pending = s.pending ∧ (State.permitLevel s).trust.otp = s.trust.otp := by
  simp [State.permitLevel]

@[simp] theorem State.putPermit_keeps (s : State) (i : Nat) (e : PermitEntry) :
    (State.putPermit s i e).pending = s.pending ∧ (State.putPermit s i e).trust.otp = s.trust.otp := by
  simp [State.putPermit]

@[simp] theorem State.erasePermit_keeps (s : State) (i : Nat) :
    (State.erasePermit s i).pending = s.pending ∧ (State.erasePermit s i).trust.otp = s.trust.otp := by
  simp [State.erasePermit]

@[simp] theorem State.dropPermits_keeps (s : State) (gone : PermitEntry → Bool) :
    (State.dropPermits s gone).pending = s.pending ∧ (State.dropPermits s gone).trust.otp = s.trust.otp := by
  simp [State.dropPermits]

@[simp] theorem State.killPermits_keeps (s : State) (key : Nat) :
    (State.killPermits s key).pending = s.pending ∧ (State.killPermits s key).trust.otp = s.trust.otp := by
  simp [State.killPermits]

@[simp] theorem State.rekeyPermits_keeps (s : State) (id : Nat) (old new : Option KeyInfo) :
    (State.rekeyPermits s id old new).pending = s.pending ∧ (State.rekeyPermits s id old new).trust.otp = s.trust.otp := by
  unfold State.rekeyPermits; (repeat' split) <;> simp

@[simp] theorem State.unspend_keeps (s : State) (b : Bytes) :
    (State.unspend s b).pending = s.pending ∧ (State.unspend s b).trust.otp = s.trust.otp := by
  simp [State.unspend]

@[simp] theorem feedSeals_keeps (n : Nat) (s : State) :
    (State.feedSeals n s).pending = s.pending ∧ (State.feedSeals n s).trust.otp = s.trust.otp := by
  induction n generalizing s with
  | zero => simp [State.feedSeals]
  | succ n ih =>
    simp only [State.feedSeals]
    split
    · simp
    · exact ⟨(ih _).1, (ih _).2⟩

@[simp] theorem State.lowerPort_keeps (s : State) (b : Bytes) (source other : Nat) :
    (State.lowerPort s b source other).pending = s.pending ∧ (State.lowerPort s b source other).trust.otp = s.trust.otp := by
  simp [State.lowerPort]

@[simp] theorem State.takeBody_keeps (s : State) (b : Bytes) (source : Nat) :
    (State.takeBody s b source).2.pending = s.pending ∧ (State.takeBody s b source).2.trust.otp = s.trust.otp := by
  unfold State.takeBody; dsimp only; (repeat' split) <;> simp_all

theorem execPermitFrameReceive_keeps (p : PortId) (body : Bytes) (s : State) :
    ∀ t9, execPermitFrameReceive p body s = .next t9 → t9.pending = s.pending ∧ t9.trust.otp = s.trust.otp := by
  intro t9 h; unfold execPermitFrameReceive at h; simp only [done] at h; (repeat' split at h) <;> (cases h; simp)

@[simp] theorem State.writeAggregate_keeps (s : State) (a : Aggregate) :
    (State.writeAggregate s a).pending = s.pending ∧ (State.writeAggregate s a).trust.otp = s.trust.otp := by
  simp [State.writeAggregate]

theorem execAggregateRefusalRecord_keeps (s : State) :
    ∀ t9, execAggregateRefusalRecord s = .next t9 → t9.pending = s.pending ∧ t9.trust.otp = s.trust.otp := by
  intro t9 h; simp only [execAggregateRefusalRecord, done, Host.Outcome.next.injEq] at h; subst h; simp

@[simp] theorem State.setWork_keeps (s : State) (k : Nat) (q : List Nat) :
    (State.setWork s k q).pending = s.pending ∧ (State.setWork s k q).trust.otp = s.trust.otp := by
  simp [State.setWork]

@[simp] theorem State.dropWork_keeps (s : State) (n : Nat) :
    (State.dropWork s n).pending = s.pending ∧ (State.dropWork s n).trust.otp = s.trust.otp := by
  unfold State.dropWork; (repeat' split) <;> simp

@[simp] theorem State.joinWork_keeps (s : State) (n : Nat) :
    (State.joinWork s n).pending = s.pending ∧ (State.joinWork s n).trust.otp = s.trust.otp := by
  unfold State.joinWork; (repeat' split) <;> simp

@[simp] theorem State.giveHash_keeps (s : State) :
    (State.giveHash s).pending = s.pending ∧ (State.giveHash s).trust.otp = s.trust.otp := by
  unfold State.giveHash; dsimp only; (repeat' split) <;> simp_all

@[simp] theorem State.giveHashes_keeps (s : State) :
    (State.giveHashes s).pending = s.pending ∧ (State.giveHashes s).trust.otp = s.trust.otp := by
  simp [State.giveHashes]

@[simp] theorem State.joinHash_keeps (s : State) (n : Nat) (p : Packet) :
    (State.joinHash s n p).pending = s.pending ∧ (State.joinHash s n p).trust.otp = s.trust.otp := by
  simp [State.joinHash]

@[simp] theorem State.loseHash_keeps (s : State) (h : Nat) :
    (State.loseHash s h).pending = s.pending ∧ (State.loseHash s h).trust.otp = s.trust.otp := by
  unfold State.loseHash; dsimp only; (repeat' split) <;> simp_all

@[simp] theorem State.toStep6_keeps (s : State) (n : Nat) :
    (State.toStep6 s n).pending = s.pending ∧ (State.toStep6 s n).trust.otp = s.trust.otp := by
  unfold State.toStep6; (repeat' split) <;> simp

@[simp] theorem State.issueOp_keeps (s : State) (n : Nat) (p : Packet) (key : Bytes) :
    (State.issueOp s n p key).pending = s.pending ∧ (State.issueOp s n p key).trust.otp = s.trust.otp := by
  simp [State.issueOp]

@[simp] theorem State.endOp_keeps (s : State) (n : Nat) (key : Bytes) :
    (State.endOp s n key).pending = s.pending ∧ (State.endOp s n key).trust.otp = s.trust.otp := by
  simp [State.endOp]

@[simp] theorem State.lockOp_keeps (s : State) (n : Nat) (key : Bytes) :
    (State.lockOp s n key).pending = s.pending ∧ (State.lockOp s n key).trust.otp = s.trust.otp := by
  simp [State.lockOp]

@[simp] theorem State.lookedOp_keeps (s : State) (n : Nat) (key : Bytes) (looked : Bool) :
    (State.lookedOp s n key looked).pending = s.pending ∧ (State.lookedOp s n key looked).trust.otp = s.trust.otp := by
  simp [State.lookedOp]

@[simp] theorem State.issuePair_keeps (s : State) (n : Nat) (p : Packet) (loc : Nat) :
    (State.issuePair s n p loc).pending = s.pending ∧ (State.issuePair s n p loc).trust.otp = s.trust.otp := by
  unfold State.issuePair; (repeat' split) <;> simp

@[simp] theorem State.releaseLocks_keeps (s : State) (n : Nat) :
    (State.releaseLocks s n).pending = s.pending ∧ (State.releaseLocks s n).trust.otp = s.trust.otp := by
  simp [State.releaseLocks]

@[simp] theorem State.readDirectory_keeps (s : State) (key : Bytes) (owner : ReadOwner) :
    (State.readDirectory s key owner).pending = s.pending ∧ (State.readDirectory s key owner).trust.otp = s.trust.otp := by
  simp [State.readDirectory]

@[simp] theorem State.takeLocks_keeps (n : Nat) (p : Packet) (l : List Bytes) (s : State) :
    (State.takeLocks n p l s).2.pending = s.pending ∧ (State.takeLocks n p l s).2.trust.otp = s.trust.otp := by
  induction l generalizing s with
  | nil => simp [State.takeLocks]
  | cons key rest ih =>
    unfold State.takeLocks
    extract_lets mine s1
    have h1 : s1.pending = s.pending ∧ s1.trust.otp = s.trust.otp := by simp only [s1]; split <;> simp
    clear_value s1
    split
    · simpa using h1
    · have h2 := ih (s1.lockOp n key)
      simp at h2
      exact ⟨h2.1.trans h1.1, h2.2.trans h1.2⟩

@[simp] theorem State.readPair_keeps (s : State) (n : Nat) (p : Packet) :
    (State.readPair s n p).pending = s.pending ∧ (State.readPair s n p).trust.otp = s.trust.otp := by
  unfold State.readPair; (repeat' split) <;> simp

@[simp] theorem State.withLocks_keeps (s : State) (n : Nat) :
    (State.withLocks s n).pending = s.pending ∧ (State.withLocks s n).trust.otp = s.trust.otp := by
  unfold State.withLocks
  split
  · simp
  · rename_i p _
    have h1 := State.takeLocks_keeps n p p.locks s
    rcases h : State.takeLocks n p p.locks s with ⟨left, s1⟩
    rw [h] at h1
    dsimp only at h1 ⊢
    split <;> simpa using h1

@[simp] theorem State.settleRecord_keeps (s : State) (n : Nat) :
    (State.settleRecord s n).pending = s.pending ∧ (State.settleRecord s n).trust.otp = s.trust.otp := by
  unfold State.settleRecord; (repeat' split) <;> simp

@[simp] theorem State.endFenceWaits_keeps (s : State) :
    (State.endFenceWaits s).pending = s.pending ∧ (State.endFenceWaits s).trust.otp = s.trust.otp := by
  simp [State.endFenceWaits]

@[simp] theorem State.foundRecord_keeps (s : State) (n loc : Nat) :
    (State.foundRecord s n loc).pending = s.pending ∧ (State.foundRecord s n loc).trust.otp = s.trust.otp := by
  unfold State.foundRecord; (repeat' split) <;> simp

@[simp] theorem State.createRec_keeps (s : State) (n : Nat) :
    (State.createRec s n).pending = s.pending ∧ (State.createRec s n).trust.otp = s.trust.otp := by
  unfold State.createRec
  split
  · simp
  · extract_lets d p pr
    have h1 := State.createFor_keeps s p
    generalize s.createFor p = y at h1 ⊢
    obtain ⟨c, s1⟩ := y
    dsimp only at h1
    cases c <;> dsimp only <;> (try split) <;> simp [h1.1, h1.2]

@[simp] theorem State.createNow_keeps (s : State) (n : Nat) :
    (State.createNow s n).pending = s.pending ∧ (State.createNow s n).trust.otp = s.trust.otp := by
  unfold State.createNow; (repeat' split) <;> simp

end Sys2Proof.Machine
end

