-- ==== Sys2Proof/Laws/Keeps05.lean ====
section
/-! SUPPORT. What the functions of Sequencer, SheafTx, Hold, Mailbox keep: the queue and the OTP (R408). -/

namespace Sys2Proof.Machine

set_option maxRecDepth 4000
set_option simprocs false

@[simp] theorem State.joinPool_keeps (s : State) (n : Nat) :
    (State.joinPool s n).pending = s.pending ∧ (State.joinPool s n).trust.otp = s.trust.otp := by
  simp [State.joinPool]

@[simp] theorem State.missedRecord_keeps (s : State) (n : Nat) :
    (State.missedRecord s n).pending = s.pending ∧ (State.missedRecord s n).trust.otp = s.trust.otp := by
  unfold State.missedRecord; (repeat' split) <;> simp

@[simp] theorem State.waitForRecord_keeps (s : State) (n : Nat) (p : Packet) (timed : Bool) :
    (State.waitForRecord s n p timed).pending = s.pending ∧ (State.waitForRecord s n p timed).trust.otp = s.trust.otp := by
  simp [State.waitForRecord]

@[simp] theorem State.waitFence_keeps (s : State) (n : Nat) (p : Packet) :
    (State.waitFence s n p).pending = s.pending ∧ (State.waitFence s n p).trust.otp = s.trust.otp := by
  simp [State.waitFence]

@[simp] theorem State.lookOn_keeps (s : State) (n : Nat) (p : Packet) :
    (State.lookOn s n p).pending = s.pending ∧ (State.lookOn s n p).trust.otp = s.trust.otp := by
  unfold State.lookOn; (repeat' split) <;> simp

@[simp] theorem State.lockFound_keeps (s : State) (n : Nat) (p : Packet) (c : Context) (h loc : Nat) (made : Bool) :
    (State.lockFound s n p c h loc made).pending = s.pending ∧ (State.lockFound s n p c h loc made).trust.otp = s.trust.otp := by
  simp [State.lockFound]

@[simp] theorem State.lockAbsent_keeps (s : State) (n : Nat) (p : Packet) (c : Context) (refused : Bool) :
    (State.lockAbsent s n p c refused).pending = s.pending ∧ (State.lockAbsent s n p c refused).trust.otp = s.trust.otp := by
  simp [State.lockAbsent]

@[simp] theorem State.lockCreate_keeps (s : State) (n : Nat) (p : Packet) (c : Context) (h : Nat) :
    (State.lockCreate s n p c h).pending = s.pending ∧ (State.lockCreate s n p c h).trust.otp = s.trust.otp := by
  unfold State.lockCreate; dsimp only
  split
  · rename_i loc s1 e
    have k1 := State.reserveRec_keeps _ _ _ _ _ _ _ e
    simp_all
  · simp

@[simp] theorem State.lockMissed_keeps (s : State) (n : Nat) (p : Packet) (c : Context) (create : Bool) (h : Nat) :
    (State.lockMissed s n p c create h).pending = s.pending ∧ (State.lockMissed s n p c create h).trust.otp = s.trust.otp := by
  unfold State.lockMissed; (repeat' split) <;> simp

@[simp] theorem State.createTurn_keeps (s : State) (n : Nat) :
    (State.createTurn s n).pending = s.pending ∧ (State.createTurn s n).trust.otp = s.trust.otp := by
  unfold State.createTurn; (repeat' split) <;> simp

@[simp] theorem State.servePool_keeps (s : State) :
    (State.servePool s).pending = s.pending ∧ (State.servePool s).trust.otp = s.trust.otp := by
  unfold State.servePool; (repeat' split) <;> simp

@[simp] theorem State.lockOn_keeps (s : State) (n : Nat) (p : Packet) (c : Context) (create : Bool) (h : Nat) :
    (State.lockOn s n p c create h).pending = s.pending ∧ (State.lockOn s n p c create h).trust.otp = s.trust.otp := by
  unfold State.lockOn; (repeat' split) <;> simp

@[simp] theorem State.lockStart_keeps (s : State) (n : Nat) (p : Packet) (c : Context) (h : Nat) (create : Bool) :
    (State.lockStart s n p c h create).pending = s.pending ∧ (State.lockStart s n p c h create).trust.otp = s.trust.otp := by
  unfold State.lockStart; dsimp only; (repeat' split) <;> simp_all

@[simp] theorem State.lookStart_keeps (s : State) (n : Nat) (p : Packet) :
    (State.lookStart s n p).pending = s.pending ∧ (State.lookStart s n p).trust.otp = s.trust.otp := by
  unfold State.lookStart; (repeat' split) <;> simp

theorem execFlowSequencerRelease_keeps (n : Nat) (s : State) :
    ∀ t9, execFlowSequencerRelease n s = .next t9 → t9.pending = s.pending ∧ t9.trust.otp = s.trust.otp := by
  intro t9 h; unfold execFlowSequencerRelease at h; simp only [done] at h; (repeat' split at h) <;> (cases h; simp)

theorem execFlowRecordWaitTimeout_keeps (n : Nat) (s : State) :
    ∀ t9, execFlowRecordWaitTimeout n s = .next t9 → t9.pending = s.pending ∧ t9.trust.otp = s.trust.otp := by
  intro t9 h
  unfold execFlowRecordWaitTimeout at h
  split at h
  · cases h; simp
  · split at h
    · injection h with h
      rw [← h]
      refine foldl_keeps _ _ _ (fun t n => ?_)
      split <;> simp
    · cases h; simp

@[simp] theorem State.endRead_keeps (s : State) (r : MemRead) (res : ReadResult) :
    (State.endRead s r res).pending = s.pending ∧ (State.endRead s r res).trust.otp = s.trust.otp := by
  unfold State.endRead; (repeat' split) <;> simp

@[simp] theorem State.loseRecord_keeps (s : State) (u loc : Nat) :
    (State.loseRecord s u loc).pending = s.pending ∧ (State.loseRecord s u loc).trust.otp = s.trust.otp := by
  simp [State.loseRecord]

@[simp] theorem State.loseBucket_keeps (s : State) (u b : Nat) :
    (State.loseBucket s u b).pending = s.pending ∧ (State.loseBucket s u b).trust.otp = s.trust.otp := by
  simp [State.loseBucket]

@[simp] theorem State.losePermits_keeps (s : State) (u b : Nat) :
    (State.losePermits s u b).pending = s.pending ∧ (State.losePermits s u b).trust.otp = s.trust.otp := by
  simp [State.losePermits]

@[simp] theorem State.lockReply_keeps (s : State) (n : Nat) (r : MemRead) (res : ReadResult) :
    (State.lockReply s n r res).pending = s.pending ∧ (State.lockReply s n r res).trust.otp = s.trust.otp := by
  unfold State.lockReply; dsimp only; (repeat' split) <;> simp_all

@[simp] theorem State.lostPolicy_keeps (s : State) (u a : Nat) :
    (State.lostPolicy s u a).pending = s.pending ∧ (State.lostPolicy s u a).trust.otp = s.trust.otp := by
  unfold State.lostPolicy; (repeat' split) <;> simp

@[simp] theorem State.objectAnswer_keeps (s : State) (n place : Nat) (bad : Bool) :
    (State.objectAnswer s n place bad).pending = s.pending ∧ (State.objectAnswer s n place bad).trust.otp = s.trust.otp := by
  unfold State.objectAnswer; (repeat' split) <;> simp

@[simp] theorem State.readObject_keeps (s : State) (n a : Nat) :
    (State.readObject s n a).pending = s.pending ∧ (State.readObject s n a).trust.otp = s.trust.otp := by
  unfold State.readObject; (repeat' split) <;> simp

@[simp] theorem State.objectReply_keeps (s : State) (n : Nat) (r : MemRead) (res : ReadResult) :
    (State.objectReply s n r res).pending = s.pending ∧ (State.objectReply s n r res).trust.otp = s.trust.otp := by
  simp [State.objectReply]

@[simp] theorem State.pairReply_keeps (s : State) (n : Nat) (p : Packet) (r : MemRead) (res : ReadResult) :
    (State.pairReply s n p r res).pending = s.pending ∧ (State.pairReply s n p r res).trust.otp = s.trust.otp := by
  simp [State.pairReply]

@[simp] theorem State.recordReply_keeps (s : State) (n : Nat) (r : MemRead) (res : ReadResult) :
    (State.recordReply s n r res).pending = s.pending ∧ (State.recordReply s n r res).trust.otp = s.trust.otp := by
  unfold State.recordReply; dsimp only; (repeat' split) <;> simp_all

@[simp] theorem State.refillReply_keeps (s : State) (r : MemRead) (res : ReadResult) :
    (State.refillReply s r res).pending = s.pending ∧ (State.refillReply s r res).trust.otp = s.trust.otp := by
  simp [State.refillReply]

@[simp] theorem State.cacheError_keeps (s : State) (loc : Nat) (double : Bool) :
    (State.cacheError s loc double).pending = s.pending ∧ (State.cacheError s loc double).trust.otp = s.trust.otp := by
  unfold State.cacheError; (repeat' split) <;> simp

theorem execMemoryReadComplete_keeps (rd : Nat) (res : ReadResult) (s : State) :
    ∀ t9, execMemoryReadComplete rd res s = .next t9 → t9.pending = s.pending ∧ t9.trust.otp = s.trust.otp := by
  intro t9 h; unfold execMemoryReadComplete at h; simp only [done] at h; (repeat' split at h) <;> (cases h; simp)

@[simp] theorem State.enqueueMsg_keeps (s : State) (n num : Nat) (m : Msg) (both : Bool) :
    (State.enqueueMsg s n num m both).pending = s.pending ∧ (State.enqueueMsg s n num m both).trust.otp = s.trust.otp := by
  simp [State.enqueueMsg]

@[simp] theorem State.sendMsg_keeps (s : State) (num : Nat) (m : Msg) :
    (State.sendMsg s num m).pending = s.pending ∧ (State.sendMsg s num m).trust.otp = s.trust.otp := by
  simp [State.sendMsg]

@[simp] theorem State.tell_keeps (s : State) (m : Msg) :
    (State.tell s m).pending = s.pending ∧ (State.tell s m).trust.otp = s.trust.otp := by
  simp [State.tell]

@[simp] theorem State.tellOn_keeps (s : State) (n : Nat) (m : Msg) :
    (State.tellOn s n m).pending = s.pending ∧ (State.tellOn s n m).trust.otp = s.trust.otp := by
  simp [State.tellOn]

@[simp] theorem State.countVerdict_keeps (s : State) (profile code cause : Nat) :
    (State.countVerdict s profile code cause).pending = s.pending ∧ (State.countVerdict s profile code cause).trust.otp = s.trust.otp := by
  simp [State.countVerdict]

@[simp] theorem State.verdictRecords_keeps (s : State) (p : Packet) (code cause : Nat) :
    (State.verdictRecords s p code cause).pending = s.pending ∧ (State.verdictRecords s p code cause).trust.otp = s.trust.otp := by
  simp [State.verdictRecords]

@[simp] theorem State.inject_keeps (s : State) (p : Packet) (bytes : Bytes) (dests : List Nat) (route : Option (Nat × Nat × Nat)) :
    (State.inject s p bytes dests route).pending = s.pending ∧ (State.inject s p bytes dests route).trust.otp = s.trust.otp := by
  unfold State.inject; (repeat' split) <;> simp

@[simp] theorem State.toCollector_keeps (s : State) (c : Nat) (msg : Bytes) :
    (State.toCollector s c msg).pending = s.pending ∧ (State.toCollector s c msg).trust.otp = s.trust.otp := by
  unfold State.toCollector; dsimp only; (repeat' split) <;> simp

@[simp] theorem State.sendExport_keeps (s : State) (msg : Bytes) :
    ∀ t, State.sendExport s msg = some t → t.pending = s.pending ∧ t.trust.otp = s.trust.otp := by
  intro t h
  unfold State.sendExport at h
  split at h
  · exact State.ringExport_keeps _ _ _ _ h
  · cases h; exact foldl_keeps _ _ _ (fun t k => by simp)

theorem execExportMessageSend_keeps (s : State) :
    ∀ t9, execExportMessageSend s = .next t9 → t9.pending = s.pending ∧ t9.trust.otp = s.trust.otp := by
  intro t h
  have k := State.skipLost_keeps s
  unfold execExportMessageSend at h
  dsimp only at h
  split at h
  · exact next_keeps k h
  · split at h
    · exact next_keeps k h
    · split at h
      · rename_i s1 h1
        have := State.sendExport_keeps _ _ _ h1
        exact next_keeps (by simpa [k] using this) h
      · exact next_keeps k h

theorem execTemplateResend_keeps (s : State) :
    ∀ t9, execTemplateResend s = .next t9 → t9.pending = s.pending ∧ t9.trust.otp = s.trust.otp := by
  intro t h
  unfold execTemplateResend at h
  split at h
  · exact next_keeps ⟨rfl, rfl⟩ h
  · split at h
    · split at h
      · rename_i s1 h1
        have := State.sendExport_keeps _ _ _ h1
        exact next_keeps (by simpa using this) h
      · exact next_keeps ⟨rfl, rfl⟩ h
    · exact next_keeps ⟨rfl, rfl⟩ h

@[simp] theorem State.sendResets_keeps (s : State) (p : Packet) :
    (State.sendResets s p).pending = s.pending ∧ (State.sendResets s p).trust.otp = s.trust.otp := by
  simp [State.sendResets]

@[simp] theorem State.discardPlain_keeps (s : State) (n : Nat) (p : Packet) (code cause : Nat) :
    (State.discardPlain s n p code cause).pending = s.pending ∧ (State.discardPlain s n p code cause).trust.otp = s.trust.otp := by
  simp [State.discardPlain]

@[simp] theorem State.discardBehind_keeps (s : State) (m code cause : Nat) :
    (State.discardBehind s m code cause).pending = s.pending ∧ (State.discardBehind s m code cause).trust.otp = s.trust.otp := by
  unfold State.discardBehind; (repeat' split) <;> simp

@[simp] theorem State.discardCmd_keeps (s : State) (n : Nat) (code cause : Nat) (again : Bool) :
    (State.discardCmd s n code cause again).pending = s.pending ∧ (State.discardCmd s n code cause again).trust.otp = s.trust.otp := by
  unfold State.discardCmd; (repeat' split) <;> simp

@[simp] theorem State.takeGrant_keeps (s : State) (n : Nat) (g : Grant) :
    (State.takeGrant s n g).pending = s.pending ∧ (State.takeGrant s n g).trust.otp = s.trust.otp := by
  unfold State.takeGrant; (repeat' split) <;> simp

@[simp] theorem State.passCmd_keeps (s : State) (n : Nat) :
    (State.passCmd s n).pending = s.pending ∧ (State.passCmd s n).trust.otp = s.trust.otp := by
  unfold State.passCmd; (repeat' split) <;> simp

@[simp] theorem State.goBehind_keeps (s : State) (n : Nat) (p : Packet) :
    (State.goBehind s n p).pending = s.pending ∧ (State.goBehind s n p).trust.otp = s.trust.otp := by
  simp [State.goBehind]

@[simp] theorem State.pushBehind_keeps (s : State) (n : Nat) (key : Bytes) :
    (State.pushBehind s n key).pending = s.pending ∧ (State.pushBehind s n key).trust.otp = s.trust.otp := by
  simp [State.pushBehind]

@[simp] theorem State.holdPkt_keeps (s : State) (n : Nat) (p : Packet) :
    (State.holdPkt s n p).pending = s.pending ∧ (State.holdPkt s n p).trust.otp = s.trust.otp := by
  simp [State.holdPkt]

@[simp] theorem State.enterHold_keeps (s : State) (n : Nat) (p : Packet) (rs : List (Nat × Nat)) :
    (State.enterHold s n p rs).pending = s.pending ∧ (State.enterHold s n p rs).trust.otp = s.trust.otp := by
  simp [State.enterHold]

@[simp] theorem State.lookupCmd_keeps (s : State) (n : Nat) :
    (State.lookupCmd s n).pending = s.pending ∧ (State.lookupCmd s n).trust.otp = s.trust.otp := by
  unfold State.lookupCmd; dsimp only; (repeat' split) <;> simp_all

@[simp] theorem State.releaseFlow_keeps (s : State) (key : Bytes) :
    (State.releaseFlow s key).pending = s.pending ∧ (State.releaseFlow s key).trust.otp = s.trust.otp := by
  unfold State.releaseFlow
  refine foldl_keeps _ _ _ (fun t n => ?_)
  split
  · simp
  · split
    · split <;> simp
    · simp

@[simp] theorem State.relookup_keeps (s : State) (which : Packet → Bool) :
    (State.relookup s which).pending = s.pending ∧ (State.relookup s which).trust.otp = s.trust.otp := by
  simp [State.relookup]

@[simp] theorem State.relookupSel_keeps (s : State) (sel : Bytes) :
    (State.relookupSel s sel).pending = s.pending ∧ (State.relookupSel s sel).trust.otp = s.trust.otp := by
  simp [State.relookupSel]

@[simp] theorem State.noCommand_keeps (s : State) (n : Nat) :
    (State.noCommand s n).pending = s.pending ∧ (State.noCommand s n).trust.otp = s.trust.otp := by
  unfold State.noCommand; (repeat' split) <;> simp

@[simp] theorem State.unsealed_keeps (s : State) (n cause : Nat) :
    (State.unsealed s n cause).pending = s.pending ∧ (State.unsealed s n cause).trust.otp = s.trust.otp := by
  unfold State.unsealed; (repeat' split) <;> simp

theorem execPermitTableLookup_keeps (n : Nat) (s : State) :
    ∀ t9, execPermitTableLookup n s = .next t9 → t9.pending = s.pending ∧ t9.trust.otp = s.trust.otp := by
  intro t9 h; unfold execPermitTableLookup at h; simp only [done] at h; (repeat' split at h) <;> (cases h; simp)

theorem execHoldLimitExpiry_keeps (n : Nat) (s : State) :
    ∀ t9, execHoldLimitExpiry n s = .next t9 → t9.pending = s.pending ∧ t9.trust.otp = s.trust.otp := by
  intro t9 h; unfold execHoldLimitExpiry at h; simp only [done] at h; (repeat' split at h) <;> (cases h; simp)

@[simp] theorem State.gateState_keeps (s : State) (shut : Bool) (cause source key flushed : Nat) :
    (State.gateState s shut cause source key flushed).pending = s.pending ∧ (State.gateState s shut cause source key flushed).trust.otp = s.trust.otp := by
  simp [State.gateState]

@[simp] theorem State.dropHeld_keeps (s : State) (cause : Nat) :
    (State.dropHeld s cause).pending = s.pending ∧ (State.dropHeld s cause).trust.otp = s.trust.otp := by
  simp [State.dropHeld]

@[simp] theorem State.shutGate_keeps (s : State) (cause source key : Nat) :
    (State.shutGate s cause source key).pending = s.pending ∧ (State.shutGate s cause source key).trust.otp = s.trust.otp := by
  simp [State.shutGate]

@[simp] theorem State.openGate_keeps (s : State) (source key : Nat) :
    (State.openGate s source key).pending = s.pending ∧ (State.openGate s source key).trust.otp = s.trust.otp := by
  simp [State.openGate]

@[simp] theorem State.pinShut_keeps (s : State) :
    (State.pinShut s).pending = s.pending ∧ (State.pinShut s).trust.otp = s.trust.otp := by
  simp [State.pinShut]

theorem execGateShutAssert_keeps (s : State) :
    ∀ t9, execGateShutAssert s = .next t9 → t9.pending = s.pending ∧ t9.trust.otp = s.trust.otp := by
  intro t9 h; unfold execGateShutAssert at h; simp only [done] at h; (repeat' split at h) <;> (cases h; simp)

theorem execGateShutDeassert_keeps (s : State) :
    ∀ t9, execGateShutDeassert s = .next t9 → t9.pending = s.pending ∧ t9.trust.otp = s.trust.otp := by
  intro t9 h; simp only [execGateShutDeassert, done, Host.Outcome.next.injEq] at h; subst h; simp

theorem execGateShutRelease_keeps (s : State) :
    ∀ t9, execGateShutRelease s = .next t9 → t9.pending = s.pending ∧ t9.trust.otp = s.trust.otp := by
  intro t9 h; unfold execGateShutRelease at h; simp only [done] at h; (repeat' split at h) <;> (cases h; simp)

@[simp] theorem State.mgmtDrain_keeps (n : Nat) (s : State) :
    (State.mgmtDrain n s).pending = s.pending ∧ (State.mgmtDrain n s).trust.otp = s.trust.otp := by
  induction n generalizing s with
  | zero => simp [State.mgmtDrain]
  | succ n ih =>
    unfold State.mgmtDrain
    split
    · simp
    · split
      · simp [ih]
      · simp

@[simp] theorem State.mgmtSend_keeps (s : State) (dst : Bytes) (mb : Nat) (m : Bytes) :
    (State.mgmtSend s dst mb m).pending = s.pending ∧ (State.mgmtSend s dst mb m).trust.otp = s.trust.otp := by
  simp [State.mgmtSend]

@[simp] theorem State.mgmtClock_keeps (s : State) :
    (State.mgmtClock s).pending = s.pending ∧ (State.mgmtClock s).trust.otp = s.trust.otp := by
  simp [State.mgmtClock]

@[simp] theorem State.windowWrite_keeps (s : State) (mb off : Nat) (bs : Bytes) :
    (State.windowWrite s mb off bs).pending = s.pending ∧ (State.windowWrite s mb off bs).trust.otp = s.trust.otp := by
  simp [State.windowWrite]

@[simp] theorem State.pcieComplete_keeps (s : State) (mb : Nat) (c : Completion) (again : Bool) :
    (State.pcieComplete s mb c again).pending = s.pending ∧ (State.pcieComplete s mb c again).trust.otp = s.trust.otp := by
  unfold State.pcieComplete; dsimp only; (repeat' split) <;> simp_all

@[simp] theorem State.transport_keeps (s : State) (mb : Nat) (c : Completion) (again : Bool) :
    (State.transport s mb c again).pending = s.pending ∧ (State.transport s mb c again).trust.otp = s.trust.otp := by
  simp [State.transport]

@[simp] theorem State.deliver_keeps (s : State) (mb : Nat) (c : Completion) :
    (State.deliver s mb c).pending = s.pending ∧ (State.deliver s mb c).trust.otp = s.trust.otp := by
  simp [State.deliver]

end Sys2Proof.Machine
end

