-- ==== Sys2Proof/Laws/Keeps06.lean ====
section
/-! SUPPORT. What the functions of Mailbox, Ports, FaultCore keep: the queue and the OTP (R408). -/

namespace Sys2Proof.Machine

set_option maxRecDepth 4000
set_option simprocs false

@[simp] theorem flushLine_keeps (mb n : Nat) (s : State) :
    (State.flushLine mb n s).pending = s.pending ∧ (State.flushLine mb n s).trust.otp = s.trust.otp := by
  induction n generalizing s with
  | zero => simp [State.flushLine]
  | succ n ih =>
    simp only [State.flushLine]
    split
    · simp
    · split
      · simp
      · split
        · simp
        · simp [ih]

@[simp] theorem State.answer_keeps (s : State) (mb seq status detail : Nat) (resp : Bytes) (tick : Nat) :
    (State.answer s mb seq status detail resp tick).pending = s.pending ∧ (State.answer s mb seq status detail resp tick).trust.otp = s.trust.otp := by
  simp [State.answer]

@[simp] theorem State.endLong_keeps (s : State) (kind idx status detail : Nat) (resp : Bytes) (tick : Nat) :
    (State.endLong s kind idx status detail resp tick).pending = s.pending ∧ (State.endLong s kind idx status detail resp tick).trust.otp = s.trust.otp := by
  simp [State.endLong]

@[simp] theorem State.spendCounter_keeps (s : State) (id counter : Nat) :
    (State.spendCounter s id counter).pending = s.pending ∧ (State.spendCounter s id counter).trust.otp = s.trust.otp := by
  simp [State.spendCounter]

@[simp] theorem State.dispatch_keeps (s : State) (op cls : Nat) (read_ : Bool) (r : Request) (run : Option Nat → State → Ans × State) (h_run : ∀ a t, (run a t).2.pending = t.pending ∧ (run a t).2.trust.otp = t.trust.otp) :
    (State.dispatch s op cls read_ r run).2.pending = s.pending ∧ (State.dispatch s op cls read_ r run).2.trust.otp = s.trust.otp := by
  unfold State.dispatch; dsimp only; (repeat' split) <;> simp_all [h_run]

@[simp] theorem State.openLine_keeps (s : State) (op : Nat) (r : Request) :
    (State.openLine s op r).pending = s.pending ∧ (State.openLine s op r).trust.otp = s.trust.otp := by
  simp [State.openLine]

@[simp] theorem State.conclude_keeps (s : State) (op : Nat) (r : Request) (a : Ans) :
    (State.conclude s op r a).pending = s.pending ∧ (State.conclude s op r a).trust.otp = s.trust.otp := by
  simp [State.conclude]

@[simp] theorem State.outOfOrder_keeps (s : State) (op : Nat) (r : Request) :
    (State.outOfOrder s op r).pending = s.pending ∧ (State.outOfOrder s op r).trust.otp = s.trust.otp := by
  unfold State.outOfOrder; dsimp only; (repeat' split) <;> simp_all

@[simp] theorem State.serve_keeps (s : State) (op : Nat) (r : Request) (run : State → Ans × State) (h_run : ∀ t, (run t).2.pending = t.pending ∧ (run t).2.trust.otp = t.trust.otp) :
    (State.serve s op r run).pending = s.pending ∧ (State.serve s op r run).trust.otp = s.trust.otp := by
  simp [State.serve, h_run]

@[simp] theorem State.request_keeps (s : State) (op cls : Nat) (read_ : Bool) (r : Request) (run : Option Nat → State → Ans × State) (h_run : ∀ a t, (run a t).2.pending = t.pending ∧ (run a t).2.trust.otp = t.trust.otp) :
    (State.request s op cls read_ r run).pending = s.pending ∧ (State.request s op cls read_ r run).trust.otp = s.trust.otp := by
  simp [State.request, h_run]

theorem State.readReq_keeps (s : State) (op cls : Nat) (r : Request) (f : State → Ans) :
    ∀ t9, State.readReq s op cls r f = .next t9 → t9.pending = s.pending ∧ t9.trust.otp = s.trust.otp := by
  intro t9 h; simp only [State.readReq, done, Host.Outcome.next.injEq] at h; subst h; simp

@[simp] theorem State.failAttempt_keeps (s : State) (p cause : Nat) :
    (State.failAttempt s p cause).pending = s.pending ∧ (State.failAttempt s p cause).trust.otp = s.trust.otp := by
  simp [State.failAttempt]

@[simp] theorem State.beginAttempt_keeps (s : State) (p : Nat) :
    (State.beginAttempt s p).pending = s.pending ∧ (State.beginAttempt s p).trust.otp = s.trust.otp := by
  simp [State.beginAttempt]

theorem execTrainingAttemptStart_keeps (p : PortId) (s : State) :
    ∀ t9, execTrainingAttemptStart p s = .next t9 → t9.pending = s.pending ∧ t9.trust.otp = s.trust.otp := by
  intro t9 h; unfold execTrainingAttemptStart at h; simp only [done] at h; (repeat' split at h) <;> (cases h; simp)

theorem execRetryWaitExpiry_keeps (p : PortId) (s : State) :
    ∀ t9, execRetryWaitExpiry p s = .next t9 → t9.pending = s.pending ∧ t9.trust.otp = s.trust.otp := by
  intro t9 h; unfold execRetryWaitExpiry at h; simp only [done] at h; (repeat' split at h) <;> (cases h; simp)

theorem execSuspensionIntervalExpiry_keeps (p : PortId) (s : State) :
    ∀ t9, execSuspensionIntervalExpiry p s = .next t9 → t9.pending = s.pending ∧ t9.trust.otp = s.trust.otp := by
  intro t9 h; unfold execSuspensionIntervalExpiry at h; simp only [done] at h; (repeat' split at h) <;> (cases h; simp)

theorem execNegotiationComplete_keeps (p : PortId) (partner : ModeSet) (s : State) :
    ∀ t9, execNegotiationComplete p partner s = .next t9 → t9.pending = s.pending ∧ t9.trust.otp = s.trust.otp := by
  intro t9 h; unfold execNegotiationComplete at h; simp only [done] at h; (repeat' split at h) <;> (cases h; simp)

theorem execNegotiationTimeout_keeps (p : PortId) (s : State) :
    ∀ t9, execNegotiationTimeout p s = .next t9 → t9.pending = s.pending ∧ t9.trust.otp = s.trust.otp := by
  intro t9 h; unfold execNegotiationTimeout at h; simp only [done] at h; (repeat' split at h) <;> (cases h; simp)

theorem execTrainingTimeout_keeps (p : PortId) (s : State) :
    ∀ t9, execTrainingTimeout p s = .next t9 → t9.pending = s.pending ∧ t9.trust.otp = s.trust.otp := by
  intro t9 h; unfold execTrainingTimeout at h; simp only [done] at h; (repeat' split at h) <;> (cases h; simp)

theorem execNextPageReceive_keeps (p : PortId) (s : State) :
    ∀ t9, execNextPageReceive p s = .next t9 → t9.pending = s.pending ∧ t9.trust.otp = s.trust.otp := by
  intro t9 h; unfold execNextPageReceive at h; simp only [done] at h; (repeat' split at h) <;> (cases h; simp)

theorem execPartnerCoefficientRequest_keeps (l : LaneId) (q : CoefRequest) (s : State) :
    ∀ t9, execPartnerCoefficientRequest l q s = .next t9 → t9.pending = s.pending ∧ t9.trust.otp = s.trust.otp := by
  intro t9 h; unfold execPartnerCoefficientRequest at h; simp only [done] at h; (repeat' split at h) <;> (cases h; simp)

@[simp] theorem State.adaptLane_keeps (s : State) (l : Nat) :
    (State.adaptLane s l).pending = s.pending ∧ (State.adaptLane s l).trust.otp = s.trust.otp := by
  unfold State.adaptLane; dsimp only; (repeat' split) <;> simp_all

theorem execCoefficientResponse_keeps (l : LaneId) (s : State) :
    ∀ t9, execCoefficientResponse l s = .next t9 → t9.pending = s.pending ∧ t9.trust.otp = s.trust.otp := by
  intro t9 h; unfold execCoefficientResponse at h; simp only [done] at h; (repeat' split at h) <;> (cases h; simp)

@[simp] theorem State.portUp_keeps (s : State) (p : Nat) :
    (State.portUp s p).pending = s.pending ∧ (State.portUp s p).trust.otp = s.trust.otp := by
  simp [State.portUp]

@[simp] theorem State.saveEq_keeps (s : State) (p : Nat) :
    (State.saveEq s p).pending = s.pending ∧ (State.saveEq s p).trust.otp = s.trust.otp := by
  simp [State.saveEq]

theorem execTrainingComplete_keeps (p : PortId) (s : State) :
    ∀ t9, execTrainingComplete p s = .next t9 → t9.pending = s.pending ∧ t9.trust.otp = s.trust.otp := by
  intro t9 h; unfold execTrainingComplete at h; simp only [done] at h; (repeat' split at h) <;> (cases h; simp)

theorem execSignalAppears_keeps (l : LaneId) (s : State) :
    ∀ t9, execSignalAppears l s = .next t9 → t9.pending = s.pending ∧ t9.trust.otp = s.trust.otp := by
  intro t9 h; unfold execSignalAppears at h; simp only [done] at h; (repeat' split at h) <;> (cases h; simp)

@[simp] theorem State.addPenalty_keeps (s : State) (p : Nat) :
    (State.addPenalty s p).pending = s.pending ∧ (State.addPenalty s p).trust.otp = s.trust.otp := by
  simp [State.addPenalty]

@[simp] theorem State.capPenalty_keeps (s : State) (p : Nat) :
    (State.capPenalty s p).pending = s.pending ∧ (State.capPenalty s p).trust.otp = s.trust.otp := by
  simp [State.capPenalty]

@[simp] theorem State.flushOwed_keeps (s : State) (p : Nat) :
    (State.flushOwed s p).pending = s.pending ∧ (State.flushOwed s p).trust.otp = s.trust.otp := by
  unfold State.flushOwed; (try dsimp only); (repeat' split) <;> simp_all

@[simp] theorem State.linkDown_keeps (s : State) (p cause : Nat) (commanded : Bool) :
    (State.linkDown s p cause commanded).pending = s.pending ∧ (State.linkDown s p cause commanded).trust.otp = s.trust.otp := by
  unfold State.linkDown; dsimp only; (repeat' split) <;> simp_all

@[simp] theorem State.portDown_keeps (s : State) (p cause : Nat) (commanded : Bool) :
    (State.portDown s p cause commanded).pending = s.pending ∧ (State.portDown s p cause commanded).trust.otp = s.trust.otp := by
  simp [State.portDown]

@[simp] theorem State.evaluateDamping_keeps (s : State) (p : Nat) :
    (State.evaluateDamping s p).pending = s.pending ∧ (State.evaluateDamping s p).trust.otp = s.trust.otp := by
  unfold State.evaluateDamping; (repeat' split) <;> simp

theorem execDampingEvaluation_keeps (s : State) :
    ∀ t9, execDampingEvaluation s = .next t9 → t9.pending = s.pending ∧ t9.trust.otp = s.trust.otp := by
  intro t9 h; unfold execDampingEvaluation at h; simp only [done] at h; (repeat' split at h) <;> (cases h; simp)

@[simp] theorem State.restPort_keeps (s : State) (p cause : Nat) :
    (State.restPort s p cause).pending = s.pending ∧ (State.restPort s p cause).trust.otp = s.trust.otp := by
  unfold State.restPort; (repeat' split) <;> simp

@[simp] theorem State.endTests_keeps (s : State) (p : Nat) :
    (State.endTests s p).pending = s.pending ∧ (State.endTests s p).trust.otp = s.trust.otp := by
  simp [State.endTests]

@[simp] theorem State.orderLane_keeps (s : State) (l w : Nat) :
    (State.orderLane s l w).pending = s.pending ∧ (State.orderLane s l w).trust.otp = s.trust.otp := by
  simp [State.orderLane]

theorem execLanePowerExitDone_keeps (l : LaneId) (s : State) :
    ∀ t9, execLanePowerExitDone l s = .next t9 → t9.pending = s.pending ∧ t9.trust.otp = s.trust.otp := by
  intro t9 h; unfold execLanePowerExitDone at h; simp only [done] at h; (repeat' split at h) <;> (cases h; simp)

@[simp] theorem State.powerLanes_keeps (s : State) (p : Nat) :
    (State.powerLanes s p).pending = s.pending ∧ (State.powerLanes s p).trust.otp = s.trust.otp := by
  simp [State.powerLanes]

@[simp] theorem State.addSecond_keeps (s : State) (p i : Nat) (c : PmClass) (un : Bool) :
    (State.addSecond s p i c un).pending = s.pending ∧ (State.addSecond s p i c un).trust.otp = s.trust.otp := by
  simp [State.addSecond]

@[simp] theorem State.closeSecond_keeps (s : State) (p i : Nat) (masked : Bool) (x : Option (PmClass × Bool)) :
    (State.closeSecond s p i masked x).pending = s.pending ∧ (State.closeSecond s p i masked x).trust.otp = s.trust.otp := by
  unfold State.closeSecond; (repeat' split) <;> simp

@[simp] theorem State.closeSeconds_keeps (s : State) (p : Nat) (out : List (Option (PmClass × Bool))) :
    (State.closeSeconds s p out).pending = s.pending ∧ (State.closeSeconds s p out).trust.otp = s.trust.otp := by
  simp [State.closeSeconds]

@[simp] theorem State.flushSeconds_keeps (s : State) (p : Nat) :
    (State.flushSeconds s p).pending = s.pending ∧ (State.flushSeconds s p).trust.otp = s.trust.otp := by
  unfold State.flushSeconds
  exact foldl_keeps _ _ _ (fun t k => by simp)

@[simp] theorem State.clearDefects_keeps (s : State) (p : Nat) :
    (State.clearDefects s p).pending = s.pending ∧ (State.clearDefects s p).trust.otp = s.trust.otp := by
  unfold State.clearDefects
  exact foldl_keeps _ _ _ (fun t k => by simp)

@[simp] theorem State.remode_keeps (s : State) (p : Nat) :
    (State.remode s p).pending = s.pending ∧ (State.remode s p).trust.otp = s.trust.otp := by
  unfold State.remode; dsimp only; (repeat' split) <;> simp_all

@[simp] theorem State.rateTests_keeps (s : State) (p : Nat) :
    (State.rateTests s p).pending = s.pending ∧ (State.rateTests s p).trust.otp = s.trust.otp := by
  unfold State.rateTests
  exact foldl_keeps _ _ _ (fun t k => by simp)

@[simp] theorem State.retest_keeps (s : State) (p : Nat) :
    (State.retest s p).pending = s.pending ∧ (State.retest s p).trust.otp = s.trust.otp := by
  unfold State.retest; dsimp only; (repeat' split) <;> simp_all

@[simp] theorem State.resetRetry_keeps (s : State) (p : Nat) :
    (State.resetRetry s p).pending = s.pending ∧ (State.resetRetry s p).trust.otp = s.trust.otp := by
  simp [State.resetRetry]

@[simp] theorem State.startPass_keeps (s : State) :
    (State.startPass s).pending = s.pending ∧ (State.startPass s).trust.otp = s.trust.otp := by
  simp [State.startPass]

@[simp] theorem State.askPass_keeps (s : State) :
    (State.askPass s).pending = s.pending ∧ (State.askPass s).trust.otp = s.trust.otp := by
  simp [State.askPass]

@[simp] theorem State.goPass_keeps (s : State) (left : List Nat) (n : Nat) :
    (State.goPass s left n).pending = s.pending ∧ (State.goPass s left n).trust.otp = s.trust.otp := by
  simp [State.goPass]

theorem execRecalibrationPassStart_keeps (s : State) :
    ∀ t9, execRecalibrationPassStart s = .next t9 → t9.pending = s.pending ∧ t9.trust.otp = s.trust.otp := by
  intro t9 h; unfold execRecalibrationPassStart at h; simp only [done] at h; (repeat' split at h) <;> (cases h; simp)

theorem execLaneTemperatureStep_keeps (l : LaneId) (temp : Int) (s : State) :
    ∀ t9, execLaneTemperatureStep l temp s = .next t9 → t9.pending = s.pending ∧ t9.trust.otp = s.trust.otp := by
  intro t9 h; unfold execLaneTemperatureStep at h; simp only [done] at h; (repeat' split at h) <;> (cases h; simp)

theorem execLaneRecalibrationDone_keeps (l : LaneId) (better : Bool) (s : State) :
    ∀ t9, execLaneRecalibrationDone l better s = .next t9 → t9.pending = s.pending ∧ t9.trust.otp = s.trust.otp := by
  intro t9 h; unfold execLaneRecalibrationDone at h; simp only [done] at h; (repeat' split at h) <;> (cases h; simp)

@[simp] theorem State.setPauseRx_keeps (s : State) (p c : Nat) (x : PauseRx) :
    (State.setPauseRx s p c x).pending = s.pending ∧ (State.setPauseRx s p c x).trust.otp = s.trust.otp := by
  simp [State.setPauseRx]

@[simp] theorem State.pauseClass_keeps (s : State) (p c quanta : Nat) :
    (State.pauseClass s p c quanta).pending = s.pending ∧ (State.pauseClass s p c quanta).trust.otp = s.trust.otp := by
  simp [State.pauseClass]

theorem execPauseFrameReceive_keeps (p : PortId) (f : PauseFrame) (s : State) :
    ∀ t9, execPauseFrameReceive p f s = .next t9 → t9.pending = s.pending ∧ t9.trust.otp = s.trust.otp := by
  intro t9 h; unfold execPauseFrameReceive at h; simp only [done] at h; (repeat' split at h) <;> (cases h; simp)

theorem execPauseQuantaExpiry_keeps (p : PortId) (c : ClassId) (s : State) :
    ∀ t9, execPauseQuantaExpiry p c s = .next t9 → t9.pending = s.pending ∧ t9.trust.otp = s.trust.otp := by
  intro t9 h; unfold execPauseQuantaExpiry at h; simp only [done] at h; (repeat' split at h) <;> (cases h; simp)

@[simp] theorem State.tripWatchdog_keeps (s : State) (p c : Nat) :
    (State.tripWatchdog s p c).pending = s.pending ∧ (State.tripWatchdog s p c).trust.otp = s.trust.otp := by
  simp [State.tripWatchdog]

theorem execPauseWatchdogTrip_keeps (p : PortId) (c : ClassId) (s : State) :
    ∀ t9, execPauseWatchdogTrip p c s = .next t9 → t9.pending = s.pending ∧ t9.trust.otp = s.trust.otp := by
  intro t9 h; unfold execPauseWatchdogTrip at h; simp only [done] at h; (repeat' split at h) <;> (cases h; simp)

theorem execPauseWatchdogRecoveryEnd_keeps (p : PortId) (c : ClassId) (s : State) :
    ∀ t9, execPauseWatchdogRecoveryEnd p c s = .next t9 → t9.pending = s.pending ∧ t9.trust.otp = s.trust.otp := by
  intro t9 h; unfold execPauseWatchdogRecoveryEnd at h; simp only [done] at h; (repeat' split at h) <;> (cases h; simp)

@[simp] theorem State.setShaper_keeps (s pre : State) (p : Nat) :
    (State.setShaper s pre p).pending = s.pending ∧ (State.setShaper s pre p).trust.otp = s.trust.otp := by
  simp [State.setShaper]

@[simp] theorem State.judgePolicer_keeps (s : State) (p i len : Nat) :
    (State.judgePolicer s p i len).2.pending = s.pending ∧ (State.judgePolicer s p i len).2.trust.otp = s.trust.otp := by
  simp [State.judgePolicer]

@[simp] theorem State.clipPolicer_keeps (s : State) (p i : Nat) (old q : PolicerSet) :
    (State.clipPolicer s p i old q).pending = s.pending ∧ (State.clipPolicer s p i old q).trust.otp = s.trust.otp := by
  simp [State.clipPolicer]

@[simp] theorem State.setLog_keeps (s : State) (u : Nat) (l : List LogEntry) :
    (State.setLog s u l).pending = s.pending ∧ (State.setLog s u l).trust.otp = s.trust.otp := by
  simp [State.setLog]

@[simp] theorem State.faultReport_keeps (s : State) (cls action rung cause detail source related : Nat) :
    (State.faultReport s cls action rung cause detail source related).pending = s.pending ∧ (State.faultReport s cls action rung cause detail source related).trust.otp = s.trust.otp := by
  simp [State.faultReport]

@[simp] theorem State.clearQueues_keeps (s : State) (keep : Nat → Bool) (n : Nat) :
    (State.clearQueues s keep n).pending = s.pending ∧ (State.clearQueues s keep n).trust.otp = s.trust.otp := by
  simp [State.clearQueues]

@[simp] theorem State.enterSafe_keeps (s : State) (cause : Nat) :
    (State.enterSafe s cause).pending = s.pending ∧ (State.enterSafe s cause).trust.otp = s.trust.otp := by
  simp [State.enterSafe]

@[simp] theorem State.noteRetire_keeps (s : State) :
    (State.noteRetire s).pending = s.pending ∧ (State.noteRetire s).trust.otp = s.trust.otp := by
  simp [State.noteRetire]

@[simp] theorem State.startDrain_keeps (s : State) (k cls : Nat) :
    (State.startDrain s k cls).pending = s.pending ∧ (State.startDrain s k cls).trust.otp = s.trust.otp := by
  simp [State.startDrain]

@[simp] theorem State.orderDrain_keeps (s : State) (k : Nat) (cls : Nat) :
    (State.orderDrain s k cls).pending = s.pending ∧ (State.orderDrain s k cls).trust.otp = s.trust.otp := by
  unfold State.orderDrain; (repeat' split) <;> simp

@[simp] theorem State.outrank_keeps (s : State) (v : Nat) :
    (State.outrank s v).pending = s.pending ∧ (State.outrank s v).trust.otp = s.trust.otp := by
  unfold State.outrank; dsimp only; (repeat' split) <;> simp_all

end Sys2Proof.Machine
end

