-- ==== Sys2Proof/Laws/Keeps07.lean ====
section
/-! SUPPORT. What the functions of FaultCore, Flags, Engines keep: the queue and the OTP (R408). -/

namespace Sys2Proof.Machine

set_option maxRecDepth 4000
set_option simprocs false

@[simp] theorem State.openFault_keeps (s : State) (u cause detail source : Nat) (action : Nat → Nat) :
    (State.openFault s u cause detail source action).2.pending = s.pending ∧ (State.openFault s u cause detail source action).2.trust.otp = s.trust.otp := by
  unfold State.openFault; dsimp only; (repeat' split) <;> simp_all

@[simp] theorem State.settle_keeps (s : State) (u : Nat) :
    (State.settle s u).pending = s.pending ∧ (State.settle s u).trust.otp = s.trust.otp := by
  simp [State.settle]

theorem execSettleTimeExpiry_keeps (u : FaultUnit) (s : State) :
    ∀ t9, execSettleTimeExpiry u s = .next t9 → t9.pending = s.pending ∧ t9.trust.otp = s.trust.otp := by
  intro t9 h; simp only [execSettleTimeExpiry, done, Host.Outcome.next.injEq] at h; subst h; simp

@[simp] theorem State.resetSlice_keeps (s : State) (k : Nat) :
    (State.resetSlice s k).pending = s.pending ∧ (State.resetSlice s k).trust.otp = s.trust.otp := by
  simp [State.resetSlice]

@[simp] theorem State.dropDrained_keeps (s : State) (n : Nat) :
    (State.dropDrained s n).pending = s.pending ∧ (State.dropDrained s n).trust.otp = s.trust.otp := by
  unfold State.dropDrained; (repeat' split) <;> simp

theorem execSliceDrainComplete_keeps (k : SliceId) (s : State) :
    ∀ t9, execSliceDrainComplete k s = .next t9 → t9.pending = s.pending ∧ t9.trust.otp = s.trust.otp := by
  intro t9 h; unfold execSliceDrainComplete at h; simp only [done] at h; (repeat' split at h) <;> (cases h; simp)

@[simp] theorem State.returnPort_keeps (s : State) (p : Nat) :
    (State.returnPort s p).pending = s.pending ∧ (State.returnPort s p).trust.otp = s.trust.otp := by
  unfold State.returnPort; dsimp only; (repeat' split) <;> simp_all

@[simp] theorem State.nextDrain_keeps (s : State) :
    (State.nextDrain s).pending = s.pending ∧ (State.nextDrain s).trust.otp = s.trust.otp := by
  unfold State.nextDrain; (repeat' split) <;> simp

@[simp] theorem State.sliceBack_keeps (s : State) (k cls : Nat) :
    (State.sliceBack s k cls).pending = s.pending ∧ (State.sliceBack s k cls).trust.otp = s.trust.otp := by
  simp [State.sliceBack]

theorem execSliceReturn_keeps (k : SliceId) (s : State) :
    ∀ t9, execSliceReturn k s = .next t9 → t9.pending = s.pending ∧ t9.trust.otp = s.trust.otp := by
  intro t9 h
  unfold execSliceReturn at h
  generalize s.fault.drain = dr at h
  cases dr with
  | none => injection h with h; subst h; exact ⟨rfl, rfl⟩
  | some d =>
    dsimp only at h
    split at h
    · injection h with h
      subst h
      have k0 := foldl_keeps (fun (s : State) p => s.returnPort p) (slicePorts k) s (fun t p => State.returnPort_keeps t p)
      exact ⟨(State.sliceBack_keeps _ _ _).1.trans k0.1, (State.sliceBack_keeps _ _ _).2.trans k0.2⟩
    · injection h with h; subst h; exact ⟨rfl, rfl⟩

theorem execSliceReturnTimeout_keeps (k : SliceId) (s : State) :
    ∀ t9, execSliceReturnTimeout k s = .next t9 → t9.pending = s.pending ∧ t9.trust.otp = s.trust.otp := by
  intro t9 h; unfold execSliceReturnTimeout at h; simp only [done] at h; (repeat' split at h) <;> (cases h; simp)

@[simp] theorem State.rerun_keeps (s : State) (n : Nat) :
    (State.rerun s n).pending = s.pending ∧ (State.rerun s n).trust.otp = s.trust.otp := by
  unfold State.rerun; (repeat' split) <;> simp

@[simp] theorem State.setEngine_keeps (s : State) (i v : Nat) :
    (State.setEngine s i v).pending = s.pending ∧ (State.setEngine s i v).trust.otp = s.trust.otp := by
  simp [State.setEngine]

@[simp] theorem State.setMc_keeps (s : State) (q v : Nat) :
    (State.setMc s q v).pending = s.pending ∧ (State.setMc s q v).trust.otp = s.trust.otp := by
  simp [State.setMc]

@[simp] theorem State.returnRetry_keeps (s : State) :
    (State.returnRetry s).pending = s.pending ∧ (State.returnRetry s).trust.otp = s.trust.otp := by
  simp [State.returnRetry]

theorem execMcLockstepMismatch_keeps (q : Fin 2) (s : State) :
    ∀ t9, execMcLockstepMismatch q s = .next t9 → t9.pending = s.pending ∧ t9.trust.otp = s.trust.otp := by
  intro t9 h; unfold execMcLockstepMismatch at h; simp only [done] at h; (repeat' split at h) <;> (cases h; simp)

theorem execMcPairSelfTestDone_keeps (q : Fin 2) (pass : Bool) (s : State) :
    ∀ t9, execMcPairSelfTestDone q pass s = .next t9 → t9.pending = s.pending ∧ t9.trust.otp = s.trust.otp := by
  intro t9 h; unfold execMcPairSelfTestDone at h; simp only [done] at h; (repeat' split at h) <;> (cases h; simp)

theorem execSysclkLoss_keeps (s : State) :
    ∀ t9, execSysclkLoss s = .next t9 → t9.pending = s.pending ∧ t9.trust.otp = s.trust.otp := by
  intro t9 h; unfold execSysclkLoss at h; simp only [done] at h; (repeat' split at h) <;> (cases h; simp)

theorem execSysclkReturn_keeps (s : State) :
    ∀ t9, execSysclkReturn s = .next t9 → t9.pending = s.pending ∧ t9.trust.otp = s.trust.otp := by
  intro t9 h; simp only [execSysclkReturn, done, Host.Outcome.next.injEq] at h; subst h; simp

@[simp] theorem State.clearSafe_keeps (s : State) :
    (State.clearSafe s).pending = s.pending ∧ (State.clearSafe s).trust.otp = s.trust.otp := by
  simp [State.clearSafe]

@[simp] theorem State.endClear_keeps (s : State) :
    (State.endClear s).pending = s.pending ∧ (State.endClear s).trust.otp = s.trust.otp := by
  unfold State.endClear; dsimp only; (repeat' split) <;> simp

@[simp] theorem State.flagsOther_keeps (s : State) (r : W64) :
    (State.flagsOther s r).2.pending = s.pending ∧ (State.flagsOther s r).2.trust.otp = s.trust.otp := by
  simp [State.flagsOther]

@[simp] theorem State.setCtx_keeps (s : State) (n : Nat) (c : Context) :
    (State.setCtx s n c).pending = s.pending ∧ (State.setCtx s n c).trust.otp = s.trust.otp := by
  unfold State.setCtx; (repeat' split) <;> simp

@[simp] theorem State.noteWord_keeps (s : State) (k : Nat) (c : Context) :
    (State.noteWord s k c).pending = s.pending ∧ (State.noteWord s k c).trust.otp = s.trust.otp := by
  simp [State.noteWord]

@[simp] theorem State.engineFault_keeps (s : State) (u k i e code pc again : Nat) :
    (State.engineFault s u k i e code pc again).pending = s.pending ∧ (State.engineFault s u k i e code pc again).trust.otp = s.trust.otp := by
  simp [State.engineFault]

@[simp] theorem State.stopAt_keeps (s : State) (i w : Nat) :
    (State.stopAt s i w).pending = s.pending ∧ (State.stopAt s i w).trust.otp = s.trust.otp := by
  simp [State.stopAt]

@[simp] theorem State.hwCheck_keeps (s : State) (n k e bank pc : Nat) (cause : HwCause) :
    (State.hwCheck s n k e bank pc cause).pending = s.pending ∧ (State.hwCheck s n k e bank pc cause).trust.otp = s.trust.otp := by
  simp [State.hwCheck]

@[simp] theorem State.releaseCustom_keeps (s : State) (n : Nat) (p : Packet) (c : Context) :
    (State.releaseCustom s n p c).pending = s.pending ∧ (State.releaseCustom s n p c).trust.otp = s.trust.otp := by
  simp [State.releaseCustom]

@[simp] theorem State.programCheck_keeps (s : State) (n : Nat) (p : Packet) (c : Context) (cause : Nat) :
    (State.programCheck s n p c cause).pending = s.pending ∧ (State.programCheck s n p c cause).trust.otp = s.trust.otp := by
  simp [State.programCheck]

theorem execRoutineDispatch_keeps (n : Nat) (fault : Option LarzenuFault) (s : State) :
    ∀ t9, execRoutineDispatch n fault s = .next t9 → t9.pending = s.pending ∧ t9.trust.otp = s.trust.otp := by
  intro t9 h; unfold execRoutineDispatch at h; simp only [done] at h; (repeat' split at h) <;> (cases h; simp)

theorem State.aluStart_keeps (s : State) (op : Nat) (x : AluSlot) (f : Context → State → State)
    (h_f : ∀ c t, (f c t).pending = t.pending ∧ (f c t).trust.otp = t.trust.otp) :
    ∀ t9, State.aluStart s op x f = .next t9 → t9.pending = s.pending ∧ t9.trust.otp = s.trust.otp := by
  intro t9 h; unfold State.aluStart at h; simp only [done] at h; (repeat' split at h) <;> (cases h; simp [h_f])

theorem State.aluSlot_keeps (s : State) (op : Nat) (x : AluSlot) (f : W64 → W64 → State → W64 × State) (fl : Option (W64 → W64 → Flags))
    (h_f : ∀ a b t, (f a b t).2.pending = t.pending ∧ (f a b t).2.trust.otp = t.trust.otp) :
    ∀ t9, State.aluSlot s op x f fl = .next t9 → t9.pending = s.pending ∧ t9.trust.otp = s.trust.otp := by
  intro t9 h
  refine State.aluStart_keeps _ _ _ _ ?_ _ h
  intro c t
  dsimp only
  (repeat' split) <;> simp [h_f]

@[simp] theorem aluBswapOp_keeps (a b : W64) (s : State) :
    (aluBswapOp a b s).2.pending = s.pending ∧ (aluBswapOp a b s).2.trust.otp = s.trust.otp := by
  unfold aluBswapOp; (repeat' split) <;> simp

theorem execAluNop_keeps (x : AluSlot) (s : State) :
    ∀ t9, execAluNop x s = .next t9 → t9.pending = s.pending ∧ t9.trust.otp = s.trust.otp := by
  intro t9 h; exact State.aluStart_keeps _ _ _ _ (by intro c t; simp) _ h

theorem execAluAdd_keeps (x : AluSlot) (s : State) :
    ∀ t9, execAluAdd x s = .next t9 → t9.pending = s.pending ∧ t9.trust.otp = s.trust.otp := by
  intro t9 h; exact State.aluSlot_keeps _ _ _ _ _ (by intro a b t; simp [pure2]) _ h

theorem execAluSub_keeps (x : AluSlot) (s : State) :
    ∀ t9, execAluSub x s = .next t9 → t9.pending = s.pending ∧ t9.trust.otp = s.trust.otp := by
  intro t9 h; exact State.aluSlot_keeps _ _ _ _ _ (by intro a b t; simp [pure2]) _ h

theorem execAluMul_keeps (x : AluSlot) (s : State) :
    ∀ t9, execAluMul x s = .next t9 → t9.pending = s.pending ∧ t9.trust.otp = s.trust.otp := by
  intro t9 h; exact State.aluSlot_keeps _ _ _ _ _ (by intro a b t; simp [pure2]) _ h

theorem execAluCsum_keeps (x : AluSlot) (s : State) :
    ∀ t9, execAluCsum x s = .next t9 → t9.pending = s.pending ∧ t9.trust.otp = s.trust.otp := by
  intro t9 h; exact State.aluSlot_keeps _ _ _ _ _ (by intro a b t; simp [pure2]) _ h

theorem execAluAnd_keeps (x : AluSlot) (s : State) :
    ∀ t9, execAluAnd x s = .next t9 → t9.pending = s.pending ∧ t9.trust.otp = s.trust.otp := by
  intro t9 h; exact State.aluSlot_keeps _ _ _ _ _ (by intro a b t; simp [pure2]) _ h

theorem execAluOr_keeps (x : AluSlot) (s : State) :
    ∀ t9, execAluOr x s = .next t9 → t9.pending = s.pending ∧ t9.trust.otp = s.trust.otp := by
  intro t9 h; exact State.aluSlot_keeps _ _ _ _ _ (by intro a b t; simp [pure2]) _ h

theorem execAluXor_keeps (x : AluSlot) (s : State) :
    ∀ t9, execAluXor x s = .next t9 → t9.pending = s.pending ∧ t9.trust.otp = s.trust.otp := by
  intro t9 h; exact State.aluSlot_keeps _ _ _ _ _ (by intro a b t; simp [pure2]) _ h

theorem execAluShl_keeps (x : AluSlot) (s : State) :
    ∀ t9, execAluShl x s = .next t9 → t9.pending = s.pending ∧ t9.trust.otp = s.trust.otp := by
  intro t9 h; exact State.aluSlot_keeps _ _ _ _ _ (by intro a b t; simp [pure2]) _ h

theorem execAluShr_keeps (x : AluSlot) (s : State) :
    ∀ t9, execAluShr x s = .next t9 → t9.pending = s.pending ∧ t9.trust.otp = s.trust.otp := by
  intro t9 h; exact State.aluSlot_keeps _ _ _ _ _ (by intro a b t; simp [pure2]) _ h

theorem execAluSar_keeps (x : AluSlot) (s : State) :
    ∀ t9, execAluSar x s = .next t9 → t9.pending = s.pending ∧ t9.trust.otp = s.trust.otp := by
  intro t9 h; exact State.aluSlot_keeps _ _ _ _ _ (by intro a b t; simp [pure2]) _ h

theorem execAluRol_keeps (x : AluSlot) (s : State) :
    ∀ t9, execAluRol x s = .next t9 → t9.pending = s.pending ∧ t9.trust.otp = s.trust.otp := by
  intro t9 h; exact State.aluSlot_keeps _ _ _ _ _ (by intro a b t; simp [pure2]) _ h

theorem execAluMov_keeps (x : AluSlot) (s : State) :
    ∀ t9, execAluMov x s = .next t9 → t9.pending = s.pending ∧ t9.trust.otp = s.trust.otp := by
  intro t9 h; exact State.aluSlot_keeps _ _ _ _ _ (by intro a b t; simp [pure2]) _ h

theorem execAluMinu_keeps (x : AluSlot) (s : State) :
    ∀ t9, execAluMinu x s = .next t9 → t9.pending = s.pending ∧ t9.trust.otp = s.trust.otp := by
  intro t9 h; exact State.aluSlot_keeps _ _ _ _ _ (by intro a b t; simp [pure2]) _ h

theorem execAluMaxu_keeps (x : AluSlot) (s : State) :
    ∀ t9, execAluMaxu x s = .next t9 → t9.pending = s.pending ∧ t9.trust.otp = s.trust.otp := by
  intro t9 h; exact State.aluSlot_keeps _ _ _ _ _ (by intro a b t; simp [pure2]) _ h

theorem execAluBswap_keeps (x : AluSlot) (s : State) :
    ∀ t9, execAluBswap x s = .next t9 → t9.pending = s.pending ∧ t9.trust.otp = s.trust.otp := by
  intro t9 h; exact State.aluSlot_keeps _ _ _ _ _ (by intro a b t; simp [pure2]) _ h

theorem execAluExt_keeps (x : AluSlot) (s : State) :
    ∀ t9, execAluExt x s = .next t9 → t9.pending = s.pending ∧ t9.trust.otp = s.trust.otp := by
  intro t9 h; exact State.aluSlot_keeps _ _ _ _ _ (by intro a b t; simp [pure2]) _ h

theorem execAluIns_keeps (x : AluSlot) (s : State) :
    ∀ t9, execAluIns x s = .next t9 → t9.pending = s.pending ∧ t9.trust.otp = s.trust.otp := by
  intro t9 h; exact State.aluSlot_keeps _ _ _ _ _ (by intro a b t; simp [pure2]) _ h

theorem execAluSel_keeps (x : AluSlot) (s : State) :
    ∀ t9, execAluSel x s = .next t9 → t9.pending = s.pending ∧ t9.trust.otp = s.trust.otp := by
  intro t9 h
  unfold execAluSel at h
  exact State.aluSlot_keeps _ _ _ _ _ (by intro a b t; simp [pure2]) _ h

theorem execAluCrc_keeps (x : AluSlot) (s : State) :
    ∀ t9, execAluCrc x s = .next t9 → t9.pending = s.pending ∧ t9.trust.otp = s.trust.otp := by
  intro t9 h; exact State.aluSlot_keeps _ _ _ _ _ (by intro a b t; simp [pure2]) _ h

theorem State.memSlot_keeps (s : State) (op : Nat) (x : MemSlot) (f : Packet → Context → State → State)
    (h_f : ∀ a b t, (f a b t).pending = t.pending ∧ (f a b t).trust.otp = t.trust.otp) :
    ∀ t9, State.memSlot s op x f = .next t9 → t9.pending = s.pending ∧ t9.trust.otp = s.trust.otp := by
  intro t9 h; unfold State.memSlot at h; simp only [done] at h; (repeat' split at h) <;> (cases h; simp [h_f])

@[simp] theorem State.loadReg_keeps (s : State) (x : MemSlot) (c : Context) (v : W64) :
    (State.loadReg s x c v).pending = s.pending ∧ (State.loadReg s x c v).trust.otp = s.trust.otp := by
  simp [State.loadReg]

@[simp] theorem State.meetCheck_keeps (s : State) (x : MemSlot) (c : Context) (cause : Nat) :
    (State.meetCheck s x c cause).pending = s.pending ∧ (State.meetCheck s x c cause).trust.otp = s.trust.otp := by
  simp [State.meetCheck]

@[simp] theorem State.protect_keeps (s : State) (x : MemSlot) (c : Context) :
    (State.protect s x c).pending = s.pending ∧ (State.protect s x c).trust.otp = s.trust.otp := by
  simp [State.protect]

@[simp] theorem State.stageWrite_keeps (s : State) (x : MemSlot) (c : Context) (w : Staged) :
    (State.stageWrite s x c w).pending = s.pending ∧ (State.stageWrite s x c w).trust.otp = s.trust.otp := by
  simp [State.stageWrite]

theorem execMemNone_keeps (x : MemSlot) (s : State) :
    ∀ t9, execMemNone x s = .next t9 → t9.pending = s.pending ∧ t9.trust.otp = s.trust.otp := by
  intro t9 h; exact State.memSlot_keeps _ _ _ _ (by intro p c t; (repeat' split) <;> simp) _ h

theorem execHdrLd_keeps (x : MemSlot) (s : State) :
    ∀ t9, execHdrLd x s = .next t9 → t9.pending = s.pending ∧ t9.trust.otp = s.trust.otp := by
  intro t9 h; exact State.memSlot_keeps _ _ _ _ (by intro p c t; (repeat' split) <;> simp) _ h

theorem execHdrSt_keeps (x : MemSlot) (s : State) :
    ∀ t9, execHdrSt x s = .next t9 → t9.pending = s.pending ∧ t9.trust.otp = s.trust.otp := by
  intro t9 h; exact State.memSlot_keeps _ _ _ _ (by intro p c t; (repeat' split) <;> simp) _ h

theorem execMetaLd_keeps (x : MemSlot) (s : State) :
    ∀ t9, execMetaLd x s = .next t9 → t9.pending = s.pending ∧ t9.trust.otp = s.trust.otp := by
  intro t9 h; exact State.memSlot_keeps _ _ _ _ (by intro p c t; (repeat' split) <;> simp) _ h

theorem execDescSt_keeps (x : MemSlot) (s : State) :
    ∀ t9, execDescSt x s = .next t9 → t9.pending = s.pending ∧ t9.trust.otp = s.trust.otp := by
  intro t9 h; exact State.memSlot_keeps _ _ _ _ (by intro p c t; (repeat' split) <;> simp) _ h

theorem execKeySt_keeps (x : MemSlot) (s : State) :
    ∀ t9, execKeySt x s = .next t9 → t9.pending = s.pending ∧ t9.trust.otp = s.trust.otp := by
  intro t9 h; exact State.memSlot_keeps _ _ _ _ (by intro p c t; (repeat' split) <;> simp) _ h

theorem execRecLock_keeps (x : MemSlot) (s : State) :
    ∀ t9, execRecLock x s = .next t9 → t9.pending = s.pending ∧ t9.trust.otp = s.trust.otp := by
  intro t9 h
  refine State.memSlot_keeps _ _ _ _ ?_ _ h
  intro p c t
  dsimp only
  split
  · exact State.protect_keeps _ _ _
  · (repeat' split) <;> simp

theorem execRecLockReply_keeps (n : Nat) (res : ReadResult) (s : State) :
    ∀ t9, execRecLockReply n res s = .next t9 → t9.pending = s.pending ∧ t9.trust.otp = s.trust.otp := by
  intro t9 h; unfold execRecLockReply at h; simp only [done] at h; (repeat' split at h) <;> (cases h; simp)

end Sys2Proof.Machine
end

