-- ==== Sys2Proof/Laws/Keeps08.lean ====
section
/-! SUPPORT. What the functions of Engines, Match, Sampler, Ingress keep: the queue and the OTP (R408). -/

namespace Sys2Proof.Machine

set_option maxRecDepth 4000
set_option simprocs false

theorem execRecLd_keeps (x : MemSlot) (s : State) :
    ∀ t9, execRecLd x s = .next t9 → t9.pending = s.pending ∧ t9.trust.otp = s.trust.otp := by
  intro t9 h
  refine State.memSlot_keeps _ _ _ _ ?_ _ h
  intro p c t
  dsimp only
  split
  · split
    · exact State.protect_keeps _ _ _
    · exact State.loadReg_keeps _ _ _ _
  · exact State.protect_keeps _ _ _

theorem execRecSt_keeps (x : MemSlot) (s : State) :
    ∀ t9, execRecSt x s = .next t9 → t9.pending = s.pending ∧ t9.trust.otp = s.trust.otp := by
  intro t9 h; exact State.memSlot_keeps _ _ _ _ (by intro p c t; (repeat' split) <;> simp) _ h

theorem State.mergeSlot_keeps (s : State) (code : Nat) (x : MemSlot) (op : Merge) :
    ∀ t9, State.mergeSlot s code x op = .next t9 → t9.pending = s.pending ∧ t9.trust.otp = s.trust.otp := by
  intro t9 h; exact State.memSlot_keeps _ _ _ _ (by intro p c t; (repeat' split) <;> simp) _ h

theorem execMrgAdd_keeps (x : MemSlot) (s : State) :
    ∀ t9, execMrgAdd x s = .next t9 → t9.pending = s.pending ∧ t9.trust.otp = s.trust.otp := by
  intro t9 h; exact State.mergeSlot_keeps _ _ _ _ _ h

theorem execMrgOr_keeps (x : MemSlot) (s : State) :
    ∀ t9, execMrgOr x s = .next t9 → t9.pending = s.pending ∧ t9.trust.otp = s.trust.otp := by
  intro t9 h; exact State.mergeSlot_keeps _ _ _ _ _ h

theorem execMrgMax_keeps (x : MemSlot) (s : State) :
    ∀ t9, execMrgMax x s = .next t9 → t9.pending = s.pending ∧ t9.trust.otp = s.trust.otp := by
  intro t9 h; exact State.mergeSlot_keeps _ _ _ _ _ h

theorem execMrgMin_keeps (x : MemSlot) (s : State) :
    ∀ t9, execMrgMin x s = .next t9 → t9.pending = s.pending ∧ t9.trust.otp = s.trust.otp := by
  intro t9 h; exact State.mergeSlot_keeps _ _ _ _ _ h

theorem execMrgAvg_keeps (x : MemSlot) (s : State) :
    ∀ t9, execMrgAvg x s = .next t9 → t9.pending = s.pending ∧ t9.trust.otp = s.trust.otp := by
  intro t9 h; exact State.mergeSlot_keeps _ _ _ _ _ h

@[simp] theorem State.objectStart_keeps (s : State) (n : Nat) (p : Packet) (a : Nat) :
    (State.objectStart s n p a).pending = s.pending ∧ (State.objectStart s n p a).trust.otp = s.trust.otp := by
  simp [State.objectStart]

theorem execObjLd_keeps (x : MemSlot) (s : State) :
    ∀ t9, execObjLd x s = .next t9 → t9.pending = s.pending ∧ t9.trust.otp = s.trust.otp := by
  intro t9 h; exact State.memSlot_keeps _ _ _ _ (by intro p c t; (repeat' split) <;> simp) _ h

@[simp] theorem State.contextClock_keeps (s : State) (n : Nat) :
    (State.contextClock s n).pending = s.pending ∧ (State.contextClock s n).trust.otp = s.trust.otp := by
  unfold State.contextClock; (repeat' split) <;> simp

@[simp] theorem State.engineClock_keeps (s : State) :
    (State.engineClock s).pending = s.pending ∧ (State.engineClock s).trust.otp = s.trust.otp := by
  simp [State.engineClock]

theorem execObjLdReply_keeps (n : Nat) (res : ReadResult) (s : State) :
    ∀ t9, execObjLdReply n res s = .next t9 → t9.pending = s.pending ∧ t9.trust.otp = s.trust.otp := by
  intro t9 h; unfold execObjLdReply at h; simp only [done] at h; (repeat' split at h) <;> (cases h; simp)

theorem execCntAdd_keeps (x : MemSlot) (s : State) :
    ∀ t9, execCntAdd x s = .next t9 → t9.pending = s.pending ∧ t9.trust.otp = s.trust.otp := by
  intro t9 h; exact State.memSlot_keeps _ _ _ _ (by intro p c t; (repeat' split) <;> simp) _ h

theorem execEvt_keeps (x : MemSlot) (s : State) :
    ∀ t9, execEvt x s = .next t9 → t9.pending = s.pending ∧ t9.trust.otp = s.trust.otp := by
  intro t9 h; exact State.memSlot_keeps _ _ _ _ (by intro p c t; (repeat' split) <;> simp) _ h

@[simp] theorem State.goTo_keeps (s : State) (n : Nat) (p : Packet) (c : Context) (next : Nat) :
    (State.goTo s n p c next).pending = s.pending ∧ (State.goTo s n p c next).trust.otp = s.trust.otp := by
  simp [State.goTo]

theorem State.brSlot_keeps (s : State) (op : Nat) (x : BrSlot) (taken : Packet → Context → State → State)
    (h_taken : ∀ a b t, (taken a b t).pending = t.pending ∧ (taken a b t).trust.otp = t.trust.otp) :
    ∀ t9, State.brSlot s op x taken = .next t9 → t9.pending = s.pending ∧ t9.trust.otp = s.trust.otp := by
  intro t9 h; unfold State.brSlot at h; simp only [done] at h; (repeat' split at h) <;> (cases h; simp [h_taken])

theorem execBrNext_keeps (x : BrSlot) (s : State) :
    ∀ t9, execBrNext x s = .next t9 → t9.pending = s.pending ∧ t9.trust.otp = s.trust.otp := by
  intro t9 h; exact State.brSlot_keeps _ _ _ _ (by intro p c t; (repeat' split) <;> simp) _ h

theorem execBrJump_keeps (x : BrSlot) (s : State) :
    ∀ t9, execBrJump x s = .next t9 → t9.pending = s.pending ∧ t9.trust.otp = s.trust.otp := by
  intro t9 h; exact State.brSlot_keeps _ _ _ _ (by intro p c t; (repeat' split) <;> simp) _ h

theorem execBrCall_keeps (x : BrSlot) (s : State) :
    ∀ t9, execBrCall x s = .next t9 → t9.pending = s.pending ∧ t9.trust.otp = s.trust.otp := by
  intro t9 h; exact State.brSlot_keeps _ _ _ _ (by intro p c t; (repeat' split) <;> simp) _ h

theorem execBrReturn_keeps (x : BrSlot) (s : State) :
    ∀ t9, execBrReturn x s = .next t9 → t9.pending = s.pending ∧ t9.trust.otp = s.trust.otp := by
  intro t9 h; exact State.brSlot_keeps _ _ _ _ (by intro p c t; (repeat' split) <;> simp) _ h

theorem execBrEnd_keeps (x : BrSlot) (s : State) :
    ∀ t9, execBrEnd x s = .next t9 → t9.pending = s.pending ∧ t9.trust.otp = s.trust.otp := by
  intro t9 h; exact State.brSlot_keeps _ _ _ _ (by intro p c t; (repeat' split) <;> simp) _ h

@[simp] theorem State.versionedWrite_keeps (s : State) (loc e off len : Nat) (f : Bytes → Bytes) :
    (State.versionedWrite s loc e off len f).pending = s.pending ∧ (State.versionedWrite s loc e off len f).trust.otp = s.trust.otp := by
  simp [State.versionedWrite]

@[simp] theorem State.applyPrp_keeps (s : State) (p : Packet) (loc seq : Nat) :
    (State.applyPrp s p loc seq).2.pending = s.pending ∧ (State.applyPrp s p loc seq).2.trust.otp = s.trust.otp := by
  unfold State.applyPrp; (repeat' split) <;> simp

@[simp] theorem State.applyTelemetry_keeps (s : State) (p : Packet) (loc : Nat) :
    (State.applyTelemetry s p loc).pending = s.pending ∧ (State.applyTelemetry s p loc).trust.otp = s.trust.otp := by
  simp [State.applyTelemetry]

@[simp] theorem State.applyHistogram_keeps (s : State) (loc bin : Nat) :
    (State.applyHistogram s loc bin).pending = s.pending ∧ (State.applyHistogram s loc bin).trust.otp = s.trust.otp := by
  unfold State.applyHistogram; (repeat' split) <;> simp

@[simp] theorem State.applyPair_keeps (s : State) (q tcp : Nat) (cls : Option Nat) (e : Nat) :
    (State.applyPair s q tcp cls e).pending = s.pending ∧ (State.applyPair s q tcp cls e).trust.otp = s.trust.otp := by
  unfold State.applyPair; (repeat' split) <;> simp

@[simp] theorem State.doVisit_keeps (s : State) (v : Visit) :
    (State.doVisit s v).pending = s.pending ∧ (State.doVisit s v).trust.otp = s.trust.otp := by
  unfold State.doVisit; (repeat' split) <;> simp

@[simp] theorem State.pairUpdate_keeps (s : State) (n : Nat) (p : Packet) (loc tcp : Nat) (cls : Option Nat) :
    (State.pairUpdate s n p loc tcp cls).pending = s.pending ∧ (State.pairUpdate s n p loc tcp cls).trust.otp = s.trust.otp := by
  unfold State.pairUpdate; (repeat' split) <;> simp

@[simp] theorem State.eraseRec_keeps (s : State) (loc : Nat) :
    (State.eraseRec s loc).pending = s.pending ∧ (State.eraseRec s loc).trust.otp = s.trust.otp := by
  simp [State.eraseRec]

@[simp] theorem State.liftRec_keeps (s : State) (loc : Nat) :
    (State.liftRec s loc).pending = s.pending ∧ (State.liftRec s loc).trust.otp = s.trust.otp := by
  simp [State.liftRec]

@[simp] theorem State.readEntries_keeps (s : State) (key : Bytes) :
    (State.readEntries s key).pending = s.pending ∧ (State.readEntries s key).trust.otp = s.trust.otp := by
  simp [State.readEntries]

@[simp] theorem State.rekey_keeps (s : State) (p : Packet) (loc q : Nat) (r : FlowRec) (key svc : Bytes) :
    (State.rekey s p loc q r key svc).pending = s.pending ∧ (State.rekey s p loc q r key svc).trust.otp = s.trust.otp := by
  unfold State.rekey
  have k := State.placeFor_keeps ((s.liftRec q).readEntries key) key p.profile ((s.profile p.profile p.epoch).evict == 1)
  split <;> rename_i e <;> rw [e] at k <;> simp_all

@[simp] theorem State.applyReverse_keeps (s : State) (p : Packet) (loc : Nat) (key svc : Bytes) :
    (State.applyReverse s p loc key svc).pending = s.pending ∧ (State.applyReverse s p loc key svc).trust.otp = s.trust.otp := by
  unfold State.applyReverse; dsimp only; (repeat' split) <;> simp_all

@[simp] theorem State.applyStaged_keeps (s : State) (n : Nat) (p : Packet) (c : Context) (w : Staged) :
    (State.applyStaged s n p c w).pending = s.pending ∧ (State.applyStaged s n p c w).trust.otp = s.trust.otp := by
  unfold State.applyStaged; (repeat' split) <;> simp

@[simp] theorem State.beginC1_keeps (s : State) (n : Nat) :
    (State.beginC1 s n).pending = s.pending ∧ (State.beginC1 s n).trust.otp = s.trust.otp := by
  unfold State.beginC1; (repeat' split) <;> simp

@[simp] theorem State.afterRoutine_keeps (s : State) (n : Nat) :
    (State.afterRoutine s n).pending = s.pending ∧ (State.afterRoutine s n).trust.otp = s.trust.otp := by
  unfold State.afterRoutine; (repeat' split) <;> simp

theorem execPacketBaleApply_keeps (n : Nat) (s : State) :
    ∀ t9, execPacketBaleApply n s = .next t9 → t9.pending = s.pending ∧ t9.trust.otp = s.trust.otp := by
  intro t9 h; unfold execPacketBaleApply at h; simp only [done] at h; (repeat' split at h) <;> (cases h; simp)

@[simp] theorem State.larzenuCheck_keeps (s : State) (k : Nat) (e : SliceEngine) (f : LarzenuFault) :
    (State.larzenuCheck s k e f).pending = s.pending ∧ (State.larzenuCheck s k e f).trust.otp = s.trust.otp := by
  simp [State.larzenuCheck]

theorem execKnownAnswerRoutine_keeps (k : SliceId) (e : SliceEngine) (res : KnownAnswer) (s : State) :
    ∀ t9, execKnownAnswerRoutine k e res s = .next t9 → t9.pending = s.pending ∧ t9.trust.otp = s.trust.otp := by
  intro t9 h; unfold execKnownAnswerRoutine at h; simp only [done] at h; (repeat' split at h) <;> (cases h; simp)

theorem execControlStoreScrub_keeps (k : SliceId) (bank : Fin 2) (word : Nat) (bad : Bool) (s : State) :
    ∀ t9, execControlStoreScrub k bank word bad s = .next t9 → t9.pending = s.pending ∧ t9.trust.otp = s.trust.otp := by
  intro t9 h; unfold execControlStoreScrub at h; simp only [done] at h; (repeat' split at h) <;> (cases h; simp)

theorem execControlStoreRewriteDone_keeps (k : SliceId) (bank : Fin 2) (word : Nat) (s : State) :
    ∀ t9, execControlStoreRewriteDone k bank word s = .next t9 → t9.pending = s.pending ∧ t9.trust.otp = s.trust.otp := by
  intro t9 h; simp only [execControlStoreRewriteDone, done, Host.Outcome.next.injEq] at h; subst h; simp

theorem execServiceEngineInterrupt_keeps (k : SliceId) (v : SvId) (_why : SvInterrupt) (s : State) :
    ∀ t9, execServiceEngineInterrupt k v _why s = .next t9 → t9.pending = s.pending ∧ t9.trust.otp = s.trust.otp := by
  intro t9 h; simp only [execServiceEngineInterrupt, done, Host.Outcome.next.injEq] at h; subst h; simp

@[simp] theorem State.resumeService_keeps (s : State) (k v : Nat) :
    (State.resumeService s k v).pending = s.pending ∧ (State.resumeService s k v).trust.otp = s.trust.otp := by
  unfold State.resumeService; dsimp only; (repeat' split) <;> simp_all

theorem execServiceRoutineResume_keeps (k : SliceId) (v : SvResume) (s : State) :
    ∀ t9, execServiceRoutineResume k v s = .next t9 → t9.pending = s.pending ∧ t9.trust.otp = s.trust.otp := by
  intro t9 h; unfold execServiceRoutineResume at h; simp only [done] at h; (repeat' split at h) <;> (cases h; simp)

@[simp] theorem State.putRow_keeps (s : State) (i : Nat) (r : MatchRow) :
    (State.putRow s i r).pending = s.pending ∧ (State.putRow s i r).trust.otp = s.trust.otp := by
  simp [State.putRow]

@[simp] theorem State.eraseRow_keeps (s : State) (i : Nat) :
    (State.eraseRow s i).pending = s.pending ∧ (State.eraseRow s i).trust.otp = s.trust.otp := by
  simp [State.eraseRow]

@[simp] theorem State.markBadRow_keeps (s : State) (k i : Nat) :
    (State.markBadRow s k i).pending = s.pending ∧ (State.markBadRow s k i).trust.otp = s.trust.otp := by
  simp [State.markBadRow]

@[simp] theorem State.falseHit_keeps (s : State) (k i : Nat) :
    (State.falseHit s k i).pending = s.pending ∧ (State.falseHit s k i).trust.otp = s.trust.otp := by
  simp [State.falseHit]

@[simp] theorem State.noteTie_keeps (s : State) (k winner next : Nat) :
    (State.noteTie s k winner next).pending = s.pending ∧ (State.noteTie s k winner next).trust.otp = s.trust.otp := by
  simp [State.noteTie]

@[simp] theorem State.matchLookup_keeps (s : State) (k : Nat) (key : Bytes) (e : Nat) (false_ miss : List Nat) :
    (State.matchLookup s k key e false_ miss).2.pending = s.pending ∧ (State.matchLookup s k key e false_ miss).2.trust.otp = s.trust.otp := by
  unfold State.matchLookup; (repeat' split) <;> simp

theorem execMatchRowRewrite_keeps (k : SliceId) (idx : Nat) (s : State) :
    ∀ t9, execMatchRowRewrite k idx s = .next t9 → t9.pending = s.pending ∧ t9.trust.otp = s.trust.otp := by
  intro t9 h; simp only [execMatchRowRewrite, done, Host.Outcome.next.injEq] at h; subst h; simp

theorem execMatchRowScrub_keeps (k : SliceId) (idx : Nat) (differs : Bool) (s : State) :
    ∀ t9, execMatchRowScrub k idx differs s = .next t9 → t9.pending = s.pending ∧ t9.trust.otp = s.trust.otp := by
  intro t9 h; unfold execMatchRowScrub at h; simp only [done] at h; (repeat' split at h) <;> (cases h; simp)

@[simp] theorem State.relocate_keeps (s : State) (src dst : Nat) :
    (State.relocate s src dst).pending = s.pending ∧ (State.relocate s src dst).trust.otp = s.trust.otp := by
  unfold State.relocate; (repeat' split) <;> simp

@[simp] theorem State.moveHole_keeps (s : State) (b h j : Nat) :
    (State.moveHole s b h j).pending = s.pending ∧ (State.moveHole s b h j).trust.otp = s.trust.otp := by
  simp [State.moveHole]

@[simp] theorem State.placeRow_keeps (s : State) (r : MatchRow) :
    ∀ t, State.placeRow s r = some t → t.pending = s.pending ∧ t.trust.otp = s.trust.otp := by
  intro t h
  unfold State.placeRow at h
  dsimp only at h
  split at h
  · cases h
  · split at h
    · injection h with h; subst h; simp
    · injection h with h; subst h; simp

@[simp] theorem State.settleSpacing_keeps (s : State) :
    (State.settleSpacing s).pending = s.pending ∧ (State.settleSpacing s).trust.otp = s.trust.otp := by
  simp [State.settleSpacing]

theorem execMatchRelocationStep_keeps (src dst : Nat) (s : State) :
    ∀ t9, execMatchRelocationStep src dst s = .next t9 → t9.pending = s.pending ∧ t9.trust.otp = s.trust.otp := by
  intro t9 h
  unfold execMatchRelocationStep at h
  split at h
  · have k := foldl_keeps (fun (s : State) k => if s.sweeps k then s.safePoint k else s) (List.range 8) (s.relocate src dst) (fun t k => by split <;> simp)
    exact next_keeps (by simpa using k) h
  · exact next_keeps ⟨rfl, rfl⟩ h

@[simp] theorem State.respace_keeps (s : State) :
    (State.respace s).pending = s.pending ∧ (State.respace s).trust.otp = s.trust.otp := by
  simp [State.respace]

@[simp] theorem State.samplerStep_keeps (s : State) (n lfsr gap : Nat) :
    (State.samplerStep s n lfsr gap).2.2.2.pending = s.pending ∧ (State.samplerStep s n lfsr gap).2.2.2.trust.otp = s.trust.otp := by
  unfold State.samplerStep; dsimp only; (repeat' split) <;> simp_all

theorem execChaffSampleWrite_keeps (s : State) :
    ∀ t9, execChaffSampleWrite s = .next t9 → t9.pending = s.pending ∧ t9.trust.otp = s.trust.otp := by
  intro t9 h; unfold execChaffSampleWrite at h; simp only [done] at h; (repeat' split at h) <;> (cases h; simp)

@[simp] theorem State.countFcs_keeps (s : State) (p : Nat) (bs : Bytes) :
    (State.countFcs s p bs).pending = s.pending ∧ (State.countFcs s p bs).trust.otp = s.trust.otp := by
  unfold State.countFcs; (repeat' split) <;> simp

@[simp] theorem Work.stop_keeps (w : Work) (cnt : State → State) (h_cnt : ∀ t, (cnt t).pending = t.pending ∧ (cnt t).trust.otp = t.trust.otp) :
    (Work.stop w cnt).s.pending = w.s.pending ∧ (Work.stop w cnt).s.trust.otp = w.s.trust.otp := by
  simp [Work.stop, h_cnt]

@[simp] theorem Work.next_keeps (w : Work) (f : Work → Work) (h_f : ∀ w, (f w).s.pending = w.s.pending ∧ (f w).s.trust.otp = w.s.trust.otp) :
    (Work.next w f).s.pending = w.s.pending ∧ (Work.next w f).s.trust.otp = w.s.trust.otp := by
  unfold Work.next; (repeat' split) <;> simp [h_f]

@[simp] theorem Work.toCores_keeps (w : Work) (kind : Nat) :
    (Work.toCores w kind).s.pending = w.s.pending ∧ (Work.toCores w kind).s.trust.otp = w.s.trust.otp := by
  unfold Work.toCores; dsimp only; (repeat' split) <;> simp_all

@[simp] theorem Work.source_keeps (e : LookupFaults) (w : Work) :
    (Work.source e w).s.pending = w.s.pending ∧ (Work.source e w).s.trust.otp = w.s.trust.otp := by
  unfold Work.source; dsimp only; (repeat' split) <;> simp_all

@[simp] theorem Work.redirect_keeps (w : Work) (d : Nat) :
    (Work.redirect w d).s.pending = w.s.pending ∧ (Work.redirect w d).s.trust.otp = w.s.trust.otp := by
  simp [Work.redirect]

@[simp] theorem Work.rowFields_keeps (w : Work) (r : Bytes) :
    (Work.rowFields w r).s.pending = w.s.pending ∧ (Work.rowFields w r).s.trust.otp = w.s.trust.otp := by
  unfold Work.rowFields; dsimp only; (repeat' split) <;> simp_all

@[simp] theorem State.markRoute_keeps (s : State) (m : Nat) :
    (State.markRoute s m).pending = s.pending ∧ (State.markRoute s m).trust.otp = s.trust.otp := by
  simp [State.markRoute]

end Sys2Proof.Machine
end

