-- ==== Sys2Proof/Laws/Keeps09.lean ====
section
/-! SUPPORT. What the functions of Ingress, Awn, Pressure, Admission, Otn keep: the queue and the OTP (R408). -/

namespace Sys2Proof.Machine

set_option maxRecDepth 4000
set_option simprocs false

@[simp] theorem Work.hop_keeps (w : Work) (i : Nat) :
    (Work.hop w i).s.pending = w.s.pending ∧ (Work.hop w i).s.trust.otp = w.s.trust.otp := by
  simp [Work.hop]

@[simp] theorem Work.noRoute_keeps (w : Work) (kind : Nat) :
    (Work.noRoute w kind).s.pending = w.s.pending ∧ (Work.noRoute w kind).s.trust.otp = w.s.trust.otp := by
  simp [Work.noRoute]

@[simp] theorem Work.route_keeps (e : LookupFaults) (w : Work) :
    (Work.route e w).s.pending = w.s.pending ∧ (Work.route e w).s.trust.otp = w.s.trust.otp := by
  unfold Work.route; dsimp only; (repeat' split) <;> simp_all

@[simp] theorem Work.flood_keeps (w : Work) (v : Vlan) :
    (Work.flood w v).s.pending = w.s.pending ∧ (Work.flood w v).s.trust.otp = w.s.trust.otp := by
  simp [Work.flood]

@[simp] theorem Work.bridge_keeps (e : LookupFaults) (v : Vlan) (redirected : Bool) (w : Work) :
    (Work.bridge e v redirected w).s.pending = w.s.pending ∧ (Work.bridge e v redirected w).s.trust.otp = w.s.trust.otp := by
  unfold Work.bridge; dsimp only; (repeat' split) <;> simp_all

@[simp] theorem Work.police_keeps (kind : FrameKind) (w : Work) :
    (Work.police kind w).s.pending = w.s.pending ∧ (Work.police kind w).s.trust.otp = w.s.trust.otp := by
  unfold Work.police; dsimp only; (repeat' split) <;> simp_all

@[simp] theorem Work.deliver_keeps (w : Work) :
    (Work.deliver w).s.pending = w.s.pending ∧ (Work.deliver w).s.trust.otp = w.s.trust.otp := by
  unfold Work.deliver; (repeat' split) <;> simp

@[simp] theorem Work.windowAct_keeps (w : Work) (d : Window) :
    (Work.windowAct w d).s.pending = w.s.pending ∧ (Work.windowAct w d).s.trust.otp = w.s.trust.otp := by
  unfold Work.windowAct; (repeat' split) <;> simp

@[simp] theorem Work.window_keeps (w : Work) (i : Nat) :
    (Work.window w i).s.pending = w.s.pending ∧ (Work.window w i).s.trust.otp = w.s.trust.otp := by
  unfold Work.window; dsimp only; (repeat' split) <;> simp_all

@[simp] theorem Work.windowed_keeps (row : Option Bytes) (w : Work) :
    (Work.windowed row w).s.pending = w.s.pending ∧ (Work.windowed row w).s.trust.otp = w.s.trust.otp := by
  unfold Work.windowed; (repeat' split) <;> simp

@[simp] theorem Work.rowAct_keeps (r : Bytes) (w : Work) :
    (Work.rowAct r w).s.pending = w.s.pending ∧ (Work.rowAct r w).s.trust.otp = w.s.trust.otp := by
  unfold Work.rowAct; (repeat' split) <;> simp

@[simp] theorem Work.lookups_keeps (e : LookupFaults) (kind : FrameKind) (w : Work) :
    (Work.lookups e kind w).s.pending = w.s.pending ∧ (Work.lookups e kind w).s.trust.otp = w.s.trust.otp := by
  unfold Work.lookups
  extract_lets k v px w0
  have k0 : w0.s.pending = w.s.pending ∧ w0.s.trust.otp = w.s.trust.otp := by simp [w0]
  clear_value w0
  have kr := State.matchLookup_keeps w0.s k (w.h.matchKey v.group w.x.vid w.x.pcp w.x.port) w.x.epoch e.matchFalse e.matchMiss
  split
  rename_i row s1 e1
  rw [e1] at kr
  dsimp only at kr
  extract_lets w1 w2 act w3 w4 w5 w6
  have k1 : w1.s.pending = w.s.pending ∧ w1.s.trust.otp = w.s.trust.otp := ⟨kr.1.trans k0.1, kr.2.trans k0.2⟩
  have k2 : w2.s.pending = w1.s.pending ∧ w2.s.trust.otp = w1.s.trust.otp := by unfold w2; split <;> simp
  have k3 : w3.s.pending = w2.s.pending ∧ w3.s.trust.otp = w2.s.trust.otp := by unfold w3; split <;> simp
  have k4 : w4.s.pending = w3.s.pending ∧ w4.s.trust.otp = w3.s.trust.otp := by
    refine Work.next_keeps _ _ (fun w => ?_)
    split <;> simp
  have k5 : w5.s.pending = w4.s.pending ∧ w5.s.trust.otp = w4.s.trust.otp := by unfold w5; split <;> simp
  have k6 : w6.s.pending = w5.s.pending ∧ w6.s.trust.otp = w5.s.trust.otp := by unfold w6; split <;> simp
  have k7 := Work.next_keeps w6 (fun w => w.police kind) (fun w => by simp)
  have k8 := Work.next_keeps (w6.next (fun w => w.police kind)) Work.deliver (fun w => by simp)
  exact ⟨k8.1.trans (k7.1.trans (k6.1.trans (k5.1.trans (k4.1.trans (k3.1.trans (k2.1.trans k1.1)))))),
    k8.2.trans (k7.2.trans (k6.2.trans (k5.2.trans (k4.2.trans (k3.2.trans (k2.2.trans k1.2))))))⟩

@[simp] theorem Work.inSampler_keeps (w : Work) :
    (Work.inSampler w).s.pending = w.s.pending ∧ (Work.inSampler w).s.trust.otp = w.s.trust.otp := by
  unfold Work.inSampler; dsimp only; (repeat' split) <;> simp_all

@[simp] theorem State.toStep5_keeps (s : State) (n : Nat) (x : Packet) (h : Parsed) :
    (State.toStep5 s n x h).pending = s.pending ∧ (State.toStep5 s n x h).trust.otp = s.trust.otp := by
  unfold State.toStep5; (try dsimp only); (repeat' split) <;> simp_all

@[simp] theorem Work.ended_keeps (w : Work) (n : Nat) (discarded dropped : Bool) :
    (Work.ended w n discarded dropped).pending = w.s.pending ∧ (Work.ended w n discarded dropped).trust.otp = w.s.trust.otp := by
  simp [Work.ended]

@[simp] theorem Work.finish_keeps (w : Work) (n : Nat) :
    (Work.finish w n).pending = w.s.pending ∧ (Work.finish w n).trust.otp = w.s.trust.otp := by
  simp [Work.finish]

@[simp] theorem State.consume_keeps (s : State) (p kind : Nat) (bs : Bytes) :
    (State.consume s p kind bs).pending = s.pending ∧ (State.consume s p kind bs).trust.otp = s.trust.otp := by
  simp [State.consume]

@[simp] theorem State.takeNumber_keeps (s : State) (p pool : Nat) (spilled : Bool) (hint : Nat) (x : Packet) :
    (State.takeNumber s p pool spilled hint x).pending = s.pending ∧ (State.takeNumber s p pool spilled hint x).trust.otp = s.trust.otp := by
  simp [State.takeNumber]

@[simp] theorem State.enterFrame_keeps (s : State) (p : Nat) (bs : Bytes) (e : LookupFaults) (h : Parsed) (kind : FrameKind) (vid pcp : Nat) (tagged : Bool) :
    (State.enterFrame s p bs e h kind vid pcp tagged).pending = s.pending ∧ (State.enterFrame s p bs e h kind vid pcp tagged).trust.otp = s.trust.otp := by
  unfold State.enterFrame; dsimp only; (repeat' split) <;> simp_all

@[simp] theorem State.setAwn_keeps (s : State) (a v : Nat) :
    (State.setAwn s a v).pending = s.pending ∧ (State.setAwn s a v).trust.otp = s.trust.otp := by
  simp [State.setAwn]

@[simp] theorem State.intoLane_keeps (s : State) (n lane : Nat) :
    (State.intoLane s n lane).pending = s.pending ∧ (State.intoLane s n lane).trust.otp = s.trust.otp := by
  unfold State.intoLane; (repeat' split) <;> simp

@[simp] theorem State.dropLate_keeps (s : State) :
    (State.dropLate s).pending = s.pending ∧ (State.dropLate s).trust.otp = s.trust.otp := by
  simp [State.dropLate]

theorem execSegmentScanStart_keeps (s : State) :
    ∀ t9, execSegmentScanStart s = .next t9 → t9.pending = s.pending ∧ t9.trust.otp = s.trust.otp := by
  intro t9 h; unfold execSegmentScanStart at h; simp only [done] at h; (repeat' split at h) <;> (cases h; simp)

@[simp] theorem State.saveScan_keeps (s : State) (p : Packet) (x : PatternSet) (lost : Bool) (r : ScanResult) :
    (State.saveScan s p x lost r).pending = s.pending ∧ (State.saveScan s p x lost r).trust.otp = s.trust.otp := by
  unfold State.saveScan; (repeat' split) <;> simp

@[simp] theorem State.locatePdus_keeps (s : State) (n : Nat) (x : PatternSet) :
    (State.locatePdus s n x).pending = s.pending ∧ (State.locatePdus s n x).trust.otp = s.trust.otp := by
  unfold State.locatePdus; dsimp only; (repeat' split) <;> simp_all

@[simp] theorem State.scanDone_keeps (s : State) (n : Nat) (x : PatternSet) (r : ScanResult) :
    (State.scanDone s n x r).pending = s.pending ∧ (State.scanDone s n x r).trust.otp = s.trust.otp := by
  unfold State.scanDone; (repeat' split) <;> simp

@[simp] theorem State.requeue_keeps (s : State) (lane : Nat) (x : Scan) :
    (State.requeue s lane x).pending = s.pending ∧ (State.requeue s lane x).trust.otp = s.trust.otp := by
  unfold State.requeue; (repeat' split) <;> simp

@[simp] theorem State.rescanLane_keeps (lanes : List Nat) (s : State) (l : Nat) :
    (State.rescanLane lanes s l).pending = s.pending ∧ (State.rescanLane lanes s l).trust.otp = s.trust.otp := by
  unfold State.rescanLane; dsimp only; (repeat' split) <;> simp_all

@[simp] theorem State.rescanLanes_keeps (s : State) (lanes : List Nat) :
    (State.rescanLanes s lanes).pending = s.pending ∧ (State.rescanLanes s lanes).trust.otp = s.trust.otp := by
  simp [State.rescanLanes]

@[simp] theorem State.awnFault_keeps (s : State) (a cause again : Nat) :
    (State.awnFault s a cause again).pending = s.pending ∧ (State.awnFault s a cause again).trust.otp = s.trust.otp := by
  simp [State.awnFault]

@[simp] theorem State.retireAwn_keeps (s : State) (a : Nat) :
    (State.retireAwn s a).pending = s.pending ∧ (State.retireAwn s a).trust.otp = s.trust.otp := by
  simp [State.retireAwn]

@[simp] theorem State.laneFault_keeps (s : State) (a lane : Nat) (f : AwnFault) :
    (State.laneFault s a lane f).pending = s.pending ∧ (State.laneFault s a lane f).trust.otp = s.trust.otp := by
  unfold State.laneFault; (repeat' split) <;> simp

theorem execSegmentScanComplete_keeps (a : AwnId) (lane : Fin 2) (fault : Option AwnFault) (s : State) :
    ∀ t9, execSegmentScanComplete a lane fault s = .next t9 → t9.pending = s.pending ∧ t9.trust.otp = s.trust.otp := by
  intro t9
  unfold execSegmentScanComplete
  split <;> (try dsimp only) <;> (repeat' split) <;> exact next_keeps (by simp)

theorem execAutomataEntryRewrite_keeps (entry : Nat) (s : State) :
    ∀ t9, execAutomataEntryRewrite entry s = .next t9 → t9.pending = s.pending ∧ t9.trust.otp = s.trust.otp := by
  intro t9 h; simp only [execAutomataEntryRewrite, done, Host.Outcome.next.injEq] at h; subst h; simp

theorem execAwnKnownAnswerScan_keeps (a : AwnId) (pass : Bool) (s : State) :
    ∀ t9, execAwnKnownAnswerScan a pass s = .next t9 → t9.pending = s.pending ∧ t9.trust.otp = s.trust.otp := by
  intro t9 h; unfold execAwnKnownAnswerScan at h; simp only [done] at h; (repeat' split at h) <;> (cases h; simp)

theorem execProfiledWorkDeadlineExpiry_keeps (n : Nat) (s : State) :
    ∀ t9, execProfiledWorkDeadlineExpiry n s = .next t9 → t9.pending = s.pending ∧ t9.trust.otp = s.trust.otp := by
  intro t9 h; unfold execProfiledWorkDeadlineExpiry at h; simp only [done] at h; (repeat' split at h) <;> (cases h; simp)

@[simp] theorem State.readPermits_keeps (s : State) (us : List Pdu) :
    (State.readPermits s us).pending = s.pending ∧ (State.readPermits s us).trust.otp = s.trust.otp := by
  simp [State.readPermits]

theorem execCommandDigestComplete_keeps (n : Nat) (wrong : Bool) (s : State) :
    ∀ t9, execCommandDigestComplete n wrong s = .next t9 → t9.pending = s.pending ∧ t9.trust.otp = s.trust.otp := by
  intro t9 h; unfold execCommandDigestComplete at h; dsimp only at h; (repeat' split at h) <;> (simp only [done, Host.Outcome.next.injEq] at h; subst h; simp_all)

theorem execFrameArrival_keeps (p : PortId) (bytes : Bytes) (e : LookupFaults) (s : State) :
    ∀ t9, execFrameArrival p bytes e s = .next t9 → t9.pending = s.pending ∧ t9.trust.otp = s.trust.otp := by
  intro t9 h; unfold execFrameArrival at h; dsimp only at h; (repeat' split at h) <;> (simp only [done, Host.Outcome.next.injEq] at h; subst h; simp_all)

@[simp] theorem State.voidWaiting_keeps (s : State) (n : Nat) (cnt : Nat → State → State) (h_cnt : ∀ a t, (cnt a t).pending = t.pending ∧ (cnt a t).trust.otp = t.trust.otp) :
    (State.voidWaiting s n cnt).pending = s.pending ∧ (State.voidWaiting s n cnt).trust.otp = s.trust.otp := by
  unfold State.voidWaiting; (repeat' split) <;> simp [h_cnt]

@[simp] theorem State.foundBad_keeps (s : State) (n : Nat) :
    (State.foundBad s n).pending = s.pending ∧ (State.foundBad s n).trust.otp = s.trust.otp := by
  unfold State.foundBad; dsimp only; (repeat' split) <;> simp_all

@[simp] theorem State.endReception_keeps (s : State) (n : Nat) :
    (State.endReception s n).pending = s.pending ∧ (State.endReception s n).trust.otp = s.trust.otp := by
  unfold State.endReception; (repeat' split) <;> simp

theorem execFrameReceiveComplete_keeps (n : Nat) (codeError : Bool) (s : State) :
    ∀ t9, execFrameReceiveComplete n codeError s = .next t9 → t9.pending = s.pending ∧ t9.trust.otp = s.trust.otp := by
  intro t9 h; unfold execFrameReceiveComplete at h; simp only [done] at h; (repeat' split at h) <;> (cases h; simp)

theorem execXoffRefresh_keeps (p : PortId) (c : ClassId) (s : State) :
    ∀ t9, execXoffRefresh p c s = .next t9 → t9.pending = s.pending ∧ t9.trust.otp = s.trust.otp := by
  intro t9 h; unfold execXoffRefresh at h; simp only [done] at h; (repeat' split at h) <;> (cases h; simp)

@[simp] theorem State.backOff_keeps (s : State) (p c : Nat) :
    (State.backOff s p c).pending = s.pending ∧ (State.backOff s p c).trust.otp = s.trust.otp := by
  simp [State.backOff]

theorem execXoffLimitExpiry_keeps (p : PortId) (c : ClassId) (s : State) :
    ∀ t9, execXoffLimitExpiry p c s = .next t9 → t9.pending = s.pending ∧ t9.trust.otp = s.trust.otp := by
  intro t9 h; unfold execXoffLimitExpiry at h; simp only [done] at h; (repeat' split at h) <;> (cases h; simp)

theorem execPauseBackoffEnd_keeps (p : PortId) (c : ClassId) (s : State) :
    ∀ t9, execPauseBackoffEnd p c s = .next t9 → t9.pending = s.pending ∧ t9.trust.otp = s.trust.otp := by
  intro t9 h; unfold execPauseBackoffEnd at h; simp only [done] at h; (repeat' split at h) <;> (cases h; simp)

@[simp] theorem State.offerCopy_keeps (s : State) (n : Nat) (x : Packet) (q : Nat) :
    (State.offerCopy s n x q).1.pending = s.pending ∧ (State.offerCopy s n x q).1.trust.otp = s.trust.otp := by
  unfold State.offerCopy; dsimp only; (repeat' split) <;> simp_all

@[simp] theorem State.offerAll_keeps (s : State) (n : Nat) (x : Packet) :
    (State.offerAll s n x).1.pending = s.pending ∧ (State.offerAll s n x).1.trust.otp = s.trust.otp := by
  simp [State.offerAll]

@[simp] theorem State.sampleAt7_keeps (s : State) (n : Nat) (x : Packet) (out : Nat) (discarded dropped : Bool) :
    (State.sampleAt7 s n x out discarded dropped).pending = s.pending ∧ (State.sampleAt7 s n x out discarded dropped).trust.otp = s.trust.otp := by
  simp [State.sampleAt7]

@[simp] theorem State.endDiscarded_keeps (s : State) (n : Nat) (x : Packet) :
    (State.endDiscarded s n x).pending = s.pending ∧ (State.endDiscarded s n x).trust.otp = s.trust.otp := by
  unfold State.endDiscarded; (repeat' split) <;> simp

@[simp] theorem State.enterMoveHold_keeps (s : State) (n : Nat) (x : Packet) :
    (State.enterMoveHold s n x).pending = s.pending ∧ (State.enterMoveHold s n x).trust.otp = s.trust.otp := by
  simp [State.enterMoveHold]

theorem execEgressQueueAdmission_keeps (n : Nat) (s : State) :
    ∀ t9, execEgressQueueAdmission n s = .next t9 → t9.pending = s.pending ∧ t9.trust.otp = s.trust.otp := by
  intro t9 h; unfold execEgressQueueAdmission at h; simp only [done] at h; (repeat' split at h) <;> (cases h; simp)

@[simp] theorem State.setDefects_keeps (s : State) (p mask0 : Nat) :
    (State.setDefects s p mask0).pending = s.pending ∧ (State.setDefects s p mask0).trust.otp = s.trust.otp := by
  unfold State.setDefects; dsimp only; (repeat' split) <;> simp_all

@[simp] theorem State.laneLoss_keeps (s : State) (l : Nat) :
    (State.laneLoss s l).pending = s.pending ∧ (State.laneLoss s l).trust.otp = s.trust.otp := by
  simp [State.laneLoss]

theorem execLossOfSignal_keeps (l : LaneId) (s : State) :
    ∀ t9, execLossOfSignal l s = .next t9 → t9.pending = s.pending ∧ t9.trust.otp = s.trust.otp := by
  intro t9 h; simp only [execLossOfSignal, done, Host.Outcome.next.injEq] at h; subst h; simp

theorem execRefclkLineLoss_keeps (n : Fin 6) (s : State) :
    ∀ t9, execRefclkLineLoss n s = .next t9 → t9.pending = s.pending ∧ t9.trust.otp = s.trust.otp := by
  intro t9 h; simp only [execRefclkLineLoss, done, Host.Outcome.next.injEq] at h; subst h; simp

theorem execOtu4FrameReceive_keeps (p : PortId) (f : OtuFrame) (s : State) :
    ∀ t9, execOtu4FrameReceive p f s = .next t9 → t9.pending = s.pending ∧ t9.trust.otp = s.trust.otp := by
  intro t9 h; unfold execOtu4FrameReceive at h; simp only [done] at h; (repeat' split at h) <;> (cases h; simp)

theorem execOtu4FrameTransmit_keeps (p : PortId) (s : State) :
    ∀ t9, execOtu4FrameTransmit p s = .next t9 → t9.pending = s.pending ∧ t9.trust.otp = s.trust.otp := by
  intro t9 h; unfold execOtu4FrameTransmit at h; simp only [done] at h; (repeat' split at h) <;> (cases h; simp)

theorem execOtnPersistenceExpiry_keeps (p : PortId) (s : State) :
    ∀ t9, execOtnPersistenceExpiry p s = .next t9 → t9.pending = s.pending ∧ t9.trust.otp = s.trust.otp := by
  intro t9 h; unfold execOtnPersistenceExpiry at h; simp only [done] at h; (repeat' split at h) <;> (cases h; simp)

theorem execDlosClearTimeout_keeps (p : PortId) (s : State) :
    ∀ t9, execDlosClearTimeout p s = .next t9 → t9.pending = s.pending ∧ t9.trust.otp = s.trust.otp := by
  intro t9 h; unfold execDlosClearTimeout at h; simp only [done] at h; (repeat' split at h) <;> (cases h; simp)

@[simp] theorem State.endSecond_keeps (s : State) (p : Nat) :
    (State.endSecond s p).pending = s.pending ∧ (State.endSecond s p).trust.otp = s.trust.otp := by
  simp [State.endSecond]

end Sys2Proof.Machine
end

