-- ==== Sys2Proof/Laws/Keeps10.lean ====
section
/-! SUPPORT. What the functions of Otn, Ledger, Intake, Sheaf, PowerCore keep: the queue and the OTP (R408). -/

namespace Sys2Proof.Machine

set_option maxRecDepth 4000
set_option simprocs false

theorem execOtnSecondEnd_keeps (s : State) :
    ∀ t9, execOtnSecondEnd s = .next t9 → t9.pending = s.pending ∧ t9.trust.otp = s.trust.otp := by
  intro t9 h; simp only [execOtnSecondEnd, done, Host.Outcome.next.injEq] at h; subst h; simp

@[simp] theorem State.recompare_keeps (s : State) (p : Nat) :
    (State.recompare s p).pending = s.pending ∧ (State.recompare s p).trust.otp = s.trust.otp := by
  simp [State.recompare]

@[simp] theorem State.oduLock_keeps (s : State) (p : Nat) :
    (State.oduLock s p).pending = s.pending ∧ (State.oduLock s p).trust.otp = s.trust.otp := by
  simp [State.oduLock]

@[simp] theorem State.pcsDown_keeps (s : State) (p : Nat) :
    (State.pcsDown s p).pending = s.pending ∧ (State.pcsDown s p).trust.otp = s.trust.otp := by
  unfold State.pcsDown; (try dsimp only); (repeat' split) <;> simp_all

@[simp] theorem State.otnClock_keeps (s : State) (p : Nat) :
    (State.otnClock s p).pending = s.pending ∧ (State.otnClock s p).trust.otp = s.trust.otp := by
  simp [State.otnClock]

@[simp] theorem State.checkLane_keeps (s : State) (l : Nat) :
    (State.checkLane s l).pending = s.pending ∧ (State.checkLane s l).trust.otp = s.trust.otp := by
  unfold State.checkLane; dsimp only; (repeat' split) <;> simp_all

@[simp] theorem State.laneClock_keeps (s : State) :
    (State.laneClock s).pending = s.pending ∧ (State.laneClock s).trust.otp = s.trust.otp := by
  simp [State.laneClock]

@[simp] theorem State.crossLevel_keeps (s : State) (bit pct : Nat) (above : Bool) :
    (State.crossLevel s bit pct above).pending = s.pending ∧ (State.crossLevel s bit pct above).trust.otp = s.trust.otp := by
  simp [State.crossLevel]

@[simp] theorem State.watchLevel_keeps (s : State) (bit pct : Nat) :
    (State.watchLevel s bit pct).pending = s.pending ∧ (State.watchLevel s bit pct).trust.otp = s.trust.otp := by
  simp [State.watchLevel]

@[simp] theorem State.ledgerLevel_keeps (s : State) :
    (State.ledgerLevel s).pending = s.pending ∧ (State.ledgerLevel s).trust.otp = s.trust.otp := by
  simp [State.ledgerLevel]

@[simp] theorem State.writeRecord_keeps (s : State) (r : Bytes) (rest : List Bytes) :
    (State.writeRecord s r rest).pending = s.pending ∧ (State.writeRecord s r rest).trust.otp = s.trust.otp := by
  simp [State.writeRecord]

theorem execLedgerSeal_keeps (s : State) :
    ∀ t9, execLedgerSeal s = .next t9 → t9.pending = s.pending ∧ t9.trust.otp = s.trust.otp := by
  intro t9 h; unfold execLedgerSeal at h; simp only [done] at h; (repeat' split at h) <;> (cases h; simp)

@[simp] theorem State.endSubmit_keeps (s : State) (i : Intake) (cause : Option Nat) :
    (State.endSubmit s i cause).pending = s.pending ∧ (State.endSubmit s i cause).trust.otp = s.trust.otp := by
  simp [State.endSubmit]

@[simp] theorem State.refuseRecorded_keeps (s : State) (i : Intake) (cause : Nat) :
    (State.refuseRecorded s i cause).pending = s.pending ∧ (State.refuseRecorded s i cause).trust.otp = s.trust.otp := by
  simp [State.refuseRecorded]

@[simp] theorem State.refuseIntake_keeps (s : State) (i : Intake) (cause : Nat) :
    (State.refuseIntake s i cause).pending = s.pending ∧ (State.refuseIntake s i cause).trust.otp = s.trust.otp := by
  unfold State.refuseIntake; (repeat' split) <;> simp

@[simp] theorem State.applyFrame_keeps (s : State) (i : Intake) :
    (State.applyFrame s i).pending = s.pending ∧ (State.applyFrame s i).trust.otp = s.trust.otp := by
  unfold State.applyFrame; (repeat' split) <;> simp

@[simp] theorem State.advanceOne_keeps (s : State) (i : Intake) :
    (State.advanceOne s i).pending = s.pending ∧ (State.advanceOne s i).trust.otp = s.trust.otp := by
  unfold State.advanceOne; dsimp only; (repeat' split) <;> simp_all

@[simp] theorem State.advanceIntake_keeps (s : State) :
    (State.advanceIntake s).pending = s.pending ∧ (State.advanceIntake s).trust.otp = s.trust.otp := by
  simp [State.advanceIntake]

theorem execLedgerRecordWrite_keeps (s : State) :
    ∀ t9, execLedgerRecordWrite s = .next t9 → t9.pending = s.pending ∧ t9.trust.otp = s.trust.otp := by
  intro t9 h; unfold execLedgerRecordWrite at h; simp only [done] at h; (repeat' split at h) <;> (cases h; simp)

@[simp] theorem State.reserved_keeps (s : State) (key seq : Nat) (granted : Bool) :
    (State.reserved s key seq granted).pending = s.pending ∧ (State.reserved s key seq granted).trust.otp = s.trust.otp := by
  unfold State.reserved; (repeat' split) <;> simp

@[simp] theorem State.setSeal_keeps (s : State) (sp v : Nat) :
    (State.setSeal s sp v).pending = s.pending ∧ (State.setSeal s sp v).trust.otp = s.trust.otp := by
  simp [State.setSeal]

@[simp] theorem State.withhold_keeps (s : State) (sp : Nat) :
    (State.withhold s sp).pending = s.pending ∧ (State.withhold s sp).trust.otp = s.trust.otp := by
  unfold State.withhold; (repeat' split) <;> simp

@[simp] theorem State.refuseUnserved_keeps (s : State) :
    (State.refuseUnserved s).pending = s.pending ∧ (State.refuseUnserved s).trust.otp = s.trust.otp := by
  simp [State.refuseUnserved]

@[simp] theorem State.sealFault_keeps (s : State) (sp cause : Nat) :
    (State.sealFault s sp cause).pending = s.pending ∧ (State.sealFault s sp cause).trust.otp = s.trust.otp := by
  simp [State.sealFault]

theorem execSealVerdict_keeps (sp : SealPairId) (err0 err1 : Bool) (s : State) :
    ∀ t9, execSealVerdict sp err0 err1 s = .next t9 → t9.pending = s.pending ∧ t9.trust.otp = s.trust.otp := by
  intro t9 h; unfold execSealVerdict at h; simp only [done] at h; (repeat' split at h) <;> (cases h; simp)

theorem execSealPairKnownAnswerTest_keeps (sp : SealPairId) (pass : Bool) (s : State) :
    ∀ t9, execSealPairKnownAnswerTest sp pass s = .next t9 → t9.pending = s.pending ∧ t9.trust.otp = s.trust.otp := by
  intro t9 h; unfold execSealPairKnownAnswerTest at h; simp only [done] at h; (repeat' split at h) <;> (cases h; simp)

theorem execHashKnownAnswerTest_keeps (h : HashId) (pass : Bool) (s : State) :
    ∀ t9, execHashKnownAnswerTest h pass s = .next t9 → t9.pending = s.pending ∧ t9.trust.otp = s.trust.otp := by
  intro t9 h; unfold execHashKnownAnswerTest at h; simp only [done] at h; (repeat' split at h) <;> (cases h; simp)

@[simp] theorem State.writePermit_keeps (s : State) (i : Intake) :
    (State.writePermit s i).pending = s.pending ∧ (State.writePermit s i).trust.otp = s.trust.otp := by
  unfold State.writePermit; dsimp only; (repeat' split) <;> simp_all

theorem execPermitEntryWrite_keeps (key seq : Nat) (s : State) :
    ∀ t9, execPermitEntryWrite key seq s = .next t9 → t9.pending = s.pending ∧ t9.trust.otp = s.trust.otp := by
  intro t9 h; unfold execPermitEntryWrite at h; simp only [done] at h; (repeat' split at h) <;> (cases h; simp)

theorem execPermitNotBeforeReached_keeps (loc : PermitLoc) (s : State) :
    ∀ t9, execPermitNotBeforeReached loc s = .next t9 → t9.pending = s.pending ∧ t9.trust.otp = s.trust.otp := by
  intro t9 h; unfold execPermitNotBeforeReached at h; simp only [done] at h; (repeat' split at h) <;> (cases h; simp)

theorem execPermitWindowOpen_keeps (loc : PermitLoc) (s : State) :
    ∀ t9, execPermitWindowOpen loc s = .next t9 → t9.pending = s.pending ∧ t9.trust.otp = s.trust.otp := by
  intro t9 h; unfold execPermitWindowOpen at h; simp only [done] at h; (repeat' split at h) <;> (cases h; simp)

theorem execPermitExpiryRemoval_keeps (loc : PermitLoc) (s : State) :
    ∀ t9, execPermitExpiryRemoval loc s = .next t9 → t9.pending = s.pending ∧ t9.trust.otp = s.trust.otp := by
  intro t9 h; unfold execPermitExpiryRemoval at h; simp only [done] at h; (repeat' split at h) <;> (cases h; simp)

@[simp] theorem State.modLink_keeps (s : State) (n : Nat) (f : SheafLink → SheafLink) :
    (State.modLink s n f).pending = s.pending ∧ (State.modLink s n f).trust.otp = s.trust.otp := by
  simp [State.modLink]

@[simp] theorem State.unreserve_keeps (s : State) (i : Intake) :
    (State.unreserve s i).pending = s.pending ∧ (State.unreserve s i).trust.otp = s.trust.otp := by
  simp [State.unreserve]

@[simp] theorem State.orphan_keeps (s : State) (mb : Nat) :
    (State.orphan s mb).pending = s.pending ∧ (State.orphan s mb).trust.otp = s.trust.otp := by
  simp [State.orphan]

@[simp] theorem State.twinLost_keeps (s : State) :
    (State.twinLost s).pending = s.pending ∧ (State.twinLost s).trust.otp = s.trust.otp := by
  simp [State.twinLost]

@[simp] theorem State.sheafDown_keeps (s : State) (n cause : Nat) :
    (State.sheafDown s n cause).pending = s.pending ∧ (State.sheafDown s n cause).trust.otp = s.trust.otp := by
  simp [State.sheafDown]

@[simp] theorem State.sheafRepower_keeps (s : State) (power : Nat → Nat) :
    (State.sheafRepower s power).pending = s.pending ∧ (State.sheafRepower s power).trust.otp = s.trust.otp := by
  simp [State.sheafRepower]

@[simp] theorem State.pairChanged_keeps (s : State) :
    (State.pairChanged s).pending = s.pending ∧ (State.pairChanged s).trust.otp = s.trust.otp := by
  simp [State.pairChanged]

@[simp] theorem State.sheafRetest_keeps (s : State) (n : Nat) :
    (State.sheafRetest s n).pending = s.pending ∧ (State.sheafRetest s n).trust.otp = s.trust.otp := by
  simp [State.sheafRetest]

theorem execSheafSymbolLockGain_keeps (l : SheafLaneId) (s : State) :
    ∀ t9, execSheafSymbolLockGain l s = .next t9 → t9.pending = s.pending ∧ t9.trust.otp = s.trust.otp := by
  intro t9 h; unfold execSheafSymbolLockGain at h; simp only [done] at h; (repeat' split at h) <;> (cases h; simp)

@[simp] theorem State.lostLane_keeps (s : State) (l cause : Nat) (signal : Bool) :
    (State.lostLane s l cause signal).pending = s.pending ∧ (State.lostLane s l cause signal).trust.otp = s.trust.otp := by
  simp [State.lostLane]

theorem execSheafSymbolLockLoss_keeps (l : SheafLaneId) (s : State) :
    ∀ t9, execSheafSymbolLockLoss l s = .next t9 → t9.pending = s.pending ∧ t9.trust.otp = s.trust.otp := by
  intro t9 h; simp only [execSheafSymbolLockLoss, done, Host.Outcome.next.injEq] at h; subst h; simp

theorem execRefclkSheafLoss_keeps (s : State) :
    ∀ t9, execRefclkSheafLoss s = .next t9 → t9.pending = s.pending ∧ t9.trust.otp = s.trust.otp := by
  intro t9 h; simp only [execRefclkSheafLoss, done, Host.Outcome.next.injEq] at h; subst h; simp

@[simp] theorem State.sheafFail_keeps (s : State) (n lane cause : Nat) :
    (State.sheafFail s n lane cause).pending = s.pending ∧ (State.sheafFail s n lane cause).trust.otp = s.trust.otp := by
  simp [State.sheafFail]

theorem execSheafLaneLossOfSignal_keeps (l : SheafLaneId) (s : State) :
    ∀ t9, execSheafLaneLossOfSignal l s = .next t9 → t9.pending = s.pending ∧ t9.trust.otp = s.trust.otp := by
  intro t9 h; unfold execSheafLaneLossOfSignal at h; simp only [done] at h; (repeat' split at h) <;> (cases h; simp)

@[simp] theorem State.answerSheaf_keeps (s : State) (l : Nat) :
    (State.answerSheaf s l).pending = s.pending ∧ (State.answerSheaf s l).trust.otp = s.trust.otp := by
  unfold State.answerSheaf; dsimp only; (repeat' split) <;> simp_all

@[simp] theorem State.adaptSheaf_keeps (s : State) (l : Nat) :
    (State.adaptSheaf s l).pending = s.pending ∧ (State.adaptSheaf s l).trust.otp = s.trust.otp := by
  unfold State.adaptSheaf; dsimp only; (repeat' split) <;> simp_all

theorem execSheafTrainingFrame_keeps (l : SheafLaneId) (q : CoefRequest) (converged : Bool) (s : State) :
    ∀ t9, execSheafTrainingFrame l q converged s = .next t9 → t9.pending = s.pending ∧ t9.trust.otp = s.trust.otp := by
  intro t9 h; unfold execSheafTrainingFrame at h; simp only [done] at h; (repeat' split at h) <;> (cases h; simp)

theorem execSheafTrainingRetry_keeps (n : LinkId) (s : State) :
    ∀ t9, execSheafTrainingRetry n s = .next t9 → t9.pending = s.pending ∧ t9.trust.otp = s.trust.otp := by
  intro t9 h; unfold execSheafTrainingRetry at h; simp only [done] at h; (repeat' split at h) <;> (cases h; simp)

@[simp] theorem State.checkSheaf_keeps (s : State) (l : Nat) :
    (State.checkSheaf s l).pending = s.pending ∧ (State.checkSheaf s l).trust.otp = s.trust.otp := by
  unfold State.checkSheaf; dsimp only; (repeat' split) <;> simp_all

@[simp] theorem State.sendTraining_keeps (s : State) (l : Nat) :
    (State.sendTraining s l).pending = s.pending ∧ (State.sendTraining s l).trust.otp = s.trust.otp := by
  simp [State.sendTraining]

@[simp] theorem State.trainSheaf_keeps (s : State) (n : Nat) :
    (State.trainSheaf s n).pending = s.pending ∧ (State.trainSheaf s n).trust.otp = s.trust.otp := by
  simp [State.trainSheaf]

@[simp] theorem State.sheafClock_keeps (s : State) :
    (State.sheafClock s).pending = s.pending ∧ (State.sheafClock s).trust.otp = s.trust.otp := by
  simp [State.sheafClock]

@[simp] theorem State.sheafUp_keeps (s : State) (n : Nat) :
    (State.sheafUp s n).pending = s.pending ∧ (State.sheafUp s n).trust.otp = s.trust.otp := by
  simp [State.sheafUp]

@[simp] theorem State.noteOffset_keeps (s : State) (stamp : Nat) :
    (State.noteOffset s stamp).pending = s.pending ∧ (State.noteOffset s stamp).trust.otp = s.trust.otp := by
  simp [State.noteOffset]

@[simp] theorem State.followTwin_keeps (s : State) (stamp : Nat) :
    (State.followTwin s stamp).pending = s.pending ∧ (State.followTwin s stamp).trust.otp = s.trust.otp := by
  simp [State.followTwin]

@[simp] theorem State.header_keeps (s : State) (n : Nat) (h : Bytes) :
    (State.header s n h).pending = s.pending ∧ (State.header s n h).trust.otp = s.trust.otp := by
  simp [State.header]

theorem execSuperframeReceive_keeps (n : LinkId) (x : Superframe) (s : State) :
    ∀ t9, execSuperframeReceive n x s = .next t9 → t9.pending = s.pending ∧ t9.trust.otp = s.trust.otp := by
  intro t9 h; unfold execSuperframeReceive at h; simp only [done] at h; (repeat' split at h) <;> (cases h; simp)

theorem execSuperframeSend_keeps (n : LinkId) (s : State) :
    ∀ t9, execSuperframeSend n s = .next t9 → t9.pending = s.pending ∧ t9.trust.otp = s.trust.otp := by
  intro t9 h; unfold execSuperframeSend at h; simp only [done] at h; (repeat' split at h) <;> (cases h; simp)

@[simp] theorem State.beat_keeps (s : State) (n : Nat) :
    (State.beat s n).pending = s.pending ∧ (State.beat s n).trust.otp = s.trust.otp := by
  simp only [State.beat]; split <;> simp

theorem execHeartbeatSend_keeps (s : State) :
    ∀ t9, execHeartbeatSend s = .next t9 → t9.pending = s.pending ∧ t9.trust.otp = s.trust.otp := by
  intro t9 h; unfold execHeartbeatSend at h; injection h with h; subst h
  exact foldl_keeps State.beat _ _ State.beat_keeps

theorem execHeartbeat_keeps (n : LinkId) (x : HeartbeatBody) (s : State) :
    ∀ t9, execHeartbeat n x s = .next t9 → t9.pending = s.pending ∧ t9.trust.otp = s.trust.otp := by
  intro t9 h; unfold execHeartbeat at h; simp only [done] at h; (repeat' split at h) <;> (cases h; simp)

@[simp] theorem State.silentDown_keeps (s : State) (n : Nat) :
    (State.silentDown s n).pending = s.pending ∧ (State.silentDown s n).trust.otp = s.trust.otp := by
  unfold State.silentDown; split <;> simp

theorem execSheafHeartbeatTimeout_keeps (n : LinkId) (s : State) :
    ∀ t9, execSheafHeartbeatTimeout n s = .next t9 → t9.pending = s.pending ∧ t9.trust.otp = s.trust.otp := by
  intro t9 h; unfold execSheafHeartbeatTimeout at h; cases h; simp

theorem execTwinHeartbeatTimeout_keeps (s : State) :
    ∀ t9, execTwinHeartbeatTimeout s = .next t9 → t9.pending = s.pending ∧ t9.trust.otp = s.trust.otp := by
  intro t9 h; unfold execTwinHeartbeatTimeout at h; simp only [done] at h
  split at h <;> (cases h)
  · split <;> simp [List.foldl]
  · simp

@[simp] theorem State.acceptTwin_keeps (s : State) (n serial : Nat) :
    (State.acceptTwin s n serial).pending = s.pending ∧ (State.acceptTwin s n serial).trust.otp = s.trust.otp := by
  simp [State.acceptTwin]

theorem execPairing_keeps (n : LinkId) (x : PairingBody) (s : State) :
    ∀ t9, execPairing n x s = .next t9 → t9.pending = s.pending ∧ t9.trust.otp = s.trust.otp := by
  intro t9 h; unfold execPairing at h; simp only [done] at h; (repeat' split at h) <;> (cases h; simp)

@[simp] theorem State.measure_keeps (s : State) (kind : Nat) (digest : Bytes) (slot : Nat) (sv : Nat) (source : Nat) (build : Nat) :
    (State.measure s kind digest slot sv source build).pending = s.pending ∧ (State.measure s kind digest slot sv source build).trust.otp = s.trust.otp := by
  simp [State.measure]

@[simp] theorem State.tamper_keeps (s : State) (source : Nat) :
    (State.tamper s source).pending = s.pending ∧ (State.tamper s source).trust.otp = s.trust.otp := by
  simp [State.tamper]

theorem execVcoreGlitch_keeps (s : State) :
    ∀ t9, execVcoreGlitch s = .next t9 → t9.pending = s.pending ∧ t9.trust.otp = s.trust.otp := by
  intro t9 h; simp only [execVcoreGlitch, done, Host.Outcome.next.injEq] at h; subst h; simp

theorem execSysclkPeriodGlitch_keeps (s : State) :
    ∀ t9, execSysclkPeriodGlitch s = .next t9 → t9.pending = s.pending ∧ t9.trust.otp = s.trust.otp := by
  intro t9 h; simp only [execSysclkPeriodGlitch, done, Host.Outcome.next.injEq] at h; subst h; simp

theorem execVkeepLoss_keeps (s : State) :
    ∀ t9, execVkeepLoss s = .next t9 → t9.pending = s.pending ∧ t9.trust.otp = s.trust.otp := by
  intro t9 h; simp only [execVkeepLoss, done, Host.Outcome.next.injEq] at h; subst h; simp

theorem execVkeepReturn_keeps (s : State) :
    ∀ t9, execVkeepReturn s = .next t9 → t9.pending = s.pending ∧ t9.trust.otp = s.trust.otp := by
  intro t9 h; unfold execVkeepReturn at h; simp only [done] at h; (repeat' split at h) <;> (cases h; simp)

theorem execXtal32Loss_keeps (s : State) :
    ∀ t9, execXtal32Loss s = .next t9 → t9.pending = s.pending ∧ t9.trust.otp = s.trust.otp := by
  intro t9 h; simp only [execXtal32Loss, done, Host.Outcome.next.injEq] at h; subst h; simp

@[simp] theorem State.resetSetting_keeps (s : State) (id idx : Nat) :
    (State.resetSetting s id idx).pending = s.pending ∧ (State.resetSetting s id idx).trust.otp = s.trust.otp := by
  simp [State.resetSetting]

end Sys2Proof.Machine
end

