-- ==== Sys2Proof/Laws/Keeps11.lean ====
section
/-! SUPPORT. What the functions of PowerCore, MemRetire, MemUnits keep: the queue and the OTP (R408). -/

namespace Sys2Proof.Machine

set_option maxRecDepth 4000
set_option simprocs false

@[simp] theorem State.restLane_keeps (s : State) (l : Nat) :
    (State.restLane s l).pending = s.pending ∧ (State.restLane s l).trust.otp = s.trust.otp := by
  simp [State.restLane]

@[simp] theorem State.shedPort_keeps (s : State) (p lvl : Nat) :
    (State.shedPort s p lvl).pending = s.pending ∧ (State.shedPort s p lvl).trust.otp = s.trust.otp := by
  unfold State.shedPort
  split
  · exact ⟨rfl, rfl⟩
  · extract_lets s1 s2 s3 s4
    have k1 : s1.pending = s.pending ∧ s1.trust.otp = s.trust.otp := by unfold s1; simp
    clear_value s1
    have k2 : s2.pending = s1.pending ∧ s2.trust.otp = s1.trust.otp := by unfold s2; split <;> simp
    clear_value s2
    have k3 : s3.pending = s2.pending ∧ s3.trust.otp = s2.trust.otp := by simp [s3]
    clear_value s3
    have k4 : s4.pending = s3.pending ∧ s4.trust.otp = s3.trust.otp := by unfold s4; simp
    clear_value s4
    have k : s4.pending = s.pending ∧ s4.trust.otp = s.trust.otp :=
      ⟨k4.1.trans (k3.1.trans (k2.1.trans k1.1)), k4.2.trans (k3.2.trans (k2.2.trans k1.2))⟩
    split
    · simpa using k
    · exact k

@[simp] theorem State.unshedPort_keeps (s : State) (p : Nat) :
    (State.unshedPort s p).pending = s.pending ∧ (State.unshedPort s p).trust.otp = s.trust.otp := by
  simp [State.unshedPort]

@[simp] theorem State.shedPorts_keeps (s : State) (which : Nat → Bool) (lvl : Nat → Nat) :
    (State.shedPorts s which lvl).pending = s.pending ∧ (State.shedPorts s which lvl).trust.otp = s.trust.otp := by
  simp [State.shedPorts]

@[simp] theorem State.enterLevel5_keeps (s : State) :
    (State.enterLevel5 s).pending = s.pending ∧ (State.enterLevel5 s).trust.otp = s.trust.otp := by
  simp [State.enterLevel5]

@[simp] theorem State.raiseSag_keeps (s : State) (lvl trig : Nat) :
    (State.raiseSag s lvl trig).pending = s.pending ∧ (State.raiseSag s lvl trig).trust.otp = s.trust.otp := by
  simp [State.raiseSag]

@[simp] theorem State.sagUpdate_keeps (s : State) :
    (State.sagUpdate s).pending = s.pending ∧ (State.sagUpdate s).trust.otp = s.trust.otp := by
  simp [State.sagUpdate]

theorem execSagWarnInput_keeps (v : Fin 8) (s : State) :
    ∀ t9, execSagWarnInput v s = .next t9 → t9.pending = s.pending ∧ t9.trust.otp = s.trust.otp := by
  intro t9 h; simp only [execSagWarnInput, done, Host.Outcome.next.injEq] at h; subst h; simp

theorem execRailMonitorTrigger_keeps (m : RailMonitor) (lvl : Fin 6) (s : State) :
    ∀ t9, execRailMonitorTrigger m lvl s = .next t9 → t9.pending = s.pending ∧ t9.trust.otp = s.trust.otp := by
  intro t9 h; unfold execRailMonitorTrigger at h; simp only [done] at h; (repeat' split at h) <;> (cases h; simp)

theorem execShedRankTimer_keeps (rank : Fin 16) (s : State) :
    ∀ t9, execShedRankTimer rank s = .next t9 → t9.pending = s.pending ∧ t9.trust.otp = s.trust.otp := by
  intro t9 h; unfold execShedRankTimer at h; simp only [done] at h; (repeat' split at h) <;> (cases h; simp)

@[simp] theorem State.keepSag_keeps (s : State) (r : Bytes) :
    (State.keepSag s r).pending = s.pending ∧ (State.keepSag s r).trust.otp = s.trust.otp := by
  simp [State.keepSag]

theorem execSagReleaseHoldExpiry_keeps (s : State) :
    ∀ t9, execSagReleaseHoldExpiry s = .next t9 → t9.pending = s.pending ∧ t9.trust.otp = s.trust.otp := by
  intro t9 h; unfold execSagReleaseHoldExpiry at h; simp only [done] at h; (repeat' split at h) <;> (cases h; simp)

@[simp] theorem drainLedger_keeps (n : Nat) (s : State) :
    (State.drainLedger n s).pending = s.pending ∧ (State.drainLedger n s).trust.otp = s.trust.otp := by
  induction n generalizing s with
  | zero => simp [State.drainLedger]
  | succ n ih =>
    simp only [State.drainLedger]
    split
    · simp
    · split
      · simp
      · simp [ih]

@[simp] theorem State.writeLedger_keeps (s : State) :
    (State.writeLedger s).pending = s.pending ∧ (State.writeLedger s).trust.otp = s.trust.otp := by
  simp [State.writeLedger]

@[simp] theorem State.finalRecord_keeps (s : State) :
    (State.finalRecord s).pending = s.pending ∧ (State.finalRecord s).trust.otp = s.trust.otp := by
  simp [State.finalRecord]

@[simp] theorem State.closeLedger_keeps (s : State) :
    (State.closeLedger s).pending = s.pending ∧ (State.closeLedger s).trust.otp = s.trust.otp := by
  simp [State.closeLedger]

theorem execLedgerCloseDone_keeps (s : State) :
    ∀ t9, execLedgerCloseDone s = .next t9 → t9.pending = s.pending ∧ t9.trust.otp = s.trust.otp := by
  intro t9 h; unfold execLedgerCloseDone at h; simp only [done] at h; (repeat' split at h) <;> (cases h; simp)

@[simp] theorem State.internalReset_keeps (s : State) :
    (State.internalReset s).pending = s.pending ∧ (State.internalReset s).trust.otp = s.trust.otp := by
  simp [State.internalReset]

theorem execLevel5ReleaseReset_keeps (s : State) :
    ∀ t9, execLevel5ReleaseReset s = .next t9 → t9.pending = s.pending ∧ t9.trust.otp = s.trust.otp := by
  intro t9 h; unfold execLevel5ReleaseReset at h; simp only [done] at h; (repeat' split at h) <;> (cases h; simp)

theorem execResetNAssert_keeps (s : State) :
    ∀ t9, execResetNAssert s = .next t9 → t9.pending = s.pending ∧ t9.trust.otp = s.trust.otp := by
  intro t9 h; simp only [execResetNAssert, done, Host.Outcome.next.injEq] at h; subst h; simp

@[simp] theorem State.setVcore_keeps (s : State) (mv : Nat) (acked : Bool) :
    (State.setVcore s mv acked).pending = s.pending ∧ (State.setVcore s mv acked).trust.otp = s.trust.otp := by
  simp [State.setVcore]

theorem execVcoreAdaptStep_keeps (x : VcoreStep) (s : State) :
    ∀ t9, execVcoreAdaptStep x s = .next t9 → t9.pending = s.pending ∧ t9.trust.otp = s.trust.otp := by
  intro t9 h; unfold execVcoreAdaptStep at h; simp only [done] at h; (repeat' split at h) <;> (cases h; simp)

@[simp] theorem State.thermUpdate_keeps (s : State) :
    (State.thermUpdate s).pending = s.pending ∧ (State.thermUpdate s).trust.otp = s.trust.otp := by
  simp [State.thermUpdate]

theorem execThermalThresholdCrossing_keeps (temp : Int) (s : State) :
    ∀ t9, execThermalThresholdCrossing temp s = .next t9 → t9.pending = s.pending ∧ t9.trust.otp = s.trust.otp := by
  intro t9 h; simp only [execThermalThresholdCrossing, done, Host.Outcome.next.injEq] at h; subst h; simp

@[simp] theorem State.takeSpare_keeps (s : State) (p c : Nat) :
    (State.takeSpare s p c).pending = s.pending ∧ (State.takeSpare s p c).trust.otp = s.trust.otp := by
  simp [State.takeSpare]

@[simp] theorem State.moveBlock_keeps (s : State) (gone c : Nat) (keep : Bool) :
    (State.moveBlock s gone c keep).pending = s.pending ∧ (State.moveBlock s gone c keep).trust.otp = s.trust.otp := by
  unfold State.moveBlock; (repeat' split) <;> simp

@[simp] theorem State.spareOrSafe_keeps (s : State) (gone code : Nat) (put : Nat → State → State)
    (h_put : ∀ a t, (put a t).pending = t.pending ∧ (put a t).trust.otp = t.trust.otp) :
    (State.spareOrSafe s gone code put).pending = s.pending ∧ (State.spareOrSafe s gone code put).trust.otp = s.trust.otp := by
  unfold State.spareOrSafe; split <;> simp [h_put]

@[simp] theorem State.movePermits_keeps (s : State) (p : Nat) :
    (State.movePermits s p).pending = s.pending ∧ (State.movePermits s p).trust.otp = s.trust.otp := by
  simp [State.movePermits]

@[simp] theorem State.moveJournal_keeps (s : State) (p : Nat) :
    (State.moveJournal s p).pending = s.pending ∧ (State.moveJournal s p).trust.otp = s.trust.otp := by
  simp [State.moveJournal]

@[simp] theorem State.loseRecords_keeps (s : State) (p : Nat) :
    (State.loseRecords s p).pending = s.pending ∧ (State.loseRecords s p).trust.otp = s.trust.otp := by
  simp [State.loseRecords]

@[simp] theorem State.losePermitsOn_keeps (s : State) (p : Nat) (pcOf : Nat → Nat) :
    (State.losePermitsOn s p pcOf).pending = s.pending ∧ (State.losePermitsOn s p pcOf).trust.otp = s.trust.otp := by
  simp [State.losePermitsOn]

@[simp] theorem State.journalShadows_keeps (s : State) (p : Nat) :
    (State.journalShadows s p).2.pending = s.pending ∧ (State.journalShadows s p).2.trust.otp = s.trust.otp := by
  simp [State.journalShadows]

@[simp] theorem State.markRewriting_keeps (s : State) (held : List Nat) :
    (State.markRewriting s held).pending = s.pending ∧ (State.markRewriting s held).trust.otp = s.trust.otp := by
  simp [State.markRewriting]

@[simp] theorem State.rewriteShadows_keeps (s : State) (p : Nat) (pcOf : Nat → Nat) :
    (State.rewriteShadows s p pcOf).pending = s.pending ∧ (State.rewriteShadows s p pcOf).trust.otp = s.trust.otp := by
  simp [State.rewriteShadows]

@[simp] theorem State.loseJournal_keeps (s : State) :
    (State.loseJournal s).pending = s.pending ∧ (State.loseJournal s).trust.otp = s.trust.otp := by
  simp [State.loseJournal]

@[simp] theorem State.loseHist_keeps (s : State) (i : Nat) :
    (State.loseHist s i).pending = s.pending ∧ (State.loseHist s i).trust.otp = s.trust.otp := by
  simp [State.loseHist]

@[simp] theorem State.loseHists_keeps (s : State) (p : Nat) :
    (State.loseHists s p).pending = s.pending ∧ (State.loseHists s p).trust.otp = s.trust.otp := by
  simp [State.loseHists]

@[simp] theorem State.missRead_keeps (s : State) (r : MemRead) :
    (State.missRead s r).pending = s.pending ∧ (State.missRead s r).trust.otp = s.trust.otp := by
  unfold State.missRead; (repeat' split) <;> simp

@[simp] theorem State.missReads_keeps (s : State) (p : Nat) :
    (State.missReads s p).pending = s.pending ∧ (State.missReads s p).trust.otp = s.trust.otp := by
  simp [State.missReads]

@[simp] theorem State.moveCopy_keeps (s : State) (p c : Nat) :
    (State.moveCopy s p c).pending = s.pending ∧ (State.moveCopy s p c).trust.otp = s.trust.otp := by
  unfold State.moveCopy; (repeat' split) <;> simp

@[simp] theorem State.movePolicy_keeps (s : State) (p : Nat) :
    (State.movePolicy s p).pending = s.pending ∧ (State.movePolicy s p).trust.otp = s.trust.otp := by
  simp [State.movePolicy]

@[simp] theorem State.retirePc_keeps (s : State) (pcOf : State → Nat → Nat) (p : Nat) :
    (State.retirePc s pcOf p).pending = s.pending ∧ (State.retirePc s pcOf p).trust.otp = s.trust.otp := by
  simp [State.retirePc]

@[simp] theorem State.restartRings_keeps (s : State) :
    (State.restartRings s).pending = s.pending ∧ (State.restartRings s).trust.otp = s.trust.otp := by
  simp [State.restartRings]

@[simp] theorem State.beginRebuild_keeps (s : State) (d : Nat) :
    (State.beginRebuild s d).pending = s.pending ∧ (State.beginRebuild s d).trust.otp = s.trust.otp := by
  simp [State.beginRebuild]

@[simp] theorem State.retireDdr_keeps (s : State) (d : Nat) :
    (State.retireDdr s d).pending = s.pending ∧ (State.retireDdr s d).trust.otp = s.trust.otp := by
  simp [State.retireDdr]

@[simp] theorem State.countNeighbour_keeps (s : State) (u bank : Nat) :
    (State.countNeighbour s u bank).pending = s.pending ∧ (State.countNeighbour s u bank).trust.otp = s.trust.otp := by
  simp [State.countNeighbour]

@[simp] theorem State.manageRefresh_keeps (s : State) (u bank : Nat) :
    (State.manageRefresh s u bank).pending = s.pending ∧ (State.manageRefresh s u bank).trust.otp = s.trust.otp := by
  simp [State.manageRefresh]

@[simp] theorem activateRows_keeps (s : State) (u bank fuel : Nat) (rs : List Nat) :
    (State.activateRows s u bank fuel rs).pending = s.pending ∧ (State.activateRows s u bank fuel rs).trust.otp = s.trust.otp := by
  induction fuel generalizing s rs with
  | zero => simp [State.activateRows]
  | succ n ih =>
    cases rs with
    | nil => simp [State.activateRows]
    | cons r rest =>
      simp only [State.activateRows]
      split <;> simp [ih]

theorem execRowActivation_keeps (u : UnitId) (bank row : Nat) (s : State) :
    ∀ t9, execRowActivation u bank row s = .next t9 → t9.pending = s.pending ∧ t9.trust.otp = s.trust.otp := by
  intro t9 h; unfold execRowActivation at h; split at h
  · injection h with h; subst h; exact activateRows_keeps _ _ _ _ _
  · injection h with h; subst h; exact ⟨rfl, rfl⟩

theorem execActivationTableClear_keeps (u : UnitId) (s : State) :
    ∀ t9, execActivationTableClear u s = .next t9 → t9.pending = s.pending ∧ t9.trust.otp = s.trust.otp := by
  intro t9 h; unfold execActivationTableClear at h; simp only [done] at h; (repeat' split at h) <;> (cases h; simp)

@[simp] theorem State.senseTemp_keeps (s : State) (u : Nat) :
    (State.senseTemp s u).pending = s.pending ∧ (State.senseTemp s u).trust.otp = s.trust.otp := by
  simp [State.senseTemp]

@[simp] theorem State.issueRefresh_keeps (s : State) (u bank : Nat) :
    (State.issueRefresh s u bank).pending = s.pending ∧ (State.issueRefresh s u bank).trust.otp = s.trust.otp := by
  simp [State.issueRefresh]

theorem execRefreshIssue_keeps (u : UnitId) (bank : Nat) (s : State) :
    ∀ t9, execRefreshIssue u bank s = .next t9 → t9.pending = s.pending ∧ t9.trust.otp = s.trust.otp := by
  intro t9 h; unfold execRefreshIssue at h; simp only [done] at h; (repeat' split at h) <;> (cases h; simp)

@[simp] theorem State.issueRequest_keeps (s : State) (u : Nat) (r : MemReq) :
    (State.issueRequest s u r).pending = s.pending ∧ (State.issueRequest s u r).trust.otp = s.trust.otp := by
  unfold State.issueRequest
  dsimp only
  split <;> simp

theorem execMemoryRequestIssue_keeps (u : UnitId) (s : State) :
    ∀ t9, execMemoryRequestIssue u s = .next t9 → t9.pending = s.pending ∧ t9.trust.otp = s.trust.otp := by
  intro t9 h; unfold execMemoryRequestIssue at h; simp only [done] at h; (repeat' split at h) <;> (cases h; simp)

@[simp] theorem State.loseStaging_keeps (s : State) :
    (State.loseStaging s).pending = s.pending ∧ (State.loseStaging s).trust.otp = s.trust.otp := by
  unfold State.loseStaging; dsimp only; (repeat' split) <;> simp_all

@[simp] theorem State.loseHeld_keeps (s : State) (u l : Nat) :
    (State.loseHeld s u l).pending = s.pending ∧ (State.loseHeld s u l).trust.otp = s.trust.otp := by
  simp [State.loseHeld]

@[simp] theorem State.lostFlow_keeps (s : State) (u a : Nat) :
    (State.lostFlow s u a).pending = s.pending ∧ (State.lostFlow s u a).trust.otp = s.trust.otp := by
  unfold State.lostFlow; (repeat' split) <;> simp

@[simp] theorem State.lostDirectory_keeps (s : State) (u a : Nat) :
    (State.lostDirectory s u a).pending = s.pending ∧ (State.lostDirectory s u a).trust.otp = s.trust.otp := by
  unfold State.lostDirectory; (repeat' split) <;> simp

@[simp] theorem State.lostSpare_keeps (s : State) (u a : Nat) :
    (State.lostSpare s u a).pending = s.pending ∧ (State.lostSpare s u a).trust.otp = s.trust.otp := by
  unfold State.lostSpare; dsimp only; (repeat' split) <;> simp_all

@[simp] theorem State.lostPermit_keeps (s : State) (u a : Nat) :
    (State.lostPermit s u a).pending = s.pending ∧ (State.lostPermit s u a).trust.otp = s.trust.otp := by
  simp [State.lostPermit]

@[simp] theorem State.lostOverflow_keeps (s : State) (u a : Nat) :
    (State.lostOverflow s u a).pending = s.pending ∧ (State.lostOverflow s u a).trust.otp = s.trust.otp := by
  simp [State.lostOverflow]

@[simp] theorem State.lostHist_keeps (s : State) (u a : Nat) :
    (State.lostHist s u a).pending = s.pending ∧ (State.lostHist s u a).trust.otp = s.trust.otp := by
  simp [State.lostHist]

@[simp] theorem State.lostCopy_keeps (s : State) (u a : Nat) :
    (State.lostCopy s u a).pending = s.pending ∧ (State.lostCopy s u a).trust.otp = s.trust.otp := by
  unfold State.lostCopy; (repeat' split) <;> simp

@[simp] theorem State.lostRegion_keeps (s : State) (u a r : Nat) :
    (State.lostRegion s u a r).pending = s.pending ∧ (State.lostRegion s u a r).trust.otp = s.trust.otp := by
  unfold State.lostRegion; dsimp only; (repeat' split) <;> simp_all

@[simp] theorem State.lostGranary_keeps (s : State) (u a : Nat) :
    (State.lostGranary s u a).pending = s.pending ∧ (State.lostGranary s u a).trust.otp = s.trust.otp := by
  simp [State.lostGranary]

@[simp] theorem State.lostUpper_keeps (s : State) (u a : Nat) :
    (State.lostUpper s u a).pending = s.pending ∧ (State.lostUpper s u a).trust.otp = s.trust.otp := by
  simp [State.lostUpper]

@[simp] theorem State.patrolLost_keeps (s : State) (u a : Nat) :
    (State.patrolLost s u a).pending = s.pending ∧ (State.patrolLost s u a).trust.otp = s.trust.otp := by
  simp [State.patrolLost]

end Sys2Proof.Machine
end

