-- ==== Sys2Proof/Laws/Keeps12.lean ====
section
/-! SUPPORT. What the functions of MemUnits, Retrain, Effects, Actions, Commit keep: the queue and the OTP (R408). -/

namespace Sys2Proof.Machine

set_option maxRecDepth 4000
set_option simprocs false

@[simp] theorem State.patrolFound_keeps (s : State) (u a : Nat) (bad : Bool) :
    (State.patrolFound s u a bad).pending = s.pending ∧ (State.patrolFound s u a bad).trust.otp = s.trust.otp := by
  simp [State.patrolFound]

theorem execPatrolScrubRead_keeps (u : UnitId) (addr : Nat) (res : ReadResult) (s : State) :
    ∀ t9, execPatrolScrubRead u addr res s = .next t9 → t9.pending = s.pending ∧ t9.trust.otp = s.trust.otp := by
  intro t9 h; unfold execPatrolScrubRead at h; simp only [done] at h; (repeat' split at h) <;> (cases h; simp)

@[simp] theorem State.fenceUnit_keeps (s : State) (u : Nat) :
    (State.fenceUnit s u).pending = s.pending ∧ (State.fenceUnit s u).trust.otp = s.trust.otp := by
  simp [State.fenceUnit]

@[simp] theorem State.liftFence_keeps (s : State) (u : Nat) :
    (State.liftFence s u).pending = s.pending ∧ (State.liftFence s u).trust.otp = s.trust.otp := by
  unfold State.liftFence; dsimp only; (repeat' split) <;> simp_all

@[simp] theorem State.retireUnit_keeps (s : State) (u : Nat) :
    (State.retireUnit s u).pending = s.pending ∧ (State.retireUnit s u).trust.otp = s.trust.otp := by
  simp [State.retireUnit]

theorem execRetrainStart_keeps (u : UnitId) (s : State) :
    ∀ t9, execRetrainStart u s = .next t9 → t9.pending = s.pending ∧ t9.trust.otp = s.trust.otp := by
  intro t9 h; unfold execRetrainStart at h; simp only [done] at h; (repeat' split at h) <;> (cases h; simp)

theorem execRetrainRetry_keeps (u : UnitId) (s : State) :
    ∀ t9, execRetrainRetry u s = .next t9 → t9.pending = s.pending ∧ t9.trust.otp = s.trust.otp := by
  intro t9 h; unfold execRetrainRetry at h; simp only [done] at h; (repeat' split at h) <;> (cases h; simp)

theorem execPolicyMirrorCopyDone_keeps (p : PcId) (s : State) :
    ∀ t9, execPolicyMirrorCopyDone p s = .next t9 → t9.pending = s.pending ∧ t9.trust.otp = s.trust.otp := by
  intro t9 h; simp only [execPolicyMirrorCopyDone, done, Host.Outcome.next.injEq] at h; subst h; simp

theorem execLedgerMirrorRebuildDone_keeps (d : DdrId) (s : State) :
    ∀ t9, execLedgerMirrorRebuildDone d s = .next t9 → t9.pending = s.pending ∧ t9.trust.otp = s.trust.otp := by
  intro t9 h; unfold execLedgerMirrorRebuildDone at h; simp only [done] at h; (repeat' split at h) <;> (cases h; simp)

@[simp] theorem State.retrainDone_keeps (s : State) (u outcome : Nat) :
    (State.retrainDone s u outcome).pending = s.pending ∧ (State.retrainDone s u outcome).trust.otp = s.trust.otp := by
  simp [State.retrainDone]

theorem execRetrainComplete_keeps (u : UnitId) (res : RetrainResult) (s : State) :
    ∀ t9, execRetrainComplete u res s = .next t9 → t9.pending = s.pending ∧ t9.trust.otp = s.trust.otp := by
  intro t9 h; unfold execRetrainComplete at h; simp only [done] at h; (repeat' split at h) <;> (cases h; simp)

@[simp] theorem State.alsoWait_keeps (s : State) (id kind idx : Nat) :
    (State.alsoWait s id kind idx).pending = s.pending ∧ (State.alsoWait s id kind idx).trust.otp = s.trust.otp := by
  simp [State.alsoWait]

@[simp] theorem State.orderClear_keeps (s : State) (id : Nat) :
    (State.orderClear s id).pending = s.pending ∧ (State.orderClear s id).trust.otp = s.trust.otp := by
  simp [State.orderClear]

@[simp] theorem State.fullRecal_keeps (s : State) (l : Nat) :
    (State.fullRecal s l).pending = s.pending ∧ (State.fullRecal s l).trust.otp = s.trust.otp := by
  simp [State.fullRecal]

@[simp] theorem State.commandEngine_keeps (s : State) (i v : Nat) :
    (State.commandEngine s i v).pending = s.pending ∧ (State.commandEngine s i v).trust.otp = s.trust.otp := by
  simp [State.commandEngine]

@[simp] theorem State.retrainNow_keeps (s : State) (id u : Nat) :
    (State.retrainNow s id u).pending = s.pending ∧ (State.retrainNow s id u).trust.otp = s.trust.otp := by
  simp [State.retrainNow]

@[simp] theorem State.relacp_keeps (s : State) (pre : State) (g : Nat) :
    (State.relacp s pre g).pending = s.pending ∧ (State.relacp s pre g).trust.otp = s.trust.otp := by
  simp [State.relacp]

@[simp] theorem State.restartPeriods_keeps (s : State) (pre : State) :
    (State.restartPeriods s pre).pending = s.pending ∧ (State.restartPeriods s pre).trust.otp = s.trust.otp := by
  simp [State.restartPeriods]

@[simp] theorem State.fixVcore_keeps (s : State) :
    (State.fixVcore s).pending = s.pending ∧ (State.fixVcore s).trust.otp = s.trust.otp := by
  simp [State.fixVcore]

@[simp] theorem State.cycFollows_keeps (s : State) :
    (State.cycFollows s).pending = s.pending ∧ (State.cycFollows s).trust.otp = s.trust.otp := by
  simp [State.cycFollows]

@[simp] theorem State.ppsFollows_keeps (s : State) :
    (State.ppsFollows s).pending = s.pending ∧ (State.ppsFollows s).trust.otp = s.trust.otp := by
  simp [State.ppsFollows]

@[simp] theorem State.settingEffect_keeps (pre : State) (bale id t : Nat) (vs : List Int) (s : State) :
    (State.settingEffect pre bale id t vs s).pending = s.pending ∧ (State.settingEffect pre bale id t vs s).trust.otp = s.trust.otp := by
  unfold State.settingEffect; dsimp only; (repeat' split) <;> simp_all

@[simp] theorem State.settlePenalty_keeps (s : State) (p : Nat) :
    (State.settlePenalty s p).pending = s.pending ∧ (State.settlePenalty s p).trust.otp = s.trust.otp := by
  simp [State.settlePenalty]

@[simp] theorem State.applyItems_keeps (s : State) (bale master : Nat) (its : List Item) :
    (State.applyItems s bale master its).pending = s.pending ∧ (State.applyItems s bale master its).trust.otp = s.trust.otp := by
  simp [State.applyItems]

theorem refuse_not_ok (c : Nat) (t : Accepted) (P : Prop) (h : refuse c = .ok t) : P := by cases h

@[simp] theorem State.checkGateList_keeps (s : State) (b : Bale) (a : Action) :
    ∀ t, State.checkGateList s b a = .ok t → t.st.pending = s.pending ∧ t.st.trust.otp = s.trust.otp := by
  intro t h; unfold State.checkGateList at h; dsimp only at h
  (repeat' split at h) <;> first | exact refuse_not_ok _ _ _ h | (injection h with h; subst h; exact ⟨rfl, rfl⟩)

@[simp] theorem State.checkMac_keeps (s : State) (b : Bale) (a : Action) :
    ∀ t, State.checkMac s b a = .ok t → t.st.pending = s.pending ∧ t.st.trust.otp = s.trust.otp := by
  intro t h; unfold State.checkMac at h; dsimp only at h
  split at h
  · exact refuse_not_ok _ _ _ h
  · split at h
    · injection h with h; subst h; exact ⟨rfl, rfl⟩
    · split at h
      · exact refuse_not_ok _ _ _ h
      · rename_i s1 e
        have k1 := State.placeStatic_keeps _ _ _ _ e
        injection h with h; subst h
        dsimp only
        have k2 := foldl_keeps (fun (s : State) (k : Nat) => (List.filter (fun x => true) []).foldl (fun (s : State) (x : Nat × MacEntry) => s.putMac k x.1 x.2) s) [] s1 (by simp)
        clear k2
        rw [← k1.1, ← k1.2]
        refine foldl_keeps _ _ _ (fun t k => foldl_keeps _ _ _ (fun t x => State.putMac_keeps _ _ _ _))

@[simp] theorem State.placeShadowRow_keeps (s : State) (b : Bale) (r : Bytes) :
    ∀ t, State.placeShadowRow s b r = some t → t.pending = s.pending ∧ t.trust.otp = s.trust.otp := by
  intro t h
  unfold State.placeShadowRow at h
  split at h
  · split at h
    · injection h with h; subst h; simp
    · have := State.placeRow_keeps _ _ _ h
      simpa using this
  · exact State.placeRow_keeps _ _ _ h

@[simp] theorem State.checkRow_keeps (s : State) (b : Bale) (a : Action) :
    ∀ t, State.checkRow s b a = .ok t → t.st.pending = s.pending ∧ t.st.trust.otp = s.trust.otp := by
  intro t h; unfold State.checkRow at h; dsimp only at h
  split at h
  · exact refuse_not_ok _ _ _ h
  · split at h
    · split at h
      · exact refuse_not_ok _ _ _ h
      · injection h with h; subst h; exact ⟨rfl, rfl⟩
    · split at h
      · exact refuse_not_ok _ _ _ h
      · split at h
        · exact refuse_not_ok _ _ _ h
        · rename_i s1 e
          injection h with h; subst h
          exact State.placeShadowRow_keeps _ _ _ _ e

@[simp] theorem State.checkFlow_keeps (s : State) (b : Bale) (a : Action) :
    ∀ t, State.checkFlow s b a = .ok t → t.st.pending = s.pending ∧ t.st.trust.otp = s.trust.otp := by
  intro t h; unfold State.checkFlow at h
  extract_lets r key bad obj live here placed at h
  clear_value placed here live obj bad
  (repeat' split at h) <;> first | exact refuse_not_ok _ _ _ h | (cases h; simp)

@[simp] theorem State.checkObject_keeps (s : State) (b : Bale) (a : Action) :
    ∀ t, State.checkObject s b a = .ok t → t.st.pending = s.pending ∧ t.st.trust.otp = s.trust.otp := by
  intro t h; unfold State.checkObject at h; dsimp only at h
  (repeat' split at h) <;> first | exact refuse_not_ok _ _ _ h | (injection h with h; subst h; exact ⟨rfl, rfl⟩)

@[simp] theorem State.checkPattern_keeps (s : State) (a : Action) :
    ∀ t, State.checkPattern s a = .ok t → t.st.pending = s.pending ∧ t.st.trust.otp = s.trust.otp := by
  intro t9 h; unfold State.checkPattern at h; (repeat' split at h) <;> (first | cases h | skip) <;> simp_all

@[simp] theorem State.checkMicrocode_keeps (s : State) (a : Action) :
    ∀ t, State.checkMicrocode s a = .ok t → t.st.pending = s.pending ∧ t.st.trust.otp = s.trust.otp := by
  intro t9 h; unfold State.checkMicrocode at h; (repeat' split at h) <;> (first | cases h | skip) <;> simp_all

@[simp] theorem State.checkKey_keeps (s : State) (b : Bale) (a : Action) :
    ∀ t, State.checkKey s b a = .ok t → t.st.pending = s.pending ∧ t.st.trust.otp = s.trust.otp := by
  intro t h; unfold State.checkKey at h
  extract_lets r id key old at h
  clear_value old key id
  split at h
  · exact refuse_not_ok _ _ _ h
  · generalize (if a.removes then 2 else 64) = m at h
    split at h
    · exact refuse_not_ok _ _ _ h
    · split at h
      · exact refuse_not_ok _ _ _ h
      · split at h
        · exact refuse_not_ok _ _ _ h
        · injection h with h; subst h; exact ⟨rfl, rfl⟩

@[simp] theorem State.checkShut_keeps (s : State) (a : Action) :
    ∀ t, State.checkShut s a = .ok t → t.st.pending = s.pending ∧ t.st.trust.otp = s.trust.otp := by
  intro t9 h; unfold State.checkShut at h; (repeat' split at h) <;> (first | cases h | skip) <;> simp_all

@[simp] theorem State.checkReopen_keeps (s : State) (a : Action) :
    ∀ t, State.checkReopen s a = .ok t → t.st.pending = s.pending ∧ t.st.trust.otp = s.trust.otp := by
  intro t9 h; unfold State.checkReopen at h; (repeat' split at h) <;> (first | cases h | skip) <;> simp_all

@[simp] theorem State.noteRefused_keeps (s : State) (b : Bale) (a : Action) (e : Nat × Nat) :
    (State.noteRefused s b a e).pending = s.pending ∧ (State.noteRefused s b a e).trust.otp = s.trust.otp := by
  simp [State.noteRefused]

@[simp] theorem State.checkPermit_keeps (s : State) (b : Bale) (a : Action) :
    ∀ t, State.checkPermit s b a = .ok t → t.st.pending = s.pending ∧ t.st.trust.otp = s.trust.otp := by
  intro t9 h; unfold State.checkPermit at h; (repeat' split at h) <;> (first | cases h | skip) <;> simp_all

@[simp] theorem State.checkRevoke_keeps (s : State) (a : Action) :
    ∀ t, State.checkRevoke s a = .ok t → t.st.pending = s.pending ∧ t.st.trust.otp = s.trust.otp := by
  intro t9 h; unfold State.checkRevoke at h; (repeat' split at h) <;> (first | cases h | skip) <;> simp_all

@[simp] theorem State.checkSettings_keeps (s : State) (b : Bale) (a : Action) :
    ∀ t, State.checkSettings s b a = .ok t → t.st.pending = s.pending ∧ t.st.trust.otp = s.trust.otp := by
  intro t9 h; unfold State.checkSettings at h; (repeat' split at h) <;> (first | cases h | skip) <;> simp_all

@[simp] theorem State.checkBody_keeps (s : State) (b : Bale) (a : Action) :
    ∀ t, State.checkBody s b a = .ok t → t.st.pending = s.pending ∧ t.st.trust.otp = s.trust.otp := by
  intro t h; unfold State.checkBody at h
  split at h
  · exact State.checkGateList_keeps _ _ _ _ h
  · exact State.checkMac_keeps _ _ _ _ h
  · exact State.checkRow_keeps _ _ _ _ h
  · exact State.checkFlow_keeps _ _ _ _ h
  · exact State.checkObject_keeps _ _ _ _ h
  · exact State.checkPattern_keeps _ _ _ h
  · exact State.checkKey_keeps _ _ _ _ h
  · exact State.checkRevoke_keeps _ _ _ h
  · exact State.checkMicrocode_keeps _ _ _ h
  · split at h
    · exact refuse_not_ok _ _ _ h
    · split at h
      · exact refuse_not_ok _ _ _ h
      · injection h with h; subst h; exact ⟨rfl, rfl⟩

@[simp] theorem State.checkForm_keeps (s : State) (b : Bale) (a : Action) :
    ∀ t, State.checkForm s b a = .ok t → t.st.pending = s.pending ∧ t.st.trust.otp = s.trust.otp := by
  intro t h; unfold State.checkForm at h
  split at h
  · exact refuse_not_ok _ _ _ h
  · split at h
    · split at h
      · exact State.checkBody_keeps _ _ _ _ h
      · exact refuse_not_ok _ _ _ h
    · split at h
      · exact State.checkShut_keeps _ _ _ h
      · split at h
        · exact State.checkReopen_keeps _ _ _ h
        · split at h
          · exact State.checkPermit_keeps _ _ _ _ h
          · split at h
            · exact State.checkSettings_keeps _ _ _ _ h
            · exact refuse_not_ok _ _ _ h

@[simp] theorem State.checkAction_keeps (s : State) (b : Bale) (a : Action) :
    ∀ t, State.checkAction s b a = .ok t → t.st.pending = s.pending ∧ t.st.trust.otp = s.trust.otp := by
  intro t h; unfold State.checkAction at h
  split at h
  · cases h
  · rename_i x e
    split at h
    · exact refuse_not_ok _ _ _ h
    · injection h with h; subst h; exact State.checkForm_keeps _ _ _ _ e

@[simp] theorem State.commitGateList_keeps (s : State) (e p : Nat) (l : List GateEntry) :
    (State.commitGateList s e p l).pending = s.pending ∧ (State.commitGateList s e p l).trust.otp = s.trust.otp := by
  simp [State.commitGateList]

@[simp] theorem State.commitMac_keeps (s : State) (e : Nat) (b : Bale) (k vid mac : Nat) (removes : Bool) :
    (State.commitMac s e b k vid mac removes).pending = s.pending ∧ (State.commitMac s e b k vid mac removes).trust.otp = s.trust.otp := by
  simp [State.commitMac]

@[simp] theorem State.commitRow_keeps (s : State) (e : Nat) (b : Bale) (id : Nat) (removes : Bool) :
    (State.commitRow s e b id removes).pending = s.pending ∧ (State.commitRow s e b id removes).trust.otp = s.trust.otp := by
  simp [State.commitRow]

@[simp] theorem State.commitFlow_keeps (s : State) (e : Nat) (held : Option Nat) (key : Bytes) (removes : Bool) :
    (State.commitFlow s e held key removes).pending = s.pending ∧ (State.commitFlow s e held key removes).trust.otp = s.trust.otp := by
  unfold State.commitFlow; dsimp only; (repeat' split) <;> simp_all

@[simp] theorem State.runVisit_keeps (s : State) (v : Visit) :
    (State.runVisit s v).pending = s.pending ∧ (State.runVisit s v).trust.otp = s.trust.otp := by
  unfold State.runVisit; (repeat' split) <;> simp

@[simp] theorem State.runVisits_keeps (s : State) :
    (State.runVisits s).pending = s.pending ∧ (State.runVisits s).trust.otp = s.trust.otp := by
  simp [State.runVisits]

@[simp] theorem State.sequencerClock_keeps (s : State) :
    (State.sequencerClock s).pending = s.pending ∧ (State.sequencerClock s).trust.otp = s.trust.otp := by
  simp [State.sequencerClock]

@[simp] theorem State.commitObject_keeps (s : State) (e : Nat) (a : Action) :
    (State.commitObject s e a).pending = s.pending ∧ (State.commitObject s e a).trust.otp = s.trust.otp := by
  simp [State.commitObject]

@[simp] theorem State.commitPattern_keeps (s : State) (e handle : Nat) :
    (State.commitPattern s e handle).pending = s.pending ∧ (State.commitPattern s e handle).trust.otp = s.trust.otp := by
  simp [State.commitPattern]

end Sys2Proof.Machine
end

