-- ==== Sys2Proof/Laws/Keeps13.lean ====
section
/-! SUPPORT. What the functions of Commit, Bales, Boot, StatusCmds keep: the queue and the OTP (R408). -/

namespace Sys2Proof.Machine

set_option maxRecDepth 4000
set_option simprocs false

@[simp] theorem State.commitMicrocode_keeps (s : State) (e handle : Nat) :
    (State.commitMicrocode s e handle).pending = s.pending ∧ (State.commitMicrocode s e handle).trust.otp = s.trust.otp := by
  unfold State.commitMicrocode; dsimp only; (repeat' split) <;> simp_all

@[simp] theorem State.commitKey_keeps (s : State) (e : Nat) (a : Action) :
    (State.commitKey s e a).pending = s.pending ∧ (State.commitKey s e a).trust.otp = s.trust.otp := by
  simp [State.commitKey]

@[simp] theorem State.reserveBalePermit_keeps (s : State) (b : Bale) (p : Bytes) :
    (State.reserveBalePermit s b p).pending = s.pending ∧ (State.reserveBalePermit s b p).trust.otp = s.trust.otp := by
  unfold State.reserveBalePermit; (repeat' split) <;> simp

@[simp] theorem State.commitPermit_keeps (s : State) (b : Bale) (i : Nat) (a : Action) :
    (State.commitPermit s b i a).pending = s.pending ∧ (State.commitPermit s b i a).trust.otp = s.trust.otp := by
  unfold State.commitPermit; dsimp only; (repeat' split) <;> simp_all

@[simp] theorem State.commitRecord_keeps (s : State) (e : Nat) (a : Action) (f : RecForm) :
    (State.commitRecord s e a f).pending = s.pending ∧ (State.commitRecord s e a f).trust.otp = s.trust.otp := by
  unfold State.commitRecord; (try dsimp only); (repeat' split) <;> simp_all

@[simp] theorem State.issueCommit_keeps (s : State) (e : Nat) (b : Bale) (key : Bytes) (removes : Bool) :
    (State.issueCommit s e b key removes).pending = s.pending ∧ (State.issueCommit s e b key removes).trust.otp = s.trust.otp := by
  unfold State.issueCommit; (try dsimp only); (repeat' split) <;> simp_all

@[simp] theorem State.applyAction_keeps (s : State) (e : Nat) (b : Bale) (i : Nat) (a : Action) :
    (State.applyAction s e b i a).pending = s.pending ∧ (State.applyAction s e b i a).trust.otp = s.trust.otp := by
  unfold State.applyAction; (repeat' split) <;> simp

@[simp] theorem State.dealGroup_keeps (s : State) (e g : Nat) :
    (State.dealGroup s e g).pending = s.pending ∧ (State.dealGroup s e g).trust.otp = s.trust.otp := by
  simp [State.dealGroup]

@[simp] theorem State.buildLag_keeps (s : State) (e g : Nat) :
    (State.buildLag s e g).pending = s.pending ∧ (State.buildLag s e g).trust.otp = s.trust.otp := by
  simp [State.buildLag]

@[simp] theorem State.applyBale_keeps (s : State) (e : Nat) (b : Bale) :
    (State.applyBale s e b).pending = s.pending ∧ (State.applyBale s e b).trust.otp = s.trust.otp := by
  simp [State.applyBale]

@[simp] theorem State.putBale_keeps (s : State) (b : Bale) :
    (State.putBale s b).pending = s.pending ∧ (State.putBale s b).trust.otp = s.trust.otp := by
  simp [State.putBale]

@[simp] theorem State.releaseRoom_keeps (s : State) (b : Bale) :
    (State.releaseRoom s b).pending = s.pending ∧ (State.releaseRoom s b).trust.otp = s.trust.otp := by
  simp [State.releaseRoom]

@[simp] theorem State.endBale_keeps (s : State) (b : Bale) (st : BaleState) (status first tick : Nat) :
    (State.endBale s b st status first tick).pending = s.pending ∧ (State.endBale s b st status first tick).trust.otp = s.trust.otp := by
  simp [State.endBale]

@[simp] theorem State.reclaimRecords_keeps (s : State) (d : Nat) :
    (State.reclaimRecords s d).pending = s.pending ∧ (State.reclaimRecords s d).trust.otp = s.trust.otp := by
  simp [State.reclaimRecords]

@[simp] theorem State.reclaim_keeps (s : State) (d : Nat) :
    (State.reclaim s d).pending = s.pending ∧ (State.reclaim s d).trust.otp = s.trust.otp := by
  simp [State.reclaim]

@[simp] theorem State.joinBale_keeps (s : State) (b : Bale) :
    (State.joinBale s b).pending = s.pending ∧ (State.joinBale s b).trust.otp = s.trust.otp := by
  simp [State.joinBale]

@[simp] theorem State.addAction_keeps (s : State) (r : Request) (op cls : Nat) (key : Option Nat) :
    (State.addAction s r op cls key).2.pending = s.pending ∧ (State.addAction s r op cls key).2.trust.otp = s.trust.otp := by
  unfold State.addAction
  split
  · simp
  · dsimp only
    split
    · simp
    · split
      · simp
      · split
        · simp
        · rename_i x e
          have k1 := State.checkAction_keeps _ _ _ _ e
          simp [k1]

@[simp] theorem State.arm_keeps (s : State) (b : Bale) (due : Option Nat) :
    (State.arm s b due).pending = s.pending ∧ (State.arm s b due).trust.otp = s.trust.otp := by
  simp [State.arm]

@[simp] theorem State.change_keeps (s : State) (r : Request) (op : Nat) (key : Option Nat) :
    (State.change s r op key).2.pending = s.pending ∧ (State.change s r op key).2.trust.otp = s.trust.otp := by
  unfold State.change
  dsimp only
  split
  · simp
  · split
    · simp
    · rename_i x e
      have k1 := State.checkAction_keeps _ _ _ _ e
      simp [k1]

@[simp] theorem State.changeReq_keeps (s : State) (op cls : Nat) (r : Request) :
    (State.changeReq s op cls r).pending = s.pending ∧ (State.changeReq s op cls r).trust.otp = s.trust.otp := by
  simp [State.changeReq]

@[simp] theorem State.baleReq_keeps (s : State) (op cls : Nat) (r : Request) :
    (State.baleReq s op cls r).pending = s.pending ∧ (State.baleReq s op cls r).trust.otp = s.trust.otp := by
  simp [State.baleReq]

@[simp] theorem State.directReq_keeps (s : State) (op cls : Nat) (r : Request) (run : Option Nat → State → Ans × State) (h_run : ∀ a t, (run a t).2.pending = t.pending ∧ (run a t).2.trust.otp = t.trust.otp) :
    (State.directReq s op cls r run).pending = s.pending ∧ (State.directReq s op cls r run).trust.otp = s.trust.otp := by
  simp [State.directReq, h_run]

theorem execBaleOpen_keeps (r : Request) (s : State) :
    ∀ t9, execBaleOpen r s = .next t9 → t9.pending = s.pending ∧ t9.trust.otp = s.trust.otp := by
  intro t9 h; simp only [execBaleOpen, done, Host.Outcome.next.injEq] at h; subst h; simp

@[simp] theorem State.refuseBale_keeps (s : State) (b : Bale) (status first : Nat) :
    (State.refuseBale s b status first).2.pending = s.pending ∧ (State.refuseBale s b status first).2.trust.otp = s.trust.otp := by
  simp [State.refuseBale]

@[simp] theorem State.commitBale_keeps (s : State) (r : Request) :
    (State.commitBale s r).2.pending = s.pending ∧ (State.commitBale s r).2.trust.otp = s.trust.otp := by
  unfold State.commitBale; dsimp only; (repeat' split) <;> simp_all

theorem execBaleCommit_keeps (r : Request) (s : State) :
    ∀ t9, execBaleCommit r s = .next t9 → t9.pending = s.pending ∧ t9.trust.otp = s.trust.otp := by
  intro t9 h; simp only [execBaleCommit, done, Host.Outcome.next.injEq] at h; subst h; simp

theorem execBaleAbort_keeps (r : Request) (s : State) :
    ∀ t9, execBaleAbort r s = .next t9 → t9.pending = s.pending ∧ t9.trust.otp = s.trust.otp := by
  intro t9 h; unfold execBaleAbort at h; injection h with h; subst h; refine State.directReq_keeps _ _ _ _ _ ?_; intro k t; (repeat' split) <;> simp

theorem execBaleStatus_keeps (r : Request) (s : State) :
    ∀ t9, execBaleStatus r s = .next t9 → t9.pending = s.pending ∧ t9.trust.otp = s.trust.otp := by
  intro t9 h; unfold execBaleStatus at h; injection h with h; subst h; refine State.request_keeps _ _ _ _ _ _ ?_; intro k t; dsimp only; (repeat' split) <;> simp

theorem execBaleIdleTimeout_keeps (bale : Nat) (s : State) :
    ∀ t9, execBaleIdleTimeout bale s = .next t9 → t9.pending = s.pending ∧ t9.trust.otp = s.trust.otp := by
  intro t9 h
  unfold execBaleIdleTimeout at h
  (repeat' split at h) <;> exact next_keeps (by simp) h

@[simp] theorem Tick.turn_keeps (e room : Nat) (shut : Option Bale) (t : Tick) (b : Bale) :
    (Tick.turn e room shut t b).st.pending = t.st.pending ∧ (Tick.turn e room shut t b).st.trust.otp = t.st.trust.otp := by
  unfold Tick.turn; dsimp only; (repeat' split) <;> simp

@[simp] theorem Tick.run_keeps (e room : Nat) (l : List Bale) (t : Tick) :
    (Tick.run e room l t).st.pending = t.st.pending ∧ (Tick.run e room l t).st.trust.otp = t.st.trust.otp := by
  induction l generalizing t with
  | nil => simp [Tick.run]
  | cons b rest ih => simp [Tick.run, ih]

@[simp] theorem State.closeBale_keeps (s : State) (stamp : Nat) (o : Outcome) :
    (State.closeBale s stamp o).pending = s.pending ∧ (State.closeBale s stamp o).trust.otp = s.trust.otp := by
  simp [State.closeBale]

@[simp] theorem State.deferBales_keeps (s : State) (bs : List Bale) :
    (State.deferBales s bs).pending = s.pending ∧ (State.deferBales s bs).trust.otp = s.trust.otp := by
  simp [State.deferBales]

@[simp] theorem State.runTick_keeps (s : State) (room : Nat) (tick : List Bale) :
    (State.runTick s room tick).pending = s.pending ∧ (State.runTick s room tick).trust.otp = s.trust.otp := by
  unfold State.runTick
  extract_lets e stamp src moved t s1
  have k1 : s1.pending = s.pending ∧ s1.trust.otp = s.trust.otp := by
    unfold s1
    split
    · exact ⟨rfl, rfl⟩
    · exact Tick.run_keeps _ _ _ _
  clear_value s1 t
  have k2 := foldl_keeps (fun (s : State) (o : Outcome) => s.closeBale stamp o) t.outs (s1.deferBales t.later) (fun s o => by simp)
  simp only [State.deferBales_keeps] at k2
  exact ⟨k2.1.trans k1.1, k2.2.trans k1.2⟩

@[simp] theorem State.rewriteLate_keeps (s : State) (tick : List Bale) :
    (State.rewriteLate s tick).2.pending = s.pending ∧ (State.rewriteLate s tick).2.trust.otp = s.trust.otp := by
  simp [State.rewriteLate]

@[simp] theorem State.reclaimDrained_keeps (s : State) :
    (State.reclaimDrained s).pending = s.pending ∧ (State.reclaimDrained s).trust.otp = s.trust.otp := by
  simp [State.reclaimDrained]

theorem execCommitTick_keeps (s : State) :
    ∀ t9, execCommitTick s = .next t9 → t9.pending = s.pending ∧ t9.trust.otp = s.trust.otp := by
  intro t9 h; unfold execCommitTick at h; simp only [done] at h; (repeat' split at h) <;> (cases h; simp)

theorem execEpochDrained_keeps (s : State) :
    ∀ t9, execEpochDrained s = .next t9 → t9.pending = s.pending ∧ t9.trust.otp = s.trust.otp := by
  intro t9 h; unfold execEpochDrained at h; simp only [done] at h; (repeat' split at h) <;> (cases h; simp)

@[simp] theorem State.writeBoot_keeps (s : State) (preferred trial : Nat) :
    (State.writeBoot s preferred trial).pending = s.pending ∧ (State.writeBoot s preferred trial).trust.otp = s.trust.otp := by
  simp [State.writeBoot]

@[simp] theorem State.startRecord_keeps (s : State) :
    (State.startRecord s).pending = s.pending ∧ (State.startRecord s).trust.otp = s.trust.otp := by
  simp [State.startRecord]

@[simp] theorem State.startMirrors_keeps (s : State) :
    (State.startMirrors s).pending = s.pending ∧ (State.startMirrors s).trust.otp = s.trust.otp := by
  simp [State.startMirrors]

@[simp] theorem State.startDone_keeps (s : State) :
    (State.startDone s).pending = s.pending ∧ (State.startDone s).trust.otp = s.trust.otp := by
  simp [State.startDone]

@[simp] theorem State.trainUnits_keeps (s : State) :
    (State.trainUnits s).pending = s.pending ∧ (State.trainUnits s).trust.otp = s.trust.otp := by
  simp [State.trainUnits]

@[simp] theorem State.failDdr_keeps (s : State) (u : Nat) :
    (State.failDdr s u).pending = s.pending ∧ (State.failDdr s u).trust.otp = s.trust.otp := by
  simp [State.failDdr]

@[simp] theorem State.formGranary_keeps (s : State) (ds : List Nat) :
    (State.formGranary s ds).pending = s.pending ∧ (State.formGranary s ds).trust.otp = s.trust.otp := by
  simp [State.formGranary]

theorem execMemoryTrainingDone_keeps (failed : List UnitId) (s : State) :
    ∀ t9, execMemoryTrainingDone failed s = .next t9 → t9.pending = s.pending ∧ t9.trust.otp = s.trust.otp := by
  intro t9 h; unfold execMemoryTrainingDone at h; simp only [done] at h; (repeat' split at h) <;> (cases h; simp)

@[simp] theorem State.bootTamper_keeps (s : State) (source : Nat) :
    (State.bootTamper s source).pending = s.pending ∧ (State.bootTamper s source).trust.otp = s.trust.otp := by
  simp [State.bootTamper]

@[simp] theorem State.bootStop_keeps (s : State) :
    (State.bootStop s).pending = s.pending ∧ (State.bootStop s).trust.otp = s.trust.otp := by
  simp [State.bootStop]

@[simp] theorem State.populate_keeps (s : State) (gib : List Nat) :
    (State.populate s gib).pending = s.pending ∧ (State.populate s gib).trust.otp = s.trust.otp := by
  simp [State.populate]

@[simp] theorem State.runSlot_keeps (s : State) (slot : Nat) (c : SlotCheck) :
    (State.runSlot s slot c).pending = s.pending ∧ (State.runSlot s slot c).trust.otp = s.trust.otp := by
  simp [State.runSlot]

@[simp] theorem State.recover_keeps (s : State) :
    (State.recover s).pending = s.pending ∧ (State.recover s).trust.otp = s.trust.otp := by
  simp [State.recover]

@[simp] theorem State.bootSlots_keeps (s : State) (x : BootInputs) :
    (State.bootSlots s x).pending = s.pending ∧ (State.bootSlots s x).trust.otp = s.trust.otp := by
  simp [State.bootSlots]

theorem State.plainRead_keeps (s : State) (op cls : Nat) (r : Request) (f : State → Ans) :
    ∀ t9, State.plainRead s op cls r f = .next t9 → t9.pending = s.pending ∧ t9.trust.otp = s.trust.otp := by
  intro t9 h
  unfold State.plainRead State.readReq at h
  injection h with h; subst h
  refine State.request_keeps _ _ _ _ _ _ ?_
  intro a t
  dsimp only
  simp

theorem State.deviceRead_keeps (s : State) (op : Nat) (r : Request) (f : State → Bytes) :
    ∀ t9, State.deviceRead s op r f = .next t9 → t9.pending = s.pending ∧ t9.trust.otp = s.trust.otp := by
  intro t9 h
  unfold State.deviceRead at h
  exact State.plainRead_keeps _ _ _ _ _ _ h

theorem State.targetRead_keeps (s : State) (op kind : Nat) (r : Request) (f : State → Nat → Bytes) :
    ∀ t9, State.targetRead s op kind r f = .next t9 → t9.pending = s.pending ∧ t9.trust.otp = s.trust.otp := by
  intro t9 h
  unfold State.targetRead at h
  exact State.plainRead_keeps _ _ _ _ _ _ h

theorem execDeviceStatus_keeps (r : Request) (s : State) :
    ∀ t9, execDeviceStatus r s = .next t9 → t9.pending = s.pending ∧ t9.trust.otp = s.trust.otp := by
  intro t9 h; unfold execDeviceStatus at h; injection h with h; subst h; refine State.request_keeps _ _ _ _ _ _ ?_; intro k t; dsimp only; (repeat' split) <;> simp

theorem execFaultStatus_keeps (r : Request) (s : State) :
    ∀ t9, execFaultStatus r s = .next t9 → t9.pending = s.pending ∧ t9.trust.otp = s.trust.otp := by
  intro t9 h; unfold execFaultStatus at h; injection h with h; subst h; refine State.request_keeps _ _ _ _ _ _ ?_; intro k t; dsimp only; (repeat' split) <;> simp

theorem execPowerStatus_keeps (r : Request) (s : State) :
    ∀ t9, execPowerStatus r s = .next t9 → t9.pending = s.pending ∧ t9.trust.otp = s.trust.otp := by
  intro t9 h; simp only [execPowerStatus, done, Host.Outcome.next.injEq] at h; subst h; simp

theorem execSagRecordRead_keeps (r : Request) (s : State) :
    ∀ t9, execSagRecordRead r s = .next t9 → t9.pending = s.pending ∧ t9.trust.otp = s.trust.otp := by
  intro t9 h; unfold execSagRecordRead at h; injection h with h; subst h; refine State.request_keeps _ _ _ _ _ _ ?_; intro k t; dsimp only; (repeat' split) <;> simp

theorem execPortStatus_keeps (r : Request) (s : State) :
    ∀ t9, execPortStatus r s = .next t9 → t9.pending = s.pending ∧ t9.trust.otp = s.trust.otp := by
  intro t9 h; unfold execPortStatus at h; injection h with h; subst h; refine State.request_keeps _ _ _ _ _ _ ?_; intro k t; dsimp only; (repeat' split) <;> simp

theorem execTillerStatus_keeps (r : Request) (s : State) :
    ∀ t9, execTillerStatus r s = .next t9 → t9.pending = s.pending ∧ t9.trust.otp = s.trust.otp := by
  intro t9 h; unfold execTillerStatus at h; injection h with h; subst h; refine State.request_keeps _ _ _ _ _ _ ?_; intro k t; dsimp only; (repeat' split) <;> simp

theorem execMatchRead_keeps (r : Request) (s : State) :
    ∀ t9, execMatchRead r s = .next t9 → t9.pending = s.pending ∧ t9.trust.otp = s.trust.otp := by
  intro t9 h; unfold execMatchRead at h; simp only [done] at h; (repeat' split at h) <;> (cases h; simp)

theorem execFlowRead_keeps (r : Request) (s : State) :
    ∀ t9, execFlowRead r s = .next t9 → t9.pending = s.pending ∧ t9.trust.otp = s.trust.otp := by
  intro t9 h; unfold execFlowRead at h; simp only [done] at h; (repeat' split at h) <;> (cases h; simp)

theorem execFlowStatus_keeps (r : Request) (s : State) :
    ∀ t9, execFlowStatus r s = .next t9 → t9.pending = s.pending ∧ t9.trust.otp = s.trust.otp := by
  intro t9 h; unfold execFlowStatus at h; injection h with h; subst h; refine State.request_keeps _ _ _ _ _ _ ?_; intro k t; dsimp only; (repeat' split) <;> simp

theorem execExportStatus_keeps (r : Request) (s : State) :
    ∀ t9, execExportStatus r s = .next t9 → t9.pending = s.pending ∧ t9.trust.otp = s.trust.otp := by
  intro t9 h; unfold execExportStatus at h; injection h with h; subst h; refine State.request_keeps _ _ _ _ _ _ ?_; intro k t; dsimp only; (repeat' split) <;> simp

theorem execPermitRead_keeps (r : Request) (s : State) :
    ∀ t9, execPermitRead r s = .next t9 → t9.pending = s.pending ∧ t9.trust.otp = s.trust.otp := by
  intro t9 h; unfold execPermitRead at h; simp only [done] at h; (repeat' split at h) <;> (cases h; simp)

theorem execGateStatus_keeps (r : Request) (s : State) :
    ∀ t9, execGateStatus r s = .next t9 → t9.pending = s.pending ∧ t9.trust.otp = s.trust.otp := by
  intro t9 h; simp only [execGateStatus, done, Host.Outcome.next.injEq] at h; subst h; simp

end Sys2Proof.Machine
end

