-- ==== Sys2Proof/Laws/Keeps14.lean ====
section
/-! SUPPORT. What the functions of StatusCmds, BulkCmds, HostRegs, Images, RecordCmds keep: the queue and the OTP (R408). -/

namespace Sys2Proof.Machine

set_option maxRecDepth 4000
set_option simprocs false

theorem execMemoryStatus_keeps (r : Request) (s : State) :
    ∀ t9, execMemoryStatus r s = .next t9 → t9.pending = s.pending ∧ t9.trust.otp = s.trust.otp := by
  intro t9 h
  exact State.targetRead_keeps _ _ _ _ _ _ h

theorem execSheafStatus_keeps (r : Request) (s : State) :
    ∀ t9, execSheafStatus r s = .next t9 → t9.pending = s.pending ∧ t9.trust.otp = s.trust.otp := by
  intro t9 h; unfold execSheafStatus at h; injection h with h; subst h; refine State.request_keeps _ _ _ _ _ _ ?_; intro k t; dsimp only; (repeat' split) <;> simp

theorem execCounterRead_keeps (r : Request) (s : State) :
    ∀ t9, execCounterRead r s = .next t9 → t9.pending = s.pending ∧ t9.trust.otp = s.trust.otp := by
  intro t9 h; unfold execCounterRead at h; simp only [done] at h; (repeat' split at h) <;> (cases h; simp)

theorem execCounterSnapshot_keeps (r : Request) (s : State) :
    ∀ t9, execCounterSnapshot r s = .next t9 → t9.pending = s.pending ∧ t9.trust.otp = s.trust.otp := by
  intro t9 h; simp only [execCounterSnapshot, done, Host.Outcome.next.injEq] at h; subst h; simp

theorem execCounterFreeze_keeps (r : Request) (s : State) :
    ∀ t9, execCounterFreeze r s = .next t9 → t9.pending = s.pending ∧ t9.trust.otp = s.trust.otp := by
  intro t9 h; simp only [execCounterFreeze, done, Host.Outcome.next.injEq] at h; subst h; simp

theorem execArchiveRead_keeps (r : Request) (s : State) :
    ∀ t9, execArchiveRead r s = .next t9 → t9.pending = s.pending ∧ t9.trust.otp = s.trust.otp := by
  intro t9 h; unfold execArchiveRead at h; injection h with h; subst h; refine State.request_keeps _ _ _ _ _ _ ?_; intro k t; dsimp only; (repeat' split) <;> simp

theorem execStrawRead_keeps (r : Request) (s : State) :
    ∀ t9, execStrawRead r s = .next t9 → t9.pending = s.pending ∧ t9.trust.otp = s.trust.otp := by
  intro t9 h; unfold execStrawRead at h; injection h with h; subst h; refine State.request_keeps _ _ _ _ _ _ ?_; intro k t; dsimp only; (repeat' split) <;> simp

theorem execLedgerRead_keeps (r : Request) (s : State) :
    ∀ t9, execLedgerRead r s = .next t9 → t9.pending = s.pending ∧ t9.trust.otp = s.trust.otp := by
  intro t9 h; unfold execLedgerRead at h; injection h with h; subst h; refine State.request_keeps _ _ _ _ _ _ ?_; intro k t; dsimp only; (repeat' split) <;> simp

theorem execAttestationLogRead_keeps (r : Request) (s : State) :
    ∀ t9, execAttestationLogRead r s = .next t9 → t9.pending = s.pending ∧ t9.trust.otp = s.trust.otp := by
  intro t9 h; unfold execAttestationLogRead at h; injection h with h; subst h; refine State.request_keeps _ _ _ _ _ _ ?_; intro k t; dsimp only; (repeat' split) <;> simp

theorem execBridgeRead_keeps (r : Request) (s : State) :
    ∀ t9, execBridgeRead r s = .next t9 → t9.pending = s.pending ∧ t9.trust.otp = s.trust.otp := by
  intro t9 h; unfold execBridgeRead at h; simp only [done] at h; (repeat' split at h) <;> (cases h; simp)

theorem execBridgeCopy_keeps (r : Request) (s : State) :
    ∀ t9, execBridgeCopy r s = .next t9 → t9.pending = s.pending ∧ t9.trust.otp = s.trust.otp := by
  intro t9 h; simp only [execBridgeCopy, done, Host.Outcome.next.injEq] at h; subst h; simp

theorem execRouteRead_keeps (r : Request) (s : State) :
    ∀ t9, execRouteRead r s = .next t9 → t9.pending = s.pending ∧ t9.trust.otp = s.trust.otp := by
  intro t9 h; unfold execRouteRead at h; injection h with h; subst h; refine State.request_keeps _ _ _ _ _ _ ?_; intro k t; dsimp only; (repeat' split) <;> simp

theorem execGateShut_keeps (r : Request) (s : State) :
    ∀ t9, execGateShut r s = .next t9 → t9.pending = s.pending ∧ t9.trust.otp = s.trust.otp := by
  intro t9 h; simp only [execGateShut, done, Host.Outcome.next.injEq] at h; subst h; simp

theorem execGateReopen_keeps (r : Request) (s : State) :
    ∀ t9, execGateReopen r s = .next t9 → t9.pending = s.pending ∧ t9.trust.otp = s.trust.otp := by
  intro t9 h; simp only [execGateReopen, done, Host.Outcome.next.injEq] at h; subst h; simp

theorem execLedgerAcknowledge_keeps (r : Request) (s : State) :
    ∀ t9, execLedgerAcknowledge r s = .next t9 → t9.pending = s.pending ∧ t9.trust.otp = s.trust.otp := by
  intro t9 h; simp only [execLedgerAcknowledge, done, Host.Outcome.next.injEq] at h; subst h; simp

theorem execPermitSubmit_keeps (r : Request) (s : State) :
    ∀ t9, execPermitSubmit r s = .next t9 → t9.pending = s.pending ∧ t9.trust.otp = s.trust.otp := by
  intro t9 h; unfold execPermitSubmit at h; injection h with h; subst h
  refine State.request_keeps _ _ _ _ _ _ ?_
  intro k t
  split
  · exact State.addAction_keeps _ _ _ _ _
  · split
    · exact ⟨rfl, rfl⟩
    · have k1 := State.takeBody_keeps t r.payload (0x0100 + r.mb.val)
      split
      · rename_i e; rw [e] at k1; exact k1
      · rename_i e; rw [e] at k1; exact k1

theorem execIntCauseWrite_keeps (v : W32) (s : State) :
    ∀ t9, execIntCauseWrite v s = .next t9 → t9.pending = s.pending ∧ t9.trust.otp = s.trust.otp := by
  intro t9 h; simp only [execIntCauseWrite, done, Host.Outcome.next.injEq] at h; subst h; simp

theorem execIntSetWrite_keeps (v : W32) (s : State) :
    ∀ t9, execIntSetWrite v s = .next t9 → t9.pending = s.pending ∧ t9.trust.otp = s.trust.otp := by
  intro t9 h; simp only [execIntSetWrite, done, Host.Outcome.next.injEq] at h; subst h; simp

theorem execIntMaskWrite_keeps (v : W32) (s : State) :
    ∀ t9, execIntMaskWrite v s = .next t9 → t9.pending = s.pending ∧ t9.trust.otp = s.trust.otp := by
  intro t9 h; simp only [execIntMaskWrite, done, Host.Outcome.next.injEq] at h; subst h; simp

theorem execEventLostRead_keeps (s : State) :
    ∀ t9, execEventLostRead s = .next t9 → t9.pending = s.pending ∧ t9.trust.otp = s.trust.otp := by
  intro t9 h; simp only [execEventLostRead, done, Host.Outcome.next.injEq] at h; subst h; simp

@[simp] theorem State.takeDescriptor_keeps (s : State) (mb i : Nat) :
    (State.takeDescriptor s mb i).pending = s.pending ∧ (State.takeDescriptor s mb i).trust.otp = s.trust.otp := by
  simp [State.takeDescriptor]

theorem execReqProdDoorbell_keeps (mb : HostMbId) (v : W32) (s : State) :
    ∀ t9, execReqProdDoorbell mb v s = .next t9 → t9.pending = s.pending ∧ t9.trust.otp = s.trust.otp := by
  intro t9 h; unfold execReqProdDoorbell at h; simp only [done] at h; (repeat' split at h) <;> (cases h; simp)

theorem execCplConsWrite_keeps (mb : HostMbId) (v : W32) (s : State) :
    ∀ t9, execCplConsWrite mb v s = .next t9 → t9.pending = s.pending ∧ t9.trust.otp = s.trust.otp := by
  intro t9 h; simp only [execCplConsWrite, done, Host.Outcome.next.injEq] at h; subst h; simp

theorem execRingConsWrite_keeps (g : RingId) (v : W32) (s : State) :
    ∀ t9, execRingConsWrite g v s = .next t9 → t9.pending = s.pending ∧ t9.trust.otp = s.trust.otp := by
  intro t9 h; simp only [execRingConsWrite, done, Host.Outcome.next.injEq] at h; subst h; simp

theorem execRingCtrlWrite_keeps (g : RingId) (v : W32) (s : State) :
    ∀ t9, execRingCtrlWrite g v s = .next t9 → t9.pending = s.pending ∧ t9.trust.otp = s.trust.otp := by
  intro t9 h; simp only [execRingCtrlWrite, done, Host.Outcome.next.injEq] at h; subst h; simp

@[simp] theorem State.mbWrite_keeps (s : State) (mb off : Nat) (v : W32) :
    (State.mbWrite s mb off v).pending = s.pending ∧ (State.mbWrite s mb off v).trust.otp = s.trust.otp := by
  simp [State.mbWrite]

@[simp] theorem State.ringWrite_keeps (s : State) (g off : Nat) (v : W32) :
    (State.ringWrite s g off v).pending = s.pending ∧ (State.ringWrite s g off v).trust.otp = s.trust.otp := by
  simp [State.ringWrite]

@[simp] theorem State.writeMsix_keeps (s : State) (i v : Nat) :
    (State.writeMsix s i v).pending = s.pending ∧ (State.writeMsix s i v).trust.otp = s.trust.otp := by
  simp [State.writeMsix]

theorem execRegisterWrite_keeps (addr : Nat) (v : W32) (s : State) :
    ∀ t9, execRegisterWrite addr v s = .next t9 → t9.pending = s.pending ∧ t9.trust.otp = s.trust.otp := by
  intro t9 h; unfold execRegisterWrite at h; simp only [done] at h; (repeat' split at h) <;> (cases h; simp)

theorem execPcieFunctionReset_keeps (s : State) :
    ∀ t9, execPcieFunctionReset s = .next t9 → t9.pending = s.pending ∧ t9.trust.otp = s.trust.otp := by
  intro t9 h; simp only [execPcieFunctionReset, done, Host.Outcome.next.injEq] at h; subst h; simp

@[simp] theorem State.dropForRing_keeps (s : State) (q : MasterQ) :
    (State.dropForRing s q).pending = s.pending ∧ (State.dropForRing s q).trust.otp = s.trust.otp := by
  unfold State.dropForRing; (repeat' split) <;> simp

theorem execEventDelivery_keeps (m : Master) (s : State) :
    ∀ t9, execEventDelivery m s = .next t9 → t9.pending = s.pending ∧ t9.trust.otp = s.trust.otp := by
  intro t9 h; unfold execEventDelivery at h; simp only [done] at h; (repeat' split at h) <;> (cases h; simp)

@[simp] theorem State.mgmtTake_keeps (s : State) :
    (State.mgmtTake s).2.pending = s.pending ∧ (State.mgmtTake s).2.trust.otp = s.trust.otp := by
  simp [State.mgmtTake]

@[simp] theorem State.fragment_keeps (s : State) (src : Bytes) (mb frag frags total : Nat) (bs : Bytes) :
    (State.fragment s src mb frag frags total bs).pending = s.pending ∧ (State.fragment s src mb frag frags total bs).trust.otp = s.trust.otp := by
  simp [State.fragment]

theorem execMgmtFrameReceive_keeps (src payload : Bytes) (s : State) :
    ∀ t9, execMgmtFrameReceive src payload s = .next t9 → t9.pending = s.pending ∧ t9.trust.otp = s.trust.otp := by
  intro t9 h; unfold execMgmtFrameReceive at h; simp only [done] at h; (repeat' split at h) <;> (cases h; simp)

theorem execMgmtReassemblyTimeout_keeps (mb : MbId) (s : State) :
    ∀ t9, execMgmtReassemblyTimeout mb s = .next t9 → t9.pending = s.pending ∧ t9.trust.otp = s.trust.otp := by
  intro t9 h; unfold execMgmtReassemblyTimeout at h; simp only [done] at h; (repeat' split at h) <;> (cases h; simp)

theorem execMgmtGapTimeout_keeps (mb : MbId) (s : State) :
    ∀ t9, execMgmtGapTimeout mb s = .next t9 → t9.pending = s.pending ∧ t9.trust.otp = s.trust.otp := by
  intro t9 h; unfold execMgmtGapTimeout at h; simp only [done] at h; (repeat' split at h) <;> (cases h; simp)

theorem execJtagMb14Data_keeps (w : W32) (s : State) :
    ∀ t9, execJtagMb14Data w s = .next t9 → t9.pending = s.pending ∧ t9.trust.otp = s.trust.otp := by
  intro t9 h; unfold execJtagMb14Data at h; simp only [done] at h; (repeat' split at h) <;> (cases h; simp)

theorem execJtagBypass_keeps (_b : Bool) (s : State) :
    ∀ t9, execJtagBypass _b s = .next t9 → t9.pending = s.pending ∧ t9.trust.otp = s.trust.otp := by
  intro t9 h; simp only [execJtagBypass, done, Host.Outcome.next.injEq] at h; subst h; simp

theorem execLongRequestProgress_keeps (mb : MbId) (percent : Nat) (s : State) :
    ∀ t9, execLongRequestProgress mb percent s = .next t9 → t9.pending = s.pending ∧ t9.trust.otp = s.trust.otp := by
  intro t9 h; unfold execLongRequestProgress at h; simp only [done] at h; (repeat' split at h) <;> (cases h; simp)

@[simp] theorem State.fillShadow_keeps (s : State) (words : Option (List Nat)) (digest : Bytes) :
    (State.fillShadow s words digest).pending = s.pending ∧ (State.fillShadow s words digest).trust.otp = s.trust.otp := by
  simp [State.fillShadow]

@[simp] theorem State.writePatch_keeps (s : State) (slot : Nat) (b : Bytes) :
    (State.writePatch s slot b).pending = s.pending ∧ (State.writePatch s slot b).trust.otp = s.trust.otp := by
  simp [State.writePatch]

@[simp] theorem State.microLoaded_keeps (s : State) (kind : Nat) (b : Bytes) :
    (State.microLoaded s kind b).2.pending = s.pending ∧ (State.microLoaded s kind b).2.trust.otp = s.trust.otp := by
  simp [State.microLoaded]

theorem execMicrocodeLoad_keeps (r : Request) (s : State) :
    ∀ t9, execMicrocodeLoad r s = .next t9 → t9.pending = s.pending ∧ t9.trust.otp = s.trust.otp := by
  intro t9 h; unfold execMicrocodeLoad at h; injection h with h; subst h; refine State.directReq_keeps _ _ _ _ _ ?_; intro k t; dsimp only; (repeat' split) <;> simp

theorem execMicrocodeRead_keeps (r : Request) (s : State) :
    ∀ t9, execMicrocodeRead r s = .next t9 → t9.pending = s.pending ∧ t9.trust.otp = s.trust.otp := by
  intro t9 h; unfold execMicrocodeRead at h; simp only [done] at h; (repeat' split at h) <;> (cases h; simp)

@[simp] theorem State.placePattern_keeps (s : State) (b : Bytes) (base : Nat) :
    (State.placePattern s b base).2.pending = s.pending ∧ (State.placePattern s b base).2.trust.otp = s.trust.otp := by
  simp [State.placePattern]

theorem execPatternLoad_keeps (r : Request) (s : State) :
    ∀ t9, execPatternLoad r s = .next t9 → t9.pending = s.pending ∧ t9.trust.otp = s.trust.otp := by
  intro t9 h; unfold execPatternLoad at h; injection h with h; subst h; refine State.directReq_keeps _ _ _ _ _ ?_; intro k t; dsimp only; (repeat' split) <;> simp

@[simp] theorem State.writeSlot_keeps (s : State) (slot : Nat) (image patch : Bytes) :
    (State.writeSlot s slot image patch).pending = s.pending ∧ (State.writeSlot s slot image patch).trust.otp = s.trust.otp := by
  simp [State.writeSlot]

theorem execFirmwareLoad_keeps (r : Request) (s : State) :
    ∀ t9, execFirmwareLoad r s = .next t9 → t9.pending = s.pending ∧ t9.trust.otp = s.trust.otp := by
  intro t9 h
  unfold execFirmwareLoad at h
  extract_lets recovery slot n image patch s1 loaded at h
  have k1 : s1.pending = s.pending ∧ s1.trust.otp = s.trust.otp := by
    refine State.directReq_keeps _ _ _ _ _ ?_
    intro k t
    dsimp only
    split
    · exact ⟨rfl, rfl⟩
    · split
      · exact ⟨rfl, rfl⟩
      · dsimp only
        split <;> simp
  clear_value s1
  injection h with h; subst h
  split
  · simp [k1]
  · exact k1

@[simp] theorem State.slotHeader_keeps (s : State) (slot : Nat) :
    (State.slotHeader s slot).2.pending = s.pending ∧ (State.slotHeader s slot).2.trust.otp = s.trust.otp := by
  simp [State.slotHeader]

theorem execFirmwareSwitch_keeps (r : Request) (s : State) :
    ∀ t9, execFirmwareSwitch r s = .next t9 → t9.pending = s.pending ∧ t9.trust.otp = s.trust.otp := by
  intro t9 h; simp only [execFirmwareSwitch, done, Host.Outcome.next.injEq] at h; subst h; simp

@[simp] theorem State.endSwitch_keeps (s : State) (status detail : Nat) :
    (State.endSwitch s status detail).pending = s.pending ∧ (State.endSwitch s status detail).trust.otp = s.trust.otp := by
  simp [State.endSwitch]

theorem execSwitchoverImageStaged_keeps (ok : Bool) (s : State) :
    ∀ t9, execSwitchoverImageStaged ok s = .next t9 → t9.pending = s.pending ∧ t9.trust.otp = s.trust.otp := by
  intro t9 h; unfold execSwitchoverImageStaged at h; simp only [done] at h; (repeat' split at h) <;> (cases h; simp)

theorem execSwitchoverTimeout_keeps (s : State) :
    ∀ t9, execSwitchoverTimeout s = .next t9 → t9.pending = s.pending ∧ t9.trust.otp = s.trust.otp := by
  intro t9 h; unfold execSwitchoverTimeout at h; simp only [done] at h; (repeat' split at h) <;> (cases h; simp)

theorem execGateListSet_keeps (r : Request) (s : State) :
    ∀ t9, execGateListSet r s = .next t9 → t9.pending = s.pending ∧ t9.trust.otp = s.trust.otp := by
  intro t9 h; simp only [execGateListSet, done, Host.Outcome.next.injEq] at h; subst h; simp

theorem execWindowSet_keeps (r : Request) (s : State) :
    ∀ t9, execWindowSet r s = .next t9 → t9.pending = s.pending ∧ t9.trust.otp = s.trust.otp := by
  intro t9 h; simp only [execWindowSet, done, Host.Outcome.next.injEq] at h; subst h; simp

theorem execBridgeEntrySet_keeps (r : Request) (s : State) :
    ∀ t9, execBridgeEntrySet r s = .next t9 → t9.pending = s.pending ∧ t9.trust.otp = s.trust.otp := by
  intro t9 h; simp only [execBridgeEntrySet, done, Host.Outcome.next.injEq] at h; subst h; simp

theorem execVlanSet_keeps (r : Request) (s : State) :
    ∀ t9, execVlanSet r s = .next t9 → t9.pending = s.pending ∧ t9.trust.otp = s.trust.otp := by
  intro t9 h; simp only [execVlanSet, done, Host.Outcome.next.injEq] at h; subst h; simp

theorem execRouterMacSet_keeps (r : Request) (s : State) :
    ∀ t9, execRouterMacSet r s = .next t9 → t9.pending = s.pending ∧ t9.trust.otp = s.trust.otp := by
  intro t9 h; simp only [execRouterMacSet, done, Host.Outcome.next.injEq] at h; subst h; simp

theorem execPrefixSet_keeps (r : Request) (s : State) :
    ∀ t9, execPrefixSet r s = .next t9 → t9.pending = s.pending ∧ t9.trust.otp = s.trust.otp := by
  intro t9 h; simp only [execPrefixSet, done, Host.Outcome.next.injEq] at h; subst h; simp

theorem execNextHopSet_keeps (r : Request) (s : State) :
    ∀ t9, execNextHopSet r s = .next t9 → t9.pending = s.pending ∧ t9.trust.otp = s.trust.otp := by
  intro t9 h; simp only [execNextHopSet, done, Host.Outcome.next.injEq] at h; subst h; simp

theorem execMultipathSet_keeps (r : Request) (s : State) :
    ∀ t9, execMultipathSet r s = .next t9 → t9.pending = s.pending ∧ t9.trust.otp = s.trust.otp := by
  intro t9 h; simp only [execMultipathSet, done, Host.Outcome.next.injEq] at h; subst h; simp

theorem execAggregationGroupSet_keeps (r : Request) (s : State) :
    ∀ t9, execAggregationGroupSet r s = .next t9 → t9.pending = s.pending ∧ t9.trust.otp = s.trust.otp := by
  intro t9 h; simp only [execAggregationGroupSet, done, Host.Outcome.next.injEq] at h; subst h; simp

theorem execMatchRowSet_keeps (r : Request) (s : State) :
    ∀ t9, execMatchRowSet r s = .next t9 → t9.pending = s.pending ∧ t9.trust.otp = s.trust.otp := by
  intro t9 h; simp only [execMatchRowSet, done, Host.Outcome.next.injEq] at h; subst h; simp

theorem execMatchBankSet_keeps (r : Request) (s : State) :
    ∀ t9, execMatchBankSet r s = .next t9 → t9.pending = s.pending ∧ t9.trust.otp = s.trust.otp := by
  intro t9 h; simp only [execMatchBankSet, done, Host.Outcome.next.injEq] at h; subst h; simp

end Sys2Proof.Machine
end

