-- ==== Sys2Proof/Laws/Keeps15.lean ====
section
/-! SUPPORT. What the functions of RecordCmds, Scheduler, SettingsCmds keep: the queue and the OTP (R408). -/

namespace Sys2Proof.Machine

set_option maxRecDepth 4000
set_option simprocs false

theorem execFlowProfileSet_keeps (r : Request) (s : State) :
    ∀ t9, execFlowProfileSet r s = .next t9 → t9.pending = s.pending ∧ t9.trust.otp = s.trust.otp := by
  intro t9 h; simp only [execFlowProfileSet, done, Host.Outcome.next.injEq] at h; subst h; simp

theorem execFlowRecordSet_keeps (r : Request) (s : State) :
    ∀ t9, execFlowRecordSet r s = .next t9 → t9.pending = s.pending ∧ t9.trust.otp = s.trust.otp := by
  intro t9 h; simp only [execFlowRecordSet, done, Host.Outcome.next.injEq] at h; subst h; simp

theorem execObjectWrite_keeps (r : Request) (s : State) :
    ∀ t9, execObjectWrite r s = .next t9 → t9.pending = s.pending ∧ t9.trust.otp = s.trust.otp := by
  intro t9 h; simp only [execObjectWrite, done, Host.Outcome.next.injEq] at h; subst h; simp

theorem execPatternSwitch_keeps (r : Request) (s : State) :
    ∀ t9, execPatternSwitch r s = .next t9 → t9.pending = s.pending ∧ t9.trust.otp = s.trust.otp := by
  intro t9 h; simp only [execPatternSwitch, done, Host.Outcome.next.injEq] at h; subst h; simp

theorem execLbGroupSet_keeps (r : Request) (s : State) :
    ∀ t9, execLbGroupSet r s = .next t9 → t9.pending = s.pending ∧ t9.trust.otp = s.trust.otp := by
  intro t9 h; simp only [execLbGroupSet, done, Host.Outcome.next.injEq] at h; subst h; simp

theorem execLbMemberSet_keeps (r : Request) (s : State) :
    ∀ t9, execLbMemberSet r s = .next t9 → t9.pending = s.pending ∧ t9.trust.otp = s.trust.otp := by
  intro t9 h; simp only [execLbMemberSet, done, Host.Outcome.next.injEq] at h; subst h; simp

theorem execTranslationPoolSet_keeps (r : Request) (s : State) :
    ∀ t9, execTranslationPoolSet r s = .next t9 → t9.pending = s.pending ∧ t9.trust.otp = s.trust.otp := by
  intro t9 h; simp only [execTranslationPoolSet, done, Host.Outcome.next.injEq] at h; subst h; simp

theorem execGateProfileSet_keeps (r : Request) (s : State) :
    ∀ t9, execGateProfileSet r s = .next t9 → t9.pending = s.pending ∧ t9.trust.otp = s.trust.otp := by
  intro t9 h; simp only [execGateProfileSet, done, Host.Outcome.next.injEq] at h; subst h; simp

theorem execKeyRingSet_keeps (r : Request) (s : State) :
    ∀ t9, execKeyRingSet r s = .next t9 → t9.pending = s.pending ∧ t9.trust.otp = s.trust.otp := by
  intro t9 h; simp only [execKeyRingSet, done, Host.Outcome.next.injEq] at h; subst h; simp

theorem execPermitRevoke_keeps (r : Request) (s : State) :
    ∀ t9, execPermitRevoke r s = .next t9 → t9.pending = s.pending ∧ t9.trust.otp = s.trust.otp := by
  intro t9 h; simp only [execPermitRevoke, done, Host.Outcome.next.injEq] at h; subst h; simp

theorem execMicrocodeSwitch_keeps (r : Request) (s : State) :
    ∀ t9, execMicrocodeSwitch r s = .next t9 → t9.pending = s.pending ∧ t9.trust.otp = s.trust.otp := by
  intro t9 h; simp only [execMicrocodeSwitch, done, Host.Outcome.next.injEq] at h; subst h; simp

@[simp] theorem State.setSched_keeps (s : State) (p c : Nat) (x : Sched) :
    (State.setSched s p c x).pending = s.pending ∧ (State.setSched s p c x).trust.otp = s.trust.otp := by
  simp [State.setSched]

theorem weightedTurn_keeps (s : State) (p fuel c : Nat) :
    ∀ t, State.weightedTurn s p fuel c = some t → t.2.2.pending = s.pending ∧ t.2.2.trust.otp = s.trust.otp := by
  induction fuel generalizing s c with
  | zero => intro t h; simp only [State.weightedTurn] at h; cases h
  | succ n ih =>
    intro t h
    simp only [State.weightedTurn] at h
    split at h
    · exact ih _ _ _ h
    · split at h
      · injection h with h; subst h; simp
      · have := ih _ _ _ h
        simpa using this

@[simp] theorem State.choose_keeps (s : State) (p : Nat) :
    ∀ t, State.choose s p = some t → t.2.2.pending = s.pending ∧ t.2.2.trust.otp = s.trust.otp := by
  intro t h
  unfold State.choose at h
  split at h
  · injection h with h; subst h; simp
  · split at h
    · exact weightedTurn_keeps _ _ _ _ _ h
    · cases h

@[simp] theorem State.outSampler_keeps (s : State) (p n : Nat) (x : Packet) :
    (State.outSampler s p n x).pending = s.pending ∧ (State.outSampler s p n x).trust.otp = s.trust.otp := by
  simp [State.outSampler]

@[simp] theorem State.emptied_keeps (s : State) (p c : Nat) :
    (State.emptied s p c).pending = s.pending ∧ (State.emptied s p c).trust.otp = s.trust.otp := by
  simp [State.emptied]

@[simp] theorem State.startSend_keeps (s : State) (p c n : Nat) :
    (State.startSend s p c n).pending = s.pending ∧ (State.startSend s p c n).trust.otp = s.trust.otp := by
  unfold State.startSend; (repeat' split) <;> simp

@[simp] theorem State.latchGate_keeps (s : State) (p c : Nat) :
    (State.latchGate s p c).pending = s.pending ∧ (State.latchGate s p c).trust.otp = s.trust.otp := by
  unfold State.latchGate; split <;> simp

@[simp] theorem State.latchGates_keeps (s : State) (p : Nat) :
    (State.latchGates s p).pending = s.pending ∧ (State.latchGates s p).trust.otp = s.trust.otp := by
  simp [State.latchGates]

theorem execSchedulerSelect_keeps (p : PortId) (s : State) :
    ∀ t9, execSchedulerSelect p s = .next t9 → t9.pending = s.pending ∧ t9.trust.otp = s.trust.otp := by
  intro t9 h
  unfold execSchedulerSelect at h
  split at h
  · injection h with h; subst h; simp
  · have hl := State.latchGates_keeps s p
    generalize s.latchGates p = s0 at h hl
    dsimp only at h
    split at h
    · rename_i c n s1 e
      have := State.choose_keeps _ _ _ e
      injection h with h; subst h; simpa [hl.1, hl.2] using this
    · injection h with h; subst h; exact hl

@[simp] theorem State.creditClock_keeps (s : State) (p c : Nat) :
    (State.creditClock s p c).pending = s.pending ∧ (State.creditClock s p c).trust.otp = s.trust.otp := by
  unfold State.creditClock; (repeat' split) <;> simp

@[simp] theorem State.watchdogClock_keeps (s : State) (q : Nat) :
    (State.watchdogClock s q).pending = s.pending ∧ (State.watchdogClock s q).trust.otp = s.trust.otp := by
  unfold State.watchdogClock; dsimp only; (repeat' split) <;> simp_all

@[simp] theorem State.coreShapers_keeps (s : State) :
    (State.coreShapers s).pending = s.pending ∧ (State.coreShapers s).trust.otp = s.trust.otp := by
  simp [State.coreShapers]

@[simp] theorem State.settingsSet_keeps (s : State) (op cls : Nat) (r : Request) :
    (State.settingsSet s op cls r).pending = s.pending ∧ (State.settingsSet s op cls r).trust.otp = s.trust.otp := by
  simp [State.settingsSet]

@[simp] theorem State.settingsRead_keeps (s : State) (op : Nat) (r : Request) :
    (State.settingsRead s op r).pending = s.pending ∧ (State.settingsRead s op r).trust.otp = s.trust.otp := by
  simp [State.settingsRead]

theorem execFullLaneRecalibration_keeps (r : Request) (s : State) :
    ∀ t9, execFullLaneRecalibration r s = .next t9 → t9.pending = s.pending ∧ t9.trust.otp = s.trust.otp := by
  intro t9 h; simp only [execFullLaneRecalibration, done, Host.Outcome.next.injEq] at h; subst h; simp

theorem execEventSubscribe_keeps (r : Request) (s : State) :
    ∀ t9, execEventSubscribe r s = .next t9 → t9.pending = s.pending ∧ t9.trust.otp = s.trust.otp := by
  intro t9 h; simp only [execEventSubscribe, done, Host.Outcome.next.injEq] at h; subst h; simp

theorem execEventSubscribeRead_keeps (r : Request) (s : State) :
    ∀ t9, execEventSubscribeRead r s = .next t9 → t9.pending = s.pending ∧ t9.trust.otp = s.trust.otp := by
  intro t9 h; simp only [execEventSubscribeRead, done, Host.Outcome.next.injEq] at h; subst h; simp

theorem execManagementPortSet_keeps (r : Request) (s : State) :
    ∀ t9, execManagementPortSet r s = .next t9 → t9.pending = s.pending ∧ t9.trust.otp = s.trust.otp := by
  intro t9 h; simp only [execManagementPortSet, done, Host.Outcome.next.injEq] at h; subst h; simp

theorem execManagementPortSetRead_keeps (r : Request) (s : State) :
    ∀ t9, execManagementPortSetRead r s = .next t9 → t9.pending = s.pending ∧ t9.trust.otp = s.trust.otp := by
  intro t9 h; simp only [execManagementPortSetRead, done, Host.Outcome.next.injEq] at h; subst h; simp

theorem execEngineSet_keeps (r : Request) (s : State) :
    ∀ t9, execEngineSet r s = .next t9 → t9.pending = s.pending ∧ t9.trust.otp = s.trust.otp := by
  intro t9 h; simp only [execEngineSet, done, Host.Outcome.next.injEq] at h; subst h; simp

theorem execEngineSetRead_keeps (r : Request) (s : State) :
    ∀ t9, execEngineSetRead r s = .next t9 → t9.pending = s.pending ∧ t9.trust.otp = s.trust.otp := by
  intro t9 h; simp only [execEngineSetRead, done, Host.Outcome.next.injEq] at h; subst h; simp

theorem execEngineFenceOrReturn_keeps (r : Request) (s : State) :
    ∀ t9, execEngineFenceOrReturn r s = .next t9 → t9.pending = s.pending ∧ t9.trust.otp = s.trust.otp := by
  intro t9 h; simp only [execEngineFenceOrReturn, done, Host.Outcome.next.injEq] at h; subst h; simp

theorem execFaultPolicySet_keeps (r : Request) (s : State) :
    ∀ t9, execFaultPolicySet r s = .next t9 → t9.pending = s.pending ∧ t9.trust.otp = s.trust.otp := by
  intro t9 h; simp only [execFaultPolicySet, done, Host.Outcome.next.injEq] at h; subst h; simp

theorem execFaultPolicySetRead_keeps (r : Request) (s : State) :
    ∀ t9, execFaultPolicySetRead r s = .next t9 → t9.pending = s.pending ∧ t9.trust.otp = s.trust.otp := by
  intro t9 h; simp only [execFaultPolicySetRead, done, Host.Outcome.next.injEq] at h; subst h; simp

theorem execSliceDrainAndReset_keeps (r : Request) (s : State) :
    ∀ t9, execSliceDrainAndReset r s = .next t9 → t9.pending = s.pending ∧ t9.trust.otp = s.trust.otp := by
  intro t9 h; simp only [execSliceDrainAndReset, done, Host.Outcome.next.injEq] at h; subst h; simp

theorem execClearSafeState_keeps (r : Request) (s : State) :
    ∀ t9, execClearSafeState r s = .next t9 → t9.pending = s.pending ∧ t9.trust.otp = s.trust.otp := by
  intro t9 h; simp only [execClearSafeState, done, Host.Outcome.next.injEq] at h; subst h; simp

theorem execPortModeSet_keeps (r : Request) (s : State) :
    ∀ t9, execPortModeSet r s = .next t9 → t9.pending = s.pending ∧ t9.trust.otp = s.trust.otp := by
  intro t9 h; simp only [execPortModeSet, done, Host.Outcome.next.injEq] at h; subst h; simp

theorem execPortModeSetRead_keeps (r : Request) (s : State) :
    ∀ t9, execPortModeSetRead r s = .next t9 → t9.pending = s.pending ∧ t9.trust.otp = s.trust.otp := by
  intro t9 h; simp only [execPortModeSetRead, done, Host.Outcome.next.injEq] at h; subst h; simp

theorem execLaneConfigSet_keeps (r : Request) (s : State) :
    ∀ t9, execLaneConfigSet r s = .next t9 → t9.pending = s.pending ∧ t9.trust.otp = s.trust.otp := by
  intro t9 h; simp only [execLaneConfigSet, done, Host.Outcome.next.injEq] at h; subst h; simp

theorem execLaneConfigSetRead_keeps (r : Request) (s : State) :
    ∀ t9, execLaneConfigSetRead r s = .next t9 → t9.pending = s.pending ∧ t9.trust.otp = s.trust.otp := by
  intro t9 h; simp only [execLaneConfigSetRead, done, Host.Outcome.next.injEq] at h; subst h; simp

theorem execPortTrainingSet_keeps (r : Request) (s : State) :
    ∀ t9, execPortTrainingSet r s = .next t9 → t9.pending = s.pending ∧ t9.trust.otp = s.trust.otp := by
  intro t9 h; simp only [execPortTrainingSet, done, Host.Outcome.next.injEq] at h; subst h; simp

theorem execPortTrainingSetRead_keeps (r : Request) (s : State) :
    ∀ t9, execPortTrainingSetRead r s = .next t9 → t9.pending = s.pending ∧ t9.trust.otp = s.trust.otp := by
  intro t9 h; simp only [execPortTrainingSetRead, done, Host.Outcome.next.injEq] at h; subst h; simp

theorem execPortDampingSet_keeps (r : Request) (s : State) :
    ∀ t9, execPortDampingSet r s = .next t9 → t9.pending = s.pending ∧ t9.trust.otp = s.trust.otp := by
  intro t9 h; simp only [execPortDampingSet, done, Host.Outcome.next.injEq] at h; subst h; simp

theorem execPortDampingSetRead_keeps (r : Request) (s : State) :
    ∀ t9, execPortDampingSetRead r s = .next t9 → t9.pending = s.pending ∧ t9.trust.otp = s.trust.otp := by
  intro t9 h; simp only [execPortDampingSetRead, done, Host.Outcome.next.injEq] at h; subst h; simp

theorem execPortPauseSet_keeps (r : Request) (s : State) :
    ∀ t9, execPortPauseSet r s = .next t9 → t9.pending = s.pending ∧ t9.trust.otp = s.trust.otp := by
  intro t9 h; simp only [execPortPauseSet, done, Host.Outcome.next.injEq] at h; subst h; simp

theorem execPortPauseSetRead_keeps (r : Request) (s : State) :
    ∀ t9, execPortPauseSetRead r s = .next t9 → t9.pending = s.pending ∧ t9.trust.otp = s.trust.otp := by
  intro t9 h; simp only [execPortPauseSetRead, done, Host.Outcome.next.injEq] at h; subst h; simp

theorem execPortPolicerSet_keeps (r : Request) (s : State) :
    ∀ t9, execPortPolicerSet r s = .next t9 → t9.pending = s.pending ∧ t9.trust.otp = s.trust.otp := by
  intro t9 h; simp only [execPortPolicerSet, done, Host.Outcome.next.injEq] at h; subst h; simp

theorem execPortPolicerSetRead_keeps (r : Request) (s : State) :
    ∀ t9, execPortPolicerSetRead r s = .next t9 → t9.pending = s.pending ∧ t9.trust.otp = s.trust.otp := by
  intro t9 h; simp only [execPortPolicerSetRead, done, Host.Outcome.next.injEq] at h; subst h; simp

theorem execLaneTestSet_keeps (r : Request) (s : State) :
    ∀ t9, execLaneTestSet r s = .next t9 → t9.pending = s.pending ∧ t9.trust.otp = s.trust.otp := by
  intro t9 h; simp only [execLaneTestSet, done, Host.Outcome.next.injEq] at h; subst h; simp

theorem execLaneTestSetRead_keeps (r : Request) (s : State) :
    ∀ t9, execLaneTestSetRead r s = .next t9 → t9.pending = s.pending ∧ t9.trust.otp = s.trust.otp := by
  intro t9 h; simp only [execLaneTestSetRead, done, Host.Outcome.next.injEq] at h; subst h; simp

theorem execLanePowerSet_keeps (r : Request) (s : State) :
    ∀ t9, execLanePowerSet r s = .next t9 → t9.pending = s.pending ∧ t9.trust.otp = s.trust.otp := by
  intro t9 h; simp only [execLanePowerSet, done, Host.Outcome.next.injEq] at h; subst h; simp

theorem execLanePowerSetRead_keeps (r : Request) (s : State) :
    ∀ t9, execLanePowerSetRead r s = .next t9 → t9.pending = s.pending ∧ t9.trust.otp = s.trust.otp := by
  intro t9 h; simp only [execLanePowerSetRead, done, Host.Outcome.next.injEq] at h; subst h; simp

theorem execLaneRecalibrateSet_keeps (r : Request) (s : State) :
    ∀ t9, execLaneRecalibrateSet r s = .next t9 → t9.pending = s.pending ∧ t9.trust.otp = s.trust.otp := by
  intro t9 h; simp only [execLaneRecalibrateSet, done, Host.Outcome.next.injEq] at h; subst h; simp

theorem execLaneRecalibrateSetRead_keeps (r : Request) (s : State) :
    ∀ t9, execLaneRecalibrateSetRead r s = .next t9 → t9.pending = s.pending ∧ t9.trust.otp = s.trust.otp := by
  intro t9 h; simp only [execLaneRecalibrateSetRead, done, Host.Outcome.next.injEq] at h; subst h; simp

theorem execOtnOverheadSet_keeps (r : Request) (s : State) :
    ∀ t9, execOtnOverheadSet r s = .next t9 → t9.pending = s.pending ∧ t9.trust.otp = s.trust.otp := by
  intro t9 h; simp only [execOtnOverheadSet, done, Host.Outcome.next.injEq] at h; subst h; simp

theorem execOtnOverheadSetRead_keeps (r : Request) (s : State) :
    ∀ t9, execOtnOverheadSetRead r s = .next t9 → t9.pending = s.pending ∧ t9.trust.otp = s.trust.otp := by
  intro t9 h; simp only [execOtnOverheadSetRead, done, Host.Outcome.next.injEq] at h; subst h; simp

theorem execOtnMaintenanceSet_keeps (r : Request) (s : State) :
    ∀ t9, execOtnMaintenanceSet r s = .next t9 → t9.pending = s.pending ∧ t9.trust.otp = s.trust.otp := by
  intro t9 h; simp only [execOtnMaintenanceSet, done, Host.Outcome.next.injEq] at h; subst h; simp

theorem execOtnMaintenanceSetRead_keeps (r : Request) (s : State) :
    ∀ t9, execOtnMaintenanceSetRead r s = .next t9 → t9.pending = s.pending ∧ t9.trust.otp = s.trust.otp := by
  intro t9 h; simp only [execOtnMaintenanceSetRead, done, Host.Outcome.next.injEq] at h; subst h; simp

theorem execBufferPoolSet_keeps (r : Request) (s : State) :
    ∀ t9, execBufferPoolSet r s = .next t9 → t9.pending = s.pending ∧ t9.trust.otp = s.trust.otp := by
  intro t9 h; simp only [execBufferPoolSet, done, Host.Outcome.next.injEq] at h; subst h; simp

theorem execBufferPoolSetRead_keeps (r : Request) (s : State) :
    ∀ t9, execBufferPoolSetRead r s = .next t9 → t9.pending = s.pending ∧ t9.trust.otp = s.trust.otp := by
  intro t9 h; simp only [execBufferPoolSetRead, done, Host.Outcome.next.injEq] at h; subst h; simp

theorem execPortQueueSet_keeps (r : Request) (s : State) :
    ∀ t9, execPortQueueSet r s = .next t9 → t9.pending = s.pending ∧ t9.trust.otp = s.trust.otp := by
  intro t9 h; simp only [execPortQueueSet, done, Host.Outcome.next.injEq] at h; subst h; simp

theorem execPortQueueSetRead_keeps (r : Request) (s : State) :
    ∀ t9, execPortQueueSetRead r s = .next t9 → t9.pending = s.pending ∧ t9.trust.otp = s.trust.otp := by
  intro t9 h; simp only [execPortQueueSetRead, done, Host.Outcome.next.injEq] at h; subst h; simp

theorem execPortSchedulerSet_keeps (r : Request) (s : State) :
    ∀ t9, execPortSchedulerSet r s = .next t9 → t9.pending = s.pending ∧ t9.trust.otp = s.trust.otp := by
  intro t9 h; simp only [execPortSchedulerSet, done, Host.Outcome.next.injEq] at h; subst h; simp

theorem execPortSchedulerSetRead_keeps (r : Request) (s : State) :
    ∀ t9, execPortSchedulerSetRead r s = .next t9 → t9.pending = s.pending ∧ t9.trust.otp = s.trust.otp := by
  intro t9 h; simp only [execPortSchedulerSetRead, done, Host.Outcome.next.injEq] at h; subst h; simp

theorem execTillerReferenceSet_keeps (r : Request) (s : State) :
    ∀ t9, execTillerReferenceSet r s = .next t9 → t9.pending = s.pending ∧ t9.trust.otp = s.trust.otp := by
  intro t9 h; simp only [execTillerReferenceSet, done, Host.Outcome.next.injEq] at h; subst h; simp

theorem execTillerReferenceSetRead_keeps (r : Request) (s : State) :
    ∀ t9, execTillerReferenceSetRead r s = .next t9 → t9.pending = s.pending ∧ t9.trust.otp = s.trust.otp := by
  intro t9 h; simp only [execTillerReferenceSetRead, done, Host.Outcome.next.injEq] at h; subst h; simp

theorem execTillerHoldoverSet_keeps (r : Request) (s : State) :
    ∀ t9, execTillerHoldoverSet r s = .next t9 → t9.pending = s.pending ∧ t9.trust.otp = s.trust.otp := by
  intro t9 h; simp only [execTillerHoldoverSet, done, Host.Outcome.next.injEq] at h; subst h; simp

end Sys2Proof.Machine
end

