-- ==== Sys2Proof/Laws/Keeps16.lean ====
section
/-! SUPPORT. What the functions of SettingsCmds, SheafMsgs keep: the queue and the OTP (R408). -/

namespace Sys2Proof.Machine

set_option maxRecDepth 4000
set_option simprocs false

theorem execTillerHoldoverSetRead_keeps (r : Request) (s : State) :
    ∀ t9, execTillerHoldoverSetRead r s = .next t9 → t9.pending = s.pending ∧ t9.trust.otp = s.trust.otp := by
  intro t9 h; simp only [execTillerHoldoverSetRead, done, Host.Outcome.next.injEq] at h; subst h; simp

theorem execTillerModeSet_keeps (r : Request) (s : State) :
    ∀ t9, execTillerModeSet r s = .next t9 → t9.pending = s.pending ∧ t9.trust.otp = s.trust.otp := by
  intro t9 h; simp only [execTillerModeSet, done, Host.Outcome.next.injEq] at h; subst h; simp

theorem execTillerModeSetRead_keeps (r : Request) (s : State) :
    ∀ t9, execTillerModeSetRead r s = .next t9 → t9.pending = s.pending ∧ t9.trust.otp = s.trust.otp := by
  intro t9 h; simp only [execTillerModeSetRead, done, Host.Outcome.next.injEq] at h; subst h; simp

theorem execTillerTimeSourceSet_keeps (r : Request) (s : State) :
    ∀ t9, execTillerTimeSourceSet r s = .next t9 → t9.pending = s.pending ∧ t9.trust.otp = s.trust.otp := by
  intro t9 h; simp only [execTillerTimeSourceSet, done, Host.Outcome.next.injEq] at h; subst h; simp

theorem execTillerTimeSourceSetRead_keeps (r : Request) (s : State) :
    ∀ t9, execTillerTimeSourceSetRead r s = .next t9 → t9.pending = s.pending ∧ t9.trust.otp = s.trust.otp := by
  intro t9 h; simp only [execTillerTimeSourceSetRead, done, Host.Outcome.next.injEq] at h; subst h; simp

theorem execTillerOutputSet_keeps (r : Request) (s : State) :
    ∀ t9, execTillerOutputSet r s = .next t9 → t9.pending = s.pending ∧ t9.trust.otp = s.trust.otp := by
  intro t9 h; simp only [execTillerOutputSet, done, Host.Outcome.next.injEq] at h; subst h; simp

theorem execTillerOutputSetRead_keeps (r : Request) (s : State) :
    ∀ t9, execTillerOutputSetRead r s = .next t9 → t9.pending = s.pending ∧ t9.trust.otp = s.trust.otp := by
  intro t9 h; simp only [execTillerOutputSetRead, done, Host.Outcome.next.injEq] at h; subst h; simp

theorem execBridgeTableSet_keeps (r : Request) (s : State) :
    ∀ t9, execBridgeTableSet r s = .next t9 → t9.pending = s.pending ∧ t9.trust.otp = s.trust.otp := by
  intro t9 h; simp only [execBridgeTableSet, done, Host.Outcome.next.injEq] at h; subst h; simp

theorem execBridgeTableSetRead_keeps (r : Request) (s : State) :
    ∀ t9, execBridgeTableSetRead r s = .next t9 → t9.pending = s.pending ∧ t9.trust.otp = s.trust.otp := by
  intro t9 h; simp only [execBridgeTableSetRead, done, Host.Outcome.next.injEq] at h; subst h; simp

theorem execBridgeLearnSet_keeps (r : Request) (s : State) :
    ∀ t9, execBridgeLearnSet r s = .next t9 → t9.pending = s.pending ∧ t9.trust.otp = s.trust.otp := by
  intro t9 h; simp only [execBridgeLearnSet, done, Host.Outcome.next.injEq] at h; subst h; simp

theorem execBridgeLearnSetRead_keeps (r : Request) (s : State) :
    ∀ t9, execBridgeLearnSetRead r s = .next t9 → t9.pending = s.pending ∧ t9.trust.otp = s.trust.otp := by
  intro t9 h; simp only [execBridgeLearnSetRead, done, Host.Outcome.next.injEq] at h; subst h; simp

theorem execBridgeAgeingSet_keeps (r : Request) (s : State) :
    ∀ t9, execBridgeAgeingSet r s = .next t9 → t9.pending = s.pending ∧ t9.trust.otp = s.trust.otp := by
  intro t9 h; simp only [execBridgeAgeingSet, done, Host.Outcome.next.injEq] at h; subst h; simp

theorem execBridgeAgeingSetRead_keeps (r : Request) (s : State) :
    ∀ t9, execBridgeAgeingSetRead r s = .next t9 → t9.pending = s.pending ∧ t9.trust.otp = s.trust.otp := by
  intro t9 h; simp only [execBridgeAgeingSetRead, done, Host.Outcome.next.injEq] at h; subst h; simp

theorem execRouteOptionsSet_keeps (r : Request) (s : State) :
    ∀ t9, execRouteOptionsSet r s = .next t9 → t9.pending = s.pending ∧ t9.trust.otp = s.trust.otp := by
  intro t9 h; simp only [execRouteOptionsSet, done, Host.Outcome.next.injEq] at h; subst h; simp

theorem execRouteOptionsSetRead_keeps (r : Request) (s : State) :
    ∀ t9, execRouteOptionsSetRead r s = .next t9 → t9.pending = s.pending ∧ t9.trust.otp = s.trust.otp := by
  intro t9 h; simp only [execRouteOptionsSetRead, done, Host.Outcome.next.injEq] at h; subst h; simp

theorem execAggregationSet_keeps (r : Request) (s : State) :
    ∀ t9, execAggregationSet r s = .next t9 → t9.pending = s.pending ∧ t9.trust.otp = s.trust.otp := by
  intro t9 h; simp only [execAggregationSet, done, Host.Outcome.next.injEq] at h; subst h; simp

theorem execAggregationSetRead_keeps (r : Request) (s : State) :
    ∀ t9, execAggregationSetRead r s = .next t9 → t9.pending = s.pending ∧ t9.trust.otp = s.trust.otp := by
  intro t9 h; simp only [execAggregationSetRead, done, Host.Outcome.next.injEq] at h; subst h; simp

theorem execMatchArraySet_keeps (r : Request) (s : State) :
    ∀ t9, execMatchArraySet r s = .next t9 → t9.pending = s.pending ∧ t9.trust.otp = s.trust.otp := by
  intro t9 h; simp only [execMatchArraySet, done, Host.Outcome.next.injEq] at h; subst h; simp

theorem execMatchArraySetRead_keeps (r : Request) (s : State) :
    ∀ t9, execMatchArraySetRead r s = .next t9 → t9.pending = s.pending ∧ t9.trust.otp = s.trust.otp := by
  intro t9 h; simp only [execMatchArraySetRead, done, Host.Outcome.next.injEq] at h; subst h; simp

theorem execFlowAgeingSet_keeps (r : Request) (s : State) :
    ∀ t9, execFlowAgeingSet r s = .next t9 → t9.pending = s.pending ∧ t9.trust.otp = s.trust.otp := by
  intro t9 h; simp only [execFlowAgeingSet, done, Host.Outcome.next.injEq] at h; subst h; simp

theorem execFlowAgeingSetRead_keeps (r : Request) (s : State) :
    ∀ t9, execFlowAgeingSetRead r s = .next t9 → t9.pending = s.pending ∧ t9.trust.otp = s.trust.otp := by
  intro t9 h; simp only [execFlowAgeingSetRead, done, Host.Outcome.next.injEq] at h; subst h; simp

theorem execFlowTableSet_keeps (r : Request) (s : State) :
    ∀ t9, execFlowTableSet r s = .next t9 → t9.pending = s.pending ∧ t9.trust.otp = s.trust.otp := by
  intro t9 h; simp only [execFlowTableSet, done, Host.Outcome.next.injEq] at h; subst h; simp

theorem execFlowTableSetRead_keeps (r : Request) (s : State) :
    ∀ t9, execFlowTableSetRead r s = .next t9 → t9.pending = s.pending ∧ t9.trust.otp = s.trust.otp := by
  intro t9 h; simp only [execFlowTableSetRead, done, Host.Outcome.next.injEq] at h; subst h; simp

theorem execExportSet_keeps (r : Request) (s : State) :
    ∀ t9, execExportSet r s = .next t9 → t9.pending = s.pending ∧ t9.trust.otp = s.trust.otp := by
  intro t9 h; simp only [execExportSet, done, Host.Outcome.next.injEq] at h; subst h; simp

theorem execExportSetRead_keeps (r : Request) (s : State) :
    ∀ t9, execExportSetRead r s = .next t9 → t9.pending = s.pending ∧ t9.trust.otp = s.trust.otp := by
  intro t9 h; simp only [execExportSetRead, done, Host.Outcome.next.injEq] at h; subst h; simp

theorem execGateIntakeSet_keeps (r : Request) (s : State) :
    ∀ t9, execGateIntakeSet r s = .next t9 → t9.pending = s.pending ∧ t9.trust.otp = s.trust.otp := by
  intro t9 h; simp only [execGateIntakeSet, done, Host.Outcome.next.injEq] at h; subst h; simp

theorem execGateIntakeSetRead_keeps (r : Request) (s : State) :
    ∀ t9, execGateIntakeSetRead r s = .next t9 → t9.pending = s.pending ∧ t9.trust.otp = s.trust.otp := by
  intro t9 h; simp only [execGateIntakeSetRead, done, Host.Outcome.next.injEq] at h; subst h; simp

theorem execGateOptionsSet_keeps (r : Request) (s : State) :
    ∀ t9, execGateOptionsSet r s = .next t9 → t9.pending = s.pending ∧ t9.trust.otp = s.trust.otp := by
  intro t9 h; simp only [execGateOptionsSet, done, Host.Outcome.next.injEq] at h; subst h; simp

theorem execGateOptionsSetRead_keeps (r : Request) (s : State) :
    ∀ t9, execGateOptionsSetRead r s = .next t9 → t9.pending = s.pending ∧ t9.trust.otp = s.trust.otp := by
  intro t9 h; simp only [execGateOptionsSetRead, done, Host.Outcome.next.injEq] at h; subst h; simp

theorem execLedgerOptionsSet_keeps (r : Request) (s : State) :
    ∀ t9, execLedgerOptionsSet r s = .next t9 → t9.pending = s.pending ∧ t9.trust.otp = s.trust.otp := by
  intro t9 h; simp only [execLedgerOptionsSet, done, Host.Outcome.next.injEq] at h; subst h; simp

theorem execLedgerOptionsSetRead_keeps (r : Request) (s : State) :
    ∀ t9, execLedgerOptionsSetRead r s = .next t9 → t9.pending = s.pending ∧ t9.trust.otp = s.trust.otp := by
  intro t9 h; simp only [execLedgerOptionsSetRead, done, Host.Outcome.next.injEq] at h; subst h; simp

theorem execBaleOptionsSet_keeps (r : Request) (s : State) :
    ∀ t9, execBaleOptionsSet r s = .next t9 → t9.pending = s.pending ∧ t9.trust.otp = s.trust.otp := by
  intro t9 h; simp only [execBaleOptionsSet, done, Host.Outcome.next.injEq] at h; subst h; simp

theorem execBaleOptionsSetRead_keeps (r : Request) (s : State) :
    ∀ t9, execBaleOptionsSetRead r s = .next t9 → t9.pending = s.pending ∧ t9.trust.otp = s.trust.otp := by
  intro t9 h; simp only [execBaleOptionsSetRead, done, Host.Outcome.next.injEq] at h; subst h; simp

theorem execMemorySchedulerSet_keeps (r : Request) (s : State) :
    ∀ t9, execMemorySchedulerSet r s = .next t9 → t9.pending = s.pending ∧ t9.trust.otp = s.trust.otp := by
  intro t9 h; simp only [execMemorySchedulerSet, done, Host.Outcome.next.injEq] at h; subst h; simp

theorem execMemorySchedulerSetRead_keeps (r : Request) (s : State) :
    ∀ t9, execMemorySchedulerSetRead r s = .next t9 → t9.pending = s.pending ∧ t9.trust.otp = s.trust.otp := by
  intro t9 h; simp only [execMemorySchedulerSetRead, done, Host.Outcome.next.injEq] at h; subst h; simp

theorem execMemoryRetrainSet_keeps (r : Request) (s : State) :
    ∀ t9, execMemoryRetrainSet r s = .next t9 → t9.pending = s.pending ∧ t9.trust.otp = s.trust.otp := by
  intro t9 h; simp only [execMemoryRetrainSet, done, Host.Outcome.next.injEq] at h; subst h; simp

theorem execMemoryRetrainSetRead_keeps (r : Request) (s : State) :
    ∀ t9, execMemoryRetrainSetRead r s = .next t9 → t9.pending = s.pending ∧ t9.trust.otp = s.trust.otp := by
  intro t9 h; simp only [execMemoryRetrainSetRead, done, Host.Outcome.next.injEq] at h; subst h; simp

theorem execRetrainUnitNow_keeps (r : Request) (s : State) :
    ∀ t9, execRetrainUnitNow r s = .next t9 → t9.pending = s.pending ∧ t9.trust.otp = s.trust.otp := by
  intro t9 h; simp only [execRetrainUnitNow, done, Host.Outcome.next.injEq] at h; subst h; simp

theorem execMemoryScrubSet_keeps (r : Request) (s : State) :
    ∀ t9, execMemoryScrubSet r s = .next t9 → t9.pending = s.pending ∧ t9.trust.otp = s.trust.otp := by
  intro t9 h; simp only [execMemoryScrubSet, done, Host.Outcome.next.injEq] at h; subst h; simp

theorem execMemoryScrubSetRead_keeps (r : Request) (s : State) :
    ∀ t9, execMemoryScrubSetRead r s = .next t9 → t9.pending = s.pending ∧ t9.trust.otp = s.trust.otp := by
  intro t9 h; simp only [execMemoryScrubSetRead, done, Host.Outcome.next.injEq] at h; subst h; simp

theorem execGranaryRegionSet_keeps (r : Request) (s : State) :
    ∀ t9, execGranaryRegionSet r s = .next t9 → t9.pending = s.pending ∧ t9.trust.otp = s.trust.otp := by
  intro t9 h; simp only [execGranaryRegionSet, done, Host.Outcome.next.injEq] at h; subst h; simp

theorem execGranaryRegionSetRead_keeps (r : Request) (s : State) :
    ∀ t9, execGranaryRegionSetRead r s = .next t9 → t9.pending = s.pending ∧ t9.trust.otp = s.trust.otp := by
  intro t9 h; simp only [execGranaryRegionSetRead, done, Host.Outcome.next.injEq] at h; subst h; simp

theorem execMemoryRetire_keeps (r : Request) (s : State) :
    ∀ t9, execMemoryRetire r s = .next t9 → t9.pending = s.pending ∧ t9.trust.otp = s.trust.otp := by
  intro t9 h; simp only [execMemoryRetire, done, Host.Outcome.next.injEq] at h; subst h; simp

theorem execSheafPairSet_keeps (r : Request) (s : State) :
    ∀ t9, execSheafPairSet r s = .next t9 → t9.pending = s.pending ∧ t9.trust.otp = s.trust.otp := by
  intro t9 h; simp only [execSheafPairSet, done, Host.Outcome.next.injEq] at h; subst h; simp

theorem execSheafPairSetRead_keeps (r : Request) (s : State) :
    ∀ t9, execSheafPairSetRead r s = .next t9 → t9.pending = s.pending ∧ t9.trust.otp = s.trust.otp := by
  intro t9 h; simp only [execSheafPairSetRead, done, Host.Outcome.next.injEq] at h; subst h; simp

theorem execSheafLaneSet_keeps (r : Request) (s : State) :
    ∀ t9, execSheafLaneSet r s = .next t9 → t9.pending = s.pending ∧ t9.trust.otp = s.trust.otp := by
  intro t9 h; simp only [execSheafLaneSet, done, Host.Outcome.next.injEq] at h; subst h; simp

theorem execSheafLaneSetRead_keeps (r : Request) (s : State) :
    ∀ t9, execSheafLaneSetRead r s = .next t9 → t9.pending = s.pending ∧ t9.trust.otp = s.trust.otp := by
  intro t9 h; simp only [execSheafLaneSetRead, done, Host.Outcome.next.injEq] at h; subst h; simp

theorem execSheafPowerSet_keeps (r : Request) (s : State) :
    ∀ t9, execSheafPowerSet r s = .next t9 → t9.pending = s.pending ∧ t9.trust.otp = s.trust.otp := by
  intro t9 h; simp only [execSheafPowerSet, done, Host.Outcome.next.injEq] at h; subst h; simp

theorem execSheafPowerSetRead_keeps (r : Request) (s : State) :
    ∀ t9, execSheafPowerSetRead r s = .next t9 → t9.pending = s.pending ∧ t9.trust.otp = s.trust.otp := by
  intro t9 h; simp only [execSheafPowerSetRead, done, Host.Outcome.next.injEq] at h; subst h; simp

theorem execChaffSet_keeps (r : Request) (s : State) :
    ∀ t9, execChaffSet r s = .next t9 → t9.pending = s.pending ∧ t9.trust.otp = s.trust.otp := by
  intro t9 h; simp only [execChaffSet, done, Host.Outcome.next.injEq] at h; subst h; simp

theorem execChaffSetRead_keeps (r : Request) (s : State) :
    ∀ t9, execChaffSetRead r s = .next t9 → t9.pending = s.pending ∧ t9.trust.otp = s.trust.otp := by
  intro t9 h; simp only [execChaffSetRead, done, Host.Outcome.next.injEq] at h; subst h; simp

theorem execStrawSet_keeps (r : Request) (s : State) :
    ∀ t9, execStrawSet r s = .next t9 → t9.pending = s.pending ∧ t9.trust.otp = s.trust.otp := by
  intro t9 h; simp only [execStrawSet, done, Host.Outcome.next.injEq] at h; subst h; simp

theorem execStrawSetRead_keeps (r : Request) (s : State) :
    ∀ t9, execStrawSetRead r s = .next t9 → t9.pending = s.pending ∧ t9.trust.otp = s.trust.otp := by
  intro t9 h; simp only [execStrawSetRead, done, Host.Outcome.next.injEq] at h; subst h; simp

theorem execCounterSamplingSet_keeps (r : Request) (s : State) :
    ∀ t9, execCounterSamplingSet r s = .next t9 → t9.pending = s.pending ∧ t9.trust.otp = s.trust.otp := by
  intro t9 h; simp only [execCounterSamplingSet, done, Host.Outcome.next.injEq] at h; subst h; simp

theorem execCounterSamplingSetRead_keeps (r : Request) (s : State) :
    ∀ t9, execCounterSamplingSetRead r s = .next t9 → t9.pending = s.pending ∧ t9.trust.otp = s.trust.otp := by
  intro t9 h; simp only [execCounterSamplingSetRead, done, Host.Outcome.next.injEq] at h; subst h; simp

theorem execSagPortSet_keeps (r : Request) (s : State) :
    ∀ t9, execSagPortSet r s = .next t9 → t9.pending = s.pending ∧ t9.trust.otp = s.trust.otp := by
  intro t9 h; simp only [execSagPortSet, done, Host.Outcome.next.injEq] at h; subst h; simp

theorem execSagPortSetRead_keeps (r : Request) (s : State) :
    ∀ t9, execSagPortSetRead r s = .next t9 → t9.pending = s.pending ∧ t9.trust.otp = s.trust.otp := by
  intro t9 h; simp only [execSagPortSetRead, done, Host.Outcome.next.injEq] at h; subst h; simp

theorem execSagOptionsSet_keeps (r : Request) (s : State) :
    ∀ t9, execSagOptionsSet r s = .next t9 → t9.pending = s.pending ∧ t9.trust.otp = s.trust.otp := by
  intro t9 h; simp only [execSagOptionsSet, done, Host.Outcome.next.injEq] at h; subst h; simp

theorem execSagOptionsSetRead_keeps (r : Request) (s : State) :
    ∀ t9, execSagOptionsSetRead r s = .next t9 → t9.pending = s.pending ∧ t9.trust.otp = s.trust.otp := by
  intro t9 h; simp only [execSagOptionsSetRead, done, Host.Outcome.next.injEq] at h; subst h; simp

theorem execCommandedTestLevel_keeps (r : Request) (s : State) :
    ∀ t9, execCommandedTestLevel r s = .next t9 → t9.pending = s.pending ∧ t9.trust.otp = s.trust.otp := by
  intro t9 h; simp only [execCommandedTestLevel, done, Host.Outcome.next.injEq] at h; subst h; simp

@[simp] theorem State.takeReservation_keeps (s : State) (key seq : Nat) :
    (State.takeReservation s key seq).pending = s.pending ∧ (State.takeReservation s key seq).trust.otp = s.trust.otp := by
  unfold State.takeReservation; (repeat' split) <;> simp

@[simp] theorem State.takeCopy_keeps (s : State) (body : Bytes) (st : Nat) :
    (State.takeCopy s body st).pending = s.pending ∧ (State.takeCopy s body st).trust.otp = s.trust.otp := by
  unfold State.takeCopy; (repeat' split) <;> simp

@[simp] theorem State.useEntry_keeps (s : State) (i : Nat) (e : PermitEntry) (n : Nat) (pending : Bool) :
    (State.useEntry s i e n pending).pending = s.pending ∧ (State.useEntry s i e n pending).trust.otp = s.trust.otp := by
  simp [State.useEntry]

@[simp] theorem State.takeConsumption_keeps (s : State) (key seq uses : Nat) :
    (State.takeConsumption s key seq uses).pending = s.pending ∧ (State.takeConsumption s key seq uses).trust.otp = s.trust.otp := by
  unfold State.takeConsumption; (repeat' split) <;> simp

@[simp] theorem State.takeAck_keeps (s : State) (key seq : Nat) :
    (State.takeAck s key seq).pending = s.pending ∧ (State.takeAck s key seq).trust.otp = s.trust.otp := by
  unfold State.takeAck; dsimp only; (repeat' split) <;> simp_all

@[simp] theorem State.pruneEntry_keeps (s : State) (x : Nat × PermitEntry) :
    (State.pruneEntry s x).pending = s.pending ∧ (State.pruneEntry s x).trust.otp = s.trust.otp := by
  simp [State.pruneEntry]

@[simp] theorem State.takeWindows_keeps (s : State) (ws : List WindowState) :
    (State.takeWindows s ws).pending = s.pending ∧ (State.takeWindows s ws).trust.otp = s.trust.otp := by
  simp [State.takeWindows]

@[simp] theorem State.markBlock_keeps (s : State) (c : Checkpoint) :
    (State.markBlock s c).pending = s.pending ∧ (State.markBlock s c).trust.otp = s.trust.otp := by
  unfold State.markBlock; (repeat' split) <;> simp

@[simp] theorem State.takeCheckpoint_keeps (s : State) (c : Checkpoint) :
    (State.takeCheckpoint s c).pending = s.pending ∧ (State.takeCheckpoint s c).trust.otp = s.trust.otp := by
  simp [State.takeCheckpoint]

@[simp] theorem State.takeGuolo_keeps (s : State) (m : Bytes) :
    (State.takeGuolo s m).pending = s.pending ∧ (State.takeGuolo s m).trust.otp = s.trust.otp := by
  simp [State.takeGuolo]

@[simp] theorem State.takeDelay_keeps (s : State) (n t1 t2 t3 t4 : Nat) :
    (State.takeDelay s n t1 t2 t3 t4).pending = s.pending ∧ (State.takeDelay s n t1 t2 t3 t4).trust.otp = s.trust.otp := by
  simp [State.takeDelay]

@[simp] theorem State.applyMsg_keeps (s : State) (m : Msg) :
    (State.applyMsg s m).pending = s.pending ∧ (State.applyMsg s m).trust.otp = s.trust.otp := by
  unfold State.applyMsg; (repeat' split) <;> simp

end Sys2Proof.Machine
end

