-- ==== Sys2Proof/Laws/Keeps17.lean ====
section
/-! SUPPORT. What the functions of SheafMsgs, Transmit, TrustCmds, Clock keep: the queue and the OTP (R408). -/

namespace Sys2Proof.Machine

set_option maxRecDepth 4000
set_option simprocs false

@[simp] theorem applyEarly_keeps (n : Nat) (s : State) :
    (State.applyEarly n s).pending = s.pending ∧ (State.applyEarly n s).trust.otp = s.trust.otp := by
  induction n generalizing s with
  | zero => simp [State.applyEarly]
  | succ n ih =>
    simp only [State.applyEarly]
    split
    · simp
    · simp [ih]

@[simp] theorem State.overPair_keeps (s : State) :
    (State.overPair s).2.pending = s.pending ∧ (State.overPair s).2.trust.otp = s.trust.otp := by
  simp [State.overPair]

@[simp] theorem State.takeMsg_keeps (s : State) (num : Nat) (m : Msg) :
    (State.takeMsg s num m).pending = s.pending ∧ (State.takeMsg s num m).trust.otp = s.trust.otp := by
  simp [State.takeMsg]

@[simp] theorem State.receive_keeps (s : State) (num : Nat) (m : Msg) :
    (State.receive s num m).pending = s.pending ∧ (State.receive s num m).trust.otp = s.trust.otp := by
  unfold State.receive; (repeat' split) <;> simp

theorem execReservation_keeps (msg key seq : Nat) (s : State) :
    ∀ t9, execReservation msg key seq s = .next t9 → t9.pending = s.pending ∧ t9.trust.otp = s.trust.otp := by
  intro t9 h; simp only [execReservation, done, Host.Outcome.next.injEq] at h; subst h; simp

theorem execReservationResult_keeps (msg key seq : Nat) (granted : Bool) (s : State) :
    ∀ t9, execReservationResult msg key seq granted s = .next t9 → t9.pending = s.pending ∧ t9.trust.otp = s.trust.otp := by
  intro t9 h; simp only [execReservationResult, done, Host.Outcome.next.injEq] at h; subst h; simp

theorem execPermitCopy_keeps (msg : Nat) (body : Bytes) (st : Nat) (s : State) :
    ∀ t9, execPermitCopy msg body st s = .next t9 → t9.pending = s.pending ∧ t9.trust.otp = s.trust.otp := by
  intro t9 h; simp only [execPermitCopy, done, Host.Outcome.next.injEq] at h; subst h; simp

theorem execConsumption_keeps (msg key seq uses : Nat) (s : State) :
    ∀ t9, execConsumption msg key seq uses s = .next t9 → t9.pending = s.pending ∧ t9.trust.otp = s.trust.otp := by
  intro t9 h; simp only [execConsumption, done, Host.Outcome.next.injEq] at h; subst h; simp

theorem execConsumptionAcknowledge_keeps (msg key seq : Nat) (s : State) :
    ∀ t9, execConsumptionAcknowledge msg key seq s = .next t9 → t9.pending = s.pending ∧ t9.trust.otp = s.trust.otp := by
  intro t9 h; simp only [execConsumptionAcknowledge, done, Host.Outcome.next.injEq] at h; subst h; simp

theorem execWindowMerge_keeps (msg : Nat) (ws : List WindowState) (s : State) :
    ∀ t9, execWindowMerge msg ws s = .next t9 → t9.pending = s.pending ∧ t9.trust.otp = s.trust.otp := by
  intro t9 h; simp only [execWindowMerge, done, Host.Outcome.next.injEq] at h; subst h; simp

theorem execTranslationCheckpoint_keeps (msg : Nat) (x : Checkpoint) (s : State) :
    ∀ t9, execTranslationCheckpoint msg x s = .next t9 → t9.pending = s.pending ∧ t9.trust.otp = s.trust.otp := by
  intro t9 h; simp only [execTranslationCheckpoint, done, Host.Outcome.next.injEq] at h; subst h; simp

theorem execSheafGuoloMessage_keeps (msg : Nat) (m : Bytes) (s : State) :
    ∀ t9, execSheafGuoloMessage msg m s = .next t9 → t9.pending = s.pending ∧ t9.trust.otp = s.trust.otp := by
  intro t9 h; simp only [execSheafGuoloMessage, done, Host.Outcome.next.injEq] at h; subst h; simp

theorem execResyncDone_keeps (msg count : Nat) (s : State) :
    ∀ t9, execResyncDone msg count s = .next t9 → t9.pending = s.pending ∧ t9.trust.otp = s.trust.otp := by
  intro t9 h; simp only [execResyncDone, done, Host.Outcome.next.injEq] at h; subst h; simp

theorem execDelayExchangeSend_keeps (n : LinkId) (s : State) :
    ∀ t9, execDelayExchangeSend n s = .next t9 → t9.pending = s.pending ∧ t9.trust.otp = s.trust.otp := by
  intro t9 h; unfold execDelayExchangeSend at h; simp only [done] at h; (repeat' split at h) <;> (cases h; simp)

theorem execDelayExchange_keeps (n : LinkId) (x : DelayBody) (s : State) :
    ∀ t9, execDelayExchange n x s = .next t9 → t9.pending = s.pending ∧ t9.trust.otp = s.trust.otp := by
  intro t9 h; unfold execDelayExchange at h; simp only [done] at h; (repeat' split at h) <;> (cases h; simp)

theorem execCheckpointSend_keeps (s : State) :
    ∀ t9, execCheckpointSend s = .next t9 → t9.pending = s.pending ∧ t9.trust.otp = s.trust.otp := by
  intro t9 h; unfold execCheckpointSend at h; simp only [done] at h; (repeat' split at h) <;> (cases h; simp)

theorem execMessageResendTimeout_keeps (msg : Nat) (s : State) :
    ∀ t9, execMessageResendTimeout msg s = .next t9 → t9.pending = s.pending ∧ t9.trust.otp = s.trust.otp := by
  intro t9 h; unfold execMessageResendTimeout at h; simp only [done] at h; (repeat' split at h) <;> (cases h; simp)

@[simp] theorem State.putFrame_keeps (s : State) (p : PortId) (x : Packet) (f : Bytes) (corrupt : Bool) :
    (State.putFrame s p x f corrupt).pending = s.pending ∧ (State.putFrame s p x f corrupt).trust.otp = s.trust.otp := by
  unfold State.putFrame; dsimp only; split <;> split <;> simp

@[simp] theorem State.countSent_keeps (s : State) (p : PortId) (c : Copy) (len : Nat) :
    (State.countSent s p c len).pending = s.pending ∧ (State.countSent s p c len).trust.otp = s.trust.otp := by
  simp [State.countSent]

theorem execTransmitDone_keeps (p : PortId) (corrupt : Bool) (s : State) :
    ∀ t9, execTransmitDone p corrupt s = .next t9 → t9.pending = s.pending ∧ t9.trust.otp = s.trust.otp := by
  intro t9
  unfold execTransmitDone
  (repeat' split) <;> exact next_keeps (by simp)

theorem execResidueTimerExpiry_keeps (n : Nat) (s : State) :
    ∀ t9, execResidueTimerExpiry n s = .next t9 → t9.pending = s.pending ∧ t9.trust.otp = s.trust.otp := by
  intro t9 h; unfold execResidueTimerExpiry at h; simp only [done] at h; (repeat' split at h) <;> (cases h; simp)

@[simp] theorem State.auditPool_keeps (s : State) (i : Nat) :
    (State.auditPool s i).pending = s.pending ∧ (State.auditPool s i).trust.otp = s.trust.otp := by
  simp only [State.auditPool]; split <;> simp

theorem execBufferAudit_keeps (s : State) :
    ∀ t9, execBufferAudit s = .next t9 → t9.pending = s.pending ∧ t9.trust.otp = s.trust.otp := by
  intro t9 h; unfold execBufferAudit at h; split at h
  · injection h with h; subst h; simp
  · injection h with h; subst h
    have hf := foldl_keeps State.auditPool (List.range 6) s (by intro s x; exact State.auditPool_keeps s x)
    split <;> simp [hf]

theorem execGateBankRelease_keeps (p : PortId) (s : State) :
    ∀ t9, execGateBankRelease p s = .next t9 → t9.pending = s.pending ∧ t9.trust.otp = s.trust.otp := by
  intro t9 h; unfold execGateBankRelease at h; simp only [done] at h; (repeat' split at h) <;> (cases h; simp)

@[simp] theorem State.bufferError_keeps (s : State) (k row loc : Nat) :
    (State.bufferError s k row loc).pending = s.pending ∧ (State.bufferError s k row loc).trust.otp = s.trust.otp := by
  simp [State.bufferError]

@[simp] theorem State.loseDescriptor_keeps (s : State) (n : Nat) :
    (State.loseDescriptor s n).pending = s.pending ∧ (State.loseDescriptor s n).trust.otp = s.trust.otp := by
  unfold State.loseDescriptor; (repeat' split) <;> simp

@[simp] theorem State.zeroSched_keeps (s : State) (p c : Nat) (v : SchedValue) :
    (State.zeroSched s p c v).pending = s.pending ∧ (State.zeroSched s p c v).trust.otp = s.trust.otp := by
  unfold State.zeroSched; (repeat' split) <;> simp

theorem execOnDieSramScrub_keeps (e : SramError) (s : State) :
    ∀ t9, execOnDieSramScrub e s = .next t9 → t9.pending = s.pending ∧ t9.trust.otp = s.trust.otp := by
  intro t9 h; unfold execOnDieSramScrub at h; dsimp only at h; (repeat' split at h) <;> (simp only [done, Host.Outcome.next.injEq] at h; subst h; simp_all)

theorem execAttestationQuote_keeps (r : Request) (s : State) :
    ∀ t9, execAttestationQuote r s = .next t9 → t9.pending = s.pending ∧ t9.trust.otp = s.trust.otp := by
  intro t9 h; unfold execAttestationQuote at h; simp only [done] at h; (repeat' split at h) <;> (cases h; simp)

theorem importAction_keeps (mb key : Nat) (p : List Instr) (o : Otp) (x : (Nat × Nat × Bytes) × Nat)
    (acc : Except (Nat × Nat) (Bale × State)) (h : ∀ y, acc = .ok y → y.2.pending = p ∧ y.2.trust.otp = o) :
    ∀ y, importAction mb key acc x = .ok y → y.2.pending = p ∧ y.2.trust.otp = o := by
  intro y e
  unfold importAction at e
  split at e
  · cases e
  · have h1 := h _ rfl
    dsimp only at e
    split at e
    · cases e
    · rename_i hk
      have hc := State.checkAction_keeps _ _ _ _ hk
      injection e with e; subst e
      simp_all

theorem importFold_keeps (mb key : Nat) (p : List Instr) (o : Otp) (l : List ((Nat × Nat × Bytes) × Nat))
    (acc : Except (Nat × Nat) (Bale × State)) (h : ∀ y, acc = .ok y → y.2.pending = p ∧ y.2.trust.otp = o) :
    ∀ y, l.foldl (importAction mb key) acc = .ok y → y.2.pending = p ∧ y.2.trust.otp = o := by
  induction l generalizing acc with
  | nil => exact h
  | cons x l ih => exact ih _ (importAction_keeps mb key p o x acc h)

@[simp] theorem State.importBale_keeps (s : State) (mb key : Nat) (acts : List (Nat × Nat × Bytes)) :
    (State.importBale s mb key acts).2.pending = s.pending ∧ (State.importBale s mb key acts).2.trust.otp = s.trust.otp := by
  unfold State.importBale
  dsimp only
  split
  · simp
  · rename_i b s1 e
    have h := importFold_keeps mb key s.pending s.trust.otp _ _ (by intro y hy; injection hy with hy; subst hy; simp) _ e
    simp only [Prod.fst, Prod.snd] at h
    split
    · simp
    · refine ⟨?_, ?_⟩
      · rw [(State.runTick_keeps _ _ _).1, (State.arm_keeps _ _ _).1]; exact h.1
      · rw [(State.runTick_keeps _ _ _).2, (State.arm_keeps _ _ _).2]; exact h.2

@[simp] theorem State.rtcRun_keeps (s : State) (until_ : Nat) :
    (State.rtcRun s until_).pending = s.pending ∧ (State.rtcRun s until_).trust.otp = s.trust.otp := by
  simp [State.rtcRun]

@[simp] theorem State.pmuClock_keeps (s : State) :
    (State.pmuClock s).pending = s.pending ∧ (State.pmuClock s).trust.otp = s.trust.otp := by
  simp [State.pmuClock]

@[simp] theorem State.countClock_keeps (s : State) :
    (State.countClock s).pending = s.pending ∧ (State.countClock s).trust.otp = s.trust.otp := by
  simp [State.countClock]

@[simp] theorem State.coreClock_keeps (s : State) :
    (State.coreClock s).pending = s.pending ∧ (State.coreClock s).trust.otp = s.trust.otp := by
  simp [State.coreClock]

end Sys2Proof.Machine
end

