-- ==== Sys2Proof/Laws/Otp.lean ====
section
/-! SUPPORT. The commands that write OTP: each leaves the queue as it is, keeps OTP laid out as Table 18-1 has it and clears nothing
(R408). -/

namespace Sys2Proof.Machine

/-- What a command may make of OTP. -/
def OtpStep (a b : Otp) : Prop := OtpOk a → OtpOk b ∧ OtpGrows a b

theorem OtpGrows.refl (a : Otp) : OtpGrows a a := ⟨fun _ h => h, fun _ => Nat.le_refl _, Nat.le_refl _, ⟨[], by simp⟩, id, id⟩
theorem OtpGrows.trans {a b c : Otp} (h : OtpGrows a b) (k : OtpGrows b c) : OtpGrows a c := by
  obtain ⟨h1, h2, h3, ⟨x, h4⟩, h5, h6⟩ := h
  obtain ⟨k1, k2, k3, ⟨y, k4⟩, k5, k6⟩ := k
  exact ⟨fun i e => k1 i (h1 i e), fun i => (h2 i).trans (k2 i), h3.trans k3, ⟨x ++ y, by rw [k4, h4, List.append_assoc]⟩, k5 ∘ h5, k6 ∘ h6⟩
theorem OtpStep.refl (a : Otp) : OtpStep a a := fun h => ⟨h, OtpGrows.refl a⟩
theorem OtpStep.of_eq {a b : Otp} (h : b = a) : OtpStep a b := h ▸ OtpStep.refl a
theorem OtpStep.trans {a b c : Otp} (h : OtpStep a b) (k : OtpStep b c) : OtpStep a c :=
  fun o => ⟨(k (h o).1).1, (h o).2.trans (k (h o).1).2⟩

theorem slice_length (bs : Bytes) (off len : Nat) : (slice bs off len).length = len := by simp [slice]
theorem leAt_one (bs : Bytes) (off : Nat) : leAt bs off 1 ≤ 255 := by
  have := (bs.getD off 0).isLt
  simp only [leAt, slice, List.range_one, List.map_cons, List.map_nil, leNat, Nat.add_zero, Nat.mul_zero]
  omega

/-- Rows join the store. -/
theorem State.writeRows_grows (s : State) (rows : List (Nat × Option Bytes))
    (hl : s.trust.otp.rows.length + rows.length ≤ 260) (hr : ∀ x ∈ rows, x.1 < 4 ∧ ∀ k, x.2 = some k → k.length = 32)
    (ho : s.trust.otp.owned = true) : OtpStep s.trust.otp (s.writeRows rows).trust.otp := by
  rintro ⟨h1, h2, h3, h4, h5, h6, h7⟩
  refine ⟨⟨h1, h2, h3, h4, ?_, ?_, ?_⟩, ⟨fun _ h => h, fun _ => Nat.le_refl _, Nat.le_refl _, ⟨_, rfl⟩, id, id⟩⟩
  · simpa [State.writeRows] using hl
  · intro x hx
    rcases List.mem_append.mp hx with hx | hx
    · exact h6 x hx
    · obtain ⟨y, hy, rfl⟩ := List.mem_map.mp hx
      refine ⟨(hr y hy).1, ?_⟩
      cases e : y.2 with
      | none => simp
      | some k => simpa using (hr y hy).2 k e
  · intro h; simp only [State.writeRows] at h; rw [ho] at h; cases h

/-- A counter of Table 18-7 rises. -/
theorem State.setRollback_grows (s : State) (k v : Nat) (hv : v ≤ 255) (hk : s.rollback k ≤ v) :
    OtpStep s.trust.otp (s.setRollback k v).trust.otp := by
  rintro ⟨h1, h2, h3, h4, h5, h6, h7⟩
  unfold State.rollback at hk
  generalize hr : s.trust.otp.rollback = r at *
  match r, h2, hr with
  | [a, b, c, d], _, hr =>
    have ha := h3 a (by simp); have hb := h3 b (by simp); have hc := h3 c (by simp); have hd := h3 d (by simp)
    have e : (s.setRollback k v).trust.otp = { s.trust.otp with rollback :=
        [if 0 = k then v else a, if 1 = k then v else b, if 2 = k then v else c, if 3 = k then v else d] } := by
      have m (x : Nat) (hx : x ≤ 255) : x % 256 = x := Nat.mod_eq_of_lt (by omega)
      simp [State.setRollback, hr, padTo, List.range_succ, m a ha, m b hb, m c hc, m d hd]
    rw [e]
    have hk0 : k = 0 → a ≤ v := by rintro rfl; simpa using hk
    have hk1 : k = 1 → b ≤ v := by rintro rfl; simpa using hk
    have hk2 : k = 2 → c ≤ v := by rintro rfl; simpa using hk
    have hk3 : k = 3 → d ≤ v := by rintro rfl; simpa using hk
    refine ⟨⟨h1, rfl, ?_, h4, h5, h6, h7⟩, ⟨fun _ h => h, ?_, Nat.le_refl _, ⟨[], by simp⟩, id, id⟩⟩
    · simp only [List.forall_mem_cons, List.not_mem_nil, false_implies, implies_true, and_true]
      refine ⟨?_, ?_, ?_, ?_⟩ <;> split <;> omega
    · rw [hr]
      intro i
      match i with
      | 0 => simp only [List.getD_cons_zero]; split <;> omega
      | 1 => simp only [List.getD_cons_zero, List.getD_cons_succ]; split <;> omega
      | 2 => simp only [List.getD_cons_zero, List.getD_cons_succ]; split <;> omega
      | 3 => simp only [List.getD_cons_zero, List.getD_cons_succ]; split <;> omega
      | n + 4 => simp

/-- What the two leave of OTP besides. -/
@[simp] theorem State.writeRows_frame (s : State) (rows : List (Nat × Option Bytes)) :
    (s.writeRows rows).pending = s.pending ∧ (s.writeRows rows).trust.otp.owned = s.trust.otp.owned ∧
    (s.writeRows rows).trust.otp.rollback = s.trust.otp.rollback := ⟨rfl, rfl, rfl⟩
@[simp] theorem State.setRollback_frame (s : State) (k v : Nat) :
    (s.setRollback k v).pending = s.pending ∧ (s.setRollback k v).trust.otp.owned = s.trust.otp.owned ∧
    (s.setRollback k v).trust.otp.rows = s.trust.otp.rows := ⟨rfl, rfl, rfl⟩
theorem State.setRollback_other (s : State) (k j v : Nat) (hj : j < 4) (h : j ≠ k) (ho : OtpOk s.trust.otp) :
    (s.setRollback k v).rollback j = s.rollback j := by
  obtain ⟨_, h2, h3, _⟩ := ho
  unfold State.rollback
  generalize hr : s.trust.otp.rollback = r at *
  match r, h2, hr with
  | [a, b, c, d], _, hr =>
    have m (x : Nat) (hx : x ≤ 255) : x % 256 = x := Nat.mod_eq_of_lt (by omega)
    have ha := m a (h3 a (by simp)); have hb := m b (h3 b (by simp)); have hc := m c (h3 c (by simp)); have hd := m d (h3 d (by simp))
    match j, hj with
    | 0, _ => simp [State.setRollback, hr, padTo, List.range_succ, h, ha]
    | 1, _ => simp [State.setRollback, hr, padTo, List.range_succ, h, hb]
    | 2, _ => simp [State.setRollback, hr, padTo, List.range_succ, h, hc]
    | 3, _ => simp [State.setRollback, hr, padTo, List.range_succ, h, hd]

/-- The keeper epoch at start (R433). -/
theorem State.bootKeeper_grows (s : State) : s.bootKeeper.pending = s.pending ∧ OtpStep s.trust.otp s.bootKeeper.trust.otp := by
  have key : ∀ t : State, (t.pending = s.pending ∧ (t.trust.otp = s.trust.otp ∨
      t.trust.otp = { s.trust.otp with keeperEpoch := min 255 (s.trust.otp.keeperEpoch + 1) })) →
      t.pending = s.pending ∧ OtpStep s.trust.otp t.trust.otp := by
    rintro t ⟨h, e | e⟩
    · exact ⟨h, OtpStep.of_eq e⟩
    · refine ⟨h, ?_⟩
      rw [e]
      rintro ⟨h1, h2, h3, h4, h5, h6, h7⟩
      exact ⟨⟨h1, h2, h3, Nat.min_le_left _ _, h5, h6, h7⟩,
        ⟨fun _ h => h, fun _ => Nat.le_refl _, by show s.trust.otp.keeperEpoch ≤ min 255 _; omega, ⟨[], by simp⟩, id, id⟩⟩
  apply key
  unfold State.bootKeeper
  dsimp only
  refine ⟨?_, ?_⟩
  · (repeat' split) <;> simp
  · by_cases hl : (s.keeper.lost || !s.keeper.vkeep) = true
    · right; (repeat' split) <;> simp_all
    · left; (repeat' split) <;> simp_all

/-- BOOT_START and OTP. -/
theorem execBootStart_otp (x : BootInputs) (s : State) :
    ∀ t, execBootStart x s = .next t → t.pending = s.pending ∧ OtpStep s.trust.otp t.trust.otp := by
  intro t h
  unfold execBootStart at h
  simp only [done] at h
  have g := State.bootKeeper_grows { s with trust := { s.trust with straps := x.straps.val } }
  split at h
  · cases h; exact ⟨rfl, OtpStep.refl _⟩
  · (repeat' split at h) <;> (cases h; refine ⟨by simpa using g.1, by simpa using g.2⟩)

/-- Keys below that of the image are revoked (R420). -/
theorem State.revokeBelow_grows (s : State) (h : Bytes) :
    (s.revokeBelow h).pending = s.pending ∧ OtpStep s.trust.otp (s.revokeBelow h).trust.otp := by
  unfold State.revokeBelow
  split
  · refine ⟨rfl, ?_⟩
    rintro ⟨h1, h2, h3, h4, h5, h6, h7⟩
    have hk : 2 ^ (imgKey h % 4) - 1 < 2 ^ 4 := by
      have : imgKey h % 4 < 4 := Nat.mod_lt _ (by omega)
      have : 2 ^ (imgKey h % 4) ≤ 2 ^ 4 := Nat.pow_le_pow_right (by omega) (by omega)
      omega
    refine ⟨⟨Nat.or_lt_two_pow (n := 4) h1 hk, h2, h3, h4, h5, h6, h7⟩,
      ⟨fun i e => ?_, fun _ => Nat.le_refl _, Nat.le_refl _, ⟨[], by simp⟩, id, id⟩⟩
    show (s.trust.otp.revoked ||| _).testBit i = true
    rw [Nat.testBit_or, e]; rfl
  · exact ⟨rfl, OtpStep.refl _⟩

/-- SWITCHOVER_HANDOVER_DONE and OTP. -/
theorem execSwitchoverHandoverDone_otp (s : State) :
    ∀ t, execSwitchoverHandoverDone s = .next t → t.pending = s.pending ∧ OtpStep s.trust.otp t.trust.otp := by
  intro t h
  unfold execSwitchoverHandoverDone at h
  simp only [done] at h
  split at h
  · cases h; exact ⟨rfl, OtpStep.refl _⟩
  · rename_i x e
    split at h
    · cases h; exact ⟨rfl, OtpStep.refl _⟩
    · cases h
      have g := fun (u : State) => State.revokeBelow_grows u x.header
      refine ⟨?_, ?_⟩
      · simp [(g _).1]
      · simp only [State.endLong_keeps, State.raise_keeps, State.noteStatus_keeps, State.measure_keeps]
        refine OtpStep.trans (OtpStep.of_eq ?_) (g _).2
        rfl

/-- A request's work touches OTP only on a device that is owned, when the request is not a read. -/
theorem State.request_otp (s : State) (op cls : Nat) (r : Request) (run : Option Nat → State → Ans × State)
    (h : ∀ k t, t.owned = true → (run k t).2.pending = t.pending ∧ OtpStep t.trust.otp (run k t).2.trust.otp) :
    (s.request op cls false r run).pending = s.pending ∧ OtpStep s.trust.otp (s.request op cls false r run).trust.otp := by
  unfold State.request State.serve
  split
  · exact ⟨rfl, OtpStep.refl _⟩
  · split
    · exact ⟨rfl, OtpStep.refl _⟩
    · split
      · have k1 := (State.openLine_keeps s op r)
        dsimp only
        have key : ∀ u, (u = s.openLine op r) → ((u.dispatch op cls false r run).2.pending = s.pending ∧
            OtpStep s.trust.otp (u.dispatch op cls false r run).2.trust.otp) := by
          rintro u rfl
          unfold State.dispatch
          dsimp only
          split
          · exact ⟨k1.1, OtpStep.of_eq k1.2⟩
          · split
            · exact ⟨k1.1, OtpStep.of_eq k1.2⟩
            · split
              · exact ⟨k1.1, OtpStep.of_eq k1.2⟩
              · rename_i ho
                have hw : (s.openLine op r).owned = true := by
                  cases hb : (s.openLine op r).owned with
                  | true => rfl
                  | false => exact absurd ⟨by rw [hb]; rfl, by simp⟩ ho
                split
                · split
                  · exact ⟨k1.1, OtpStep.of_eq k1.2⟩
                  · rename_i id _
                    have k2 := State.spendCounter_keeps (s.openLine op r) id r.counter
                    have g := h (some id) ((s.openLine op r).spendCounter id r.counter) (by rw [State.owned, k2.2]; exact hw)
                    exact ⟨g.1.trans (k2.1.trans k1.1), (OtpStep.of_eq (k2.2.trans k1.2)).trans g.2⟩
                · have g := h none _ hw
                  exact ⟨g.1.trans k1.1, (OtpStep.of_eq k1.2).trans g.2⟩
        obtain ⟨g1, g2⟩ := key _ rfl
        have k3 := State.conclude_keeps ((s.openLine op r).dispatch op cls false r run).2 op r ((s.openLine op r).dispatch op cls false r run).1
        exact ⟨k3.1.trans g1, g2.trans (OtpStep.of_eq k3.2)⟩
      · have k := State.outOfOrder_keeps s op r
        exact ⟨k.1, OtpStep.of_eq k.2⟩

theorem State.directReq_otp (s : State) (op cls : Nat) (r : Request) (run : Option Nat → State → Ans × State)
    (h : ∀ k t, t.owned = true → (run k t).2.pending = t.pending ∧ OtpStep t.trust.otp (run k t).2.trust.otp) :
    (s.directReq op cls r run).pending = s.pending ∧ OtpStep s.trust.otp (s.directReq op cls r run).trust.otp := by
  unfold State.directReq
  refine State.request_otp _ _ _ _ _ (fun k t ho => ?_)
  split
  · exact ⟨rfl, OtpStep.refl _⟩
  · exact h k t ho

/-- A request that a device takes before it is owned: its work may write OTP. -/
theorem State.serve_otp (s : State) (op : Nat) (r : Request) (run : State → Ans × State)
    (h : ∀ t, (run t).2.pending = t.pending ∧ OtpStep t.trust.otp (run t).2.trust.otp) :
    (s.serve op r run).pending = s.pending ∧ OtpStep s.trust.otp (s.serve op r run).trust.otp := by
  unfold State.serve
  split
  · exact ⟨rfl, OtpStep.refl _⟩
  · split
    · exact ⟨rfl, OtpStep.refl _⟩
    · split
      · have k1 := (State.openLine_keeps s op r)
        dsimp only
        have g := h (s.openLine op r)
        have k3 := State.conclude_keeps (run (s.openLine op r)).2 op r (run (s.openLine op r)).1
        exact ⟨k3.1.trans (g.1.trans k1.1), (OtpStep.of_eq k1.2).trans (g.2.trans (OtpStep.of_eq k3.2))⟩
      · have k := State.outOfOrder_keeps s op r
        exact ⟨k.1, OtpStep.of_eq k.2⟩

/-- OWNER_KEY_SET and OTP (R415). -/
theorem execOwnerKeySet_otp (r : Request) (s : State) :
    ∀ t, execOwnerKeySet r s = .next t → t.pending = s.pending ∧ OtpStep s.trust.otp t.trust.otp := by
  intro t h
  unfold execOwnerKeySet at h
  injection h with h; subst h
  refine State.directReq_otp _ _ _ _ _ (fun k t ho => ?_)
  have done2 : ∀ a : Ans, (a, t).2.pending = t.pending ∧ OtpStep t.trust.otp (a, t).2.trust.otp := fun a => ⟨rfl, OtpStep.refl _⟩
  dsimp only
  split
  · exact done2 _
  · split
    · exact done2 _
    · split
      · exact done2 _
      · split
        · exact done2 _
        · split
          · exact done2 _
          · split
            · exact done2 _
            · rename_i hs _ _ _ hb
              simp only [not_or] at hb
              refine ⟨by simp, ?_⟩
              intro hok
              have hb3 : t.rollback 2 ≤ 255 := by
                have := hok.2.1; have h3 := hok.2.2.1
                unfold State.rollback
                by_cases hi : 2 < t.trust.otp.rollback.length
                · simp only [List.getD_eq_getElem?_getD, List.getElem?_eq_getElem hi, Option.getD_some]; exact h3 _ (List.getElem_mem hi)
                · omega
              have w := State.writeRows_grows t [(leAt r.payload 0 1, if leNat (slice r.payload 8 32) == 0 then none else some (slice r.payload 8 32))]
                (by simp only [List.length_cons, List.length_nil]; omega)
                (by
                  intro x hx
                  simp only [List.mem_singleton] at hx; subst hx
                  refine ⟨by simp only; omega, fun k hk => ?_⟩
                  dsimp only at hk
                  split at hk
                  · cases hk
                  · injection hk with hk; subst hk; exact slice_length _ _ _) ho
              have g := w.trans (State.setRollback_grows _ 2 (t.rollback 2 + 1) (by omega) (by
                show (t.writeRows _).rollback 2 ≤ _; unfold State.rollback; simp only [State.writeRows_frame]; omega))
              have e := g hok
              simpa using e

/-- ROLLBACK_ADVANCE and OTP (R417). -/
theorem execRollbackAdvance_otp (r : Request) (s : State) :
    ∀ t, execRollbackAdvance r s = .next t → t.pending = s.pending ∧ OtpStep s.trust.otp t.trust.otp := by
  intro t h
  unfold execRollbackAdvance at h
  injection h with h; subst h
  refine State.directReq_otp _ _ _ _ _ (fun k t ho => ?_)
  dsimp only
  split
  · exact ⟨rfl, OtpStep.refl _⟩
  · split
    · exact ⟨rfl, OtpStep.refl _⟩
    · split
      · exact ⟨rfl, OtpStep.refl _⟩
      · rename_i hv
        refine ⟨by simp, ?_⟩
        have g := State.setRollback_grows t (leAt r.payload 0 1) (leAt r.payload 1 1) (leAt_one _ _) (by omega)
        simpa using g

/-- The owned bit is set. -/
theorem State.own_grows (s t : State) (k : Otp → Otp) (hk : t.trust.otp = { k s.trust.otp with owned := true })
    (h : OtpStep s.trust.otp (k s.trust.otp)) : OtpStep s.trust.otp t.trust.otp := by
  refine h.trans ?_
  rw [hk]
  rintro ⟨h1, h2, h3, h4, h5, h6, h7⟩
  exact ⟨⟨h1, h2, h3, h4, h5, h6, fun e => by cases e⟩,
    ⟨fun _ h => h, fun _ => Nat.le_refl _, Nat.le_refl _, ⟨[], by simp⟩, fun _ => rfl, id⟩⟩

/-- Rows and the owned bit together. -/
theorem State.writeOwned_grows (s t : State) (rows : List (Nat × Option Bytes))
    (e : t.trust.otp = { (s.writeRows rows).trust.otp with owned := true })
    (hl : s.trust.otp.rows.length + rows.length ≤ 260) (hr : ∀ x ∈ rows, x.1 < 4 ∧ ∀ k, x.2 = some k → k.length = 32) :
    OtpStep s.trust.otp t.trust.otp := by
  have g := State.writeRows_grows { s with trust := { s.trust with otp := { s.trust.otp with owned := true } } } rows hl hr rfl
  have o : OtpStep s.trust.otp { s.trust.otp with owned := true } := by
    rintro ⟨h1, h2, h3, h4, h5, h6, h7⟩
    exact ⟨⟨h1, h2, h3, h4, h5, h6, fun e => by cases e⟩, ⟨fun _ h => h, fun _ => Nat.le_refl _, Nat.le_refl _, ⟨[], by simp⟩, fun _ => rfl, id⟩⟩
  rw [e]
  exact o.trans g

/-- The claim and OTP (R377). -/
theorem State.applyClaim_grows (s : State) (r : Request) (hn : leAt r.payload 0 1 ≤ 4) (ho : s.owned = false) :
    (s.applyClaim r).pending = s.pending ∧ OtpStep s.trust.otp (s.applyClaim r).trust.otp := by
  unfold State.applyClaim
  dsimp only
  refine ⟨by simp, ?_⟩
  intro hok
  have hrows : s.trust.otp.rows = [] := hok.2.2.2.2.2.2 ho
  have g := State.writeOwned_grows s
    { s with trust := { s.trust with otp := { (s.writeRows ((claimKeys r.payload).zipIdx.map (fun (x : Bytes × Nat) => (x.2, some x.1)))).trust.otp with owned := true } } }
    ((claimKeys r.payload).zipIdx.map (fun (x : Bytes × Nat) => (x.2, some x.1))) rfl
    (by rw [hrows]; simp [claimKeys]; omega)
    (by
      intro x hx
      obtain ⟨y, hy, rfl⟩ := List.mem_map.mp hx
      have hm := List.mem_zipIdx hy
      refine ⟨?_, ?_⟩
      · have := hm.2.1; simp [claimKeys] at this; dsimp only; omega
      · intro k hk
        injection hk with hk; subst hk
        rw [hm.2.2]
        simp [claimKeys, slice_length]) hok
  simpa using g

/-- CLAIM and OTP. -/
theorem execClaim_otp (r : Request) (s : State) :
    ∀ t, execClaim r s = .next t → t.pending = s.pending ∧ OtpStep s.trust.otp t.trust.otp := by
  intro t h
  unfold execClaim at h
  injection h with h; subst h
  refine State.serve_otp _ _ _ _ (fun t => ?_)
  have done2 : ∀ a : Ans, (a, t).2.pending = t.pending ∧ OtpStep t.trust.otp (a, t).2.trust.otp := fun a => ⟨rfl, OtpStep.refl _⟩
  dsimp only
  iterate 3 (split; exact done2 _)
  rename_i ho
  iterate 4 (split; exact done2 _)
  exact State.applyClaim_grows t r (by omega) (by simpa using ho)

/-- SUCCESSION_EXPORT and OTP (R425). -/
theorem execSuccessionExport_otp (r : Request) (s : State) :
    ∀ t, execSuccessionExport r s = .next t → t.pending = s.pending ∧ OtpStep s.trust.otp t.trust.otp := by
  intro t h
  unfold execSuccessionExport at h
  injection h with h; subst h
  refine State.directReq_otp _ _ _ _ _ (fun k t ho => ?_)
  dsimp only
  split
  · exact ⟨rfl, OtpStep.refl _⟩
  · split
    · exact ⟨rfl, OtpStep.refl _⟩
    · rename_i hs
      refine ⟨by simp, ?_⟩
      intro hok
      have hb : t.rollback 3 ≤ 255 := by
        have := hok.2.1; have h3 := hok.2.2.1
        unfold State.rollback
        by_cases hi : 3 < t.trust.otp.rollback.length
        · simp only [List.getD_eq_getElem?_getD, List.getElem?_eq_getElem hi, Option.getD_some]; exact h3 _ (List.getElem_mem hi)
        · omega
      have g := (State.setRollback_grows t 3 (t.rollback 3 + 1) (by omega) (by omega)) hok
      have e : OtpStep (t.setRollback 3 (t.rollback 3 + 1)).trust.otp { (t.setRollback 3 (t.rollback 3 + 1)).trust.otp with succeeded := true } := by
        rintro ⟨h1, h2, h3, h4, h5, h6, h7⟩
        exact ⟨⟨h1, h2, h3, h4, h5, h6, h7⟩, ⟨fun _ h => h, fun _ => Nat.le_refl _, Nat.le_refl _, ⟨[], by simp⟩, id, fun _ => rfl⟩⟩
      have e2 := e g.1
      simpa using (⟨e2.1, g.2.trans e2.2⟩ : OtpOk _ ∧ OtpGrows _ _)

/-- An import's configuration leaves OTP. -/
theorem State.importConfig_keeps (mb key n first : Nat) (acts : List (Nat × Nat × Bytes)) (s : State) :
    (State.importConfig mb key n first acts s).2.pending = s.pending ∧ (State.importConfig mb key n first acts s).2.trust.otp = s.trust.otp := by
  induction n generalizing first acts s with
  | zero => exact ⟨rfl, rfl⟩
  | succ n ih =>
    unfold State.importConfig
    split
    · exact ⟨rfl, rfl⟩
    · have k := State.importBale_keeps s mb key (acts.take 16384)
      dsimp only
      split
      · exact k
      · have g := ih (first + 16384) (acts.drop 16384) (s.importBale mb key (acts.take 16384)).2
        exact ⟨g.1.trans k.1, g.2.trans k.2⟩

/-- The new owner's rows and counters (R426). -/
theorem State.takeOver_grows (s : State) (b p : Bytes) (hl : s.trust.otp.rows.length + (s.importRows p).length ≤ 260) (hf : s.notForUs p = false) :
    (s.takeOver b p).pending = s.pending ∧ OtpStep s.trust.otp (s.takeOver b p).trust.otp := by
  unfold State.takeOver
  dsimp only
  refine ⟨by simp, ?_⟩
  intro hok
  simp only [State.notForUs, Bool.or_eq_false_iff, decide_eq_false_iff_not] at hf
  let s0 : State := { s with trust := { s.trust with otp := { s.trust.otp with owned := true } } }
  have g0 : OtpOk s0.trust.otp ∧ OtpGrows s.trust.otp s0.trust.otp := by
    obtain ⟨h1, h2, h3, h4, h5, h6, h7⟩ := hok
    exact ⟨⟨h1, h2, h3, h4, h5, h6, fun e => by cases e⟩, ⟨fun _ h => h, fun _ => Nat.le_refl _, Nat.le_refl _, ⟨[], by show s.trust.otp.rows = _; simp⟩, fun _ => rfl, id⟩⟩
  have g1 := State.writeRows_grows s0 (s.importRows p) hl
    (by
      intro x hx
      obtain ⟨k, hk, rfl⟩ := List.mem_map.mp (List.mem_filter.mp hx).1
      refine ⟨by simpa using hk, fun y hy => ?_⟩
      dsimp only at hy
      split at hy
      · cases hy
      · injection hy with hy; subst hy; exact slice_length _ _ _) rfl g0.1
  have g2 := State.setRollback_grows (s0.writeRows (s.importRows p)) 2 (leAt p 51 1) (leAt_one _ _) (by show s.rollback 2 ≤ _; omega) g1.1
  have g3 := State.setRollback_grows ((s0.writeRows (s.importRows p)).setRollback 2 (leAt p 51 1)) 3 (leAt p 48 1) (leAt_one _ _)
    (by rw [State.setRollback_other _ _ _ _ (by omega) (by omega) g1.1]; show s.rollback 3 ≤ _; omega) g2.1
  have e := (⟨g3.1, ((g0.2.trans g1.2).trans g2.2).trans g3.2⟩ : OtpOk _ ∧ OtpGrows _ _)
  simp only [State.noteStatus_keeps, State.measure_keeps, State.record_keeps]
  exact e

/-- An import that its request's checks have let through, and OTP. -/
theorem State.takePackage_grows (s : State) (r : Request) :
    (s.takePackage r).2.pending = s.pending ∧ OtpStep s.trust.otp (s.takePackage r).2.trust.otp := by
  have done2 : ∀ a : Ans, (a, s).2.pending = s.pending ∧ OtpStep s.trust.otp (a, s).2.trust.otp := fun a => ⟨rfl, OtpStep.refl _⟩
  unfold State.takePackage
  dsimp only
  split
  · exact done2 _
  · split
    · exact done2 _
    · split
      · exact done2 _
      · rename_i acts _
        split
        · exact done2 _
        · split
          · exact done2 _
          · rename_i hf
            split
            · exact done2 _
            · rename_i hl
              have g := State.takeOver_grows s r.payload (imgPayload r.payload) (by omega) (by simpa using hf)
              have k := State.importConfig_keeps r.mb (imgKey r.payload) acts.length 0 acts (s.takeOver r.payload (imgPayload r.payload))
              exact ⟨k.1.trans g.1, g.2.trans (OtpStep.of_eq k.2)⟩

/-- SUCCESSION_IMPORT and OTP (R426, R427). -/
theorem execSuccessionImport_otp (r : Request) (s : State) :
    ∀ t, execSuccessionImport r s = .next t → t.pending = s.pending ∧ OtpStep s.trust.otp t.trust.otp := by
  intro t h
  unfold execSuccessionImport at h
  split at h
  · injection h with h; subst h
    exact State.directReq_otp _ _ _ _ _ (fun k t _ => State.takePackage_grows t r)
  · injection h with h; subst h
    refine State.serve_otp _ _ _ _ (fun t => ?_)
    have done2 : ∀ a : Ans, (a, t).2.pending = t.pending ∧ OtpStep t.trust.otp (a, t).2.trust.otp := fun a => ⟨rfl, OtpStep.refl _⟩
    dsimp only
    split
    · exact done2 _
    · split
      · exact done2 _
      · split
        · exact done2 _
        · split
          · exact done2 _
          · have g := State.takePackage_grows t r
            dsimp only
            split
            · have k := State.spendCounter_keeps (t.takePackage r).2
              exact ⟨(k _ _).1.trans g.1, g.2.trans (OtpStep.of_eq (k _ _).2)⟩
            · exact g

end Sys2Proof.Machine
end

