-- ==== Sys2Proof/Laws/Tab.lean ====
section
/-! SUPPORT. Laws of the sparse tables: a read after a write, and that every operation keeps the canonical form. -/

namespace Sys2Proof.Tab

variable {α : Type}

@[simp] theorem find_nil (k : Nat) : find? ([] : Tab α) k = none := rfl

theorem find_insert (t : Tab α) (k : Nat) (v : α) (j : Nat) :
    find? (insert t k v) j = if k = j then some v else find? t j := by
  induction t with
  | nil => simp [insert, find?]
  | cons e t ih =>
    obtain ⟨i, w⟩ := e
    simp only [insert]
    split
    · simp [find?]
    · split
      · subst_vars; simp only [find?]; split <;> rfl
      · simp only [find?, ih]
        split
        · subst_vars; simp_all
        · rfl

@[simp] theorem find_insert_self (t : Tab α) (k : Nat) (v : α) : find? (insert t k v) k = some v := by simp [find_insert]

theorem risesFrom_mono (a b : Nat) (t : Tab α) (h : a ≤ b) (r : risesFrom (some b) t = true) : risesFrom (some a) t = true := by
  cases t with
  | nil => rfl
  | cons e t => obtain ⟨i, w⟩ := e; simp only [risesFrom, Bool.and_eq_true, decide_eq_true_eq] at *; exact ⟨by omega, r.2⟩

theorem find_below (t : Tab α) (k j : Nat) (h : risesFrom (some k) t = true) (hj : j ≤ k) : find? t j = none := by
  induction t generalizing k with
  | nil => rfl
  | cons e t ih =>
    obtain ⟨i, w⟩ := e
    simp only [risesFrom, Bool.and_eq_true, decide_eq_true_eq] at h
    simp only [find?]
    rw [if_neg (by omega)]
    exact ih i h.2 (by omega)

theorem rises_none_of_some (k : Nat) (t : Tab α) (h : risesFrom (some k) t = true) : risesFrom none t = true := by
  cases t with
  | nil => rfl
  | cons e t => obtain ⟨i, w⟩ := e; simp only [risesFrom, Bool.and_eq_true] at *; exact h.2

theorem find_erase (t : Tab α) (k j : Nat) (h : risesFrom none t = true) :
    find? (erase t k) j = if k = j then none else find? t j := by
  induction t with
  | nil => simp [erase]
  | cons e t ih =>
    obtain ⟨i, w⟩ := e
    have hr : risesFrom (some i) t = true := by simpa [risesFrom] using h
    simp only [erase]
    split
    · subst_vars
      simp only [find?]
      split
      · subst_vars; exact find_below t _ _ hr (Nat.le_refl _)
      · rfl
    · rename_i hne
      simp only [find?, ih (rises_none_of_some _ _ hr)]
      split
      · subst_vars; rw [if_neg (fun e => hne e.symm)]
      · rfl

/-- A read of the index written gives what was written; every other index reads as before. -/
theorem get_put [DecidableEq α] (d : α) (t : Tab α) (k : Nat) (v : α) (j : Nat) (h : risesFrom none t = true) :
    get d (put d t k v) j = if k = j then v else get d t j := by
  unfold put get
  split
  · rw [find_erase _ _ _ h]; split <;> simp_all
  · rw [find_insert]; split <;> simp

theorem insert_rises (t : Tab α) (k : Nat) (v : α) (p : Option Nat) (hp : ∀ x, p = some x → x < k)
    (h : risesFrom p t = true) : risesFrom p (insert t k v) = true := by
  induction t generalizing p with
  | nil => cases p <;> simp_all [insert, risesFrom]
  | cons e t ih =>
    obtain ⟨i, w⟩ := e
    have hr : risesFrom (some i) t = true := by cases p <;> simp_all [risesFrom]
    simp only [insert]
    split
    · cases p <;> simp_all [risesFrom]
    · split
      · cases p <;> simp_all [risesFrom]
      · have := ih (some i) (by intro x hx; injection hx with hx; omega) hr
        cases p <;> simp_all [risesFrom]

theorem erase_rises (t : Tab α) (k : Nat) (p : Option Nat) (h : risesFrom p t = true) : risesFrom p (erase t k) = true := by
  induction t generalizing p with
  | nil => cases p <;> rfl
  | cons e t ih =>
    obtain ⟨i, w⟩ := e
    have hr : risesFrom (some i) t = true := by cases p <;> simp_all [risesFrom]
    simp only [erase]
    split
    · cases p with
      | none => exact rises_none_of_some _ _ hr
      | some x => exact risesFrom_mono x i t (by simp only [risesFrom, Bool.and_eq_true, decide_eq_true_eq] at h; omega) hr
    · have := ih (some i) hr
      cases p <;> simp_all [risesFrom]

theorem all_insert (f : Nat × α → Bool) (t : Tab α) (k : Nat) (v : α) (hv : f (k, v) = true) (h : t.all f = true) :
    (insert t k v).all f = true := by
  induction t with
  | nil => simp_all [insert]
  | cons e t ih =>
    obtain ⟨i, w⟩ := e
    simp only [insert]
    split
    · simp_all
    · split <;> simp_all

theorem all_erase (f : Nat × α → Bool) (t : Tab α) (k : Nat) (h : t.all f = true) : (erase t k).all f = true := by
  induction t with
  | nil => rfl
  | cons e t ih => obtain ⟨i, w⟩ := e; simp only [erase]; split <;> simp_all

/-- A table's canonical form survives a write. -/
theorem wf_put [DecidableEq α] (d : α) (t : Tab α) (k : Nat) (v : α) (h : wf d t = true) : wf d (put d t k v) = true := by
  simp only [wf, Bool.and_eq_true] at *
  unfold put
  split
  · exact ⟨erase_rises t k none h.1, all_erase _ t k h.2⟩
  · exact ⟨insert_rises t k v none (by simp) h.1, all_insert _ t k v (by simpa using ‹¬ v = d›) h.2⟩

theorem wf_modify [DecidableEq α] (d : α) (t : Tab α) (k : Nat) (f : α → α) (h : wf d t = true) :
    wf d (modify d t k f) = true := wf_put d t k _ h

/-- The canonical form of a byte memory survives a write of any length. -/
theorem wf_putBytes (t : Tab Byte) (a : Nat) (bs : Bytes) (h : wf 0 t = true) : wf 0 (putBytes t a bs) = true := by
  induction bs generalizing t a with
  | nil => exact h
  | cons b bs ih => exact ih _ _ (wf_put 0 t a b h)

theorem wf_rises [DecidableEq α] (d : α) (t : Tab α) (h : wf d t = true) : risesFrom none t = true := by
  simp only [wf, Bool.and_eq_true] at h; exact h.1

/-- A byte outside those written reads as before; a byte written reads what was written. -/
theorem get_putBytes (t : Tab Byte) (a : Nat) (bs : Bytes) (j : Nat) (h : wf 0 t = true) :
    get 0 (putBytes t a bs) j = if a ≤ j ∧ j < a + bs.length then bs.getD (j - a) 0 else get 0 t j := by
  induction bs generalizing t a with
  | nil => simp only [putBytes, List.length_nil]; rw [if_neg (by omega)]
  | cons b bs ih =>
    simp only [putBytes, List.length_cons]
    rw [ih _ _ (wf_put 0 t a b h), get_put 0 t a b j (wf_rises 0 t h)]
    by_cases h1 : a = j
    · subst h1
      rw [if_neg (by omega), if_pos rfl, if_pos (by omega)]; simp
    · by_cases h2 : a + 1 ≤ j ∧ j < a + 1 + bs.length
      · rw [if_pos h2, if_pos (by omega)]
        obtain ⟨m, rfl⟩ : ∃ m, j = a + 1 + m := ⟨j - (a + 1), by omega⟩
        rw [show a + 1 + m - (a + 1) = m by omega, show a + 1 + m - a = m + 1 by omega]; simp
      · rw [if_neg h2, if_neg h1, if_neg (by omega)]

end Sys2Proof.Tab
end

