-- ==== Sys2Proof/Laws/State.lean ====
section
/-! SUPPORT. What each elementary write of the state changes, and what a read of the written part gives. -/

namespace Sys2Proof.Machine

/-- `setPort` writes ports alone. -/
@[simp] theorem State.setPort_frame (s : State) (p : Nat) (x : Port) :
    (s.setPort p x).pending = s.pending ∧ (s.setPort p x).outbox = s.outbox ∧ (s.setPort p x).fresh = s.fresh ∧
    (s.setPort p x).now = s.now ∧ (s.setPort p x).settings = s.settings ∧ (s.setPort p x).tiller = s.tiller ∧
    (s.setPort p x).sched = s.sched ∧ (s.setPort p x).lanes = s.lanes ∧ (s.setPort p x).recal = s.recal ∧
    (s.setPort p x).refclkLost = s.refclkLost ∧ (s.setPort p x).otn = s.otn ∧ (s.setPort p x).bridge = s.bridge ∧
    (s.setPort p x).flow = s.flow ∧ (s.setPort p x).bales = s.bales ∧ (s.setPort p x).eng = s.eng ∧ (s.setPort p x).svc = s.svc ∧
    (s.setPort p x).matcher = s.matcher ∧ (s.setPort p x).awn = s.awn ∧ (s.setPort p x).gate = s.gate ∧
    (s.setPort p x).ledger = s.ledger ∧ (s.setPort p x).packets = s.packets ∧ (s.setPort p x).nextPkt = s.nextPkt ∧
    (s.setPort p x).core = s.core ∧ (s.setPort p x).mem = s.mem ∧ (s.setPort p x).sheaf = s.sheaf ∧ (s.setPort p x).host = s.host ∧
    (s.setPort p x).fault = s.fault ∧ (s.setPort p x).trust = s.trust ∧ (s.setPort p x).keeper = s.keeper ∧
    (s.setPort p x).power = s.power ∧ (s.setPort p x).cnt = s.cnt := by
  (repeat' apply And.intro) <;> rfl

/-- `setLane` writes lanes alone. -/
@[simp] theorem State.setLane_frame (s : State) (l : Nat) (x : Lane) :
    (s.setLane l x).pending = s.pending ∧ (s.setLane l x).outbox = s.outbox ∧ (s.setLane l x).fresh = s.fresh ∧
    (s.setLane l x).now = s.now ∧ (s.setLane l x).settings = s.settings ∧ (s.setLane l x).tiller = s.tiller ∧
    (s.setLane l x).sched = s.sched ∧ (s.setLane l x).ports = s.ports ∧ (s.setLane l x).recal = s.recal ∧
    (s.setLane l x).refclkLost = s.refclkLost ∧ (s.setLane l x).otn = s.otn ∧ (s.setLane l x).bridge = s.bridge ∧
    (s.setLane l x).flow = s.flow ∧ (s.setLane l x).bales = s.bales ∧ (s.setLane l x).eng = s.eng ∧ (s.setLane l x).svc = s.svc ∧
    (s.setLane l x).matcher = s.matcher ∧ (s.setLane l x).awn = s.awn ∧ (s.setLane l x).gate = s.gate ∧
    (s.setLane l x).ledger = s.ledger ∧ (s.setLane l x).packets = s.packets ∧ (s.setLane l x).nextPkt = s.nextPkt ∧
    (s.setLane l x).core = s.core ∧ (s.setLane l x).mem = s.mem ∧ (s.setLane l x).sheaf = s.sheaf ∧ (s.setLane l x).host = s.host ∧
    (s.setLane l x).fault = s.fault ∧ (s.setLane l x).trust = s.trust ∧ (s.setLane l x).keeper = s.keeper ∧
    (s.setLane l x).power = s.power ∧ (s.setLane l x).cnt = s.cnt := by
  (repeat' apply And.intro) <;> rfl

/-- `setOtn` writes otn alone. -/
@[simp] theorem State.setOtn_frame (s : State) (p : Nat) (x : Otn) :
    (s.setOtn p x).pending = s.pending ∧ (s.setOtn p x).outbox = s.outbox ∧ (s.setOtn p x).fresh = s.fresh ∧ (s.setOtn p x).now = s.now ∧
    (s.setOtn p x).settings = s.settings ∧ (s.setOtn p x).tiller = s.tiller ∧ (s.setOtn p x).sched = s.sched ∧
    (s.setOtn p x).ports = s.ports ∧ (s.setOtn p x).lanes = s.lanes ∧ (s.setOtn p x).recal = s.recal ∧
    (s.setOtn p x).refclkLost = s.refclkLost ∧ (s.setOtn p x).bridge = s.bridge ∧ (s.setOtn p x).flow = s.flow ∧
    (s.setOtn p x).bales = s.bales ∧ (s.setOtn p x).eng = s.eng ∧ (s.setOtn p x).svc = s.svc ∧ (s.setOtn p x).matcher = s.matcher ∧
    (s.setOtn p x).awn = s.awn ∧ (s.setOtn p x).gate = s.gate ∧ (s.setOtn p x).ledger = s.ledger ∧ (s.setOtn p x).packets = s.packets ∧
    (s.setOtn p x).nextPkt = s.nextPkt ∧ (s.setOtn p x).core = s.core ∧ (s.setOtn p x).mem = s.mem ∧ (s.setOtn p x).sheaf = s.sheaf ∧
    (s.setOtn p x).host = s.host ∧ (s.setOtn p x).fault = s.fault ∧ (s.setOtn p x).trust = s.trust ∧ (s.setOtn p x).keeper = s.keeper ∧
    (s.setOtn p x).power = s.power ∧ (s.setOtn p x).cnt = s.cnt := by
  (repeat' apply And.intro) <;> rfl

/-- `setMac` writes bridge alone. -/
@[simp] theorem State.setMac_frame (s : State) (k : Nat) (x : MacTable) :
    (s.setMac k x).pending = s.pending ∧ (s.setMac k x).outbox = s.outbox ∧ (s.setMac k x).fresh = s.fresh ∧ (s.setMac k x).now = s.now ∧
    (s.setMac k x).settings = s.settings ∧ (s.setMac k x).tiller = s.tiller ∧ (s.setMac k x).sched = s.sched ∧
    (s.setMac k x).ports = s.ports ∧ (s.setMac k x).lanes = s.lanes ∧ (s.setMac k x).recal = s.recal ∧
    (s.setMac k x).refclkLost = s.refclkLost ∧ (s.setMac k x).otn = s.otn ∧ (s.setMac k x).flow = s.flow ∧
    (s.setMac k x).bales = s.bales ∧ (s.setMac k x).eng = s.eng ∧ (s.setMac k x).svc = s.svc ∧ (s.setMac k x).matcher = s.matcher ∧
    (s.setMac k x).awn = s.awn ∧ (s.setMac k x).gate = s.gate ∧ (s.setMac k x).ledger = s.ledger ∧ (s.setMac k x).packets = s.packets ∧
    (s.setMac k x).nextPkt = s.nextPkt ∧ (s.setMac k x).core = s.core ∧ (s.setMac k x).mem = s.mem ∧ (s.setMac k x).sheaf = s.sheaf ∧
    (s.setMac k x).host = s.host ∧ (s.setMac k x).fault = s.fault ∧ (s.setMac k x).trust = s.trust ∧ (s.setMac k x).keeper = s.keeper ∧
    (s.setMac k x).power = s.power ∧ (s.setMac k x).cnt = s.cnt := by
  (repeat' apply And.intro) <;> rfl

/-- `setLag` writes bridge alone. -/
@[simp] theorem State.setLag_frame (s : State) (g : Nat) (x : Lag) :
    (s.setLag g x).pending = s.pending ∧ (s.setLag g x).outbox = s.outbox ∧ (s.setLag g x).fresh = s.fresh ∧ (s.setLag g x).now = s.now ∧
    (s.setLag g x).settings = s.settings ∧ (s.setLag g x).tiller = s.tiller ∧ (s.setLag g x).sched = s.sched ∧
    (s.setLag g x).ports = s.ports ∧ (s.setLag g x).lanes = s.lanes ∧ (s.setLag g x).recal = s.recal ∧
    (s.setLag g x).refclkLost = s.refclkLost ∧ (s.setLag g x).otn = s.otn ∧ (s.setLag g x).flow = s.flow ∧
    (s.setLag g x).bales = s.bales ∧ (s.setLag g x).eng = s.eng ∧ (s.setLag g x).svc = s.svc ∧ (s.setLag g x).matcher = s.matcher ∧
    (s.setLag g x).awn = s.awn ∧ (s.setLag g x).gate = s.gate ∧ (s.setLag g x).ledger = s.ledger ∧ (s.setLag g x).packets = s.packets ∧
    (s.setLag g x).nextPkt = s.nextPkt ∧ (s.setLag g x).core = s.core ∧ (s.setLag g x).mem = s.mem ∧ (s.setLag g x).sheaf = s.sheaf ∧
    (s.setLag g x).host = s.host ∧ (s.setLag g x).fault = s.fault ∧ (s.setLag g x).trust = s.trust ∧ (s.setLag g x).keeper = s.keeper ∧
    (s.setLag g x).power = s.power ∧ (s.setLag g x).cnt = s.cnt := by
  (repeat' apply And.intro) <;> rfl

/-- `setPkt` writes packets alone. -/
@[simp] theorem State.setPkt_frame (s : State) (n : Nat) (x : Packet) :
    (s.setPkt n x).pending = s.pending ∧ (s.setPkt n x).outbox = s.outbox ∧ (s.setPkt n x).fresh = s.fresh ∧ (s.setPkt n x).now = s.now ∧
    (s.setPkt n x).settings = s.settings ∧ (s.setPkt n x).tiller = s.tiller ∧ (s.setPkt n x).sched = s.sched ∧
    (s.setPkt n x).ports = s.ports ∧ (s.setPkt n x).lanes = s.lanes ∧ (s.setPkt n x).recal = s.recal ∧
    (s.setPkt n x).refclkLost = s.refclkLost ∧ (s.setPkt n x).otn = s.otn ∧ (s.setPkt n x).bridge = s.bridge ∧
    (s.setPkt n x).flow = s.flow ∧ (s.setPkt n x).bales = s.bales ∧ (s.setPkt n x).eng = s.eng ∧ (s.setPkt n x).svc = s.svc ∧
    (s.setPkt n x).matcher = s.matcher ∧ (s.setPkt n x).awn = s.awn ∧ (s.setPkt n x).gate = s.gate ∧ (s.setPkt n x).ledger = s.ledger ∧
    (s.setPkt n x).nextPkt = s.nextPkt ∧ (s.setPkt n x).core = s.core ∧ (s.setPkt n x).mem = s.mem ∧ (s.setPkt n x).sheaf = s.sheaf ∧
    (s.setPkt n x).host = s.host ∧ (s.setPkt n x).fault = s.fault ∧ (s.setPkt n x).trust = s.trust ∧ (s.setPkt n x).keeper = s.keeper ∧
    (s.setPkt n x).power = s.power ∧ (s.setPkt n x).cnt = s.cnt := by
  (repeat' apply And.intro) <;> rfl

/-- `setUnit` writes mem alone. -/
@[simp] theorem State.setUnit_frame (s : State) (u : Nat) (x : MemUnit) :
    (s.setUnit u x).pending = s.pending ∧ (s.setUnit u x).outbox = s.outbox ∧ (s.setUnit u x).fresh = s.fresh ∧
    (s.setUnit u x).now = s.now ∧ (s.setUnit u x).settings = s.settings ∧ (s.setUnit u x).tiller = s.tiller ∧
    (s.setUnit u x).sched = s.sched ∧ (s.setUnit u x).ports = s.ports ∧ (s.setUnit u x).lanes = s.lanes ∧
    (s.setUnit u x).recal = s.recal ∧ (s.setUnit u x).refclkLost = s.refclkLost ∧ (s.setUnit u x).otn = s.otn ∧
    (s.setUnit u x).bridge = s.bridge ∧ (s.setUnit u x).flow = s.flow ∧ (s.setUnit u x).bales = s.bales ∧ (s.setUnit u x).eng = s.eng ∧
    (s.setUnit u x).svc = s.svc ∧ (s.setUnit u x).matcher = s.matcher ∧ (s.setUnit u x).awn = s.awn ∧ (s.setUnit u x).gate = s.gate ∧
    (s.setUnit u x).ledger = s.ledger ∧ (s.setUnit u x).packets = s.packets ∧ (s.setUnit u x).nextPkt = s.nextPkt ∧
    (s.setUnit u x).core = s.core ∧ (s.setUnit u x).sheaf = s.sheaf ∧ (s.setUnit u x).host = s.host ∧ (s.setUnit u x).fault = s.fault ∧
    (s.setUnit u x).trust = s.trust ∧ (s.setUnit u x).keeper = s.keeper ∧ (s.setUnit u x).power = s.power ∧ (s.setUnit u x).cnt = s.cnt := by
  (repeat' apply And.intro) <;> rfl

/-- `setLink` writes sheaf alone. -/
@[simp] theorem State.setLink_frame (s : State) (n : Nat) (x : SheafLink) :
    (s.setLink n x).pending = s.pending ∧ (s.setLink n x).outbox = s.outbox ∧ (s.setLink n x).fresh = s.fresh ∧
    (s.setLink n x).now = s.now ∧ (s.setLink n x).settings = s.settings ∧ (s.setLink n x).tiller = s.tiller ∧
    (s.setLink n x).sched = s.sched ∧ (s.setLink n x).ports = s.ports ∧ (s.setLink n x).lanes = s.lanes ∧
    (s.setLink n x).recal = s.recal ∧ (s.setLink n x).refclkLost = s.refclkLost ∧ (s.setLink n x).otn = s.otn ∧
    (s.setLink n x).bridge = s.bridge ∧ (s.setLink n x).flow = s.flow ∧ (s.setLink n x).bales = s.bales ∧ (s.setLink n x).eng = s.eng ∧
    (s.setLink n x).svc = s.svc ∧ (s.setLink n x).matcher = s.matcher ∧ (s.setLink n x).awn = s.awn ∧ (s.setLink n x).gate = s.gate ∧
    (s.setLink n x).ledger = s.ledger ∧ (s.setLink n x).packets = s.packets ∧ (s.setLink n x).nextPkt = s.nextPkt ∧
    (s.setLink n x).core = s.core ∧ (s.setLink n x).mem = s.mem ∧ (s.setLink n x).host = s.host ∧ (s.setLink n x).fault = s.fault ∧
    (s.setLink n x).trust = s.trust ∧ (s.setLink n x).keeper = s.keeper ∧ (s.setLink n x).power = s.power ∧ (s.setLink n x).cnt = s.cnt := by
  (repeat' apply And.intro) <;> rfl

/-- `setMbRegs` writes host alone. -/
@[simp] theorem State.setMbRegs_frame (s : State) (n : Nat) (x : MbRegs) :
    (s.setMbRegs n x).pending = s.pending ∧ (s.setMbRegs n x).outbox = s.outbox ∧ (s.setMbRegs n x).fresh = s.fresh ∧
    (s.setMbRegs n x).now = s.now ∧ (s.setMbRegs n x).settings = s.settings ∧ (s.setMbRegs n x).tiller = s.tiller ∧
    (s.setMbRegs n x).sched = s.sched ∧ (s.setMbRegs n x).ports = s.ports ∧ (s.setMbRegs n x).lanes = s.lanes ∧
    (s.setMbRegs n x).recal = s.recal ∧ (s.setMbRegs n x).refclkLost = s.refclkLost ∧ (s.setMbRegs n x).otn = s.otn ∧
    (s.setMbRegs n x).bridge = s.bridge ∧ (s.setMbRegs n x).flow = s.flow ∧ (s.setMbRegs n x).bales = s.bales ∧
    (s.setMbRegs n x).eng = s.eng ∧ (s.setMbRegs n x).svc = s.svc ∧ (s.setMbRegs n x).matcher = s.matcher ∧
    (s.setMbRegs n x).awn = s.awn ∧ (s.setMbRegs n x).gate = s.gate ∧ (s.setMbRegs n x).ledger = s.ledger ∧
    (s.setMbRegs n x).packets = s.packets ∧ (s.setMbRegs n x).nextPkt = s.nextPkt ∧ (s.setMbRegs n x).core = s.core ∧
    (s.setMbRegs n x).mem = s.mem ∧ (s.setMbRegs n x).sheaf = s.sheaf ∧ (s.setMbRegs n x).fault = s.fault ∧
    (s.setMbRegs n x).trust = s.trust ∧ (s.setMbRegs n x).keeper = s.keeper ∧ (s.setMbRegs n x).power = s.power ∧
    (s.setMbRegs n x).cnt = s.cnt := by
  (repeat' apply And.intro) <;> rfl

/-- `setRing` writes host alone. -/
@[simp] theorem State.setRing_frame (s : State) (r : Nat) (x : RingRegs) :
    (s.setRing r x).pending = s.pending ∧ (s.setRing r x).outbox = s.outbox ∧ (s.setRing r x).fresh = s.fresh ∧
    (s.setRing r x).now = s.now ∧ (s.setRing r x).settings = s.settings ∧ (s.setRing r x).tiller = s.tiller ∧
    (s.setRing r x).sched = s.sched ∧ (s.setRing r x).ports = s.ports ∧ (s.setRing r x).lanes = s.lanes ∧
    (s.setRing r x).recal = s.recal ∧ (s.setRing r x).refclkLost = s.refclkLost ∧ (s.setRing r x).otn = s.otn ∧
    (s.setRing r x).bridge = s.bridge ∧ (s.setRing r x).flow = s.flow ∧ (s.setRing r x).bales = s.bales ∧ (s.setRing r x).eng = s.eng ∧
    (s.setRing r x).svc = s.svc ∧ (s.setRing r x).matcher = s.matcher ∧ (s.setRing r x).awn = s.awn ∧ (s.setRing r x).gate = s.gate ∧
    (s.setRing r x).ledger = s.ledger ∧ (s.setRing r x).packets = s.packets ∧ (s.setRing r x).nextPkt = s.nextPkt ∧
    (s.setRing r x).core = s.core ∧ (s.setRing r x).mem = s.mem ∧ (s.setRing r x).sheaf = s.sheaf ∧ (s.setRing r x).fault = s.fault ∧
    (s.setRing r x).trust = s.trust ∧ (s.setRing r x).keeper = s.keeper ∧ (s.setRing r x).power = s.power ∧ (s.setRing r x).cnt = s.cnt := by
  (repeat' apply And.intro) <;> rfl

/-- `setBox` writes host alone. -/
@[simp] theorem State.setBox_frame (s : State) (n : Nat) (x : Mailbox) :
    (s.setBox n x).pending = s.pending ∧ (s.setBox n x).outbox = s.outbox ∧ (s.setBox n x).fresh = s.fresh ∧ (s.setBox n x).now = s.now ∧
    (s.setBox n x).settings = s.settings ∧ (s.setBox n x).tiller = s.tiller ∧ (s.setBox n x).sched = s.sched ∧
    (s.setBox n x).ports = s.ports ∧ (s.setBox n x).lanes = s.lanes ∧ (s.setBox n x).recal = s.recal ∧
    (s.setBox n x).refclkLost = s.refclkLost ∧ (s.setBox n x).otn = s.otn ∧ (s.setBox n x).bridge = s.bridge ∧
    (s.setBox n x).flow = s.flow ∧ (s.setBox n x).bales = s.bales ∧ (s.setBox n x).eng = s.eng ∧ (s.setBox n x).svc = s.svc ∧
    (s.setBox n x).matcher = s.matcher ∧ (s.setBox n x).awn = s.awn ∧ (s.setBox n x).gate = s.gate ∧ (s.setBox n x).ledger = s.ledger ∧
    (s.setBox n x).packets = s.packets ∧ (s.setBox n x).nextPkt = s.nextPkt ∧ (s.setBox n x).core = s.core ∧ (s.setBox n x).mem = s.mem ∧
    (s.setBox n x).sheaf = s.sheaf ∧ (s.setBox n x).fault = s.fault ∧ (s.setBox n x).trust = s.trust ∧ (s.setBox n x).keeper = s.keeper ∧
    (s.setBox n x).power = s.power ∧ (s.setBox n x).cnt = s.cnt := by
  (repeat' apply And.intro) <;> rfl

/-- `setPool` writes core alone. -/
@[simp] theorem State.setPool_frame (s : State) (i : Nat) (x : Pool) :
    (s.setPool i x).pending = s.pending ∧ (s.setPool i x).outbox = s.outbox ∧ (s.setPool i x).fresh = s.fresh ∧
    (s.setPool i x).now = s.now ∧ (s.setPool i x).settings = s.settings ∧ (s.setPool i x).tiller = s.tiller ∧
    (s.setPool i x).sched = s.sched ∧ (s.setPool i x).ports = s.ports ∧ (s.setPool i x).lanes = s.lanes ∧
    (s.setPool i x).recal = s.recal ∧ (s.setPool i x).refclkLost = s.refclkLost ∧ (s.setPool i x).otn = s.otn ∧
    (s.setPool i x).bridge = s.bridge ∧ (s.setPool i x).flow = s.flow ∧ (s.setPool i x).bales = s.bales ∧ (s.setPool i x).eng = s.eng ∧
    (s.setPool i x).svc = s.svc ∧ (s.setPool i x).matcher = s.matcher ∧ (s.setPool i x).awn = s.awn ∧ (s.setPool i x).gate = s.gate ∧
    (s.setPool i x).ledger = s.ledger ∧ (s.setPool i x).packets = s.packets ∧ (s.setPool i x).nextPkt = s.nextPkt ∧
    (s.setPool i x).mem = s.mem ∧ (s.setPool i x).sheaf = s.sheaf ∧ (s.setPool i x).host = s.host ∧ (s.setPool i x).fault = s.fault ∧
    (s.setPool i x).trust = s.trust ∧ (s.setPool i x).keeper = s.keeper ∧ (s.setPool i x).power = s.power ∧ (s.setPool i x).cnt = s.cnt := by
  (repeat' apply And.intro) <;> rfl

/-- `setQueue` writes core alone. -/
@[simp] theorem State.setQueue_frame (s : State) (q : Nat) (x : List Nat) :
    (s.setQueue q x).pending = s.pending ∧ (s.setQueue q x).outbox = s.outbox ∧ (s.setQueue q x).fresh = s.fresh ∧
    (s.setQueue q x).now = s.now ∧ (s.setQueue q x).settings = s.settings ∧ (s.setQueue q x).tiller = s.tiller ∧
    (s.setQueue q x).sched = s.sched ∧ (s.setQueue q x).ports = s.ports ∧ (s.setQueue q x).lanes = s.lanes ∧
    (s.setQueue q x).recal = s.recal ∧ (s.setQueue q x).refclkLost = s.refclkLost ∧ (s.setQueue q x).otn = s.otn ∧
    (s.setQueue q x).bridge = s.bridge ∧ (s.setQueue q x).flow = s.flow ∧ (s.setQueue q x).bales = s.bales ∧
    (s.setQueue q x).eng = s.eng ∧ (s.setQueue q x).svc = s.svc ∧ (s.setQueue q x).matcher = s.matcher ∧ (s.setQueue q x).awn = s.awn ∧
    (s.setQueue q x).gate = s.gate ∧ (s.setQueue q x).ledger = s.ledger ∧ (s.setQueue q x).packets = s.packets ∧
    (s.setQueue q x).nextPkt = s.nextPkt ∧ (s.setQueue q x).mem = s.mem ∧ (s.setQueue q x).sheaf = s.sheaf ∧
    (s.setQueue q x).host = s.host ∧ (s.setQueue q x).fault = s.fault ∧ (s.setQueue q x).trust = s.trust ∧
    (s.setQueue q x).keeper = s.keeper ∧ (s.setQueue q x).power = s.power ∧ (s.setQueue q x).cnt = s.cnt := by
  (repeat' apply And.intro) <;> rfl

/-- `setAlloc` writes svc alone. -/
@[simp] theorem State.setAlloc_frame (s : State) (n : Nat) (x : PoolAlloc) :
    (s.setAlloc n x).pending = s.pending ∧ (s.setAlloc n x).outbox = s.outbox ∧ (s.setAlloc n x).fresh = s.fresh ∧
    (s.setAlloc n x).now = s.now ∧ (s.setAlloc n x).settings = s.settings ∧ (s.setAlloc n x).tiller = s.tiller ∧
    (s.setAlloc n x).sched = s.sched ∧ (s.setAlloc n x).ports = s.ports ∧ (s.setAlloc n x).lanes = s.lanes ∧
    (s.setAlloc n x).recal = s.recal ∧ (s.setAlloc n x).refclkLost = s.refclkLost ∧ (s.setAlloc n x).otn = s.otn ∧
    (s.setAlloc n x).bridge = s.bridge ∧ (s.setAlloc n x).flow = s.flow ∧ (s.setAlloc n x).bales = s.bales ∧
    (s.setAlloc n x).eng = s.eng ∧ (s.setAlloc n x).matcher = s.matcher ∧ (s.setAlloc n x).awn = s.awn ∧ (s.setAlloc n x).gate = s.gate ∧
    (s.setAlloc n x).ledger = s.ledger ∧ (s.setAlloc n x).packets = s.packets ∧ (s.setAlloc n x).nextPkt = s.nextPkt ∧
    (s.setAlloc n x).core = s.core ∧ (s.setAlloc n x).mem = s.mem ∧ (s.setAlloc n x).sheaf = s.sheaf ∧ (s.setAlloc n x).host = s.host ∧
    (s.setAlloc n x).fault = s.fault ∧ (s.setAlloc n x).trust = s.trust ∧ (s.setAlloc n x).keeper = s.keeper ∧
    (s.setAlloc n x).power = s.power ∧ (s.setAlloc n x).cnt = s.cnt := by
  (repeat' apply And.intro) <;> rfl

/-- `emit` writes outbox alone. -/
@[simp] theorem State.emit_frame (s : State) (o : Output) :
    (s.emit o).pending = s.pending ∧ (s.emit o).fresh = s.fresh ∧ (s.emit o).now = s.now ∧ (s.emit o).settings = s.settings ∧
    (s.emit o).tiller = s.tiller ∧ (s.emit o).sched = s.sched ∧ (s.emit o).ports = s.ports ∧ (s.emit o).lanes = s.lanes ∧
    (s.emit o).recal = s.recal ∧ (s.emit o).refclkLost = s.refclkLost ∧ (s.emit o).otn = s.otn ∧ (s.emit o).bridge = s.bridge ∧
    (s.emit o).flow = s.flow ∧ (s.emit o).bales = s.bales ∧ (s.emit o).eng = s.eng ∧ (s.emit o).svc = s.svc ∧
    (s.emit o).matcher = s.matcher ∧ (s.emit o).awn = s.awn ∧ (s.emit o).gate = s.gate ∧ (s.emit o).ledger = s.ledger ∧
    (s.emit o).packets = s.packets ∧ (s.emit o).nextPkt = s.nextPkt ∧ (s.emit o).core = s.core ∧ (s.emit o).mem = s.mem ∧
    (s.emit o).sheaf = s.sheaf ∧ (s.emit o).host = s.host ∧ (s.emit o).fault = s.fault ∧ (s.emit o).trust = s.trust ∧
    (s.emit o).keeper = s.keeper ∧ (s.emit o).power = s.power ∧ (s.emit o).cnt = s.cnt := by
  (repeat' apply And.intro) <;> rfl

/-- `count` writes cnt alone. -/
@[simp] theorem State.count_frame (s : State) (block idx : Nat) (n : Nat) :
    (s.count block idx n).pending = s.pending ∧ (s.count block idx n).outbox = s.outbox ∧ (s.count block idx n).fresh = s.fresh ∧
    (s.count block idx n).now = s.now ∧ (s.count block idx n).settings = s.settings ∧ (s.count block idx n).tiller = s.tiller ∧
    (s.count block idx n).sched = s.sched ∧ (s.count block idx n).ports = s.ports ∧ (s.count block idx n).lanes = s.lanes ∧
    (s.count block idx n).recal = s.recal ∧ (s.count block idx n).refclkLost = s.refclkLost ∧ (s.count block idx n).otn = s.otn ∧
    (s.count block idx n).bridge = s.bridge ∧ (s.count block idx n).flow = s.flow ∧ (s.count block idx n).bales = s.bales ∧
    (s.count block idx n).eng = s.eng ∧ (s.count block idx n).svc = s.svc ∧ (s.count block idx n).matcher = s.matcher ∧
    (s.count block idx n).awn = s.awn ∧ (s.count block idx n).gate = s.gate ∧ (s.count block idx n).ledger = s.ledger ∧
    (s.count block idx n).packets = s.packets ∧ (s.count block idx n).nextPkt = s.nextPkt ∧ (s.count block idx n).core = s.core ∧
    (s.count block idx n).mem = s.mem ∧ (s.count block idx n).sheaf = s.sheaf ∧ (s.count block idx n).host = s.host ∧
    (s.count block idx n).fault = s.fault ∧ (s.count block idx n).trust = s.trust ∧ (s.count block idx n).keeper = s.keeper ∧
    (s.count block idx n).power = s.power := by
  (repeat' apply And.intro) <;> rfl

/-- `pushRecord` writes ledger alone. -/
@[simp] theorem State.pushRecord_frame (s : State) (bytes : Bytes) :
    (s.pushRecord bytes).pending = s.pending ∧ (s.pushRecord bytes).outbox = s.outbox ∧ (s.pushRecord bytes).fresh = s.fresh ∧
    (s.pushRecord bytes).now = s.now ∧ (s.pushRecord bytes).settings = s.settings ∧ (s.pushRecord bytes).tiller = s.tiller ∧
    (s.pushRecord bytes).sched = s.sched ∧ (s.pushRecord bytes).ports = s.ports ∧ (s.pushRecord bytes).lanes = s.lanes ∧
    (s.pushRecord bytes).recal = s.recal ∧ (s.pushRecord bytes).refclkLost = s.refclkLost ∧ (s.pushRecord bytes).otn = s.otn ∧
    (s.pushRecord bytes).bridge = s.bridge ∧ (s.pushRecord bytes).flow = s.flow ∧ (s.pushRecord bytes).bales = s.bales ∧
    (s.pushRecord bytes).eng = s.eng ∧ (s.pushRecord bytes).svc = s.svc ∧ (s.pushRecord bytes).matcher = s.matcher ∧
    (s.pushRecord bytes).awn = s.awn ∧ (s.pushRecord bytes).gate = s.gate ∧ (s.pushRecord bytes).packets = s.packets ∧
    (s.pushRecord bytes).nextPkt = s.nextPkt ∧ (s.pushRecord bytes).core = s.core ∧ (s.pushRecord bytes).mem = s.mem ∧
    (s.pushRecord bytes).sheaf = s.sheaf ∧ (s.pushRecord bytes).host = s.host ∧ (s.pushRecord bytes).fault = s.fault ∧
    (s.pushRecord bytes).trust = s.trust ∧ (s.pushRecord bytes).keeper = s.keeper ∧ (s.pushRecord bytes).power = s.power ∧
    (s.pushRecord bytes).cnt = s.cnt := by
  (repeat' apply And.intro) <;> rfl

/-- `putObj` writes bales alone. -/
@[simp] theorem State.putObj_frame (s : State) (key e : Nat) (x : Option Bytes) :
    (s.putObj key e x).pending = s.pending ∧ (s.putObj key e x).outbox = s.outbox ∧ (s.putObj key e x).fresh = s.fresh ∧
    (s.putObj key e x).now = s.now ∧ (s.putObj key e x).settings = s.settings ∧ (s.putObj key e x).tiller = s.tiller ∧
    (s.putObj key e x).sched = s.sched ∧ (s.putObj key e x).ports = s.ports ∧ (s.putObj key e x).lanes = s.lanes ∧
    (s.putObj key e x).recal = s.recal ∧ (s.putObj key e x).refclkLost = s.refclkLost ∧ (s.putObj key e x).otn = s.otn ∧
    (s.putObj key e x).bridge = s.bridge ∧ (s.putObj key e x).flow = s.flow ∧ (s.putObj key e x).eng = s.eng ∧
    (s.putObj key e x).svc = s.svc ∧ (s.putObj key e x).matcher = s.matcher ∧ (s.putObj key e x).awn = s.awn ∧
    (s.putObj key e x).gate = s.gate ∧ (s.putObj key e x).ledger = s.ledger ∧ (s.putObj key e x).packets = s.packets ∧
    (s.putObj key e x).nextPkt = s.nextPkt ∧ (s.putObj key e x).core = s.core ∧ (s.putObj key e x).mem = s.mem ∧
    (s.putObj key e x).sheaf = s.sheaf ∧ (s.putObj key e x).host = s.host ∧ (s.putObj key e x).fault = s.fault ∧
    (s.putObj key e x).trust = s.trust ∧ (s.putObj key e x).keeper = s.keeper ∧ (s.putObj key e x).power = s.power ∧
    (s.putObj key e x).cnt = s.cnt := by
  (repeat' apply And.intro) <;> rfl

/-- `setXoff` writes core alone. -/
@[simp] theorem State.setXoff_frame (s : State) (p c : Nat) (x : Xoff) :
    (s.setXoff p c x).pending = s.pending ∧ (s.setXoff p c x).outbox = s.outbox ∧ (s.setXoff p c x).fresh = s.fresh ∧
    (s.setXoff p c x).now = s.now ∧ (s.setXoff p c x).settings = s.settings ∧ (s.setXoff p c x).tiller = s.tiller ∧
    (s.setXoff p c x).sched = s.sched ∧ (s.setXoff p c x).ports = s.ports ∧ (s.setXoff p c x).lanes = s.lanes ∧
    (s.setXoff p c x).recal = s.recal ∧ (s.setXoff p c x).refclkLost = s.refclkLost ∧ (s.setXoff p c x).otn = s.otn ∧
    (s.setXoff p c x).bridge = s.bridge ∧ (s.setXoff p c x).flow = s.flow ∧ (s.setXoff p c x).bales = s.bales ∧
    (s.setXoff p c x).eng = s.eng ∧ (s.setXoff p c x).svc = s.svc ∧ (s.setXoff p c x).matcher = s.matcher ∧
    (s.setXoff p c x).awn = s.awn ∧ (s.setXoff p c x).gate = s.gate ∧ (s.setXoff p c x).ledger = s.ledger ∧
    (s.setXoff p c x).packets = s.packets ∧ (s.setXoff p c x).nextPkt = s.nextPkt ∧ (s.setXoff p c x).mem = s.mem ∧
    (s.setXoff p c x).sheaf = s.sheaf ∧ (s.setXoff p c x).host = s.host ∧ (s.setXoff p c x).fault = s.fault ∧
    (s.setXoff p c x).trust = s.trust ∧ (s.setXoff p c x).keeper = s.keeper ∧ (s.setXoff p c x).power = s.power ∧
    (s.setXoff p c x).cnt = s.cnt := by
  (repeat' apply And.intro) <;> rfl

/-- `setPtp` writes tiller alone. -/
@[simp] theorem State.setPtp_frame (s : State) (p : Nat) (x : PtpPort) :
    (s.setPtp p x).pending = s.pending ∧ (s.setPtp p x).outbox = s.outbox ∧ (s.setPtp p x).fresh = s.fresh ∧ (s.setPtp p x).now = s.now ∧
    (s.setPtp p x).settings = s.settings ∧ (s.setPtp p x).sched = s.sched ∧ (s.setPtp p x).ports = s.ports ∧
    (s.setPtp p x).lanes = s.lanes ∧ (s.setPtp p x).recal = s.recal ∧ (s.setPtp p x).refclkLost = s.refclkLost ∧
    (s.setPtp p x).otn = s.otn ∧ (s.setPtp p x).bridge = s.bridge ∧ (s.setPtp p x).flow = s.flow ∧ (s.setPtp p x).bales = s.bales ∧
    (s.setPtp p x).eng = s.eng ∧ (s.setPtp p x).svc = s.svc ∧ (s.setPtp p x).matcher = s.matcher ∧ (s.setPtp p x).awn = s.awn ∧
    (s.setPtp p x).gate = s.gate ∧ (s.setPtp p x).ledger = s.ledger ∧ (s.setPtp p x).packets = s.packets ∧
    (s.setPtp p x).nextPkt = s.nextPkt ∧ (s.setPtp p x).core = s.core ∧ (s.setPtp p x).mem = s.mem ∧ (s.setPtp p x).sheaf = s.sheaf ∧
    (s.setPtp p x).host = s.host ∧ (s.setPtp p x).fault = s.fault ∧ (s.setPtp p x).trust = s.trust ∧ (s.setPtp p x).keeper = s.keeper ∧
    (s.setPtp p x).power = s.power ∧ (s.setPtp p x).cnt = s.cnt := by
  (repeat' apply And.intro) <;> rfl

/-- `anchorEdge` writes tiller alone. -/
@[simp] theorem State.anchorEdge_frame (s : State) (t : Nat) :
    (s.anchorEdge t).pending = s.pending ∧ (s.anchorEdge t).outbox = s.outbox ∧ (s.anchorEdge t).fresh = s.fresh ∧
    (s.anchorEdge t).now = s.now ∧ (s.anchorEdge t).settings = s.settings ∧ (s.anchorEdge t).sched = s.sched ∧
    (s.anchorEdge t).ports = s.ports ∧ (s.anchorEdge t).lanes = s.lanes ∧ (s.anchorEdge t).recal = s.recal ∧
    (s.anchorEdge t).refclkLost = s.refclkLost ∧ (s.anchorEdge t).otn = s.otn ∧ (s.anchorEdge t).bridge = s.bridge ∧
    (s.anchorEdge t).flow = s.flow ∧ (s.anchorEdge t).bales = s.bales ∧ (s.anchorEdge t).eng = s.eng ∧ (s.anchorEdge t).svc = s.svc ∧
    (s.anchorEdge t).matcher = s.matcher ∧ (s.anchorEdge t).awn = s.awn ∧ (s.anchorEdge t).gate = s.gate ∧
    (s.anchorEdge t).ledger = s.ledger ∧ (s.anchorEdge t).packets = s.packets ∧ (s.anchorEdge t).nextPkt = s.nextPkt ∧
    (s.anchorEdge t).core = s.core ∧ (s.anchorEdge t).mem = s.mem ∧ (s.anchorEdge t).sheaf = s.sheaf ∧ (s.anchorEdge t).host = s.host ∧
    (s.anchorEdge t).fault = s.fault ∧ (s.anchorEdge t).trust = s.trust ∧ (s.anchorEdge t).keeper = s.keeper ∧
    (s.anchorEdge t).power = s.power ∧ (s.anchorEdge t).cnt = s.cnt := by
  (repeat' apply And.intro) <;> rfl

/-- `takeSeq` writes gate alone. -/
@[simp] theorem State.takeSeq_frame (s : State) (key q : Nat) :
    (s.takeSeq key q).pending = s.pending ∧ (s.takeSeq key q).outbox = s.outbox ∧ (s.takeSeq key q).fresh = s.fresh ∧
    (s.takeSeq key q).now = s.now ∧ (s.takeSeq key q).settings = s.settings ∧ (s.takeSeq key q).tiller = s.tiller ∧
    (s.takeSeq key q).sched = s.sched ∧ (s.takeSeq key q).ports = s.ports ∧ (s.takeSeq key q).lanes = s.lanes ∧
    (s.takeSeq key q).recal = s.recal ∧ (s.takeSeq key q).refclkLost = s.refclkLost ∧ (s.takeSeq key q).otn = s.otn ∧
    (s.takeSeq key q).bridge = s.bridge ∧ (s.takeSeq key q).flow = s.flow ∧ (s.takeSeq key q).bales = s.bales ∧
    (s.takeSeq key q).eng = s.eng ∧ (s.takeSeq key q).svc = s.svc ∧ (s.takeSeq key q).matcher = s.matcher ∧
    (s.takeSeq key q).awn = s.awn ∧ (s.takeSeq key q).ledger = s.ledger ∧ (s.takeSeq key q).packets = s.packets ∧
    (s.takeSeq key q).nextPkt = s.nextPkt ∧ (s.takeSeq key q).core = s.core ∧ (s.takeSeq key q).mem = s.mem ∧
    (s.takeSeq key q).sheaf = s.sheaf ∧ (s.takeSeq key q).host = s.host ∧ (s.takeSeq key q).fault = s.fault ∧
    (s.takeSeq key q).trust = s.trust ∧ (s.takeSeq key q).keeper = s.keeper ∧ (s.takeSeq key q).power = s.power ∧
    (s.takeSeq key q).cnt = s.cnt := by
  (repeat' apply And.intro) <;> rfl

/-- `unspend` writes gate alone. -/
@[simp] theorem State.unspend_frame (s : State) (b : Bytes) :
    (s.unspend b).pending = s.pending ∧ (s.unspend b).outbox = s.outbox ∧ (s.unspend b).fresh = s.fresh ∧ (s.unspend b).now = s.now ∧
    (s.unspend b).settings = s.settings ∧ (s.unspend b).tiller = s.tiller ∧ (s.unspend b).sched = s.sched ∧
    (s.unspend b).ports = s.ports ∧ (s.unspend b).lanes = s.lanes ∧ (s.unspend b).recal = s.recal ∧
    (s.unspend b).refclkLost = s.refclkLost ∧ (s.unspend b).otn = s.otn ∧ (s.unspend b).bridge = s.bridge ∧ (s.unspend b).flow = s.flow ∧
    (s.unspend b).bales = s.bales ∧ (s.unspend b).eng = s.eng ∧ (s.unspend b).svc = s.svc ∧ (s.unspend b).matcher = s.matcher ∧
    (s.unspend b).awn = s.awn ∧ (s.unspend b).ledger = s.ledger ∧ (s.unspend b).packets = s.packets ∧ (s.unspend b).nextPkt = s.nextPkt ∧
    (s.unspend b).core = s.core ∧ (s.unspend b).mem = s.mem ∧ (s.unspend b).sheaf = s.sheaf ∧ (s.unspend b).host = s.host ∧
    (s.unspend b).fault = s.fault ∧ (s.unspend b).trust = s.trust ∧ (s.unspend b).keeper = s.keeper ∧ (s.unspend b).power = s.power ∧
    (s.unspend b).cnt = s.cnt := by
  (repeat' apply And.intro) <;> rfl

/-- `releaseSlot` writes packets alone. -/
@[simp] theorem State.releaseSlot_frame (s : State) (g i p : Nat) :
    (s.releaseSlot g i p).pending = s.pending ∧ (s.releaseSlot g i p).outbox = s.outbox ∧ (s.releaseSlot g i p).fresh = s.fresh ∧
    (s.releaseSlot g i p).now = s.now ∧ (s.releaseSlot g i p).settings = s.settings ∧ (s.releaseSlot g i p).tiller = s.tiller ∧
    (s.releaseSlot g i p).sched = s.sched ∧ (s.releaseSlot g i p).ports = s.ports ∧ (s.releaseSlot g i p).lanes = s.lanes ∧
    (s.releaseSlot g i p).recal = s.recal ∧ (s.releaseSlot g i p).refclkLost = s.refclkLost ∧ (s.releaseSlot g i p).otn = s.otn ∧
    (s.releaseSlot g i p).bridge = s.bridge ∧ (s.releaseSlot g i p).flow = s.flow ∧ (s.releaseSlot g i p).bales = s.bales ∧
    (s.releaseSlot g i p).eng = s.eng ∧ (s.releaseSlot g i p).svc = s.svc ∧ (s.releaseSlot g i p).matcher = s.matcher ∧
    (s.releaseSlot g i p).awn = s.awn ∧ (s.releaseSlot g i p).gate = s.gate ∧ (s.releaseSlot g i p).ledger = s.ledger ∧
    (s.releaseSlot g i p).nextPkt = s.nextPkt ∧ (s.releaseSlot g i p).core = s.core ∧ (s.releaseSlot g i p).mem = s.mem ∧
    (s.releaseSlot g i p).sheaf = s.sheaf ∧ (s.releaseSlot g i p).host = s.host ∧ (s.releaseSlot g i p).fault = s.fault ∧
    (s.releaseSlot g i p).trust = s.trust ∧ (s.releaseSlot g i p).keeper = s.keeper ∧ (s.releaseSlot g i p).power = s.power ∧
    (s.releaseSlot g i p).cnt = s.cnt := by
  (repeat' apply And.intro) <;> rfl

/-- `archivePut` writes svc alone. -/
@[simp] theorem State.archivePut_frame (s : State) (i n : Nat) (e : Bytes) :
    (s.archivePut i n e).pending = s.pending ∧ (s.archivePut i n e).outbox = s.outbox ∧ (s.archivePut i n e).fresh = s.fresh ∧
    (s.archivePut i n e).now = s.now ∧ (s.archivePut i n e).settings = s.settings ∧ (s.archivePut i n e).tiller = s.tiller ∧
    (s.archivePut i n e).sched = s.sched ∧ (s.archivePut i n e).ports = s.ports ∧ (s.archivePut i n e).lanes = s.lanes ∧
    (s.archivePut i n e).recal = s.recal ∧ (s.archivePut i n e).refclkLost = s.refclkLost ∧ (s.archivePut i n e).otn = s.otn ∧
    (s.archivePut i n e).bridge = s.bridge ∧ (s.archivePut i n e).flow = s.flow ∧ (s.archivePut i n e).bales = s.bales ∧
    (s.archivePut i n e).eng = s.eng ∧ (s.archivePut i n e).matcher = s.matcher ∧ (s.archivePut i n e).awn = s.awn ∧
    (s.archivePut i n e).gate = s.gate ∧ (s.archivePut i n e).ledger = s.ledger ∧ (s.archivePut i n e).packets = s.packets ∧
    (s.archivePut i n e).nextPkt = s.nextPkt ∧ (s.archivePut i n e).core = s.core ∧ (s.archivePut i n e).mem = s.mem ∧
    (s.archivePut i n e).sheaf = s.sheaf ∧ (s.archivePut i n e).host = s.host ∧ (s.archivePut i n e).fault = s.fault ∧
    (s.archivePut i n e).trust = s.trust ∧ (s.archivePut i n e).keeper = s.keeper ∧ (s.archivePut i n e).power = s.power ∧
    (s.archivePut i n e).cnt = s.cnt := by
  (repeat' apply And.intro) <;> rfl

/-- `setRec` writes flow alone. -/
@[simp] theorem State.setRec_frame (s : State) (loc : Nat) (r : FlowRec) :
    (s.setRec loc r).pending = s.pending ∧ (s.setRec loc r).outbox = s.outbox ∧ (s.setRec loc r).fresh = s.fresh ∧
    (s.setRec loc r).now = s.now ∧ (s.setRec loc r).settings = s.settings ∧ (s.setRec loc r).tiller = s.tiller ∧
    (s.setRec loc r).sched = s.sched ∧ (s.setRec loc r).ports = s.ports ∧ (s.setRec loc r).lanes = s.lanes ∧
    (s.setRec loc r).recal = s.recal ∧ (s.setRec loc r).refclkLost = s.refclkLost ∧ (s.setRec loc r).otn = s.otn ∧
    (s.setRec loc r).bridge = s.bridge ∧ (s.setRec loc r).bales = s.bales ∧ (s.setRec loc r).eng = s.eng ∧ (s.setRec loc r).svc = s.svc ∧
    (s.setRec loc r).matcher = s.matcher ∧ (s.setRec loc r).awn = s.awn ∧ (s.setRec loc r).gate = s.gate ∧
    (s.setRec loc r).ledger = s.ledger ∧ (s.setRec loc r).packets = s.packets ∧ (s.setRec loc r).nextPkt = s.nextPkt ∧
    (s.setRec loc r).core = s.core ∧ (s.setRec loc r).mem = s.mem ∧ (s.setRec loc r).sheaf = s.sheaf ∧ (s.setRec loc r).host = s.host ∧
    (s.setRec loc r).fault = s.fault ∧ (s.setRec loc r).trust = s.trust ∧ (s.setRec loc r).keeper = s.keeper ∧
    (s.setRec loc r).power = s.power ∧ (s.setRec loc r).cnt = s.cnt := by
  (repeat' apply And.intro) <;> rfl

/-- `setCache` writes flow alone. -/
@[simp] theorem State.setCache_frame (s : State) (k : Nat) (ls : List CacheLine) :
    (s.setCache k ls).pending = s.pending ∧ (s.setCache k ls).outbox = s.outbox ∧ (s.setCache k ls).fresh = s.fresh ∧
    (s.setCache k ls).now = s.now ∧ (s.setCache k ls).settings = s.settings ∧ (s.setCache k ls).tiller = s.tiller ∧
    (s.setCache k ls).sched = s.sched ∧ (s.setCache k ls).ports = s.ports ∧ (s.setCache k ls).lanes = s.lanes ∧
    (s.setCache k ls).recal = s.recal ∧ (s.setCache k ls).refclkLost = s.refclkLost ∧ (s.setCache k ls).otn = s.otn ∧
    (s.setCache k ls).bridge = s.bridge ∧ (s.setCache k ls).bales = s.bales ∧ (s.setCache k ls).eng = s.eng ∧
    (s.setCache k ls).svc = s.svc ∧ (s.setCache k ls).matcher = s.matcher ∧ (s.setCache k ls).awn = s.awn ∧
    (s.setCache k ls).gate = s.gate ∧ (s.setCache k ls).ledger = s.ledger ∧ (s.setCache k ls).packets = s.packets ∧
    (s.setCache k ls).nextPkt = s.nextPkt ∧ (s.setCache k ls).core = s.core ∧ (s.setCache k ls).mem = s.mem ∧
    (s.setCache k ls).sheaf = s.sheaf ∧ (s.setCache k ls).host = s.host ∧ (s.setCache k ls).fault = s.fault ∧
    (s.setCache k ls).trust = s.trust ∧ (s.setCache k ls).keeper = s.keeper ∧ (s.setCache k ls).power = s.power ∧
    (s.setCache k ls).cnt = s.cnt := by
  (repeat' apply And.intro) <;> rfl

/-- `setWork` writes awn alone. -/
@[simp] theorem State.setWork_frame (s : State) (k : Nat) (q : List Nat) :
    (s.setWork k q).pending = s.pending ∧ (s.setWork k q).outbox = s.outbox ∧ (s.setWork k q).fresh = s.fresh ∧
    (s.setWork k q).now = s.now ∧ (s.setWork k q).settings = s.settings ∧ (s.setWork k q).tiller = s.tiller ∧
    (s.setWork k q).sched = s.sched ∧ (s.setWork k q).ports = s.ports ∧ (s.setWork k q).lanes = s.lanes ∧
    (s.setWork k q).recal = s.recal ∧ (s.setWork k q).refclkLost = s.refclkLost ∧ (s.setWork k q).otn = s.otn ∧
    (s.setWork k q).bridge = s.bridge ∧ (s.setWork k q).flow = s.flow ∧ (s.setWork k q).bales = s.bales ∧ (s.setWork k q).eng = s.eng ∧
    (s.setWork k q).svc = s.svc ∧ (s.setWork k q).matcher = s.matcher ∧ (s.setWork k q).gate = s.gate ∧
    (s.setWork k q).ledger = s.ledger ∧ (s.setWork k q).packets = s.packets ∧ (s.setWork k q).nextPkt = s.nextPkt ∧
    (s.setWork k q).core = s.core ∧ (s.setWork k q).mem = s.mem ∧ (s.setWork k q).sheaf = s.sheaf ∧ (s.setWork k q).host = s.host ∧
    (s.setWork k q).fault = s.fault ∧ (s.setWork k q).trust = s.trust ∧ (s.setWork k q).keeper = s.keeper ∧
    (s.setWork k q).power = s.power ∧ (s.setWork k q).cnt = s.cnt := by
  (repeat' apply And.intro) <;> rfl

/-- `issueOp` writes flow alone. -/
@[simp] theorem State.issueOp_frame (s : State) (n : Nat) (p : Packet) (key : Bytes) :
    (s.issueOp n p key).pending = s.pending ∧ (s.issueOp n p key).outbox = s.outbox ∧ (s.issueOp n p key).fresh = s.fresh ∧
    (s.issueOp n p key).now = s.now ∧ (s.issueOp n p key).settings = s.settings ∧ (s.issueOp n p key).tiller = s.tiller ∧
    (s.issueOp n p key).sched = s.sched ∧ (s.issueOp n p key).ports = s.ports ∧ (s.issueOp n p key).lanes = s.lanes ∧
    (s.issueOp n p key).recal = s.recal ∧ (s.issueOp n p key).refclkLost = s.refclkLost ∧ (s.issueOp n p key).otn = s.otn ∧
    (s.issueOp n p key).bridge = s.bridge ∧ (s.issueOp n p key).bales = s.bales ∧ (s.issueOp n p key).eng = s.eng ∧
    (s.issueOp n p key).svc = s.svc ∧ (s.issueOp n p key).matcher = s.matcher ∧ (s.issueOp n p key).awn = s.awn ∧
    (s.issueOp n p key).gate = s.gate ∧ (s.issueOp n p key).ledger = s.ledger ∧ (s.issueOp n p key).packets = s.packets ∧
    (s.issueOp n p key).nextPkt = s.nextPkt ∧ (s.issueOp n p key).core = s.core ∧ (s.issueOp n p key).mem = s.mem ∧
    (s.issueOp n p key).sheaf = s.sheaf ∧ (s.issueOp n p key).host = s.host ∧ (s.issueOp n p key).fault = s.fault ∧
    (s.issueOp n p key).trust = s.trust ∧ (s.issueOp n p key).keeper = s.keeper ∧ (s.issueOp n p key).power = s.power ∧
    (s.issueOp n p key).cnt = s.cnt := by
  (repeat' apply And.intro) <;> rfl

/-- `endOp` writes flow alone. -/
@[simp] theorem State.endOp_frame (s : State) (n : Nat) (key : Bytes) :
    (s.endOp n key).pending = s.pending ∧ (s.endOp n key).outbox = s.outbox ∧ (s.endOp n key).fresh = s.fresh ∧
    (s.endOp n key).now = s.now ∧ (s.endOp n key).settings = s.settings ∧ (s.endOp n key).tiller = s.tiller ∧
    (s.endOp n key).sched = s.sched ∧ (s.endOp n key).ports = s.ports ∧ (s.endOp n key).lanes = s.lanes ∧
    (s.endOp n key).recal = s.recal ∧ (s.endOp n key).refclkLost = s.refclkLost ∧ (s.endOp n key).otn = s.otn ∧
    (s.endOp n key).bridge = s.bridge ∧ (s.endOp n key).bales = s.bales ∧ (s.endOp n key).eng = s.eng ∧ (s.endOp n key).svc = s.svc ∧
    (s.endOp n key).matcher = s.matcher ∧ (s.endOp n key).awn = s.awn ∧ (s.endOp n key).gate = s.gate ∧
    (s.endOp n key).ledger = s.ledger ∧ (s.endOp n key).packets = s.packets ∧ (s.endOp n key).nextPkt = s.nextPkt ∧
    (s.endOp n key).core = s.core ∧ (s.endOp n key).mem = s.mem ∧ (s.endOp n key).sheaf = s.sheaf ∧ (s.endOp n key).host = s.host ∧
    (s.endOp n key).fault = s.fault ∧ (s.endOp n key).trust = s.trust ∧ (s.endOp n key).keeper = s.keeper ∧
    (s.endOp n key).power = s.power ∧ (s.endOp n key).cnt = s.cnt := by
  (repeat' apply And.intro) <;> rfl

/-- `lockOp` writes flow alone. -/
@[simp] theorem State.lockOp_frame (s : State) (n : Nat) (key : Bytes) :
    (s.lockOp n key).pending = s.pending ∧ (s.lockOp n key).outbox = s.outbox ∧ (s.lockOp n key).fresh = s.fresh ∧
    (s.lockOp n key).now = s.now ∧ (s.lockOp n key).settings = s.settings ∧ (s.lockOp n key).tiller = s.tiller ∧
    (s.lockOp n key).sched = s.sched ∧ (s.lockOp n key).ports = s.ports ∧ (s.lockOp n key).lanes = s.lanes ∧
    (s.lockOp n key).recal = s.recal ∧ (s.lockOp n key).refclkLost = s.refclkLost ∧ (s.lockOp n key).otn = s.otn ∧
    (s.lockOp n key).bridge = s.bridge ∧ (s.lockOp n key).bales = s.bales ∧ (s.lockOp n key).eng = s.eng ∧ (s.lockOp n key).svc = s.svc ∧
    (s.lockOp n key).matcher = s.matcher ∧ (s.lockOp n key).awn = s.awn ∧ (s.lockOp n key).gate = s.gate ∧
    (s.lockOp n key).ledger = s.ledger ∧ (s.lockOp n key).packets = s.packets ∧ (s.lockOp n key).nextPkt = s.nextPkt ∧
    (s.lockOp n key).core = s.core ∧ (s.lockOp n key).mem = s.mem ∧ (s.lockOp n key).sheaf = s.sheaf ∧ (s.lockOp n key).host = s.host ∧
    (s.lockOp n key).fault = s.fault ∧ (s.lockOp n key).trust = s.trust ∧ (s.lockOp n key).keeper = s.keeper ∧
    (s.lockOp n key).power = s.power ∧ (s.lockOp n key).cnt = s.cnt := by
  (repeat' apply And.intro) <;> rfl

/-- `releaseLocks` writes flow alone. -/
@[simp] theorem State.releaseLocks_frame (s : State) (n : Nat) :
    (s.releaseLocks n).pending = s.pending ∧ (s.releaseLocks n).outbox = s.outbox ∧ (s.releaseLocks n).fresh = s.fresh ∧
    (s.releaseLocks n).now = s.now ∧ (s.releaseLocks n).settings = s.settings ∧ (s.releaseLocks n).tiller = s.tiller ∧
    (s.releaseLocks n).sched = s.sched ∧ (s.releaseLocks n).ports = s.ports ∧ (s.releaseLocks n).lanes = s.lanes ∧
    (s.releaseLocks n).recal = s.recal ∧ (s.releaseLocks n).refclkLost = s.refclkLost ∧ (s.releaseLocks n).otn = s.otn ∧
    (s.releaseLocks n).bridge = s.bridge ∧ (s.releaseLocks n).bales = s.bales ∧ (s.releaseLocks n).eng = s.eng ∧
    (s.releaseLocks n).svc = s.svc ∧ (s.releaseLocks n).matcher = s.matcher ∧ (s.releaseLocks n).awn = s.awn ∧
    (s.releaseLocks n).gate = s.gate ∧ (s.releaseLocks n).ledger = s.ledger ∧ (s.releaseLocks n).packets = s.packets ∧
    (s.releaseLocks n).nextPkt = s.nextPkt ∧ (s.releaseLocks n).core = s.core ∧ (s.releaseLocks n).mem = s.mem ∧
    (s.releaseLocks n).sheaf = s.sheaf ∧ (s.releaseLocks n).host = s.host ∧ (s.releaseLocks n).fault = s.fault ∧
    (s.releaseLocks n).trust = s.trust ∧ (s.releaseLocks n).keeper = s.keeper ∧ (s.releaseLocks n).power = s.power ∧
    (s.releaseLocks n).cnt = s.cnt := by
  (repeat' apply And.intro) <;> rfl

/-- `windowWrite` writes host alone. -/
@[simp] theorem State.windowWrite_frame (s : State) (mb off : Nat) (bs : Bytes) :
    (s.windowWrite mb off bs).pending = s.pending ∧ (s.windowWrite mb off bs).outbox = s.outbox ∧
    (s.windowWrite mb off bs).fresh = s.fresh ∧ (s.windowWrite mb off bs).now = s.now ∧ (s.windowWrite mb off bs).settings = s.settings ∧
    (s.windowWrite mb off bs).tiller = s.tiller ∧ (s.windowWrite mb off bs).sched = s.sched ∧ (s.windowWrite mb off bs).ports = s.ports ∧
    (s.windowWrite mb off bs).lanes = s.lanes ∧ (s.windowWrite mb off bs).recal = s.recal ∧
    (s.windowWrite mb off bs).refclkLost = s.refclkLost ∧ (s.windowWrite mb off bs).otn = s.otn ∧
    (s.windowWrite mb off bs).bridge = s.bridge ∧ (s.windowWrite mb off bs).flow = s.flow ∧ (s.windowWrite mb off bs).bales = s.bales ∧
    (s.windowWrite mb off bs).eng = s.eng ∧ (s.windowWrite mb off bs).svc = s.svc ∧ (s.windowWrite mb off bs).matcher = s.matcher ∧
    (s.windowWrite mb off bs).awn = s.awn ∧ (s.windowWrite mb off bs).gate = s.gate ∧ (s.windowWrite mb off bs).ledger = s.ledger ∧
    (s.windowWrite mb off bs).packets = s.packets ∧ (s.windowWrite mb off bs).nextPkt = s.nextPkt ∧
    (s.windowWrite mb off bs).core = s.core ∧ (s.windowWrite mb off bs).mem = s.mem ∧ (s.windowWrite mb off bs).sheaf = s.sheaf ∧
    (s.windowWrite mb off bs).fault = s.fault ∧ (s.windowWrite mb off bs).trust = s.trust ∧ (s.windowWrite mb off bs).keeper = s.keeper ∧
    (s.windowWrite mb off bs).power = s.power ∧ (s.windowWrite mb off bs).cnt = s.cnt := by
  (repeat' apply And.intro) <;> rfl

/-- `spendCounter` writes host alone. -/
@[simp] theorem State.spendCounter_frame (s : State) (id counter : Nat) :
    (s.spendCounter id counter).pending = s.pending ∧ (s.spendCounter id counter).outbox = s.outbox ∧
    (s.spendCounter id counter).fresh = s.fresh ∧ (s.spendCounter id counter).now = s.now ∧
    (s.spendCounter id counter).settings = s.settings ∧ (s.spendCounter id counter).tiller = s.tiller ∧
    (s.spendCounter id counter).sched = s.sched ∧ (s.spendCounter id counter).ports = s.ports ∧
    (s.spendCounter id counter).lanes = s.lanes ∧ (s.spendCounter id counter).recal = s.recal ∧
    (s.spendCounter id counter).refclkLost = s.refclkLost ∧ (s.spendCounter id counter).otn = s.otn ∧
    (s.spendCounter id counter).bridge = s.bridge ∧ (s.spendCounter id counter).flow = s.flow ∧
    (s.spendCounter id counter).bales = s.bales ∧ (s.spendCounter id counter).eng = s.eng ∧ (s.spendCounter id counter).svc = s.svc ∧
    (s.spendCounter id counter).matcher = s.matcher ∧ (s.spendCounter id counter).awn = s.awn ∧
    (s.spendCounter id counter).gate = s.gate ∧ (s.spendCounter id counter).ledger = s.ledger ∧
    (s.spendCounter id counter).packets = s.packets ∧ (s.spendCounter id counter).nextPkt = s.nextPkt ∧
    (s.spendCounter id counter).core = s.core ∧ (s.spendCounter id counter).mem = s.mem ∧ (s.spendCounter id counter).sheaf = s.sheaf ∧
    (s.spendCounter id counter).fault = s.fault ∧ (s.spendCounter id counter).trust = s.trust ∧
    (s.spendCounter id counter).keeper = s.keeper ∧ (s.spendCounter id counter).power = s.power ∧ (s.spendCounter id counter).cnt = s.cnt := by
  (repeat' apply And.intro) <;> rfl

/-- `setPauseRx` writes core alone. -/
@[simp] theorem State.setPauseRx_frame (s : State) (p c : Nat) (x : PauseRx) :
    (s.setPauseRx p c x).pending = s.pending ∧ (s.setPauseRx p c x).outbox = s.outbox ∧ (s.setPauseRx p c x).fresh = s.fresh ∧
    (s.setPauseRx p c x).now = s.now ∧ (s.setPauseRx p c x).settings = s.settings ∧ (s.setPauseRx p c x).tiller = s.tiller ∧
    (s.setPauseRx p c x).sched = s.sched ∧ (s.setPauseRx p c x).ports = s.ports ∧ (s.setPauseRx p c x).lanes = s.lanes ∧
    (s.setPauseRx p c x).recal = s.recal ∧ (s.setPauseRx p c x).refclkLost = s.refclkLost ∧ (s.setPauseRx p c x).otn = s.otn ∧
    (s.setPauseRx p c x).bridge = s.bridge ∧ (s.setPauseRx p c x).flow = s.flow ∧ (s.setPauseRx p c x).bales = s.bales ∧
    (s.setPauseRx p c x).eng = s.eng ∧ (s.setPauseRx p c x).svc = s.svc ∧ (s.setPauseRx p c x).matcher = s.matcher ∧
    (s.setPauseRx p c x).awn = s.awn ∧ (s.setPauseRx p c x).gate = s.gate ∧ (s.setPauseRx p c x).ledger = s.ledger ∧
    (s.setPauseRx p c x).packets = s.packets ∧ (s.setPauseRx p c x).nextPkt = s.nextPkt ∧ (s.setPauseRx p c x).mem = s.mem ∧
    (s.setPauseRx p c x).sheaf = s.sheaf ∧ (s.setPauseRx p c x).host = s.host ∧ (s.setPauseRx p c x).fault = s.fault ∧
    (s.setPauseRx p c x).trust = s.trust ∧ (s.setPauseRx p c x).keeper = s.keeper ∧ (s.setPauseRx p c x).power = s.power ∧
    (s.setPauseRx p c x).cnt = s.cnt := by
  (repeat' apply And.intro) <;> rfl

/-- `setLog` writes fault alone. -/
@[simp] theorem State.setLog_frame (s : State) (u : Nat) (l : List LogEntry) :
    (s.setLog u l).pending = s.pending ∧ (s.setLog u l).outbox = s.outbox ∧ (s.setLog u l).fresh = s.fresh ∧ (s.setLog u l).now = s.now ∧
    (s.setLog u l).settings = s.settings ∧ (s.setLog u l).tiller = s.tiller ∧ (s.setLog u l).sched = s.sched ∧
    (s.setLog u l).ports = s.ports ∧ (s.setLog u l).lanes = s.lanes ∧ (s.setLog u l).recal = s.recal ∧
    (s.setLog u l).refclkLost = s.refclkLost ∧ (s.setLog u l).otn = s.otn ∧ (s.setLog u l).bridge = s.bridge ∧
    (s.setLog u l).flow = s.flow ∧ (s.setLog u l).bales = s.bales ∧ (s.setLog u l).eng = s.eng ∧ (s.setLog u l).svc = s.svc ∧
    (s.setLog u l).matcher = s.matcher ∧ (s.setLog u l).awn = s.awn ∧ (s.setLog u l).gate = s.gate ∧ (s.setLog u l).ledger = s.ledger ∧
    (s.setLog u l).packets = s.packets ∧ (s.setLog u l).nextPkt = s.nextPkt ∧ (s.setLog u l).core = s.core ∧ (s.setLog u l).mem = s.mem ∧
    (s.setLog u l).sheaf = s.sheaf ∧ (s.setLog u l).host = s.host ∧ (s.setLog u l).trust = s.trust ∧ (s.setLog u l).keeper = s.keeper ∧
    (s.setLog u l).power = s.power ∧ (s.setLog u l).cnt = s.cnt := by
  (repeat' apply And.intro) <;> rfl

/-- `setEngine` writes eng alone. -/
@[simp] theorem State.setEngine_frame (s : State) (i v : Nat) :
    (s.setEngine i v).pending = s.pending ∧ (s.setEngine i v).outbox = s.outbox ∧ (s.setEngine i v).fresh = s.fresh ∧
    (s.setEngine i v).now = s.now ∧ (s.setEngine i v).settings = s.settings ∧ (s.setEngine i v).tiller = s.tiller ∧
    (s.setEngine i v).sched = s.sched ∧ (s.setEngine i v).ports = s.ports ∧ (s.setEngine i v).lanes = s.lanes ∧
    (s.setEngine i v).recal = s.recal ∧ (s.setEngine i v).refclkLost = s.refclkLost ∧ (s.setEngine i v).otn = s.otn ∧
    (s.setEngine i v).bridge = s.bridge ∧ (s.setEngine i v).flow = s.flow ∧ (s.setEngine i v).bales = s.bales ∧
    (s.setEngine i v).svc = s.svc ∧ (s.setEngine i v).matcher = s.matcher ∧ (s.setEngine i v).awn = s.awn ∧
    (s.setEngine i v).gate = s.gate ∧ (s.setEngine i v).ledger = s.ledger ∧ (s.setEngine i v).packets = s.packets ∧
    (s.setEngine i v).nextPkt = s.nextPkt ∧ (s.setEngine i v).core = s.core ∧ (s.setEngine i v).mem = s.mem ∧
    (s.setEngine i v).sheaf = s.sheaf ∧ (s.setEngine i v).host = s.host ∧ (s.setEngine i v).fault = s.fault ∧
    (s.setEngine i v).trust = s.trust ∧ (s.setEngine i v).keeper = s.keeper ∧ (s.setEngine i v).power = s.power ∧
    (s.setEngine i v).cnt = s.cnt := by
  (repeat' apply And.intro) <;> rfl

/-- `setAwn` writes awn alone. -/
@[simp] theorem State.setAwn_frame (s : State) (a v : Nat) :
    (s.setAwn a v).pending = s.pending ∧ (s.setAwn a v).outbox = s.outbox ∧ (s.setAwn a v).fresh = s.fresh ∧ (s.setAwn a v).now = s.now ∧
    (s.setAwn a v).settings = s.settings ∧ (s.setAwn a v).tiller = s.tiller ∧ (s.setAwn a v).sched = s.sched ∧
    (s.setAwn a v).ports = s.ports ∧ (s.setAwn a v).lanes = s.lanes ∧ (s.setAwn a v).recal = s.recal ∧
    (s.setAwn a v).refclkLost = s.refclkLost ∧ (s.setAwn a v).otn = s.otn ∧ (s.setAwn a v).bridge = s.bridge ∧
    (s.setAwn a v).flow = s.flow ∧ (s.setAwn a v).bales = s.bales ∧ (s.setAwn a v).eng = s.eng ∧ (s.setAwn a v).svc = s.svc ∧
    (s.setAwn a v).matcher = s.matcher ∧ (s.setAwn a v).gate = s.gate ∧ (s.setAwn a v).ledger = s.ledger ∧
    (s.setAwn a v).packets = s.packets ∧ (s.setAwn a v).nextPkt = s.nextPkt ∧ (s.setAwn a v).core = s.core ∧ (s.setAwn a v).mem = s.mem ∧
    (s.setAwn a v).sheaf = s.sheaf ∧ (s.setAwn a v).host = s.host ∧ (s.setAwn a v).fault = s.fault ∧ (s.setAwn a v).trust = s.trust ∧
    (s.setAwn a v).keeper = s.keeper ∧ (s.setAwn a v).power = s.power ∧ (s.setAwn a v).cnt = s.cnt := by
  (repeat' apply And.intro) <;> rfl

/-- `putRow` writes matcher alone. -/
@[simp] theorem State.putRow_frame (s : State) (i : Nat) (r : MatchRow) :
    (s.putRow i r).pending = s.pending ∧ (s.putRow i r).outbox = s.outbox ∧ (s.putRow i r).fresh = s.fresh ∧ (s.putRow i r).now = s.now ∧
    (s.putRow i r).settings = s.settings ∧ (s.putRow i r).tiller = s.tiller ∧ (s.putRow i r).sched = s.sched ∧
    (s.putRow i r).ports = s.ports ∧ (s.putRow i r).lanes = s.lanes ∧ (s.putRow i r).recal = s.recal ∧
    (s.putRow i r).refclkLost = s.refclkLost ∧ (s.putRow i r).otn = s.otn ∧ (s.putRow i r).bridge = s.bridge ∧
    (s.putRow i r).flow = s.flow ∧ (s.putRow i r).bales = s.bales ∧ (s.putRow i r).eng = s.eng ∧ (s.putRow i r).svc = s.svc ∧
    (s.putRow i r).awn = s.awn ∧ (s.putRow i r).gate = s.gate ∧ (s.putRow i r).ledger = s.ledger ∧ (s.putRow i r).packets = s.packets ∧
    (s.putRow i r).nextPkt = s.nextPkt ∧ (s.putRow i r).core = s.core ∧ (s.putRow i r).mem = s.mem ∧ (s.putRow i r).sheaf = s.sheaf ∧
    (s.putRow i r).host = s.host ∧ (s.putRow i r).fault = s.fault ∧ (s.putRow i r).trust = s.trust ∧ (s.putRow i r).keeper = s.keeper ∧
    (s.putRow i r).power = s.power ∧ (s.putRow i r).cnt = s.cnt := by
  (repeat' apply And.intro) <;> rfl

/-- `eraseRow` writes matcher alone. -/
@[simp] theorem State.eraseRow_frame (s : State) (i : Nat) :
    (s.eraseRow i).pending = s.pending ∧ (s.eraseRow i).outbox = s.outbox ∧ (s.eraseRow i).fresh = s.fresh ∧ (s.eraseRow i).now = s.now ∧
    (s.eraseRow i).settings = s.settings ∧ (s.eraseRow i).tiller = s.tiller ∧ (s.eraseRow i).sched = s.sched ∧
    (s.eraseRow i).ports = s.ports ∧ (s.eraseRow i).lanes = s.lanes ∧ (s.eraseRow i).recal = s.recal ∧
    (s.eraseRow i).refclkLost = s.refclkLost ∧ (s.eraseRow i).otn = s.otn ∧ (s.eraseRow i).bridge = s.bridge ∧
    (s.eraseRow i).flow = s.flow ∧ (s.eraseRow i).bales = s.bales ∧ (s.eraseRow i).eng = s.eng ∧ (s.eraseRow i).svc = s.svc ∧
    (s.eraseRow i).awn = s.awn ∧ (s.eraseRow i).gate = s.gate ∧ (s.eraseRow i).ledger = s.ledger ∧ (s.eraseRow i).packets = s.packets ∧
    (s.eraseRow i).nextPkt = s.nextPkt ∧ (s.eraseRow i).core = s.core ∧ (s.eraseRow i).mem = s.mem ∧ (s.eraseRow i).sheaf = s.sheaf ∧
    (s.eraseRow i).host = s.host ∧ (s.eraseRow i).fault = s.fault ∧ (s.eraseRow i).trust = s.trust ∧ (s.eraseRow i).keeper = s.keeper ∧
    (s.eraseRow i).power = s.power ∧ (s.eraseRow i).cnt = s.cnt := by
  (repeat' apply And.intro) <;> rfl

/-- `sampleFate` writes core alone. -/
@[simp] theorem State.sampleFate_frame (s : State) (n flags : Nat) :
    (s.sampleFate n flags).pending = s.pending ∧ (s.sampleFate n flags).outbox = s.outbox ∧ (s.sampleFate n flags).fresh = s.fresh ∧
    (s.sampleFate n flags).now = s.now ∧ (s.sampleFate n flags).settings = s.settings ∧ (s.sampleFate n flags).tiller = s.tiller ∧
    (s.sampleFate n flags).sched = s.sched ∧ (s.sampleFate n flags).ports = s.ports ∧ (s.sampleFate n flags).lanes = s.lanes ∧
    (s.sampleFate n flags).recal = s.recal ∧ (s.sampleFate n flags).refclkLost = s.refclkLost ∧ (s.sampleFate n flags).otn = s.otn ∧
    (s.sampleFate n flags).bridge = s.bridge ∧ (s.sampleFate n flags).flow = s.flow ∧ (s.sampleFate n flags).bales = s.bales ∧ (s.sampleFate n flags).eng = s.eng ∧
    (s.sampleFate n flags).svc = s.svc ∧ (s.sampleFate n flags).matcher = s.matcher ∧ (s.sampleFate n flags).awn = s.awn ∧ (s.sampleFate n flags).gate = s.gate ∧
    (s.sampleFate n flags).ledger = s.ledger ∧ (s.sampleFate n flags).packets = s.packets ∧ (s.sampleFate n flags).nextPkt = s.nextPkt ∧
    (s.sampleFate n flags).mem = s.mem ∧ (s.sampleFate n flags).sheaf = s.sheaf ∧ (s.sampleFate n flags).host = s.host ∧ (s.sampleFate n flags).fault = s.fault ∧
    (s.sampleFate n flags).trust = s.trust ∧ (s.sampleFate n flags).keeper = s.keeper ∧ (s.sampleFate n flags).power = s.power ∧ (s.sampleFate n flags).cnt = s.cnt := by
  (repeat' apply And.intro) <;> rfl

/-- `setSched` writes core alone. -/
@[simp] theorem State.setSched_frame (s : State) (p c : Nat) (x : Sched) :
    (s.setSched p c x).pending = s.pending ∧ (s.setSched p c x).outbox = s.outbox ∧ (s.setSched p c x).fresh = s.fresh ∧
    (s.setSched p c x).now = s.now ∧ (s.setSched p c x).settings = s.settings ∧ (s.setSched p c x).tiller = s.tiller ∧
    (s.setSched p c x).sched = s.sched ∧ (s.setSched p c x).ports = s.ports ∧ (s.setSched p c x).lanes = s.lanes ∧
    (s.setSched p c x).recal = s.recal ∧ (s.setSched p c x).refclkLost = s.refclkLost ∧ (s.setSched p c x).otn = s.otn ∧
    (s.setSched p c x).bridge = s.bridge ∧ (s.setSched p c x).flow = s.flow ∧ (s.setSched p c x).bales = s.bales ∧
    (s.setSched p c x).eng = s.eng ∧ (s.setSched p c x).svc = s.svc ∧ (s.setSched p c x).matcher = s.matcher ∧
    (s.setSched p c x).awn = s.awn ∧ (s.setSched p c x).gate = s.gate ∧ (s.setSched p c x).ledger = s.ledger ∧
    (s.setSched p c x).packets = s.packets ∧ (s.setSched p c x).nextPkt = s.nextPkt ∧ (s.setSched p c x).mem = s.mem ∧
    (s.setSched p c x).sheaf = s.sheaf ∧ (s.setSched p c x).host = s.host ∧ (s.setSched p c x).fault = s.fault ∧
    (s.setSched p c x).trust = s.trust ∧ (s.setSched p c x).keeper = s.keeper ∧ (s.setSched p c x).power = s.power ∧
    (s.setSched p c x).cnt = s.cnt := by
  (repeat' apply And.intro) <;> rfl

/-- `setSeal` writes gate alone. -/
@[simp] theorem State.setSeal_frame (s : State) (sp v : Nat) :
    (s.setSeal sp v).pending = s.pending ∧ (s.setSeal sp v).outbox = s.outbox ∧ (s.setSeal sp v).fresh = s.fresh ∧
    (s.setSeal sp v).now = s.now ∧ (s.setSeal sp v).settings = s.settings ∧ (s.setSeal sp v).tiller = s.tiller ∧
    (s.setSeal sp v).sched = s.sched ∧ (s.setSeal sp v).ports = s.ports ∧ (s.setSeal sp v).lanes = s.lanes ∧
    (s.setSeal sp v).recal = s.recal ∧ (s.setSeal sp v).refclkLost = s.refclkLost ∧ (s.setSeal sp v).otn = s.otn ∧
    (s.setSeal sp v).bridge = s.bridge ∧ (s.setSeal sp v).flow = s.flow ∧ (s.setSeal sp v).bales = s.bales ∧
    (s.setSeal sp v).eng = s.eng ∧ (s.setSeal sp v).svc = s.svc ∧ (s.setSeal sp v).matcher = s.matcher ∧ (s.setSeal sp v).awn = s.awn ∧
    (s.setSeal sp v).ledger = s.ledger ∧ (s.setSeal sp v).packets = s.packets ∧ (s.setSeal sp v).nextPkt = s.nextPkt ∧
    (s.setSeal sp v).core = s.core ∧ (s.setSeal sp v).mem = s.mem ∧ (s.setSeal sp v).sheaf = s.sheaf ∧ (s.setSeal sp v).host = s.host ∧
    (s.setSeal sp v).fault = s.fault ∧ (s.setSeal sp v).trust = s.trust ∧ (s.setSeal sp v).keeper = s.keeper ∧
    (s.setSeal sp v).power = s.power ∧ (s.setSeal sp v).cnt = s.cnt := by
  (repeat' apply And.intro) <;> rfl

/-- `resetSetting` writes settings alone. -/
@[simp] theorem State.resetSetting_frame (s : State) (id idx : Nat) :
    (s.resetSetting id idx).pending = s.pending ∧ (s.resetSetting id idx).outbox = s.outbox ∧ (s.resetSetting id idx).fresh = s.fresh ∧
    (s.resetSetting id idx).now = s.now ∧ (s.resetSetting id idx).tiller = s.tiller ∧ (s.resetSetting id idx).sched = s.sched ∧
    (s.resetSetting id idx).ports = s.ports ∧ (s.resetSetting id idx).lanes = s.lanes ∧ (s.resetSetting id idx).recal = s.recal ∧
    (s.resetSetting id idx).refclkLost = s.refclkLost ∧ (s.resetSetting id idx).otn = s.otn ∧ (s.resetSetting id idx).bridge = s.bridge ∧
    (s.resetSetting id idx).flow = s.flow ∧ (s.resetSetting id idx).bales = s.bales ∧ (s.resetSetting id idx).eng = s.eng ∧
    (s.resetSetting id idx).svc = s.svc ∧ (s.resetSetting id idx).matcher = s.matcher ∧ (s.resetSetting id idx).awn = s.awn ∧
    (s.resetSetting id idx).gate = s.gate ∧ (s.resetSetting id idx).ledger = s.ledger ∧ (s.resetSetting id idx).packets = s.packets ∧
    (s.resetSetting id idx).nextPkt = s.nextPkt ∧ (s.resetSetting id idx).core = s.core ∧ (s.resetSetting id idx).mem = s.mem ∧
    (s.resetSetting id idx).sheaf = s.sheaf ∧ (s.resetSetting id idx).host = s.host ∧ (s.resetSetting id idx).fault = s.fault ∧
    (s.resetSetting id idx).trust = s.trust ∧ (s.resetSetting id idx).keeper = s.keeper ∧ (s.resetSetting id idx).power = s.power ∧
    (s.resetSetting id idx).cnt = s.cnt := by
  (repeat' apply And.intro) <;> rfl

/-- `loseHist` writes flow alone. -/
@[simp] theorem State.loseHist_frame (s : State) (i : Nat) :
    (s.loseHist i).pending = s.pending ∧ (s.loseHist i).outbox = s.outbox ∧ (s.loseHist i).fresh = s.fresh ∧ (s.loseHist i).now = s.now ∧
    (s.loseHist i).settings = s.settings ∧ (s.loseHist i).tiller = s.tiller ∧ (s.loseHist i).sched = s.sched ∧
    (s.loseHist i).ports = s.ports ∧ (s.loseHist i).lanes = s.lanes ∧ (s.loseHist i).recal = s.recal ∧
    (s.loseHist i).refclkLost = s.refclkLost ∧ (s.loseHist i).otn = s.otn ∧ (s.loseHist i).bridge = s.bridge ∧
    (s.loseHist i).bales = s.bales ∧ (s.loseHist i).eng = s.eng ∧ (s.loseHist i).svc = s.svc ∧ (s.loseHist i).matcher = s.matcher ∧
    (s.loseHist i).awn = s.awn ∧ (s.loseHist i).gate = s.gate ∧ (s.loseHist i).ledger = s.ledger ∧ (s.loseHist i).packets = s.packets ∧
    (s.loseHist i).nextPkt = s.nextPkt ∧ (s.loseHist i).core = s.core ∧ (s.loseHist i).mem = s.mem ∧ (s.loseHist i).sheaf = s.sheaf ∧
    (s.loseHist i).host = s.host ∧ (s.loseHist i).fault = s.fault ∧ (s.loseHist i).trust = s.trust ∧ (s.loseHist i).keeper = s.keeper ∧
    (s.loseHist i).power = s.power ∧ (s.loseHist i).cnt = s.cnt := by
  (repeat' apply And.intro) <;> rfl

/-- `restartRings` writes core, svc alone. -/
@[simp] theorem State.restartRings_frame (s : State) :
    (s.restartRings).pending = s.pending ∧ (s.restartRings).outbox = s.outbox ∧ (s.restartRings).fresh = s.fresh ∧
    (s.restartRings).now = s.now ∧ (s.restartRings).settings = s.settings ∧ (s.restartRings).tiller = s.tiller ∧
    (s.restartRings).sched = s.sched ∧ (s.restartRings).ports = s.ports ∧ (s.restartRings).lanes = s.lanes ∧
    (s.restartRings).recal = s.recal ∧ (s.restartRings).refclkLost = s.refclkLost ∧ (s.restartRings).otn = s.otn ∧
    (s.restartRings).bridge = s.bridge ∧ (s.restartRings).flow = s.flow ∧ (s.restartRings).bales = s.bales ∧
    (s.restartRings).eng = s.eng ∧ (s.restartRings).matcher = s.matcher ∧ (s.restartRings).awn = s.awn ∧ (s.restartRings).gate = s.gate ∧
    (s.restartRings).ledger = s.ledger ∧ (s.restartRings).packets = s.packets ∧ (s.restartRings).nextPkt = s.nextPkt ∧
    (s.restartRings).mem = s.mem ∧ (s.restartRings).sheaf = s.sheaf ∧ (s.restartRings).host = s.host ∧ (s.restartRings).fault = s.fault ∧
    (s.restartRings).trust = s.trust ∧ (s.restartRings).keeper = s.keeper ∧ (s.restartRings).power = s.power ∧
    (s.restartRings).cnt = s.cnt := by
  (repeat' apply And.intro) <;> rfl

/-- `eraseRec` writes flow alone. -/
@[simp] theorem State.eraseRec_frame (s : State) (loc : Nat) :
    (s.eraseRec loc).pending = s.pending ∧ (s.eraseRec loc).outbox = s.outbox ∧ (s.eraseRec loc).fresh = s.fresh ∧
    (s.eraseRec loc).now = s.now ∧ (s.eraseRec loc).settings = s.settings ∧ (s.eraseRec loc).tiller = s.tiller ∧
    (s.eraseRec loc).sched = s.sched ∧ (s.eraseRec loc).ports = s.ports ∧ (s.eraseRec loc).lanes = s.lanes ∧
    (s.eraseRec loc).recal = s.recal ∧ (s.eraseRec loc).refclkLost = s.refclkLost ∧ (s.eraseRec loc).otn = s.otn ∧
    (s.eraseRec loc).bridge = s.bridge ∧ (s.eraseRec loc).bales = s.bales ∧ (s.eraseRec loc).eng = s.eng ∧ (s.eraseRec loc).svc = s.svc ∧
    (s.eraseRec loc).matcher = s.matcher ∧ (s.eraseRec loc).awn = s.awn ∧ (s.eraseRec loc).gate = s.gate ∧
    (s.eraseRec loc).ledger = s.ledger ∧ (s.eraseRec loc).packets = s.packets ∧ (s.eraseRec loc).nextPkt = s.nextPkt ∧
    (s.eraseRec loc).core = s.core ∧ (s.eraseRec loc).mem = s.mem ∧ (s.eraseRec loc).sheaf = s.sheaf ∧ (s.eraseRec loc).host = s.host ∧
    (s.eraseRec loc).fault = s.fault ∧ (s.eraseRec loc).trust = s.trust ∧ (s.eraseRec loc).keeper = s.keeper ∧
    (s.eraseRec loc).power = s.power ∧ (s.eraseRec loc).cnt = s.cnt := by
  (repeat' apply And.intro) <;> rfl

/-- `putBale` writes bales alone. -/
@[simp] theorem State.putBale_frame (s : State) (b : Bale) :
    (s.putBale b).pending = s.pending ∧ (s.putBale b).outbox = s.outbox ∧ (s.putBale b).fresh = s.fresh ∧ (s.putBale b).now = s.now ∧
    (s.putBale b).settings = s.settings ∧ (s.putBale b).tiller = s.tiller ∧ (s.putBale b).sched = s.sched ∧
    (s.putBale b).ports = s.ports ∧ (s.putBale b).lanes = s.lanes ∧ (s.putBale b).recal = s.recal ∧
    (s.putBale b).refclkLost = s.refclkLost ∧ (s.putBale b).otn = s.otn ∧ (s.putBale b).bridge = s.bridge ∧ (s.putBale b).flow = s.flow ∧
    (s.putBale b).eng = s.eng ∧ (s.putBale b).svc = s.svc ∧ (s.putBale b).matcher = s.matcher ∧ (s.putBale b).awn = s.awn ∧
    (s.putBale b).gate = s.gate ∧ (s.putBale b).ledger = s.ledger ∧ (s.putBale b).packets = s.packets ∧
    (s.putBale b).nextPkt = s.nextPkt ∧ (s.putBale b).core = s.core ∧ (s.putBale b).mem = s.mem ∧ (s.putBale b).sheaf = s.sheaf ∧
    (s.putBale b).host = s.host ∧ (s.putBale b).fault = s.fault ∧ (s.putBale b).trust = s.trust ∧ (s.putBale b).keeper = s.keeper ∧
    (s.putBale b).power = s.power ∧ (s.putBale b).cnt = s.cnt := by
  (repeat' apply And.intro) <;> rfl

/-- `joinBale` writes bales alone. -/
@[simp] theorem State.joinBale_frame (s : State) (b : Bale) :
    (s.joinBale b).pending = s.pending ∧ (s.joinBale b).outbox = s.outbox ∧ (s.joinBale b).fresh = s.fresh ∧ (s.joinBale b).now = s.now ∧
    (s.joinBale b).settings = s.settings ∧ (s.joinBale b).tiller = s.tiller ∧ (s.joinBale b).sched = s.sched ∧
    (s.joinBale b).ports = s.ports ∧ (s.joinBale b).lanes = s.lanes ∧ (s.joinBale b).recal = s.recal ∧
    (s.joinBale b).refclkLost = s.refclkLost ∧ (s.joinBale b).otn = s.otn ∧ (s.joinBale b).bridge = s.bridge ∧
    (s.joinBale b).flow = s.flow ∧ (s.joinBale b).eng = s.eng ∧ (s.joinBale b).svc = s.svc ∧ (s.joinBale b).matcher = s.matcher ∧
    (s.joinBale b).awn = s.awn ∧ (s.joinBale b).gate = s.gate ∧ (s.joinBale b).ledger = s.ledger ∧ (s.joinBale b).packets = s.packets ∧
    (s.joinBale b).nextPkt = s.nextPkt ∧ (s.joinBale b).core = s.core ∧ (s.joinBale b).mem = s.mem ∧ (s.joinBale b).sheaf = s.sheaf ∧
    (s.joinBale b).host = s.host ∧ (s.joinBale b).fault = s.fault ∧ (s.joinBale b).trust = s.trust ∧ (s.joinBale b).keeper = s.keeper ∧
    (s.joinBale b).power = s.power ∧ (s.joinBale b).cnt = s.cnt := by
  (repeat' apply And.intro) <;> rfl

/-- `writeBoot` writes trust alone. -/
@[simp] theorem State.writeBoot_frame (s : State) (preferred trial : Nat) :
    (s.writeBoot preferred trial).pending = s.pending ∧ (s.writeBoot preferred trial).outbox = s.outbox ∧
    (s.writeBoot preferred trial).fresh = s.fresh ∧ (s.writeBoot preferred trial).now = s.now ∧
    (s.writeBoot preferred trial).settings = s.settings ∧ (s.writeBoot preferred trial).tiller = s.tiller ∧
    (s.writeBoot preferred trial).sched = s.sched ∧ (s.writeBoot preferred trial).ports = s.ports ∧
    (s.writeBoot preferred trial).lanes = s.lanes ∧ (s.writeBoot preferred trial).recal = s.recal ∧
    (s.writeBoot preferred trial).refclkLost = s.refclkLost ∧ (s.writeBoot preferred trial).otn = s.otn ∧
    (s.writeBoot preferred trial).bridge = s.bridge ∧ (s.writeBoot preferred trial).flow = s.flow ∧
    (s.writeBoot preferred trial).bales = s.bales ∧ (s.writeBoot preferred trial).eng = s.eng ∧
    (s.writeBoot preferred trial).svc = s.svc ∧ (s.writeBoot preferred trial).matcher = s.matcher ∧
    (s.writeBoot preferred trial).awn = s.awn ∧ (s.writeBoot preferred trial).gate = s.gate ∧
    (s.writeBoot preferred trial).ledger = s.ledger ∧ (s.writeBoot preferred trial).packets = s.packets ∧
    (s.writeBoot preferred trial).nextPkt = s.nextPkt ∧ (s.writeBoot preferred trial).core = s.core ∧
    (s.writeBoot preferred trial).mem = s.mem ∧ (s.writeBoot preferred trial).sheaf = s.sheaf ∧
    (s.writeBoot preferred trial).host = s.host ∧ (s.writeBoot preferred trial).fault = s.fault ∧
    (s.writeBoot preferred trial).keeper = s.keeper ∧ (s.writeBoot preferred trial).power = s.power ∧
    (s.writeBoot preferred trial).cnt = s.cnt := by
  (repeat' apply And.intro) <;> rfl

/-! ### A read after a write -/

theorem State.port_setPort (s : State) (n m : Nat) (x : Port) (h : Tab.wf {} s.ports = true) :
    (s.setPort n x).port m = if n = m then x else s.port m := Tab.get_put _ _ n x m (Tab.wf_rises _ _ h)

theorem State.lane_setLane (s : State) (n m : Nat) (x : Lane) (h : Tab.wf {} s.lanes = true) :
    (s.setLane n x).lane m = if n = m then x else s.lane m := Tab.get_put _ _ n x m (Tab.wf_rises _ _ h)

theorem State.otnOf_setOtn (s : State) (n m : Nat) (x : Otn) (h : Tab.wf {} s.otn = true) :
    (s.setOtn n x).otnOf m = if n = m then x else s.otnOf m := Tab.get_put _ _ n x m (Tab.wf_rises _ _ h)

theorem State.mac_setMac (s : State) (n m : Nat) (x : MacTable) (h : Tab.wf {} s.bridge.macs = true) :
    (s.setMac n x).mac m = if n = m then x else s.mac m := Tab.get_put _ _ n x m (Tab.wf_rises _ _ h)

theorem State.lag_setLag (s : State) (n m : Nat) (x : Lag) (h : Tab.wf {} s.bridge.lags = true) :
    (s.setLag n x).lag m = if n = m then x else s.lag m := Tab.get_put _ _ n x m (Tab.wf_rises _ _ h)

theorem State.munit_setUnit (s : State) (n m : Nat) (x : MemUnit) (h : Tab.wf {} s.mem.units = true) :
    (s.setUnit n x).munit m = if n = m then x else s.munit m := Tab.get_put _ _ n x m (Tab.wf_rises _ _ h)

theorem State.link_setLink (s : State) (n m : Nat) (x : SheafLink) (h : Tab.wf {} s.sheaf.links = true) :
    (s.setLink n x).link m = if n = m then x else s.link m := Tab.get_put _ _ n x m (Tab.wf_rises _ _ h)

theorem State.mbRegs_setMbRegs (s : State) (n m : Nat) (x : MbRegs) (h : Tab.wf {} s.host.mbs = true) :
    (s.setMbRegs n x).mbRegs m = if n = m then x else s.mbRegs m := Tab.get_put _ _ n x m (Tab.wf_rises _ _ h)

theorem State.ringOf_setRing (s : State) (n m : Nat) (x : RingRegs) (h : Tab.wf {} s.host.rings = true) :
    (s.setRing n x).ringOf m = if n = m then x else s.ringOf m := Tab.get_put _ _ n x m (Tab.wf_rises _ _ h)

theorem State.box_setBox (s : State) (n m : Nat) (x : Mailbox) (h : Tab.wf {} s.host.boxes = true) :
    (s.setBox n x).box m = if n = m then x else s.box m := Tab.get_put _ _ n x m (Tab.wf_rises _ _ h)

theorem State.poolOf_setPool (s : State) (n m : Nat) (x : Pool) (h : Tab.wf {} s.core.pools = true) :
    (s.setPool n x).poolOf m = if n = m then x else s.poolOf m := Tab.get_put _ _ n x m (Tab.wf_rises _ _ h)

theorem State.alloc_setAlloc (s : State) (n m : Nat) (x : PoolAlloc) (h : Tab.wf {} s.svc.pools = true) :
    (s.setAlloc n x).alloc m = if n = m then x else s.alloc m := Tab.get_put _ _ n x m (Tab.wf_rises _ _ h)

theorem State.queueOf_setQueue (s : State) (n m : Nat) (x : List Nat) (h : Tab.wf [] s.core.queues = true) :
    (s.setQueue n x).queueOf m = if n = m then x else s.queueOf m := Tab.get_put _ _ n x m (Tab.wf_rises _ _ h)

@[simp] theorem State.pkt_setPkt (s : State) (n m : Nat) (x : Packet) :
    (s.setPkt n x).pkt? m = if n = m then some x else s.pkt? m := Tab.find_insert s.packets n x m

end Sys2Proof.Machine
end

