-- ==== Sys2Proof/Laws/Request.lean ====
section
/-! SUPPORT. What a request does that passes every check: its command runs once, and its answer completes it. -/

namespace Sys2Proof.Machine

/-- The checks of R370 passed: the command runs in the admitted state, and concludes. -/
theorem State.request_admits (s : State) (op cls : Nat) (rd : Bool) (r : Request) (key : Option Nat) (h : s.Admits op cls rd r key)
    (run : Option Nat → State → Ans × State) :
    s.request op cls rd r run = ((run key (s.admitted op r key)).2).conclude op r (run key (s.admitted op r key)).1 := by
  obtain ⟨⟨h1, h0, h2, h3, h4, h5, h6⟩, h7, h8, h9⟩ := h
  have e1 : (s.openLine op r).trust = s.trust := rfl
  have e2 : (s.openLine op r).owned = s.owned := rfl
  have e3 : ∀ c, (s.openLine op r).mustSign r.mb c = s.mustSign r.mb c := fun _ => rfl
  have e4 : ∀ c, (s.openLine op r).checkSignature op c r = s.checkSignature op c r := fun _ => rfl
  have g1 : ¬ (s.owned = false ∧ ¬ (rd = true ∧ effClass op cls r.expert = 0 ∧ r.mb.val ≠ 12 ∧ r.mb.val ≠ 13)) := by
    rintro ⟨a, b⟩; rcases h8 with h8 | h8
    · rw [a] at h8; exact absurd h8 (by simp)
    · exact b h8
  have d : (s.openLine op r).dispatch op cls rd r run = run key (s.admitted op r key) := by
    unfold State.dispatch
    simp only [e1, e2, e3, e4, h7, h3, ne_eq, not_true_eq_false, if_false, false_and]
    rw [if_neg (by simpa using g1)]
    cases key with
    | none => simp only [h9, Bool.false_eq_true, if_false, State.admitted]
    | some id => simp only [h9.1, h9.2, if_true, State.admitted]
  unfold State.request State.serve
  rw [if_neg (by simp [h0, h1, h2, h3, h4]), if_neg (by simp [h5]), if_pos h6]
  simp only [d]

/-- A request with an immediate answer is answered in its mailbox. -/
theorem State.conclude_now (s : State) (op : Nat) (r : Request) (a : Ans) (h : a.later = []) :
    s.conclude op r a = s.answer r.mb r.seq a.status a.detail a.resp a.tick := by simp [State.conclude, h]

/-- A request that waits for one happening stays in its line, and is noted as waiting. -/
theorem State.conclude_later (s : State) (op : Nat) (r : Request) (a : Ans) (k : Nat × Nat) (h : a.later = [k]) :
    s.conclude op r a = { s with host := { s.host with
      longs := s.host.longs ++ [{ mb := r.mb.val, seq := r.seq, opcode := reqCode r op, kind := k.1, idx := k.2, at_ := s.now }] } } := by
  simp [State.conclude, h]

/-! ### What a completion can change -/

/-- From `s` to `t` nothing changed but the host interface, what has left the device, and the Sheaf's queues. -/
def Talks (s t : State) : Prop := { t with host := s.host, outbox := s.outbox, sheaf := s.sheaf } = s

theorem Talks.refl (s : State) : Talks s s := rfl
theorem Talks.trans {s t u : State} (h1 : Talks s t) (h2 : Talks t u) : Talks s u := by
  have h : ({ ({ u with host := t.host, outbox := t.outbox, sheaf := t.sheaf } : State) with
      host := s.host, outbox := s.outbox, sheaf := s.sheaf } : State) = s := by
    rw [show ({ u with host := t.host, outbox := t.outbox, sheaf := t.sheaf } : State) = t from h2]; exact h1
  exact h

theorem State.emit_talks (s : State) (o : Output) : Talks s (s.emit o) := rfl
theorem State.setBox_talks (s : State) (n : Nat) (x : Mailbox) : Talks s (s.setBox n x) := rfl
theorem State.setMbRegs_talks (s : State) (n : Nat) (x : MbRegs) : Talks s (s.setMbRegs n x) := rfl
theorem State.windowWrite_talks (s : State) (mb off : Nat) (bs : Bytes) : Talks s (s.windowWrite mb off bs) := rfl
theorem State.signal_talks (s : State) (v : Nat) : Talks s (s.signal v) := by
  unfold State.signal; split <;> rfl
theorem State.interrupt_talks (s : State) (b : Nat) (on : Bool) : Talks s (s.interrupt b on) := by
  unfold State.interrupt
  split
  · exact Talks.refl s
  · dsimp only
    split
    · split
      · refine Talks.trans ?_ (State.signal_talks _ _)
        rfl
      · rfl
    · rfl
theorem foldl_talks {α : Type} (f : State → α → State) (l : List α) (s : State) (h : ∀ s x, Talks s (f s x)) : Talks s (l.foldl f s) := by
  induction l generalizing s with
  | nil => exact Talks.refl s
  | cons x l ih => exact (h s x).trans (ih _)
theorem State.mgmtDrain_talks (n : Nat) (s : State) : Talks s (State.mgmtDrain n s) := by
  induction n generalizing s with
  | zero => exact Talks.refl s
  | succ n ih =>
    unfold State.mgmtDrain
    split
    · exact Talks.refl s
    · split
      · refine Talks.trans ?_ (ih _)
        rfl
      · exact Talks.refl s
theorem State.mgmtSend_talks (s : State) (dst : Bytes) (mb : Nat) (m : Bytes) : Talks s (s.mgmtSend dst mb m) := by
  unfold State.mgmtSend
  dsimp only
  split
  · refine Talks.trans ?_ (State.mgmtDrain_talks _ _)
    rfl
  · exact foldl_talks _ _ _ (fun _ _ => State.emit_talks _ _)
theorem State.enqueueMsg_talks (s : State) (n num : Nat) (m : Msg) (b : Bool) : Talks s (s.enqueueMsg n num m b) := rfl
theorem State.sendMsg_talks (s : State) (n : Nat) (m : Msg) : Talks s (s.sendMsg n m) := by
  unfold State.sendMsg; dsimp only
  generalize (if m.both = true then s.linksUp else List.take 1 s.linksUp) = via
  generalize decide (1 < via.length) = b
  induction via generalizing s with
  | nil => rfl
  | cons x l ih => exact (State.enqueueMsg_talks s x n m b).trans (ih _)
theorem State.tell_talks (s : State) (m : Msg) : Talks s (s.tell m) :=
  Talks.trans (t := { s with sheaf := { s.sheaf with
    txNum := s.sheaf.txNum + 1, unacked := s.sheaf.unacked ++ [{ num := s.sheaf.txNum, msg := m, at_ := s.now }] } }) rfl (State.sendMsg_talks _ _ _)
theorem State.pcieComplete_talks (s : State) (mb : Nat) (c : Completion) (again : Bool) : Talks s (s.pcieComplete mb c again) := by
  unfold State.pcieComplete
  extract_lets b t s1 cut m s2 s3
  have h1 : Talks s s1 := by
    simp only [s1]
    cases t with
    | none => exact Talks.refl s
    | some t =>
      dsimp only
      split
      · exact Talks.refl s
      · split
        · exact State.emit_talks _ _
        · exact State.windowWrite_talks _ _ _ _
  have h3 : Talks s s3 := ((h1.trans (State.windowWrite_talks _ _ _ _)).trans (State.setMbRegs_talks _ _ _)).trans (State.setBox_talks _ _ _)
  exact h3.trans (State.interrupt_talks _ _ _)
theorem State.transport_talks (s : State) (mb : Nat) (c : Completion) (again : Bool) : Talks s (s.transport mb c again) := by
  unfold State.transport
  split
  · exact State.pcieComplete_talks _ _ _ _
  · extract_lets b src s1
    have h1 : Talks s s1 := State.setBox_talks _ _ _
    split
    · exact h1.trans (State.mgmtSend_talks _ _ _ _)
    · split
      · split
        · exact h1.trans (State.tell_talks _ _)
        · exact h1
      · exact h1
theorem State.deliver_talks (s : State) (mb : Nat) (c : Completion) : Talks s (s.deliver mb c) := by
  unfold State.deliver
  exact (State.setBox_talks _ _ _).trans (State.transport_talks _ _ _ _)
theorem State.flushLine_talks (mb n : Nat) (s : State) : Talks s (State.flushLine mb n s) := by
  induction n generalizing s with
  | zero => rfl
  | succ n ih =>
    unfold State.flushLine
    split
    · exact Talks.refl s
    · split
      · exact Talks.refl s
      · split
        · exact State.setMbRegs_talks _ _ _
        · exact ((State.setBox_talks _ _ _).trans (State.deliver_talks _ _ _)).trans (ih _)
/-- An answer changes its mailbox, and what leaves by it. -/
theorem State.answer_talks (s : State) (mb seq st d : Nat) (resp : Bytes) (tick : Nat) : Talks s (s.answer mb seq st d resp tick) := by
  unfold State.answer
  exact (State.setBox_talks _ _ _).trans (State.flushLine_talks _ _ _)
/-- A request that is admitted stands in its mailbox, and may spend its key's counter. -/
theorem State.admitted_talks (s : State) (op : Nat) (r : Request) (key : Option Nat) : Talks s (s.admitted op r key) := by
  cases key <;> rfl

end Sys2Proof.Machine
end

