-- ==== Sys2Proof/Laws/Shared.lean ====
section
/-! SUPPORT. What the operations that most commands share can change: events, interrupts, STATUS and ledger records. -/

namespace Sys2Proof.Machine

/-- A message leaves a vector, or pends there. -/
@[simp] theorem State.signal_frame (s : State) (n : Nat) :
    (s.signal n).pending = s.pending ∧ (s.signal n).fresh = s.fresh ∧ (s.signal n).now = s.now ∧ (s.signal n).settings = s.settings ∧
    (s.signal n).tiller = s.tiller ∧ (s.signal n).sched = s.sched ∧ (s.signal n).ports = s.ports ∧ (s.signal n).lanes = s.lanes ∧
    (s.signal n).recal = s.recal ∧ (s.signal n).refclkLost = s.refclkLost ∧ (s.signal n).otn = s.otn ∧ (s.signal n).bridge = s.bridge ∧
    (s.signal n).flow = s.flow ∧ (s.signal n).bales = s.bales ∧ (s.signal n).eng = s.eng ∧ (s.signal n).svc = s.svc ∧
    (s.signal n).matcher = s.matcher ∧ (s.signal n).awn = s.awn ∧ (s.signal n).gate = s.gate ∧ (s.signal n).ledger = s.ledger ∧
    (s.signal n).packets = s.packets ∧ (s.signal n).nextPkt = s.nextPkt ∧ (s.signal n).core = s.core ∧ (s.signal n).mem = s.mem ∧
    (s.signal n).sheaf = s.sheaf ∧ (s.signal n).fault = s.fault ∧ (s.signal n).trust = s.trust ∧ (s.signal n).keeper = s.keeper ∧
    (s.signal n).power = s.power ∧ (s.signal n).cnt = s.cnt := by
  unfold State.signal; (repeat' split) <;> simp

/-- An interrupt cause touches the host interface, and may signal a vector. -/
@[simp] theorem State.interrupt_frame (s : State) (b : Nat) (on : Bool) :
    (s.interrupt b on).pending = s.pending ∧ (s.interrupt b on).fresh = s.fresh ∧ (s.interrupt b on).now = s.now ∧
    (s.interrupt b on).settings = s.settings ∧ (s.interrupt b on).tiller = s.tiller ∧ (s.interrupt b on).sched = s.sched ∧
    (s.interrupt b on).ports = s.ports ∧ (s.interrupt b on).lanes = s.lanes ∧ (s.interrupt b on).recal = s.recal ∧
    (s.interrupt b on).refclkLost = s.refclkLost ∧ (s.interrupt b on).otn = s.otn ∧ (s.interrupt b on).bridge = s.bridge ∧
    (s.interrupt b on).flow = s.flow ∧ (s.interrupt b on).bales = s.bales ∧ (s.interrupt b on).eng = s.eng ∧ (s.interrupt b on).svc = s.svc ∧
    (s.interrupt b on).matcher = s.matcher ∧ (s.interrupt b on).awn = s.awn ∧ (s.interrupt b on).gate = s.gate ∧
    (s.interrupt b on).ledger = s.ledger ∧ (s.interrupt b on).packets = s.packets ∧ (s.interrupt b on).nextPkt = s.nextPkt ∧
    (s.interrupt b on).core = s.core ∧ (s.interrupt b on).mem = s.mem ∧ (s.interrupt b on).sheaf = s.sheaf ∧ (s.interrupt b on).fault = s.fault ∧
    (s.interrupt b on).trust = s.trust ∧ (s.interrupt b on).keeper = s.keeper ∧ (s.interrupt b on).power = s.power ∧ (s.interrupt b on).cnt = s.cnt := by
  unfold State.interrupt; (repeat' split) <;> simp

/-- A lost event is counted at the host interface. -/
@[simp] theorem State.hostLost_frame (s : State) (n : Nat) :
    (s.hostLost n).pending = s.pending ∧ (s.hostLost n).fresh = s.fresh ∧ (s.hostLost n).now = s.now ∧
    (s.hostLost n).settings = s.settings ∧ (s.hostLost n).tiller = s.tiller ∧ (s.hostLost n).sched = s.sched ∧
    (s.hostLost n).ports = s.ports ∧ (s.hostLost n).lanes = s.lanes ∧ (s.hostLost n).recal = s.recal ∧
    (s.hostLost n).refclkLost = s.refclkLost ∧ (s.hostLost n).otn = s.otn ∧ (s.hostLost n).bridge = s.bridge ∧
    (s.hostLost n).flow = s.flow ∧ (s.hostLost n).bales = s.bales ∧ (s.hostLost n).eng = s.eng ∧ (s.hostLost n).svc = s.svc ∧
    (s.hostLost n).matcher = s.matcher ∧ (s.hostLost n).awn = s.awn ∧ (s.hostLost n).gate = s.gate ∧ (s.hostLost n).ledger = s.ledger ∧
    (s.hostLost n).packets = s.packets ∧ (s.hostLost n).nextPkt = s.nextPkt ∧ (s.hostLost n).core = s.core ∧ (s.hostLost n).mem = s.mem ∧
    (s.hostLost n).sheaf = s.sheaf ∧ (s.hostLost n).fault = s.fault ∧ (s.hostLost n).trust = s.trust ∧ (s.hostLost n).keeper = s.keeper ∧
    (s.hostLost n).power = s.power ∧ (s.hostLost n).cnt = s.cnt := by
  simp [State.hostLost]

/-- An event touches the queues of the host interface alone. -/
@[simp] theorem State.enqueueEvent_frame (s : State) (m : Nat) (e : EventRec) :
    (s.enqueueEvent m e).pending = s.pending ∧ (s.enqueueEvent m e).fresh = s.fresh ∧ (s.enqueueEvent m e).now = s.now ∧
    (s.enqueueEvent m e).settings = s.settings ∧ (s.enqueueEvent m e).tiller = s.tiller ∧ (s.enqueueEvent m e).sched = s.sched ∧
    (s.enqueueEvent m e).ports = s.ports ∧ (s.enqueueEvent m e).lanes = s.lanes ∧ (s.enqueueEvent m e).recal = s.recal ∧
    (s.enqueueEvent m e).refclkLost = s.refclkLost ∧ (s.enqueueEvent m e).otn = s.otn ∧ (s.enqueueEvent m e).bridge = s.bridge ∧
    (s.enqueueEvent m e).flow = s.flow ∧ (s.enqueueEvent m e).bales = s.bales ∧ (s.enqueueEvent m e).eng = s.eng ∧
    (s.enqueueEvent m e).svc = s.svc ∧ (s.enqueueEvent m e).matcher = s.matcher ∧ (s.enqueueEvent m e).awn = s.awn ∧
    (s.enqueueEvent m e).gate = s.gate ∧ (s.enqueueEvent m e).ledger = s.ledger ∧ (s.enqueueEvent m e).packets = s.packets ∧
    (s.enqueueEvent m e).nextPkt = s.nextPkt ∧ (s.enqueueEvent m e).core = s.core ∧ (s.enqueueEvent m e).mem = s.mem ∧
    (s.enqueueEvent m e).sheaf = s.sheaf ∧ (s.enqueueEvent m e).fault = s.fault ∧ (s.enqueueEvent m e).trust = s.trust ∧
    (s.enqueueEvent m e).keeper = s.keeper ∧ (s.enqueueEvent m e).power = s.power ∧ (s.enqueueEvent m e).cnt = s.cnt := by
  unfold State.enqueueEvent; dsimp only; (repeat' split) <;> simp

/-- A raised event touches the host interface alone (R367). -/
@[simp] theorem State.raise_frame (s : State) (code source : Nat) (body : Bytes) (masked : Bool) :
    (s.raise code source body masked).pending = s.pending ∧ (s.raise code source body masked).fresh = s.fresh ∧
    (s.raise code source body masked).now = s.now ∧ (s.raise code source body masked).settings = s.settings ∧
    (s.raise code source body masked).tiller = s.tiller ∧ (s.raise code source body masked).sched = s.sched ∧
    (s.raise code source body masked).ports = s.ports ∧ (s.raise code source body masked).lanes = s.lanes ∧
    (s.raise code source body masked).recal = s.recal ∧ (s.raise code source body masked).refclkLost = s.refclkLost ∧
    (s.raise code source body masked).otn = s.otn ∧ (s.raise code source body masked).bridge = s.bridge ∧
    (s.raise code source body masked).flow = s.flow ∧ (s.raise code source body masked).bales = s.bales ∧
    (s.raise code source body masked).eng = s.eng ∧ (s.raise code source body masked).svc = s.svc ∧
    (s.raise code source body masked).matcher = s.matcher ∧ (s.raise code source body masked).awn = s.awn ∧
    (s.raise code source body masked).gate = s.gate ∧ (s.raise code source body masked).ledger = s.ledger ∧
    (s.raise code source body masked).packets = s.packets ∧ (s.raise code source body masked).nextPkt = s.nextPkt ∧
    (s.raise code source body masked).core = s.core ∧ (s.raise code source body masked).mem = s.mem ∧
    (s.raise code source body masked).sheaf = s.sheaf ∧ (s.raise code source body masked).fault = s.fault ∧
    (s.raise code source body masked).trust = s.trust ∧ (s.raise code source body masked).keeper = s.keeper ∧
    (s.raise code source body masked).power = s.power ∧ (s.raise code source body masked).cnt = s.cnt := by
  unfold State.raise; dsimp only; split <;> simp

/-- An event that is raised at most once in a while touches the host interface alone (R390). -/
@[simp] theorem State.raiseLimited_frame (s : State) (code source gap : Nat) (pre : Bytes) (width : Nat) (post : Bytes) (sub : Nat) :
    (s.raiseLimited code source gap pre width post sub).pending = s.pending ∧
    (s.raiseLimited code source gap pre width post sub).fresh = s.fresh ∧
    (s.raiseLimited code source gap pre width post sub).now = s.now ∧
    (s.raiseLimited code source gap pre width post sub).settings = s.settings ∧
    (s.raiseLimited code source gap pre width post sub).tiller = s.tiller ∧
    (s.raiseLimited code source gap pre width post sub).sched = s.sched ∧
    (s.raiseLimited code source gap pre width post sub).ports = s.ports ∧
    (s.raiseLimited code source gap pre width post sub).lanes = s.lanes ∧
    (s.raiseLimited code source gap pre width post sub).recal = s.recal ∧
    (s.raiseLimited code source gap pre width post sub).refclkLost = s.refclkLost ∧
    (s.raiseLimited code source gap pre width post sub).otn = s.otn ∧
    (s.raiseLimited code source gap pre width post sub).bridge = s.bridge ∧
    (s.raiseLimited code source gap pre width post sub).flow = s.flow ∧
    (s.raiseLimited code source gap pre width post sub).bales = s.bales ∧
    (s.raiseLimited code source gap pre width post sub).eng = s.eng ∧ (s.raiseLimited code source gap pre width post sub).svc = s.svc ∧
    (s.raiseLimited code source gap pre width post sub).matcher = s.matcher ∧
    (s.raiseLimited code source gap pre width post sub).awn = s.awn ∧ (s.raiseLimited code source gap pre width post sub).gate = s.gate ∧
    (s.raiseLimited code source gap pre width post sub).ledger = s.ledger ∧
    (s.raiseLimited code source gap pre width post sub).packets = s.packets ∧
    (s.raiseLimited code source gap pre width post sub).nextPkt = s.nextPkt ∧
    (s.raiseLimited code source gap pre width post sub).core = s.core ∧ (s.raiseLimited code source gap pre width post sub).mem = s.mem ∧
    (s.raiseLimited code source gap pre width post sub).sheaf = s.sheaf ∧
    (s.raiseLimited code source gap pre width post sub).fault = s.fault ∧
    (s.raiseLimited code source gap pre width post sub).trust = s.trust ∧
    (s.raiseLimited code source gap pre width post sub).keeper = s.keeper ∧
    (s.raiseLimited code source gap pre width post sub).power = s.power ∧ (s.raiseLimited code source gap pre width post sub).cnt = s.cnt := by
  unfold State.raiseLimited; dsimp only; split <;> simp

/-- A change of STATUS is reported at the host interface (Table 15-5). -/
@[simp] theorem State.noteStatus_frame (s : State) :
    s.noteStatus.pending = s.pending ∧ s.noteStatus.fresh = s.fresh ∧ s.noteStatus.now = s.now ∧ s.noteStatus.settings = s.settings ∧
    s.noteStatus.tiller = s.tiller ∧ s.noteStatus.sched = s.sched ∧ s.noteStatus.ports = s.ports ∧ s.noteStatus.lanes = s.lanes ∧
    s.noteStatus.recal = s.recal ∧ s.noteStatus.refclkLost = s.refclkLost ∧ s.noteStatus.otn = s.otn ∧ s.noteStatus.bridge = s.bridge ∧
    s.noteStatus.flow = s.flow ∧ s.noteStatus.bales = s.bales ∧ s.noteStatus.eng = s.eng ∧ s.noteStatus.svc = s.svc ∧
    s.noteStatus.matcher = s.matcher ∧ s.noteStatus.awn = s.awn ∧ s.noteStatus.gate = s.gate ∧ s.noteStatus.ledger = s.ledger ∧
    s.noteStatus.packets = s.packets ∧ s.noteStatus.nextPkt = s.nextPkt ∧ s.noteStatus.core = s.core ∧ s.noteStatus.mem = s.mem ∧
    s.noteStatus.sheaf = s.sheaf ∧ s.noteStatus.fault = s.fault ∧ s.noteStatus.trust = s.trust ∧ s.noteStatus.keeper = s.keeper ∧
    s.noteStatus.power = s.power ∧ s.noteStatus.cnt = s.cnt := by
  unfold State.noteStatus; dsimp only; split <;> simp

/-- A ledger record that is made, or waits for room, touches the ledger alone (R287). -/
@[simp] theorem State.makeRecord_frame (s : State) (x : LateRec) :
    (s.makeRecord x).pending = s.pending ∧ (s.makeRecord x).outbox = s.outbox ∧ (s.makeRecord x).fresh = s.fresh ∧ (s.makeRecord x).now = s.now ∧
    (s.makeRecord x).settings = s.settings ∧ (s.makeRecord x).tiller = s.tiller ∧ (s.makeRecord x).sched = s.sched ∧ (s.makeRecord x).ports = s.ports ∧
    (s.makeRecord x).lanes = s.lanes ∧ (s.makeRecord x).recal = s.recal ∧ (s.makeRecord x).refclkLost = s.refclkLost ∧ (s.makeRecord x).otn = s.otn ∧
    (s.makeRecord x).bridge = s.bridge ∧ (s.makeRecord x).flow = s.flow ∧ (s.makeRecord x).bales = s.bales ∧ (s.makeRecord x).eng = s.eng ∧
    (s.makeRecord x).svc = s.svc ∧ (s.makeRecord x).matcher = s.matcher ∧ (s.makeRecord x).awn = s.awn ∧ (s.makeRecord x).gate = s.gate ∧
    (s.makeRecord x).packets = s.packets ∧ (s.makeRecord x).nextPkt = s.nextPkt ∧ (s.makeRecord x).core = s.core ∧ (s.makeRecord x).mem = s.mem ∧
    (s.makeRecord x).sheaf = s.sheaf ∧ (s.makeRecord x).host = s.host ∧ (s.makeRecord x).fault = s.fault ∧ (s.makeRecord x).trust = s.trust ∧
    (s.makeRecord x).keeper = s.keeper ∧ (s.makeRecord x).power = s.power ∧ (s.makeRecord x).cnt = s.cnt := by
  unfold State.makeRecord State.joinLedger; dsimp only; (repeat' split) <;> simp

/-- A ledger record touches the ledger alone (R287). -/
@[simp] theorem State.record_frame (s : State) (r : LedgerRec) :
    (s.record r).pending = s.pending ∧ (s.record r).outbox = s.outbox ∧ (s.record r).fresh = s.fresh ∧ (s.record r).now = s.now ∧
    (s.record r).settings = s.settings ∧ (s.record r).tiller = s.tiller ∧ (s.record r).sched = s.sched ∧ (s.record r).ports = s.ports ∧
    (s.record r).lanes = s.lanes ∧ (s.record r).recal = s.recal ∧ (s.record r).refclkLost = s.refclkLost ∧ (s.record r).otn = s.otn ∧
    (s.record r).bridge = s.bridge ∧ (s.record r).flow = s.flow ∧ (s.record r).bales = s.bales ∧ (s.record r).eng = s.eng ∧
    (s.record r).svc = s.svc ∧ (s.record r).matcher = s.matcher ∧ (s.record r).awn = s.awn ∧ (s.record r).gate = s.gate ∧
    (s.record r).packets = s.packets ∧ (s.record r).nextPkt = s.nextPkt ∧ (s.record r).core = s.core ∧ (s.record r).mem = s.mem ∧
    (s.record r).sheaf = s.sheaf ∧ (s.record r).host = s.host ∧ (s.record r).fault = s.fault ∧ (s.record r).trust = s.trust ∧
    (s.record r).keeper = s.keeper ∧ (s.record r).power = s.power ∧ (s.record r).cnt = s.cnt := by
  simp [State.record]

/-- A signed ledger record touches the ledger alone (R287). -/
@[simp] theorem State.recordSigned_frame (s : State) (r : LedgerRec) :
    (s.recordSigned r).pending = s.pending ∧ (s.recordSigned r).outbox = s.outbox ∧ (s.recordSigned r).fresh = s.fresh ∧
    (s.recordSigned r).now = s.now ∧ (s.recordSigned r).settings = s.settings ∧ (s.recordSigned r).tiller = s.tiller ∧
    (s.recordSigned r).sched = s.sched ∧ (s.recordSigned r).ports = s.ports ∧ (s.recordSigned r).lanes = s.lanes ∧
    (s.recordSigned r).recal = s.recal ∧ (s.recordSigned r).refclkLost = s.refclkLost ∧ (s.recordSigned r).otn = s.otn ∧
    (s.recordSigned r).bridge = s.bridge ∧ (s.recordSigned r).flow = s.flow ∧ (s.recordSigned r).bales = s.bales ∧
    (s.recordSigned r).eng = s.eng ∧ (s.recordSigned r).svc = s.svc ∧ (s.recordSigned r).matcher = s.matcher ∧
    (s.recordSigned r).awn = s.awn ∧ (s.recordSigned r).gate = s.gate ∧ (s.recordSigned r).packets = s.packets ∧
    (s.recordSigned r).nextPkt = s.nextPkt ∧ (s.recordSigned r).core = s.core ∧ (s.recordSigned r).mem = s.mem ∧
    (s.recordSigned r).sheaf = s.sheaf ∧ (s.recordSigned r).host = s.host ∧ (s.recordSigned r).fault = s.fault ∧
    (s.recordSigned r).trust = s.trust ∧ (s.recordSigned r).keeper = s.keeper ∧ (s.recordSigned r).power = s.power ∧
    (s.recordSigned r).cnt = s.cnt := by
  simp [State.recordSigned]

@[simp] theorem State.signal_eventIndex (s : State) (n : Nat) : (s.signal n).host.eventIndex = s.host.eventIndex := by
  unfold State.signal; split <;> simp [State.emit]

@[simp] theorem State.interrupt_eventIndex (s : State) (b : Nat) (on : Bool) : (s.interrupt b on).host.eventIndex = s.host.eventIndex := by
  unfold State.interrupt; dsimp only; (repeat' split) <;> simp [State.signal_eventIndex]

@[simp] theorem State.enqueueEvent_eventIndex (s : State) (m : Nat) (e : EventRec) :
    (s.enqueueEvent m e).host.eventIndex = s.host.eventIndex := by
  unfold State.enqueueEvent; dsimp only; (repeat' split) <;> simp [State.hostLost]

/-- A raised event takes the next device index (R367). -/
@[simp] theorem State.raise_eventIndex (s : State) (code source : Nat) (body : Bytes) (masked : Bool) :
    (s.raise code source body masked).host.eventIndex = s.host.eventIndex + 1 := by
  unfold State.raise; dsimp only; split <;> simp

/-- A command that chooses between two next states answers one. -/
theorem next_ite {c : Prop} [Decidable c] {a b : State} {P : State → Prop} (ha : c → P a) (hb : ¬c → P b) :
    ∃ t, (if c then (Host.Outcome.next a : Res) else .next b) = .next t ∧ P t := by
  by_cases h : c
  · exact ⟨a, if_pos h, ha h⟩
  · exact ⟨b, if_neg h, hb h⟩

/-- A recalibration pass touches its own state, and the host interface when it is complete at once (R90). -/
@[simp] theorem State.startPass_frame (s : State) :
    (s.startPass).pending = s.pending ∧ (s.startPass).fresh = s.fresh ∧ (s.startPass).now = s.now ∧ (s.startPass).settings = s.settings ∧
    (s.startPass).tiller = s.tiller ∧ (s.startPass).sched = s.sched ∧ (s.startPass).ports = s.ports ∧ (s.startPass).lanes = s.lanes ∧
    (s.startPass).refclkLost = s.refclkLost ∧ (s.startPass).otn = s.otn ∧ (s.startPass).bridge = s.bridge ∧ (s.startPass).flow = s.flow ∧
    (s.startPass).bales = s.bales ∧ (s.startPass).eng = s.eng ∧ (s.startPass).svc = s.svc ∧ (s.startPass).matcher = s.matcher ∧
    (s.startPass).awn = s.awn ∧ (s.startPass).gate = s.gate ∧ (s.startPass).ledger = s.ledger ∧ (s.startPass).packets = s.packets ∧
    (s.startPass).nextPkt = s.nextPkt ∧ (s.startPass).core = s.core ∧ (s.startPass).mem = s.mem ∧ (s.startPass).sheaf = s.sheaf ∧
    (s.startPass).fault = s.fault ∧ (s.startPass).trust = s.trust ∧ (s.startPass).keeper = s.keeper ∧ (s.startPass).power = s.power ∧
    (s.startPass).cnt = s.cnt := by
  unfold State.startPass; dsimp only; split <;> simp

end Sys2Proof.Machine
end

