-- ==== Sys2Proof/Machine/Package.lean ====
section
/-! DEFINITION. The balls of the package: the signal or rail at each position of the 91 by 91 grid (21_electrical_and_package.md, R470
to R473). -/

namespace Sys2Proof.Machine

/-- Pin of a differential lane, in the order of Table 21-8. -/
inductive LanePin where
  | txp
  | txn
  | rxp
  | rxn
deriving DecidableEq, Repr

/-- What a ball carries (Table 21-7). -/
inductive Ball where
  /-- line lane Lnnn -/
  | line (lane : Nat) (pin : LanePin)
  /-- Sheaf lane SHn.k, where k = 8 carries the forwarded clock -/
  | sheaf (link lane : Nat) (pin : LanePin)
  /-- PCI Express lane -/
  | pcie (lane : Nat) (pin : LanePin)
  /-- MGMT lane -/
  | mgmt (pin : LanePin)
  /-- DDR5 channel Dk, signal index of Table 21-9 -/
  | ddr (channel signal : Nat)
  /-- a singular ball, a supply, ground or a reserved ball, by its name -/
  | named (name : String)
deriving DecidableEq, Repr

/-- Ground. -/
def Ball.vss : Ball := .named "VSS"

/-- Line lanes (Table 21-8): three rows of 32 lanes at each of two sides. -/
def lineBall (c r : Nat) : Option Ball :=
  if c < 14 ∨ 77 < c ∨ r % 2 = 1 then none
  else
    let k := (c - 14) / 2
    let n := decide (c % 2 = 1)
    let pin (rx : Bool) : LanePin := if rx then (if n then .rxn else .rxp) else (if n then .txn else .txp)
    if 2 ≤ r ∧ r ≤ 12 then some (.line (32 * ((r - 2) / 4) + k) (pin (r % 4 == 0)))
    else if 80 ≤ r ∧ r ≤ 90 then some (.line (96 + 32 * ((90 - r) / 4) + k) (pin (r % 4 == 0)))
    else none

/-- Pairs of balls at every third row from `r0` on: which pair, and whether the complement. -/
def thirdRows (r0 n r : Nat) : Option (Nat × Bool) :=
  if r0 ≤ r ∧ (r - r0) / 3 < n ∧ (r - r0) % 3 < 2 then some ((r - r0) / 3, (r - r0) % 3 == 1) else none

/-- Sheaf lanes, on columns 002 and 004 (Table 21-8). -/
def sheafBall (c r : Nat) : Option Ball :=
  if c = 2 then (thirdRows 24 18 r).map (fun x => .sheaf (x.1 / 9) (x.1 % 9) (if x.2 then .txn else .txp))
  else if c = 4 then (thirdRows 24 18 r).map (fun x => .sheaf (x.1 / 9) (x.1 % 9) (if x.2 then .rxn else .rxp))
  else none

/-- PCI Express, its clock, and MGMT, on columns 090 and 088 (Table 21-8). -/
def hostBall (c r : Nat) : Option Ball :=
  if c = 90 then
    match thirdRows 30 4 r with
    | some x => some (.pcie x.1 (if x.2 then .txn else .txp))
    | none =>
      if r = 45 then some (.named "PCIE_REFCLK_P") else if r = 46 then some (.named "PCIE_REFCLK_N")
      else if r = 50 then some (.mgmt .txp) else if r = 51 then some (.mgmt .txn) else none
  else if c = 88 then
    match thirdRows 30 4 r with
    | some x => some (.pcie x.1 (if x.2 then .rxn else .rxp))
    | none => if r = 50 then some (.mgmt .rxp) else if r = 51 then some (.mgmt .rxn) else none
  else none

/-- DDR5 channels: six columns each, the sixth of ground (Table 21-8). -/
def ddrBall (c r : Nat) : Option Ball :=
  let left := decide (8 ≤ c ∧ c ≤ 31)
  if (!left ∧ (c < 60 ∨ 83 < c)) ∨ r < 16 ∨ (45 ≤ r ∧ r < 47) ∨ 75 < r then none
  else
    let x := if left then c - 8 else c - 60
    let v := if r < 45 then 0 else 1
    let y := r - (16 + 31 * v)
    let k := (if left then 0 else 8) + 4 * v + x / 6
    if x % 6 = 5 then some .vss else some (.ddr k (29 * (x % 6) + y))

/-- Names of Tables 21-11 to 21-14, row by row from row 002 or 080 and from column 002 or 078, with every second row and column. -/
def cornerRows (right bottom : Bool) : List (List String) :=
  match right, bottom with
  | false, false =>
    [["GPIO0", "GPIO1", "GPIO2", "GPIO3", "GPIO4", "GPIO5"],
     ["GPIO6", "GPIO7", "GPIO8", "GPIO9", "GPIO10", "GPIO11"],
     ["GPIO12", "GPIO13", "GPIO14", "GPIO15", "VIO_D", "VIO_D"],
     ["VIO_D", "VIO_D", "RSVD", "RSVD", "RSVD", "RSVD"],
     ["RSVD", "RSVD", "RSVD", "RSVD", "VSS", "VSS"],
     ["VSS", "VSS", "VSS", "VSS", "VSS", "VSS"]]
  | true, false =>
    [["REFCLK_LINE0_P", "REFCLK_LINE0_N", "REFCLK_LINE1_P", "REFCLK_LINE1_N", "REFCLK_LINE2_P", "REFCLK_LINE2_N", "VSS"],
     ["SYSCLK", "TIME_REF", "PPS_IN", "PPS_OUT", "CYC_REF", "CYC_OUT", "VIO_A"],
     ["RESET_N", "GATE_SHUT", "SAG_WARN0", "SAG_WARN1", "SAG_WARN2", "FAULT_N", "THERM_N"],
     ["PERST_N", "VIO_A", "VIO_A", "VIO_A", "RSVD", "RSVD", "RSVD"],
     ["THERMDA", "THERMDC", "VCORE_SENSE_P", "VCORE_SENSE_N", "RSVD", "RSVD", "VSS"],
     ["VSS", "VSS", "VSS", "VSS", "VSS", "VSS", "VSS"]]
  | false, true =>
    [["REFCLK_SHEAF_P", "REFCLK_SHEAF_N", "VSS", "REFCLK_LINE3_P", "REFCLK_LINE3_N", "VSS"],
     ["REFCLK_LINE4_P", "REFCLK_LINE4_N", "REFCLK_LINE5_P", "REFCLK_LINE5_N", "VSS", "VSS"],
     ["SPI_CLK", "SPI_CS_N", "SPI_DQ0", "SPI_DQ1", "SPI_DQ2", "SPI_DQ3"],
     ["STRAP0", "STRAP1", "STRAP2", "STRAP3", "VIO_B", "VIO_B"],
     ["VIO_B", "VIO_B", "RSVD", "RSVD", "RSVD", "RSVD"],
     ["XTAL32_IN", "XTAL32_OUT", "VKEEP", "VKEEP", "RSVD", "RSVD"]]
  | true, true =>
    [["SPD_SCL0", "SPD_SDA0", "SPD_SCL1", "SPD_SDA1", "VIO_C", "VIO_C", "VSS"],
     ["PMB_SCL", "PMB_SDA", "PMB_ALERT_N", "SMB_SCL", "SMB_SDA", "SMB_ALERT_N", "VSS"],
     ["TCK", "TMS", "TDI", "TDO", "TRST_N", "VIO_C", "VIO_C"],
     ["RSVD", "RSVD", "RSVD", "RSVD", "RSVD", "RSVD", "RSVD"],
     ["RSVD", "RSVD", "RSVD", "RSVD", "RSVD", "RSVD", "VSS"],
     ["VSS", "VSS", "VSS", "VSS", "VSS", "VSS", "VSS"]]

/-- Balls of the four corners whose column and row are both even (R473). -/
def cornerBall (c r : Nat) : Option Ball :=
  if c % 2 = 1 ∨ r % 2 = 1 ∨ (12 < c ∧ c < 78) ∨ (12 < r ∧ r < 80) ∨ c = 0 ∨ r = 0 ∨ 90 < c ∨ 90 < r then none
  else
    let right := decide (78 ≤ c)
    let bottom := decide (80 ≤ r)
    let row := (cornerRows right bottom).getD ((if bottom then r - 80 else r - 2) / 2) []
    row[(if right then c - 78 else c - 2) / 2]?.map .named

/-- Supply and ground fill: the first row of Table 21-10 that matches (R472). -/
def fillBall (c r : Nat) : String :=
  let edge := decide (r ≤ 13 ∨ 79 ≤ r)
  let mid := decide (14 ≤ c ∧ c ≤ 77)
  if mid ∧ (r = 13 ∨ r = 79) then (if c % 2 = 0 then "VSERDES_A" else "VSERDES_H")
  else if mid ∧ edge then "VSS"
  else if edge then (if c % 2 = 1 ∧ r % 2 = 1 then "VSERDES_H" else "VSS")
  else if c = 6 ∨ c = 7 ∨ c = 84 ∨ c = 85 then "VSERDES_A"
  else if c ≤ 5 ∨ 86 ≤ c then "VSS"
  else if c ≤ 31 ∨ 60 ≤ c then "VDDQ_DDR"
  else if (c + r) % 2 = 1 then "VSS"
  else if r ≤ 15 ∨ 77 ≤ r then "VHBM_VDD"
  else if r = 16 ∨ r = 76 then "VHBM_VDDQ"
  else if r = 17 ∨ r = 75 then "VHBM_VPP"
  else if r ≤ 21 ∨ 71 ≤ r then "VSRAM"
  else "VCORE"

/-- What the ball at column `c`, row `r` carries, each from 001 to 091 (R471 to R473). -/
def ballAt (c r : Nat) : Ball :=
  (lineBall c r <|> sheafBall c r <|> hostBall c r <|> ddrBall c r <|> cornerBall c r).getD (.named (fillBall c r))

end Sys2Proof.Machine
end

