-- ==== Sys2Proof/WellFormed.lean ====
section
/-! DEFINITION. What the outside can supply: the ranges of the operands that their types do not bound already. -/

namespace Sys2Proof

/-- A frame on a wire has octets, and no more than the largest buffer holds with its preamble removed. -/
def okFrame (bytes : Bytes) : Bool := !bytes.isEmpty && decide (bytes.length ≤ 65535)

/-- A PFC frame names eight quanta, a pause frame one; a quanta is 16 bits (R83). -/
def okPause (f : PauseFrame) : Bool :=
  decide (f.enable < 256) && decide (f.quanta.length = if f.pfc then 8 else 1) && f.quanta.all (fun q => decide (q < 65536))

/-- The header fields of a PTP message keep their widths (R53, R54). -/
def okPtp (m : PtpMessage) : Bool :=
  decide (m.domain < 256) && decide (m.seq < 65536) && decide (m.tsSec < 2 ^ 48) && decide (m.tsNs < 1000000000) &&
  decide (m.clock.priority1 < 256) && decide (m.clock.clockClass < 256) && decide (m.clock.accuracy < 256) &&
  decide (m.clock.variance < 65536) && decide (m.clock.priority2 < 256) && decide (m.clock.identity < 2 ^ 64) &&
  decide (m.clock.steps < 65536) && decide (m.gmId < 65536) && decide (m.inaccuracy < 2 ^ 32)

/-- A coefficient request steps a tap up, down or not at all (R78). -/
def okCoef (q : CoefRequest) : Bool := decide (-1 ≤ q.delta ∧ q.delta ≤ 1)

/-- An OTU4 frame comes in 20 logical lanes; its counts keep within their fields (Table 4-4). -/
def okOtu (f : OtuFrame) : Bool :=
  decide (f.lanes.length = 20) && f.lanes.all (fun x => decide (x.2 < 256)) && decide (f.smBip < 256) && decide (f.smBei < 16) &&
  decide (f.pmBip < 256) && decide (f.pmBei < 16)

/-- An identifier lies in its routing table (R126). -/
def okRoute : RouteTable → Nat → Bool
  | .prefix4, _ | .prefix6, _ => true
  | .nextHop, i => decide (i < 65536)
  | .group, i => decide (i < 4096)

/-- A physical index of the match array (R238). -/
def okRow (i : Nat) : Bool := decide (i < 65536)

/-- Key IDs are 16 bits (Table 11-4). -/
def okKey (k : Nat) : Bool := decide (k < 65536)

/-- Control-store word addresses are 14 bits (R190). -/
def okWord (w : Nat) : Bool := decide (w < 16384)

/-- The bank of an HBM pseudo-channel; a DDR5 bank is as its SPD says (R324, R325). -/
def okBank (u : UnitId) (bank : Nat) : Bool := decide (128 ≤ u.val) || decide (bank < 64)

/-- The structure in which an SRAM error stands exists (R313). -/
def okSram : SramError → Bool
  | .routeEntry _ t id => okRoute t id
  | .matchRow _ i => okRow i
  | _ => true

/-- A superframe has eight data lanes, on each of which the pattern is seen at rising positions below 2,048 with a lane byte from 0x50 to
0x57, and 16,352 payload bytes (R347, R348). -/
def okSuperframe (x : Superframe) : Bool :=
  decide (x.seen.length = 8) && decide (x.payload.length = 16352) &&
    x.seen.all (fun l => l.all (fun c => decide (c.1 < 2048 ∧ 0x50 ≤ c.2 ∧ c.2 ≤ 0x57)) && decide (l.Pairwise (fun a b => a.1 < b.1)))

/-- A heartbeat's fields keep their codes (Table 14-5). -/
def okBeat (x : HeartbeatBody) : Bool := decide (x.tiller < 5) && decide (x.sag < 6)

/-- A pairing carries a 32-byte key, a 32-byte nonce and, once it can, a 64-byte signature (R352). -/
def okPairing (x : PairingBody) : Bool :=
  decide (x.pairId < 2 ^ 64) && decide (x.key.length = 32) && decide (x.nonce.length = 32) && x.sig.all (fun s => decide (s.length = 64))

/-- A replay window (R269). -/
def okWindow (w : WindowState) : Bool := okKey w.key && decide (w.high < 2 ^ 64) && decide (w.bitmap < 2 ^ 64)

/-- A translation checkpoint carries a 40-byte flow key and a 16-byte address (Table 14-5). -/
def okCheckpoint (x : Checkpoint) : Bool := decide (x.key.length = 40) && decide (x.addr.length = 16) && decide (x.port < 65536)

/-- Sixteen Granary channels are probed at a start (R325). -/
def okBoot (x : BootInputs) : Bool := decide (x.granary.length = 16)

/-- The header fields of a request keep the widths of Table 15-12, and a signature has 64 bytes. -/
def okRequest (r : Request) : Bool :=
  decide (r.flags < 65536) && decide (r.seq < 2 ^ 32) && decide (r.bale < 2 ^ 32) && decide (r.authClass < 256) &&
  decide (r.boot < 2 ^ 32) && decide (r.counter < 2 ^ 32) && decide (r.tag < 2 ^ 32) && decide (r.scope < 2 ^ 32) &&
  r.trailer.all (fun t => okKey t.1 && decide (t.2.length = 64))

/-- A command is well formed: its operands are such as the wire, the pin or the master can supply. A command that is not is no
happening of the device; the machine still answers it as its rules say. -/
def Instr.wf : Instr → Bool
  | .frameArrival _ bytes _ => okFrame bytes
  | .frameReceiveComplete _ _ => true
  | .flowSequencerRelease _ => true
  | .memoryReadComplete _ _ => true
  | .flowRecordWaitTimeout _ => true
  | .routineDispatch _ _ => true
  | .aluNop _ => true
  | .aluAdd _ => true
  | .aluSub _ => true
  | .aluMul _ => true
  | .aluCsum _ => true
  | .aluAnd _ => true
  | .aluOr _ => true
  | .aluXor _ => true
  | .aluShl _ => true
  | .aluShr _ => true
  | .aluSar _ => true
  | .aluRol _ => true
  | .aluMov _ => true
  | .aluMinu _ => true
  | .aluMaxu _ => true
  | .aluBswap _ => true
  | .aluExt _ => true
  | .aluIns _ => true
  | .aluSel _ => true
  | .aluCrc _ => true
  | .memNone _ => true
  | .hdrLd _ => true
  | .hdrSt _ => true
  | .metaLd _ => true
  | .descSt _ => true
  | .keySt _ => true
  | .recLock _ => true
  | .recLockReply _ _ => true
  | .recLd _ => true
  | .recSt _ => true
  | .mrgAdd _ => true
  | .mrgOr _ => true
  | .mrgMax _ => true
  | .mrgMin _ => true
  | .mrgAvg _ => true
  | .objLd _ => true
  | .objLdReply _ _ => true
  | .cntAdd _ => true
  | .evt _ => true
  | .brNext _ => true
  | .brJump _ => true
  | .brCall _ => true
  | .brReturn _ => true
  | .brEnd _ => true
  | .packetBaleApply _ => true
  | .egressQueueAdmission _ => true
  | .schedulerSelect _ => true
  | .transmitDone _ _ => true
  | .residueTimerExpiry _ => true
  | .bufferAudit => true
  | .xoffRefresh _ _ => true
  | .xoffLimitExpiry _ _ => true
  | .pauseBackoffEnd _ _ => true
  | .pauseFrameReceive _ f => okPause f
  | .pauseWatchdogTrip _ _ => true
  | .pauseWatchdogRecoveryEnd _ _ => true
  | .chaffSampleWrite => true
  | .cycRefEdge _ _ => true
  | .tillerStuck => true
  | .tillerLapse => true
  | .holdoverExpired => true
  | .tillerLocked => true
  | .cycOutToggle => true
  | .taiSecondBoundary => true
  | .ppsOutRise => true
  | .ppsOutFall => true
  | .ppsInEdge _ => true
  | .ptpMessageReceive _ m => okPtp m
  | .commitTick => true
  | .epochDrained => true
  | .gateBankRelease _ => true
  | .baleIdleTimeout _ => true
  | .trainingAttemptStart _ => true
  | .retryWaitExpiry _ => true
  | .suspensionIntervalExpiry _ => true
  | .negotiationComplete _ _ => true
  | .negotiationTimeout _ => true
  | .trainingTimeout _ => true
  | .partnerCoefficientRequest _ q => okCoef q
  | .coefficientResponse _ => true
  | .nextPageReceive _ => true
  | .trainingComplete _ => true
  | .signalAppears _ => true
  | .lossOfSignal _ => true
  | .refclkLineLoss _ => true
  | .dampingEvaluation => true
  | .lanePowerExitDone _ => true
  | .recalibrationPassStart => true
  | .laneTemperatureStep _ _ => true
  | .laneRecalibrationDone _ _ => true
  | .fullLaneRecalibration r => okRequest r
  | .otu4FrameReceive _ f => okOtu f
  | .otu4FrameTransmit _ => true
  | .otnPersistenceExpiry _ => true
  | .dlosClearTimeout _ => true
  | .otnSecondEnd => true
  | .learnRequestApply _ => true
  | .moveWindowClose _ _ => true
  | .macThaw _ _ => true
  | .macFlushOnPortDown _ => true
  | .macAgeingSweepVisit _ _ => true
  | .macStaticRestore _ vid mac => decide (vid < 4096) && decide (mac < 2 ^ 48)
  | .routeEntryRefresh _ t id => okRoute t id
  | .lacpFrameReceive _ _ => true
  | .lagMemberJoin _ => true
  | .lagSlotDrained _ _ => true
  | .lagMoveLimitExpiry _ => true
  | .flowSweepVisit _ => true
  | .flowSweepPassEnd => true
  | .overflowRelocationMove idx => decide (idx < 262144)
  | .blockHoldExpiry _ block => decide (block < 2 ^ 32)
  | .exportMessageSend => true
  | .templateResend => true
  | .matchRelocationStep src dst => okRow src && okRow dst
  | .matchRowRewrite _ idx => okRow idx
  | .matchRowScrub _ idx _ => okRow idx
  | .segmentScanStart => true
  | .segmentScanComplete _ _ _ => true
  | .profiledWorkDeadlineExpiry _ => true
  | .automataEntryRewrite _ => true
  | .awnKnownAnswerScan _ _ => true
  | .commandDigestComplete _ _ => true
  | .permitTableLookup _ => true
  | .holdLimitExpiry _ => true
  | .permitFrameReceive _ body => decide (body.length = 192)
  | .aggregateRefusalRecord => true
  | .sealVerdict _ _ _ => true
  | .permitEntryWrite key _ => okKey key
  | .permitNotBeforeReached _ => true
  | .permitWindowOpen _ => true
  | .permitExpiryRemoval _ => true
  | .gateShutAssert => true
  | .gateShutDeassert => true
  | .gateShutRelease => true
  | .ledgerRecordWrite => true
  | .ledgerSeal => true
  | .hashKnownAnswerTest _ _ => true
  | .sealPairKnownAnswerTest _ _ => true
  | .knownAnswerRoutine _ _ _ => true
  | .controlStoreScrub _ _ word _ => okWord word
  | .controlStoreRewriteDone _ _ word => okWord word
  | .onDieSramScrub e => okSram e
  | .serviceEngineInterrupt _ _ _ => true
  | .serviceRoutineResume _ _ => true
  | .memoryRequestIssue _ => true
  | .refreshIssue u bank => okBank u bank
  | .rowActivation u bank _ => okBank u bank
  | .activationTableClear _ => true
  | .patrolScrubRead _ _ _ => true
  | .retrainStart _ => true
  | .retrainComplete _ _ => true
  | .retrainRetry _ => true
  | .policyMirrorCopyDone _ => true
  | .ledgerMirrorRebuildDone _ => true
  | .memoryTrainingDone _ => true
  | .sheafSymbolLockLoss _ => true
  | .sheafTrainingFrame _ q _ => okCoef q
  | .sheafTrainingRetry _ => true
  | .superframeReceive _ x => okSuperframe x
  | .superframeSend _ => true
  | .sheafLaneLossOfSignal _ => true
  | .sheafHeartbeatTimeout _ => true
  | .twinHeartbeatTimeout => true
  | .refclkSheafLoss => true
  | .heartbeatSend => true
  | .heartbeat _ x => okBeat x
  | .pairing _ x => okPairing x
  | .reservation _ key _ => okKey key
  | .reservationResult _ key _ _ => okKey key
  | .permitCopy _ body _ => decide (body.length = 192)
  | .consumption _ key _ _ => okKey key
  | .consumptionAcknowledge _ key _ => okKey key
  | .windowMerge _ ws => ws.all okWindow
  | .delayExchange _ _ => true
  | .delayExchangeSend _ => true
  | .translationCheckpoint _ x => okCheckpoint x
  | .checkpointSend => true
  | .sheafGuoloMessage _ _ => true
  | .resyncDone _ _ => true
  | .messageResendTimeout _ => true
  | .reqProdDoorbell _ _ => true
  | .cplConsWrite _ _ => true
  | .ringConsWrite _ _ => true
  | .ringCtrlWrite _ _ => true
  | .intCauseWrite _ => true
  | .intSetWrite _ => true
  | .intMaskWrite _ => true
  | .eventLostRead => true
  | .registerWrite addr _ => decide (addr % 4 = 0)
  | .pcieFunctionReset => true
  | .eventDelivery _ => true
  | .mgmtFrameReceive src _ => decide (src.length = 16)
  | .mgmtReassemblyTimeout _ => true
  | .mgmtGapTimeout _ => true
  | .jtagMb14Data _ => true
  | .jtagBypass _ => true
  | .mcLockstepMismatch _ => true
  | .mcPairSelfTestDone _ _ => true
  | .settleTimeExpiry _ => true
  | .sliceDrainComplete _ => true
  | .sliceReturn _ => true
  | .sliceReturnTimeout _ => true
  | .sysclkLoss => true
  | .sysclkPeriodGlitch => true
  | .vcoreGlitch => true
  | .vkeepLoss => true
  | .resetNAssert => true
  | .bootStart x => okBoot x
  | .switchoverHandoverDone => true
  | .switchoverTimeout => true
  | .sagWarnInput _ => true
  | .railMonitorTrigger _ _ => true
  | .shedRankTimer _ => true
  | .ledgerCloseDone => true
  | .sagReleaseHoldExpiry => true
  | .level5ReleaseReset => true
  | .vcoreAdaptStep _ => true
  | .thermalThresholdCrossing _ => true
  | .counterSnapshotTake => true
  | .counterPeriodExpiry _ _ => true
  | .counterCaptureTimeout _ _ => true
  | .deviceStatus r => okRequest r
  | .eventSubscribe r => okRequest r
  | .eventSubscribeRead r => okRequest r
  | .managementPortSet r => okRequest r
  | .managementPortSetRead r => okRequest r
  | .engineSet r => okRequest r
  | .engineSetRead r => okRequest r
  | .engineFenceOrReturn r => okRequest r
  | .faultStatus r => okRequest r
  | .faultPolicySet r => okRequest r
  | .faultPolicySetRead r => okRequest r
  | .sliceDrainAndReset r => okRequest r
  | .clearSafeState r => okRequest r
  | .portModeSet r => okRequest r
  | .portModeSetRead r => okRequest r
  | .laneConfigSet r => okRequest r
  | .laneConfigSetRead r => okRequest r
  | .portTrainingSet r => okRequest r
  | .portTrainingSetRead r => okRequest r
  | .portDampingSet r => okRequest r
  | .portDampingSetRead r => okRequest r
  | .portPauseSet r => okRequest r
  | .portPauseSetRead r => okRequest r
  | .portPolicerSet r => okRequest r
  | .portPolicerSetRead r => okRequest r
  | .laneTestSet r => okRequest r
  | .laneTestSetRead r => okRequest r
  | .lanePowerSet r => okRequest r
  | .lanePowerSetRead r => okRequest r
  | .laneRecalibrateSet r => okRequest r
  | .laneRecalibrateSetRead r => okRequest r
  | .otnOverheadSet r => okRequest r
  | .otnOverheadSetRead r => okRequest r
  | .otnMaintenanceSet r => okRequest r
  | .otnMaintenanceSetRead r => okRequest r
  | .bufferPoolSet r => okRequest r
  | .bufferPoolSetRead r => okRequest r
  | .portQueueSet r => okRequest r
  | .portQueueSetRead r => okRequest r
  | .portSchedulerSet r => okRequest r
  | .portSchedulerSetRead r => okRequest r
  | .portStatus r => okRequest r
  | .tillerReferenceSet r => okRequest r
  | .tillerReferenceSetRead r => okRequest r
  | .tillerHoldoverSet r => okRequest r
  | .tillerHoldoverSetRead r => okRequest r
  | .tillerModeSet r => okRequest r
  | .tillerModeSetRead r => okRequest r
  | .tillerTimeSourceSet r => okRequest r
  | .tillerTimeSourceSetRead r => okRequest r
  | .tillerOutputSet r => okRequest r
  | .tillerOutputSetRead r => okRequest r
  | .gateListSet r => okRequest r
  | .windowSet r => okRequest r
  | .tillerStatus r => okRequest r
  | .bridgeTableSet r => okRequest r
  | .bridgeTableSetRead r => okRequest r
  | .bridgeLearnSet r => okRequest r
  | .bridgeLearnSetRead r => okRequest r
  | .bridgeAgeingSet r => okRequest r
  | .bridgeAgeingSetRead r => okRequest r
  | .bridgeCopy r => okRequest r
  | .routeOptionsSet r => okRequest r
  | .routeOptionsSetRead r => okRequest r
  | .aggregationSet r => okRequest r
  | .aggregationSetRead r => okRequest r
  | .bridgeEntrySet r => okRequest r
  | .vlanSet r => okRequest r
  | .routerMacSet r => okRequest r
  | .prefixSet r => okRequest r
  | .nextHopSet r => okRequest r
  | .multipathSet r => okRequest r
  | .aggregationGroupSet r => okRequest r
  | .matchRowSet r => okRequest r
  | .matchBankSet r => okRequest r
  | .matchArraySet r => okRequest r
  | .matchArraySetRead r => okRequest r
  | .matchRead r => okRequest r
  | .bridgeRead r => okRequest r
  | .routeRead r => okRequest r
  | .flowProfileSet r => okRequest r
  | .flowRecordSet r => okRequest r
  | .flowAgeingSet r => okRequest r
  | .flowAgeingSetRead r => okRequest r
  | .flowTableSet r => okRequest r
  | .flowTableSetRead r => okRequest r
  | .flowRead r => okRequest r
  | .objectWrite r => okRequest r
  | .patternLoad r => okRequest r
  | .patternSwitch r => okRequest r
  | .lbGroupSet r => okRequest r
  | .lbMemberSet r => okRequest r
  | .translationPoolSet r => okRequest r
  | .exportSet r => okRequest r
  | .exportSetRead r => okRequest r
  | .exportStatus r => okRequest r
  | .archiveRead r => okRequest r
  | .flowStatus r => okRequest r
  | .gateProfileSet r => okRequest r
  | .keyRingSet r => okRequest r
  | .gateIntakeSet r => okRequest r
  | .gateIntakeSetRead r => okRequest r
  | .gateOptionsSet r => okRequest r
  | .gateOptionsSetRead r => okRequest r
  | .ledgerOptionsSet r => okRequest r
  | .ledgerOptionsSetRead r => okRequest r
  | .ledgerAcknowledge r => okRequest r
  | .gateShut r => okRequest r
  | .gateReopen r => okRequest r
  | .permitSubmit r => okRequest r
  | .permitRevoke r => okRequest r
  | .permitRead r => okRequest r
  | .ledgerRead r => okRequest r
  | .gateStatus r => okRequest r
  | .baleOpen r => okRequest r
  | .baleCommit r => okRequest r
  | .baleAbort r => okRequest r
  | .baleStatus r => okRequest r
  | .baleOptionsSet r => okRequest r
  | .baleOptionsSetRead r => okRequest r
  | .memorySchedulerSet r => okRequest r
  | .memorySchedulerSetRead r => okRequest r
  | .memoryRetrainSet r => okRequest r
  | .memoryRetrainSetRead r => okRequest r
  | .retrainUnitNow r => okRequest r
  | .memoryScrubSet r => okRequest r
  | .memoryScrubSetRead r => okRequest r
  | .granaryRegionSet r => okRequest r
  | .granaryRegionSetRead r => okRequest r
  | .memoryRetire r => okRequest r
  | .memoryStatus r => okRequest r
  | .sheafPairSet r => okRequest r
  | .sheafPairSetRead r => okRequest r
  | .sheafLaneSet r => okRequest r
  | .sheafLaneSetRead r => okRequest r
  | .sheafPowerSet r => okRequest r
  | .sheafPowerSetRead r => okRequest r
  | .sheafStatus r => okRequest r
  | .chaffSet r => okRequest r
  | .chaffSetRead r => okRequest r
  | .strawSet r => okRequest r
  | .strawSetRead r => okRequest r
  | .strawRead r => okRequest r
  | .counterRead r => okRequest r
  | .counterSnapshot r => okRequest r
  | .counterFreeze r => okRequest r
  | .counterSamplingSet r => okRequest r
  | .counterSamplingSetRead r => okRequest r
  | .claim r => okRequest r
  | .microcodeLoad r => okRequest r
  | .microcodeSwitch r => okRequest r
  | .microcodeRead r => okRequest r
  | .firmwareLoad r => okRequest r
  | .firmwareSwitch r => okRequest r
  | .attestationQuote r => okRequest r
  | .attestationLogRead r => okRequest r
  | .rollbackAdvance r => okRequest r
  | .ownerKeySet r => okRequest r
  | .successionExport r => okRequest r
  | .successionImport r => okRequest r
  | .powerStatus r => okRequest r
  | .sagPortSet r => okRequest r
  | .sagPortSetRead r => okRequest r
  | .sagOptionsSet r => okRequest r
  | .sagOptionsSetRead r => okRequest r
  | .commandedTestLevel r => okRequest r
  | .sagRecordRead r => okRequest r
  | .timeRefLoss => true
  | .sysclkReturn => true
  | .vkeepReturn => true
  | .xtal32Loss => true
  | .sheafSymbolLockGain _ => true
  | .pauseQuantaExpiry _ _ => true
  | .lacpTimeout _ => true
  | .switchoverImageStaged _ => true
  | .longRequestProgress _ percent => decide (percent ≤ 100)

end Sys2Proof
end

