-- ==== Sys2Proof/Tests/Slice0.lean ====
section
/-! SUPPORT. Tests: terms that well-formedness refuses, values written out from the spec, and for each obligation with hypotheses states and
operands that meet them. -/

namespace Sys2Proof.Tests

open Sys2Proof Sys2Proof.Machine

section Slice0

set_option Elab.async false
set_option linter.unusedVariables false

/-! ### Small states -/

/-- A state with a setting. -/
def withSet (s : State) (id t : Nat) (v : List Int) : State := { s with settings := s.settings.put id t v }
/-- The device after reset, at a time. -/
def atTime (n : Nat) : State := { State.reset with now := n }
/-- The device after reset with a port as given. -/
def portIs (p : Nat) (x : Port) : State := State.reset.setPort p x
/-- The device after reset with a Tiller as given. -/
def tillerIs (x : Tiller) : State := { State.reset with tiller := x }

/-- A PTP message of a kind in a domain. -/
def ptpOf (k : PtpKind) (d : Nat) : PtpMessage := { kind := k, domain := d, twoStep := true, seq := 0, tsSec := 0, tsNs := 0, corrNs := 0, utcOffset := 0 }
/-- Port P00 takes part in PTP. -/
def ptpOn : State := withSet (portIs 0 { st := .up }) 0x0213 0 [1, 0, 254]
theorem best_is_zero : ptpRank {} 0 = 0 := by decide
theorem best_below_own (c : PtpClock) : ptpRank {} 0 < ptpRank c 127 := by rw [best_is_zero]; exact Nat.add_pos_right _ (by decide)
/-- A device whose one port hears a clock of the best rank faces its master there, whatever its own clock is. -/
theorem faces_best (s : State) (hk : Tab.keys s.ports = [0]) (hf : s.foreign 0 = some {}) : s.facesMaster 0 = true := by
  simp only [State.facesMaster, State.ptpMaster, hk, List.foldl_cons, List.foldl_nil, hf, if_pos (best_below_own _), Option.any_some, beq_self_eq_true]
/-- An OTU4 frame without errors. -/
def cleanOtu : OtuFrame :=
  ⟨(List.range 20).map (fun i => (true, i)), 0, true, 0, 0, 0, 0, false, false, false, 0, 0, 0, false, 1, 0, false, 0, 0, 0, true, false⟩

/-- Slice `k`'s MAC table as given. -/
def macIs (k : Nat) (t : MacTable) : State := State.reset.setMac k t
/-- One packet in the device, with number 0. -/
def pktIs (p : Packet) : State := State.reset.setPkt 0 p
/-- A flow record with a key of zeros. -/
def zeroRec : Bytes := newRec (List.replicate 40 0) 0 false 0 64
/-- The device with that record at a place. -/
def recIn (l : Nat) : State := State.reset.setRec l { bytes := zeroRec }
/-- The place that the key of zeros has in its first bucket. -/
def zeroPlace : Nat := 4 * (State.reset.flowBuckets (List.replicate 40 0)).1
/-- A packet that asks for that record. -/
def asks : Packet := { port := 0, bytes := [], stamp := {}, at_ := 0, epoch := 0, stage := .lookedUp, key := List.replicate 40 0, record := .wanted }

/-- Aggregation group 0 with port P05 as its one member. -/
def lagOf0 : State := { State.reset with bales := { objects := [(objKey .lag 0, [(0, some [0, 1, 0, 0, 5])])] } }
theorem lagOf0_port : lagOf0.lagOfPort 5 = some 0 := by
  have h : lagOf0.lagMembers 0 = [5] := by
    have e : lagOf0.objNow (objKey .lag 0) = some [0, 1, 0, 0, 5] := by decide +kernel
    unfold State.lagMembers
    rw [e]
    exact List.mergeSort_singleton 5
  unfold State.lagOfPort
  rw [show List.range 48 = 0 :: (List.range 47).map (· + 1) from by decide +kernel, List.find?_cons_of_pos]
  rw [h]; rfl

/-- The body of a shut request: type 2, key 0, sequence 1. -/
def shutBody : Bytes := [0, 0, 0, 0, 1, 2, 0, 0, 0, 0, 0, 0, 0, 0, 0, 0, 0, 0, 0, 0, 0, 0, 0, 1] ++ List.replicate 104 0
/-- A key ring whose key 0 has every role. -/
def ring0 : Tab Bytes := [(0, padTo 64 [0, 0, 1, 0, 255, 255, 255, 255, 255, 255, 255, 255, 255, 255, 255, 255, 0, 0, 0, 0, 0, 0, 0, 0, 255, 255, 255, 255, 255, 255, 255])]
/-- That request, granted and waiting to be written. -/
def grantedShut : Intake := { body := shutBody, source := 0, granted := true }
/-- A permit entry of zeros. -/
def blankPermit : PermitEntry := { bytes := List.replicate 128 0 }
/-- The device with that entry at a place. -/
def permitIn (i : Nat) : State := { State.reset with gate := { permits := [(i, blankPermit)] } }
/-- A memory unit of the device. -/
def unitIs (u : Nat) (m : MemUnit) : State := State.reset.setUnit u m
/-- A packet at step 7. -/
def atStep7 : Packet := { asks with stage := .step7, key := [], complete := true }

/-- A frame of 64 bytes with an Ethertype. -/
def ethFrame (t : Nat) : Bytes := List.replicate 12 0 ++ natBe 2 t ++ List.replicate 50 0
/-- A packet that waits in class 7 of port P00, which is up. -/
def queued0 : State :=
  { (pktIs { atStep7 with stage := .inQueues, copies := [{ port := 0, cls := 7 }] }).setPort 0 { st := .up, runMode := 1 } with
    core := { queues := [(7, [0])] } }

/-- A Sheaf lane in frame with byte 0x50 + `i`. -/
def liveLane (i : Nat) : SheafLane :=
  { signal := true, lock := true, inFrame := true, converged := true, laneByte := some (0x50 + i), power := 0 }
/-- A Sheaf link that is up, paired and aligned. -/
def liveLink : SheafLink := { lanes := (List.range 9).map liveLane, up := true, paired := true }
/-- The device with a link as given. -/
def linkIs (n : Nat) (x : SheafLink) : State := State.reset.setLink n x
/-- The device with a twin. -/
def twinned : State := { linkIs 0 liveLink with sheaf := { (linkIs 0 liveLink).sheaf with twin := 1 } }
/-- The device with link 0 up, a pair ID and the twin's key set. -/
def pairing0 : State := withSet (withSet (linkIs 0 liveLink) 0x0E01 0 [1, 0, 0, 0, 0, 0, 0, 0]) 0x0E02 0 (1 :: List.replicate 31 0)
/-- A checkpoint of zeros. -/
def blankCheckpoint : Checkpoint := ⟨true, List.replicate 40 0, List.replicate 16 0, 0, 0, 0, 0, 0⟩
/-- An event. -/
def someEvent : EventRec := { code := 0x0101, source := 0, index := 0, stamp := {}, body := [] }
/-- A slot that passes its checks, and one that does not. -/
def slotCheck (ok : Bool) : SlotCheck := ⟨ok, 0, 0, 0, 1, 0, 1, [], [], 0⟩
/-- What a start meets with both slots so. -/
def bootIn (ok : Bool) : BootInputs := ⟨0, true, true, slotCheck ok, slotCheck ok, List.replicate 16 128⟩
/-- A switchover to slot 1 under way. -/
def switching (q : Option Nat) : State := { State.reset with trust := { switchover := some { slot := 1, header := [], quiesced := q } } }

/-! ### A running context -/

/-- A packet of 64 bytes whose routine runs in context `c`. -/
def runPkt (c : Context) : Packet := { asks with bytes := List.replicate 64 0, stage := .running, ctx := some c }
/-- The device with that packet. -/
def runs (c : Context) : State := pktIs (runPkt c)
/-- A context at the first customer word. -/
def ctx0 : Context := { engine := 0, bank := 0, pc := 0x3000, hw := some 0 }
/-- That context in hold mode, with record 0 of profile 0 in handle 0. -/
def ctxRec : Context := { ctx0 with hold := true, handles := [(0, List.replicate 40 0)], snaps := [(0, zeroRec)] }
/-- An ALU slot on registers 1 and 2, or on an immediate. -/
def aluOf (bsel setf : Bool) (imm : W32) (cond : Fin 16) : AluSlot := ⟨0, 3, 1, 2, bsel, imm, cond, setf, none⟩
/-- The device at a packet whose context stands at a word. -/
def atWord (w : Nat) (c : Context) : State :=
  { runs c with eng := { (runs c).eng with store := [(16384 * c.bank + c.pc, w)] } }
/-- That word spells an ALU slot of operation `op`, a memory slot, or a branch slot, and nothing else. -/
def aluAt (op : Nat) (x : AluSlot) (c : Context) : State := atWord (aluSpelling op x * 2 ^ 128) c
def memAt (op : Nat) (x : MemSlot) (c : Context) : State := atWord (memSpelling op x * 2 ^ 64) c
def brAt (op : Nat) (x : BrSlot) (c : Context) : State := atWord (brSpelling op x) c
/-- A memory slot on register 1 with base g00. -/
def memOf (msize : Fin 64) (moff : W32) : MemSlot := ⟨0, 1, 0, msize, 0, moff, none⟩
/-- A branch slot. -/
def brOf (cond : Fin 16) (target : Fin 16384) : BrSlot := ⟨0, cond, target, none⟩

/-! ### A signature that checks -/

/-- A public key, and a first half of a signature, that is the neutral point. -/
def idKey : Bytes := 1 :: List.replicate 31 0
/-- The signature of any message under that key. -/
def idSig : Bytes := idKey ++ List.replicate 32 0
theorem edMul_nothing : ∀ n p, edMul n 0 p = EdPoint.zero
  | 0, _ => rfl
  | n + 1, p => by simp [edMul, edMul_nothing n]
theorem edAdd_neutral (p q : EdPoint) (hp : p.x = 0 ∧ p.t = 0 ∧ p.y = p.z) (hq : q.x = 0 ∧ q.t = 0 ∧ q.y = q.z) :
    (edAdd p q).x = 0 ∧ (edAdd p q).t = 0 ∧ (edAdd p q).y = (edAdd p q).z := by
  obtain ⟨h1, h2, h3⟩ := hp
  obtain ⟨g1, g2, g3⟩ := hq
  have e1 : (p.z + edP) * (q.z + edP) % edP = p.z * q.z % edP := by rw [Nat.mul_mod, Nat.add_mod_right, Nat.add_mod_right, ← Nat.mul_mod]
  have e2 : ∀ b, b + edP - b = edP := fun b => by omega
  simp only [edAdd, h1, h2, h3, g1, g2, g3, Nat.sub_zero, Nat.add_zero, Nat.mul_zero, Nat.zero_mul, Nat.zero_mod, e1, e2,
    Nat.mul_mod_right, true_and]
  have e4 : (p.z * q.z % edP + p.z * q.z % edP) % edP = 2 * p.z * q.z % edP % edP := by
    rw [← Nat.add_mod, Nat.mod_mod, ← Nat.two_mul, Nat.mul_assoc]
  rw [Nat.mul_comm (2 * p.z * q.z % edP + edP), Nat.mul_mod, e4, ← Nat.mul_mod, Nat.mul_mod (2 * p.z * q.z % edP) (_ + _), Nat.add_mod_right]
  simp only [Nat.mod_mod, ← Nat.mul_mod]
theorem edMul_neutral : ∀ n k p, p.x = 0 ∧ p.t = 0 ∧ p.y = p.z → (edMul n k p).x = 0 ∧ (edMul n k p).t = 0 ∧ (edMul n k p).y = (edMul n k p).z
  | 0, _, _, _ => ⟨rfl, rfl, rfl⟩
  | n + 1, k, p, h => by
    have ih := edMul_neutral n (k / 2) (edAdd p p) (edAdd_neutral p p h h)
    simp only [edMul]
    split
    · exact edAdd_neutral _ _ ih h
    · exact ih
theorem idKey_signs (msg : Bytes) : edVerify idKey msg idSig = true := by
  have h1 : idSig.length = 64 := by decide +kernel
  have h2 : edDecode idKey = some ⟨0, 1, 1, 0⟩ := by decide +kernel
  have h3 : idSig.take 32 = idKey := by decide +kernel
  have h4 : leNat (idSig.drop 32) = 0 := by decide +kernel
  simp only [edVerify, h1, h2, h3, h4, if_true, edMul_nothing]
  rw [Bool.and_eq_true]
  refine ⟨by decide +kernel, ?_⟩
  have h := edAdd_neutral _ _ (show (⟨0, 1, 1, 0⟩ : EdPoint).x = 0 ∧ _ ∧ _ from ⟨rfl, rfl, rfl⟩)
    (edMul_neutral 256 (leNat (sha512 (idKey ++ idKey ++ msg)) % edL) ⟨0, 1, 1, 0⟩ ⟨rfl, rfl, rfl⟩)
  simp only [edEq, h.1, h.2.2, EdPoint.zero, Nat.zero_mul, Nat.one_mul, Nat.mul_one, beq_self_eq_true, Bool.and_self]

/-! ### Requests that pass -/

/-- A device that serves and is owned, with that key in owner slot 0. -/
def ownedDev : State := { State.reset with trust := { State.reset.trust with ready := true, otp := { owned := true, rows := [(0, true, idKey)] } } }
/-- A device that serves and is not owned. -/
def readyDev : State := { State.reset with trust := { State.reset.trust with ready := true } }
/-- A request of a class under that key, inside a bale or outside one. -/
def signedReq (cls bale : Nat) (payload : Bytes) : Request :=
  { mb := 0, flags := 1, bale := bale, authClass := cls, payload := payload, trailer := some (0xFF00, idSig) }
/-- A request without a signature. -/
def unsigned0 (payload : Bytes) : Request := { mb := 0, payload := payload }
/-- What a request must meet before its signature is looked at. -/
def meets (s : State) (op cls : Nat) (r : Request) : Bool :=
  s.trust.ready && s.scemasRuns && !s.noMaster r.mb && s.trust.recovery != 1 && !s.quiesced && !s.cplFull r.mb && (s.box r.mb).inOrder r &&
  headerStatus op cls r == 0
/-- What the signature of a request under owner slot 0 must meet. -/
def signsAs0 (s : State) (r : Request) : Bool :=
  r.trailer == some (0xFF00, idSig) && s.sealAny && s.ownerKey 0 == some idKey && r.boot == s.keeper.boot % 2 ^ 32 &&
  decide (Tab.get 0 s.host.counters 0xFF00 ≤ r.counter)
theorem meets_serves {s : State} {op cls : Nat} {r : Request} (h : meets s op cls r = true) : s.Serves r ∧ headerStatus op cls r = 0 := by
  simp only [meets, Bool.and_eq_true, bne_iff_ne, beq_iff_eq, Bool.not_eq_true', ne_eq] at h
  obtain ⟨⟨⟨⟨⟨⟨⟨h1, h0⟩, h2⟩, h3⟩, h4⟩, h5⟩, h6⟩, h7⟩ := h
  exact ⟨⟨h1, h0, h2, h3, h4, h5, h6⟩, h7⟩
theorem signed_checks {s : State} {r : Request} (op cls : Nat) (h : signsAs0 s r = true) (hc : cls < 7) : s.checkSignature op cls r = .ok 0xFF00 := by
  simp only [signsAs0, Bool.and_eq_true, beq_iff_eq, decide_eq_true_eq] at h
  obtain ⟨⟨⟨⟨h1, h2⟩, h3⟩, h4⟩, h5⟩ := h
  have hk : s.keyOf 0xFF00 = some ⟨idKey, 2 ^ 32 - 1, 2 ^ 64 - 1, true, 0, 2 ^ 64⟩ := by
    unfold State.keyOf; rw [if_pos (by omega), show 0xFF00 - 0xFF00 = 0 from rfl, h3]; rfl
  unfold State.checkSignature
  rw [h1]; simp only [h2, hk, idKey_signs, Bool.not_true, Bool.false_eq_true, if_false]
  rw [if_neg (by omega)]
  simp only [State.keyTime, Bool.true_or, Bool.not_true, Bool.false_eq_true, if_false]
  have hm : KeyInfo.mayClass ⟨idKey, 2 ^ 32 - 1, 2 ^ 64 - 1, true, 0, 2 ^ 64⟩ op cls r.expert = true := by
    have : cls = 0 ∨ cls = 1 ∨ cls = 2 ∨ cls = 3 ∨ cls = 4 ∨ cls = 5 ∨ cls = 6 := by omega
    rcases this with rfl | rfl | rfl | rfl | rfl | rfl | rfl <;> simp [KeyInfo.mayClass, KeyInfo.has]
  rw [hm]; rfl
theorem admits_signed {s : State} {op cls : Nat} {rd : Bool} {r : Request}
    (h : (meets s op cls r && signsAs0 s r && s.owned && s.mustSign r.mb (effClass op cls r.expert) && decide (effClass op cls r.expert < 7)) = true) :
    s.Admits op cls rd r (some 0xFF00) := by
  simp only [Bool.and_eq_true, decide_eq_true_eq] at h
  obtain ⟨⟨⟨⟨h1, h2⟩, h3⟩, h4⟩, h5⟩ := h
  exact ⟨(meets_serves h1).1, (meets_serves h1).2, .inl h3, h4, signed_checks _ _ h2 h5⟩
theorem admits_unsigned {s : State} {op cls : Nat} {rd : Bool} {r : Request}
    (h : (meets s op cls r && (s.owned || (rd && effClass op cls r.expert == 0 && r.mb.val != 12 && r.mb.val != 13)) &&
      !s.mustSign r.mb (effClass op cls r.expert)) = true) : s.Admits op cls rd r none := by
  simp only [Bool.and_eq_true, Bool.or_eq_true, Bool.not_eq_true', beq_iff_eq, bne_iff_ne, ne_eq] at h
  obtain ⟨⟨h1, h2⟩, h3⟩ := h
  refine ⟨(meets_serves h1).1, (meets_serves h1).2, ?_, h3⟩
  rcases h2 with h2 | ⟨⟨⟨a, b⟩, c⟩, d⟩
  · exact .inl h2
  · exact .inr ⟨a, b, c, d⟩
theorem new_key_signs {s : State} {op cls : Nat} {r : Request} {f : Nat → Option Bytes} (hf : f 0xFF00 = some idKey)
    (h : (r.trailer == some (0xFF00, idSig) && s.sealAny && headerStatus op cls r == 0 && r.boot == s.keeper.boot % 2 ^ 32 &&
      decide (Tab.get 0 s.host.counters 0xFF00 ≤ r.counter)) = true) : s.newKeyStatus op cls r f = 0 := by
  simp only [Bool.and_eq_true, beq_iff_eq, decide_eq_true_eq] at h
  obtain ⟨⟨⟨⟨h1, h2⟩, h3⟩, h4⟩, h5⟩ := h
  unfold State.newKeyStatus
  rw [h1]; simp only [h2, hf, h3, idKey_signs, Bool.not_true, Bool.false_eq_true, if_false, ne_eq, not_true]
  rw [if_neg (by omega)]

/-- A bale of mailbox 0's master. -/
def bale1 : Bale := { id := 1, master := masterOf 0, mb := 0, st := .opened }
/-- A tick takes the one bale that is pending. -/
theorem tick_takes (t : State) (h : t.bales.list = [{ bale1 with st := .pending }]) : t.tickBales = [{ bale1 with st := .pending }] := by
  unfold State.tickBales; rw [h]; exact List.mergeSort_singleton _
/-- The owned device with a bale. -/
def withBale (b : Bale) : State := { ownedDev with bales := { list := [b], next := 2 } }
/-- Settings payload: eight open bales per master, for the device. -/
def eightBales : Bytes := [0, 1, 0, 0, 0, 0, 0, 0, 1, 7, 4, 0, 8, 0, 0, 0]
/-- An image of a kind under owner key 0xFF00 with a digest and payload. -/
def imageOf (kind key : Nat) (digest payload : Bytes) : Bytes :=
  natLe 4 0x4C5A494D ++ [BitVec.ofNat 8 kind, 1] ++ natLe 2 key ++ [0, 0, 1, 0] ++ natLe 4 0 ++ natLe 4 payload.length ++ List.replicate 12 0 ++
  digest ++ List.replicate 32 0 ++ idSig ++ payload
/-- Payload of a package that lists the key in slot 0 (Table 18-12), of a generation and for a serial number, 0 for any. -/
def packageOf (generation serial : Byte) : Bytes :=
  List.replicate 8 0 ++ [serial] ++ List.replicate 39 0 ++ [generation, 0, 1] ++ List.replicate 77 0 ++ idKey ++ List.replicate 144 0
/-- The owned device after its succession. -/
def succeededDev : State :=
  { ownedDev with trust := { ownedDev.trust with otp := { ownedDev.trust.otp with succeeded := true } } }
/-- The owned device with that key in slot 1 too. -/
def twoKeys : State :=
  { ownedDev with trust := { ownedDev.trust with otp := { ownedDev.trust.otp with rows := [(0, true, idKey), (1, true, idKey)] } } }
/-- That device after its succession, with no row of OTP left. -/
def fullDev : State :=
  { succeededDev with trust := { succeededDev.trust with otp := { succeededDev.trust.otp with rows := List.replicate 260 (0, true, idKey) } } }
/-- An open bale with as many actions as a bale holds. -/
def fullBale : Bale := { bale1 with actions := List.replicate 16384 { code := 0x0607, scope := 0, body := [], owner := true, key := 0xFF00, mb := 0 } }
/-- The full bale has no room for one action more (R165). -/
theorem full_has_no_room (a : Action) : fullBale.hasRoom a = false := by
  have h : fullBale.actions.length = 16384 := List.length_replicate
  rw [Bale.hasRoom, h]; rfl
/-- The owner-key area of `fullDev` has no room for a row more (Table 18-1). -/
theorem full_rows {p : Bytes} (h : fullDev.importRows p ≠ []) : 260 < fullDev.trust.otp.rows.length + (fullDev.importRows p).length := by
  have hl : fullDev.trust.otp.rows.length = 260 := List.length_replicate
  rw [hl]; exact Nat.lt_add_of_pos_right (List.length_pos_iff.mpr h)
/-- Every package names a slot to write, slot 0 being in use (Table 18-1). -/
theorem full_imports (p : Bytes) : fullDev.importRows p ≠ [] := by
  have h0 : (fullDev.ownerKey 0).isSome = true := by decide +kernel
  have hm : ∃ o, (0, o) ∈ packageOwners p := ⟨_, List.mem_map.mpr ⟨0, List.mem_range.mpr (by decide), rfl⟩⟩
  obtain ⟨o, ho⟩ := hm
  exact List.ne_nil_of_mem (List.mem_filter.mpr ⟨ho, by rw [h0, Bool.or_true]⟩)
/-- SHA-512 of nothing (FIPS 180-4 test vector). -/
def shaNothing : Bytes :=
  [0xcf, 0x83, 0xe1, 0x35, 0x7e, 0xef, 0xb8, 0xbd, 0xf1, 0x54, 0x28, 0x50, 0xd6, 0x6d, 0x80, 0x07, 0xd6, 0x20, 0xe4, 0x05, 0x0b, 0x57, 0x15, 0xdc,
   0x83, 0xf4, 0xa9, 0x21, 0xd3, 0x6c, 0xe9, 0xce, 0x47, 0xd0, 0xd1, 0x3c, 0x5d, 0x85, 0xf2, 0xb0, 0xff, 0x83, 0x18, 0xd2, 0x87, 0x7e, 0xec, 0x2f,
   0x63, 0xb9, 0x31, 0xbd, 0x47, 0x41, 0x7a, 0x81, 0xa5, 0x38, 0x32, 0x7a, 0xf9, 0x27, 0xda, 0x3e]
/-- A microword with every bit set, the reserved ones among them. -/
def badWord : Bytes := List.replicate 24 255
/-- An image as signed, and what the signature covers: both as the image check reads them. -/
theorem image_passes {s : State} {kind : Nat} {b : Bytes} (hk : s.imgSigner kind b = some idKey)
    (hsig : slice (padTo 192 b) 128 64 = idSig)
    (h : ([leAt (padTo 192 b) 0 4 != 0x4C5A494D, leAt (padTo 192 b) 4 1 != kind, leAt (padTo 192 b) 5 1 != 1, !imgFlagsOk kind (leAt (padTo 192 b) 9 1),
      !(leAt (padTo 192 b) 10 2).testBit 0,
      !(decide (192 ≤ b.length ∧ imgLength (padTo 192 b) = (imgPayload b).length ∧ (imgPayload b).length ≤ imgLimit kind) && (kind != 3 || (imgPayload b).length % 24 == 0)),
      leNat (slice (padTo 192 b) 20 12) != 0, sha512 (imgPayload b) != imgDigest (padTo 192 b), leAt (padTo 192 b) 108 4 != 0, decide (kind ≤ 2)]).all (fun x => !x) = true) :
    s.imgFault kind b = none := by
  simp only [List.all_cons, List.all_nil, Bool.and_eq_true, Bool.and_true] at h
  obtain ⟨h1, h2, h3, h4, h5, h6, h7, h8, h9, h10⟩ := h
  simp only [Bool.not_eq_true'] at h1 h2 h3 h4 h5 h6 h7 h8 h9 h10
  have hf : s.imgField kind b = none := by
    unfold State.imgField
    simp only [hk, hsig, idKey_signs, Option.isNone_some, h1, h2, h3, h4, h5, h6, h7, h8, h9, List.find?, Bool.not_true, Option.map_none]
  unfold State.imgFault
  have hn := of_decide_eq_false h10
  rw [hf]
  simp only []
  rw [if_neg (by omega), if_neg (by rintro ⟨a, _⟩; omega)]
/-- The image of the example package passes every check of R410 on `fullDev`. -/
theorem full_passes : fullDev.imgFault 5 (signedReq 3 0 (imageOf 5 0xFF00 (sha512 (packageOf 1 0)) (packageOf 1 0))).payload = none :=
  image_passes (by decide +kernel) (by decide +kernel) (by decide +kernel)
/-- The example package is for `fullDev`, and it is whole (R426). -/
theorem full_package : (configActions (imgPayload (signedReq 3 0 (imageOf 5 0xFF00 (sha512 (packageOf 1 0)) (packageOf 1 0))).payload).length ((imgPayload (signedReq 3 0 (imageOf 5 0xFF00 (sha512 (packageOf 1 0)) (packageOf 1 0))).payload).drop 304)).isSome = true ∧
    packageMade (imgPayload (signedReq 3 0 (imageOf 5 0xFF00 (sha512 (packageOf 1 0)) (packageOf 1 0))).payload) = true ∧ fullDev.notForUs (imgPayload (signedReq 3 0 (imageOf 5 0xFF00 (sha512 (packageOf 1 0)) (packageOf 1 0))).payload) = false :=
  ⟨by decide +kernel, by decide +kernel, by decide +kernel⟩
/-- The device after a succession takes the example package (R426). -/
theorem succeeded_takes : succeededDev.Takes (signedReq 3 0 (imageOf 5 0xFF00 (sha512 (packageOf 1 0)) (packageOf 1 0))) [] :=
  ⟨image_passes (by decide +kernel) (by decide +kernel) (by decide +kernel), by decide +kernel, by decide +kernel, by decide +kernel, by decide +kernel⟩
/-- A device without an owner takes the example package (R426). -/
theorem unowned_takes : readyDev.Takes (signedReq 3 0 (imageOf 5 0xFF00 (sha512 (packageOf 1 0)) (packageOf 1 0))) [] :=
  ⟨image_passes (by decide +kernel) (by decide +kernel) (by decide +kernel), by decide +kernel, by decide +kernel, by decide +kernel, by decide +kernel⟩
/-- A shut request of 192 bytes (Table 11-4): key 0, sequence 1, valid from second 0 until second 1. -/
def wholeShut : Bytes :=
  natBe 4 0x474C554D ++ [1, 2] ++ natBe 2 192 ++ List.replicate 8 0 ++ natBe 8 1 ++ List.replicate 48 0 ++ natBe 8 1 ++ List.replicate 112 0
/-- The owned device with a key ring, a gate floor and a TAI time. -/
def gateReady : State := { ownedDev with gate := { ring := ring0, floor := some 0 }, tiller := { ownedDev.tiller with taiState := 1 } }

/-! ### Each check of well-formedness refuses a term -/

theorem test_wf_frame : Instr.wf (.frameArrival 0 [] {}) = false := by decide
theorem test_wf_pause_enable : Instr.wf (.pauseFrameReceive 0 ⟨true, 256, List.replicate 8 0⟩) = false := by decide
theorem test_wf_pause_count : Instr.wf (.pauseFrameReceive 0 ⟨true, 1, [0]⟩) = false := by decide
theorem test_wf_pause_quanta : Instr.wf (.pauseFrameReceive 0 ⟨false, 0, [65536]⟩) = false := by decide
theorem test_wf_ptp_domain : Instr.wf (.ptpMessageReceive 0 (ptpOf .sync 256)) = false := by decide
theorem test_wf_ptp_seq : Instr.wf (.ptpMessageReceive 0 { ptpOf .sync 0 with seq := 65536 }) = false := by decide
theorem test_wf_ptp_sec : Instr.wf (.ptpMessageReceive 0 { ptpOf .sync 0 with tsSec := 2 ^ 48 }) = false := by decide
theorem test_wf_ptp_ns : Instr.wf (.ptpMessageReceive 0 { ptpOf .sync 0 with tsNs := 1000000000 }) = false := by decide
theorem test_wf_coef : Instr.wf (.partnerCoefficientRequest 0 ⟨0, 2⟩) = false ∧ Instr.wf (.sheafTrainingFrame 0 ⟨0, -2⟩ true) = false := by decide
theorem test_wf_otu_lanes : Instr.wf (.otu4FrameReceive 0 { cleanOtu with lanes := [] }) = false := by decide
theorem test_wf_otu_marker : Instr.wf (.otu4FrameReceive 0 { cleanOtu with lanes := List.replicate 20 (true, 256) }) = false := by decide
theorem test_wf_otu_counts : Instr.wf (.otu4FrameReceive 0 { cleanOtu with smBip := 256 }) = false ∧ Instr.wf (.otu4FrameReceive 0 { cleanOtu with smBei := 16 }) = false ∧
    Instr.wf (.otu4FrameReceive 0 { cleanOtu with pmBip := 256 }) = false ∧ Instr.wf (.otu4FrameReceive 0 { cleanOtu with pmBei := 16 }) = false := by decide
theorem test_wf_mac : Instr.wf (.macStaticRestore 0 4096 0) = false ∧ Instr.wf (.macStaticRestore 0 0 (2 ^ 48)) = false := by decide
theorem test_wf_route : Instr.wf (.routeEntryRefresh 0 .nextHop 65536) = false ∧ Instr.wf (.routeEntryRefresh 0 .group 4096) = false := by decide
theorem test_wf_overflow : Instr.wf (.overflowRelocationMove 262144) = false := by decide
theorem test_wf_block : Instr.wf (.blockHoldExpiry 0 (2 ^ 32)) = false := by decide
theorem test_wf_row : Instr.wf (.matchRelocationStep 65536 0) = false ∧ Instr.wf (.matchRelocationStep 0 65536) = false ∧
    Instr.wf (.matchRowRewrite 0 65536) = false ∧ Instr.wf (.matchRowScrub 0 65536 true) = false := by decide
theorem test_wf_permit_body : Instr.wf (.permitFrameReceive 0 []) = false ∧ Instr.wf (.permitCopy 0 [] 0) = false := by decide
theorem test_wf_key : Instr.wf (.permitEntryWrite 65536 0) = false ∧ Instr.wf (.reservation 0 65536 0) = false ∧ Instr.wf (.reservationResult 0 65536 0 true) = false ∧
    Instr.wf (.consumption 0 65536 0 0) = false ∧ Instr.wf (.consumptionAcknowledge 0 65536 0) = false := by decide
theorem test_wf_word : Instr.wf (.controlStoreScrub 0 0 16384 true) = false ∧ Instr.wf (.controlStoreRewriteDone 0 0 16384) = false := by decide
theorem test_wf_bank : Instr.wf (.refreshIssue 127 64) = false ∧ Instr.wf (.rowActivation 0 64 0) = false := by decide
theorem test_wf_sram : Instr.wf (.onDieSramScrub (.routeEntry 0 .nextHop 65536)) = false ∧ Instr.wf (.onDieSramScrub (.matchRow 0 65536)) = false := by decide +kernel
theorem test_wf_superframe : Instr.wf (.superframeReceive 0 ⟨[], []⟩) = false ∧ Instr.wf (.superframeReceive 0 ⟨List.replicate 8 [], []⟩) = false := by decide +kernel
theorem test_wf_heartbeat : Instr.wf (.heartbeat 0 ⟨false, 5, 0, 0⟩) = false ∧ Instr.wf (.heartbeat 0 ⟨false, 0, 6, 0⟩) = false := by decide
theorem test_wf_pairing : Instr.wf (.pairing 0 ⟨2 ^ 64, 0, idKey, idKey, none⟩) = false ∧ Instr.wf (.pairing 0 ⟨0, 0, [], idKey, none⟩) = false ∧
    Instr.wf (.pairing 0 ⟨0, 0, idKey, [], none⟩) = false ∧ Instr.wf (.pairing 0 ⟨0, 0, idKey, idKey, some []⟩) = false := by decide
theorem test_wf_window : Instr.wf (.windowMerge 0 [⟨65536, 0, 0⟩]) = false ∧ Instr.wf (.windowMerge 0 [⟨0, 2 ^ 64, 0⟩]) = false ∧
    Instr.wf (.windowMerge 0 [⟨0, 0, 2 ^ 64⟩]) = false := by decide
theorem test_wf_checkpoint : Instr.wf (.translationCheckpoint 0 { blankCheckpoint with key := [] }) = false ∧
    Instr.wf (.translationCheckpoint 0 { blankCheckpoint with addr := [] }) = false ∧
    Instr.wf (.translationCheckpoint 0 { blankCheckpoint with port := 65536 }) = false := by decide
theorem test_wf_register : Instr.wf (.registerWrite 2 0) = false := by decide
theorem test_wf_mgmt : Instr.wf (.mgmtFrameReceive [] []) = false := by decide
theorem test_wf_boot : Instr.wf (.bootStart { bootIn true with granary := [] }) = false := by decide
theorem test_wf_progress : Instr.wf (.longRequestProgress 0 101) = false := by decide
theorem test_wf_request_flags : Instr.wf (.deviceStatus { mb := 0, flags := 65536 }) = false := by decide
theorem test_wf_request_seq : Instr.wf (.deviceStatus { mb := 0, seq := 2 ^ 32 }) = false := by decide
theorem test_wf_request_bale : Instr.wf (.deviceStatus { mb := 0, bale := 2 ^ 32 }) = false := by decide
theorem test_wf_request_class : Instr.wf (.deviceStatus { mb := 0, authClass := 256 }) = false := by decide
theorem test_wf_request_boot : Instr.wf (.deviceStatus { mb := 0, boot := 2 ^ 32 }) = false := by decide
theorem test_wf_request_counter : Instr.wf (.deviceStatus { mb := 0, counter := 2 ^ 32 }) = false := by decide
theorem test_wf_request_tag : Instr.wf (.deviceStatus { mb := 0, tag := 2 ^ 32 }) = false := by decide
theorem test_wf_request_scope : Instr.wf (.deviceStatus { mb := 0, scope := 2 ^ 32 }) = false := by decide
theorem test_wf_request_signature : Instr.wf (.deviceStatus { mb := 0, trailer := some (0, []) }) = false ∧
    Instr.wf (.deviceStatus { mb := 0, trailer := some (65536, idSig) }) = false := by decide

/-! ### Values from the spec and from the standards it names -/

/-- S5 owns P60 to P71 (the example of R4). -/
theorem test_slice_of_port : sliceOf 59 = 4 ∧ sliceOf 60 = 5 ∧ sliceOf 71 = 5 ∧ sliceOf 72 = 6 := by decide
/-- SHA-512 of no bytes: the test vector of FIPS 180-4. -/
theorem test_sha512_of_nothing : sha512 [] = shaNothing := by decide +kernel
/-- The check value of the Ethernet CRC-32: 0xCBF43926 for the digits 1 to 9. -/
theorem test_fcs_check_value : fcs [0x31, 0x32, 0x33, 0x34, 0x35, 0x36, 0x37, 0x38, 0x39] = 0xCBF43926#32 := by decide +kernel
/-- The check value of the same polynomial, most significant bit first and without a final XOR: 0x0376E6E7. -/
theorem test_crc32h_check_value : crc32h crcOnes [0x31, 0x32, 0x33, 0x34, 0x35, 0x36, 0x37, 0x38, 0x39] = 0x0376E6E7#32 := by decide +kernel
/-- R477 by hand: 0xACE1 has bit 0 set and bits 2 and 3 clear and bit 5 set, so that 0 comes in at the top. -/
theorem test_lfsr_first_draw : lfsrDraw 0xACE1 = 0x5670 := by decide
/-- R384's example: port 96 and slice 8 do not exist, and are answered 0x0302. -/
theorem test_target_past_the_last : headerTargets [1] [1, 0, 96, 0, 1, 0, 0, 0] 0 = .error 0x0302 ∧
    headerTargets [5] [5, 0, 8, 0, 1, 0, 0, 0] 0 = .error 0x0302 := by
  constructor <;> rfl
/-- R384's example: a per-class item of Port queue set under a port header is refused. -/
theorem test_class_item_under_port_header :
    parseItems 0x020D false true [1, 1, 0, 0, 0, 0, 0, 0, 0x06, 0x0C, 8, 0, 0, 0, 0, 0, 0, 0, 0, 0] = .error (0x0301, 8) := by
  rfl
/-- The example of chapter 21: two balls of the core field, two of lane L150, and the CK_C of subchannel A of channel D13. -/
theorem test_package_example : [(57, 46), (56, 46), (58, 86), (59, 84), (70, 70)].map (fun (x : Nat × Nat) => ballAt x.1 x.2) =
    [.named "VSS", .named "VCORE", .line 150 .txp, .line 150 .rxn, .ddr 13 139] := by decide +kernel
/-- The greatest unsigned value plus one is zero, with Z and C set (Table 8-5). -/
theorem test_add_wraps : (match exec (.aluAdd (aluOf true true 1 0)) (aluAt 1 (aluOf true true 1 0) { ctx0 with start := { g := [(1, -1)] } }) with
    | .next t => ((t.runningCtx 0).map (fun x => (Tab.get 0 x.2.regs.g 3, x.2.regs.f.z, x.2.regs.f.c))) == some (0, true, true)
    | _ => false) = true := by decide +kernel
/-- 0 − 1 borrows: C set, all ones (Table 8-5). -/
theorem test_sub_borrows : (match exec (.aluSub (aluOf true true 1 0)) (aluAt 2 (aluOf true true 1 0) ctx0) with
    | .next t => ((t.runningCtx 0).map (fun x => (Tab.get 0 x.2.regs.g 3, x.2.regs.f.c))) == some (-1, true)
    | _ => false) = true := by decide +kernel
/-- An arithmetic shift right keeps the sign (Table 8-5). -/
theorem test_sar_keeps_sign : (match exec (.aluSar (aluOf true false 4 0)) (aluAt 10 (aluOf true false 4 0) { ctx0 with start := { g := [(1, 0x8000000000000000)] } }) with
    | .next t => ((t.runningCtx 0).map (fun x => Tab.get 0 x.2.regs.g 3)) == some 0xF800000000000000
    | _ => false) = true := by decide +kernel
/-- A branch below the customer's words is a machine check: the context does not go on there (R195). -/
theorem test_branch_below_customer_words : (match exec (.brJump (brOf 0 0x2FFF)) (brAt 1 (brOf 0 0x2FFF) ctx0) with
    | .next t => ((t.runningCtx 0).map (fun x => x.2.pc)) == some 0x2FFF
    | _ => true) = false := by decide +kernel
/-- GATE_SHUT shuts the gate with cause 10 (R281, Table 11-11), at once: the deglitch time has passed when the pin is asserted. -/
theorem test_gate_shut_pin : (match exec .gateShutAssert State.reset with
    | .next t => (t.gate.isShut, t.gate.cause, t.gate.pin)
    | _ => (false, 0, false)) = (true, 10, true) := by decide +kernel
/-- The replay window (R269): a sequence 65 below the highest is too old, one 64 below it stands in the window. -/
theorem test_replay_edge : Window64.passes { high := 100, bitmap := 0 } 35 = false ∧ Window64.passes { high := 100, bitmap := 0 } 36 = true := by decide
/-- An empty queue is a core clock: the device goes on. -/
theorem test_idle_step : (match step State.reset with
    | .next t => t.now
    | _ => 0) = 5 := by decide +kernel
/-- The table gives no row bits, so that no word spells a command. -/
theorem test_no_word_spells : decodeTableWord 16 0 = none := by decide

/-! ### The hypotheses of the obligations are met -/

/-- Hypotheses of TillerReferenceEdge are met. -/
theorem witness_TillerReferenceEdge :
    (∃ (s : State) (rising : Bool) (t : Nat), (rising = (s.sn 0x0201 == 0)) ∧ (s.tiller.ignoring = false) ∧ (s.following = false) ∧ (s.tracking = false) ∧ (s.tiller.anchored = false)) ∧
    (∃ (s : State) (rising : Bool) (t a : Nat), (rising = (s.sn 0x0201 == 0)) ∧ (s.tiller.ignoring = false) ∧ (s.following = false) ∧ (s.tracking = true) ∧ (s.tiller.lastAccepted = some a) ∧ (s.judge (t - s.sn 0x0203 - a) = .accepted) ∧ (s.lossAt (t - s.sn 0x0203) = none) ∧ ((s.recentEdges (t - s.sn 0x0203)).length ≤ s.sn 0x020A)) ∧
    (∃ (s : State) (rising : Bool) (t a : Nat), (rising = (s.sn 0x0201 == 0)) ∧ (s.tiller.ignoring = false) ∧ (s.following = false) ∧ (s.tracking = true) ∧ (s.tiller.lastAccepted = some a) ∧ (s.judge (t - s.sn 0x0203 - a) ≠ .accepted) ∧ (s.lossAt (t - s.sn 0x0203) = none) ∧ (s.tiller.rejected + 1 < s.sn 0x0208) ∧ ((s.recentEdges (t - s.sn 0x0203)).length ≤ s.sn 0x020A)) ∧
    (∃ (s : State) (rising : Bool) (t c : Nat), (rising = (s.sn 0x0201 == 0)) ∧ (s.tiller.ignoring = false) ∧ (s.following = false) ∧ (s.tracking = true) ∧ (s.lossAt (t - s.sn 0x0203) = some c)) ∧
    (∃ (s : State) (rising : Bool) (t : Nat), (rising ≠ (s.sn 0x0201 == 0) ∨ s.tiller.ignoring = true)) :=
  ⟨⟨State.reset, State.reset.sn 0x0201 == 0, 100, by decide +kernel⟩,
   ⟨tillerIs { st := .locked, lastAccepted := some 0, lastEdge := some 0 }, State.reset.sn 0x0201 == 0, 20000000, 0, by decide +kernel⟩,
   ⟨tillerIs { st := .locked, lastAccepted := some 0, lastEdge := some 0 }, State.reset.sn 0x0201 == 0, 25000, 0, by decide +kernel⟩,
   ⟨tillerIs { st := .locked, lastAccepted := some 0, lastEdge := some 0 }, State.reset.sn 0x0201 == 0, 100000000000, 1, by decide +kernel⟩,
   ⟨State.reset, State.reset.sn 0x0201 != 0, 0, by decide +kernel⟩⟩

/-- Hypotheses of TillerTimers are met. -/
theorem witness_TillerTimers :
    (∃ (s : State), (s.overdue s.tiller.lastEdge = true) ∧ (s.tiller.ignoring = false) ∧ (s.tracking = true)) ∧
    (∃ (s : State), (s.overdue s.tiller.lastEdge = true) ∧ (s.tiller.ignoring = false) ∧ (s.tracking = false)) ∧
    (∃ (s : State), (s.overdue s.tiller.lastAccepted = true) ∧ (s.overdue s.tiller.lastEdge = false) ∧ (s.tiller.ignoring = false) ∧ (s.tracking = true)) ∧
    (∃ (s : State), (s.tiller.st = .holdover) ∧ (s.tiller.holdAt + ns (s.sn 0x020E) ≤ s.now)) ∧
    (∃ (s : State), (s.tiller.st = .slewing) ∧ (s.tiller.gap.natAbs ≤ s.sn 0x020D * 2 ^ 40)) :=
  ⟨⟨{ tillerIs { st := .locked, lastAccepted := some 0, lastEdge := some 0 } with now := sec 100 }, by decide +kernel⟩,
   ⟨{ tillerIs { lastEdge := some 0 } with now := sec 100 }, by decide +kernel⟩,
   ⟨{ tillerIs { st := .locked, lastAccepted := some 0, lastEdge := some (toNs (sec 100)) } with now := sec 100 }, by decide +kernel⟩,
   ⟨{ tillerIs { st := .holdover, holdAt := 0 } with now := ns (State.reset.sn 0x020E) }, by decide +kernel⟩,
   ⟨tillerIs { st := .slewing, gap := 0 }, by decide +kernel⟩⟩

/-- Hypotheses of TillerTimeAndOutputs are met. -/
theorem witness_TillerTimeAndOutputs :
    (∃ (s s0 : State), (s0 = s.dropSilent)) ∧
    (∃ (s : State) (t : Nat) (off : Int), (s.tiller.timeRef = true) ∧ ((off - ((s.tai : Int) - ((toNs s.now : Int) - (t : Int)))) % 1000000000 = 0) ∧ (-500000000 ≤ off) ∧ (off < 500000000)) ∧
    (∃ (s : State) (t : Nat), (s.tiller.timeRef = false)) ∧
    (∃ (s : State) (p : PortId) (m : PtpMessage), (s.ptpPort p = true) ∧ (m.domain = s.sn 0x0213 0 2) ∧ (m.kind = .pdelayReq)) ∧
    (∃ (s : State) (p : PortId) (m : PtpMessage), (s.ptpPort p = true) ∧ (m.domain = s.sn 0x0213 0 2) ∧ (m.kind = .pdelayRespFollowUp)) ∧
    (∃ (s : State) (p : PortId) (m : PtpMessage), ∃ t, (s.ptpPort p = true) ∧ (m.domain = s.sn 0x0213 0 2) ∧ (m.kind = .announce) ∧ (s.sn 0x0213 0 1 ≠ 1) ∧ (t = s.setPtp p { s.ptpOf p with foreign := some (m.clock, s.now) })) ∧
    (∃ (s : State) (p : PortId) (m : PtpMessage), (s.ptpPort p = true) ∧ (m.domain = s.sn 0x0213 0 2) ∧ (m.kind = .sync) ∧ (m.twoStep = false) ∧ (s.sn 0x0213 0 1 ≠ 1)) ∧
    (∃ (s : State) (p : PortId) (m : PtpMessage), (s.ptpPort p = true) ∧ (m.domain = s.sn 0x0213 0 2) ∧ (m.kind = .sync) ∧ (m.twoStep = true) ∧ (s.sn 0x0213 0 1 ≠ 1) ∧ (s.facesMaster p = true)) ∧
    (∃ (s : State) (p : PortId) (m : PtpMessage), ∃ rx c, (s.ptpPort p = true) ∧ (m.domain = s.sn 0x0213 0 2) ∧ (m.kind = .followUp) ∧ ((s.ptpOf p).syncAt = some (m.seq, rx, c)) ∧ (s.sn 0x0213 0 1 ≠ 1) ∧ (s.facesMaster p = true)) ∧
    (∃ (s : State) (p : PortId) (m : PtpMessage), (s.ptpPort p = false ∨ m.domain ≠ s.sn 0x0213 0 2)) :=
  ⟨⟨State.reset, _, rfl⟩,
   ⟨State.reset, 500000000, -500000000, by decide +kernel⟩,
   ⟨tillerIs { timeRef := false }, 0, by decide +kernel⟩,
   ⟨withSet (portIs 95 { st := .up }) 0x0213 0 [1, 0, 254], 95, ptpOf .pdelayReq (State.reset.sn 0x0213 0 2), by decide +kernel⟩,
   ⟨withSet (portIs 0 { st := .up }) 0x0213 0 [1, 0, 254], 0, ptpOf .pdelayRespFollowUp (State.reset.sn 0x0213 0 2), by decide +kernel⟩,
   ⟨ptpOn, 0, ptpOf .announce (State.reset.sn 0x0213 0 2), _, by decide +kernel, by decide +kernel, by decide +kernel, by decide +kernel, rfl⟩,
   ⟨ptpOn, 0, { ptpOf .sync (State.reset.sn 0x0213 0 2) with twoStep := false }, by decide +kernel⟩,
   ⟨ptpOn.setPtp 0 { foreign := some ({}, 0) }, 0, ptpOf .sync (State.reset.sn 0x0213 0 2), by decide +kernel, by decide +kernel, by decide +kernel, by decide +kernel, by decide +kernel, faces_best _ (by decide +kernel) (by decide +kernel)⟩,
   ⟨ptpOn.setPtp 0 { foreign := some ({}, 0), syncAt := some (0, 0, 0) }, 0, ptpOf .followUp (State.reset.sn 0x0213 0 2), 0, 0, by decide +kernel, by decide +kernel, by decide +kernel, by decide +kernel, by decide +kernel, faces_best _ (by decide +kernel) (by decide +kernel)⟩,
   ⟨State.reset, 0, ptpOf .announce 0, by decide +kernel⟩⟩

/-- Hypotheses of PortAttempts are met. -/
theorem witness_PortAttempts :
    (∃ (s : State) (p : PortId) (partner : ModeSet), ((s.port p).attempt = true) ∧ ((s.port p).st = .negotiating)) ∧
    (∃ (s : State) (p : PortId), ((s.port p).attempt = true) ∧ ((s.port p).st = .negotiating) ∧ ((s.port p).attemptAt + ns (s.sn 0x0305 p 0) ≤ s.now)) ∧
    (∃ (s : State) (p : PortId), ((s.port p).attempt = true) ∧ ((s.port p).st = .training) ∧ ((s.port p).runMode ≠ 6) ∧ ((s.port p).attemptAt + ns (s.sn 0x0305 p (if (s.port p).runMode = 4 ∨ (s.port p).runMode = 5 then 3 else 2)) ≤ s.now)) ∧
    (∃ (s : State) (p : PortId), ((s.port p).attempt = true) ∧ ((s.port p).st = .training) ∧ ((s.port p).runMode = 6) ∧ ((s.port p).attemptAt + ns (s.sn 0x0305 p 2) ≤ s.now)) ∧
    (∃ (s : State) (p : PortId), ((s.port p).attempt = true) ∧ ((s.port p).st = .negotiating)) :=
  ⟨⟨portIs 0 { st := .negotiating, attempt := true }, 0, by decide +kernel⟩,
   ⟨{ portIs 95 { st := .negotiating, attempt := true } with now := ns (State.reset.sn 0x0305 95 0) }, 95, by decide +kernel⟩,
   ⟨{ portIs 0 { st := .training, attempt := true, runMode := 1 } with now := ns (State.reset.sn 0x0305 0 2) }, 0, by decide +kernel⟩,
   ⟨{ portIs 0 { st := .training, attempt := true, runMode := 6 } with now := ns (State.reset.sn 0x0305 0 2) }, 0, by decide +kernel⟩,
   ⟨portIs 0 { st := .negotiating, attempt := true }, 0, by decide +kernel⟩⟩

/-- Hypotheses of LaneTraining are met. -/
theorem witness_LaneTraining :
    (∃ (s : State) (l : LaneId) (q : CoefRequest), ((s.port (l / 2)).attempt = true) ∧ ((s.port (l / 2)).st = .training) ∧ ((s.port (l / 2)).runMode ≠ 6)) ∧
    (∃ (s : State) (l : LaneId) (q : CoefRequest) (lo hi cur : Int) (st : Nat) (v : Int), ((s.lane l).pendingReq = some q) ∧ (∀ t, (s.lane l).lastAnswer = some t → t + ns (s.sn 0x0305 (l / 2) 4) ≤ s.now) ∧ (tapBounds (s.port (l / 2)).runMode q.tap = (lo, hi)) ∧ ((s.lane l).taps.getD q.tap 0 = cur) ∧ ((st = 3 ∧ v = cur ∧ q.delta = 0) ∨ (st = 1 ∧ v = cur ∧ q.delta ≠ 0 ∧ hi < cur + q.delta) ∨ (st = 2 ∧ v = cur ∧ q.delta ≠ 0 ∧ cur + q.delta ≤ hi ∧ cur + q.delta < lo) ∨ (st = 0 ∧ v = cur + q.delta ∧ q.delta ≠ 0 ∧ cur + q.delta ≤ hi ∧ lo ≤ cur + q.delta))) ∧
    (∃ (s : State) (p : PortId), ((s.port p).attempt = true) ∧ ((s.port p).st = .training) ∧ ((s.port p).runMode = 6 → s.otnReady p = true)) :=
  ⟨⟨portIs 95 { st := .training, attempt := true, runMode := 5 }, 191, { tap := 0, delta := 0 }, by decide +kernel⟩,
   ⟨State.reset.setLane 0 { pendingReq := some { tap := 0, delta := 0 }, lastAnswer := none }, 0, { tap := 0, delta := 0 }, (tapBounds (State.reset.port 0).runMode 0).1, (tapBounds (State.reset.port 0).runMode 0).2, (State.reset.lane 0).taps.getD 0 0, 3, (State.reset.lane 0).taps.getD 0 0, by refine ⟨rfl, ?_, rfl, rfl, .inl ⟨rfl, rfl, rfl⟩⟩; intro t h; cases h⟩,
   ⟨portIs 0 { st := .training, attempt := true, runMode := 1 }, 0, by decide +kernel⟩⟩

/-- Hypotheses of PortPauseAndRecalibration are met. -/
theorem witness_PortPauseAndRecalibration :
    (∃ (s : State) (p : PortId) (c : ClassId) (t : Nat), ((s.pauseRx p c).until_ = some t) ∧ (t ≤ s.now)) ∧
    (∃ (s : State) (p : PortId) (c : ClassId) (t : Nat), ((s.pauseRx p c).recovery = some t) ∧ (t ≤ s.now)) ∧
    (∃ (s : State) (p : PortId) (c : ClassId), ((s.pauseRx p c).recovery = none) ∧ (∃ t, (s.pauseRx p c).reachedAt = some t ∧ t < s.now) ∧ ((s.port p).isUp = true)) ∧
    (∃ (s : State) (l : LaneId), ((s.lane l).exitAt ≠ none)) ∧
    (∃ (s : State), (s.recal.running = false) ∧ (s.recal.lastPass + ns (s.sn 0x0312) ≤ s.now)) ∧
    (∃ (s : State) (l : LaneId) (temp : Int), ((s.sn 0x0313 : Int) ≤ (temp - (s.lane l).calTemp).natAbs)) ∧
    (∃ (s : State) (l : LaneId) (better : Bool) (ks : List Nat), (s.recal.left = l.val :: ks) ∧ ((s.port (l / 2)).attempt = false)) :=
  ⟨⟨State.reset.setPauseRx 95 7 { until_ := some 0 }, 95, 7, 0, by decide +kernel⟩,
   ⟨State.reset.setPauseRx 0 0 { recovery := some 0 }, 0, 0, 0, by decide +kernel⟩,
   ⟨{ (portIs 0 { st := .up }).setPauseRx 0 0 { reachedAt := some 0 } with now := 1 }, 0, 0, by decide +kernel, ⟨0, by decide +kernel⟩, by decide +kernel⟩,
   ⟨State.reset.setLane 0 { exitAt := some 0 }, 0, by decide +kernel⟩,
   ⟨atTime (ns (State.reset.sn 0x0312)), by decide +kernel⟩,
   ⟨State.reset, 0, (State.reset.lane 0).calTemp + State.reset.sn 0x0313, by decide +kernel⟩,
   ⟨{ State.reset with recal := { left := [191], running := true } }, 191, true, [], by decide +kernel⟩⟩

/-- Hypotheses of OtnAndSignalLoss are met. -/
theorem witness_OtnAndSignalLoss :
    (∃ (s : State) (n : Fin 6), (s.refclkLost.contains n.val = false)) ∧
    (∃ (s : State) (p : PortId) (f : OtuFrame), (s.sn 0x0301 p = 6) ∧ ((s.port p).shed = false)) ∧
    (∃ (s : State) (p : PortId) (f : OtuFrame), (s.sn 0x0301 p = 6) ∧ ((s.port p).shed = false)) ∧
    (∃ (s : State) (p t : Nat), ((s.otnOf p).pcsLostAt = some t) ∧ (t < s.now) ∧ ((s.port p).st = .up)) ∧
    (∃ (s : State) (p : PortId), (s.sn 0x0301 p = 6)) ∧
    (∃ (s : State) (p m : Nat) (r : W64) (tim : Bool) (x : OtuSent), (m = (s.otnOf p).defects) ∧ (tim = s.son 0x0404 p) ∧ (x = s.otuSent p r) ∧ (x.lck = false) ∧ (x.mfas = 0)) ∧
    (∃ (s : State) (p m : Nat) (r : W64) (tim : Bool) (x : OtuSent), (m = (s.otnOf p).defects) ∧ (tim = s.son 0x0404 p) ∧ (x = s.otuSent p r) ∧ (x.lck = true)) ∧
    (∃ (s : State) (p m : Nat) (r : W64) (tim : Bool) (x : OtuSent), ∃ a b l, (m = (s.otnOf p).defects) ∧ (tim = s.son 0x0404 p) ∧ (x = s.otuSent p r) ∧ ((s.otnOf p).opuBips = a :: b :: l)) ∧
    (∃ (s : State) (p : PortId), (s.sn 0x0301 p = 6) ∧ ((s.port p).shed = false)) ∧
    (∃ (s : State) (p : PortId) (t : Nat), ((s.otnOf p).sigSince = some t) ∧ (s.sn 0x0301 p = 6)) :=
  ⟨⟨State.reset, 5, by decide +kernel⟩,
   ⟨withSet State.reset 0x0301 0 [6], 0, cleanOtu, by decide +kernel⟩,
   ⟨withSet State.reset 0x0301 0 [6], 0, cleanOtu, by decide +kernel⟩,
   ⟨{ (portIs 0 { st := .up }).setOtn 0 { pcsLostAt := some 0 } with now := 1 }, 0, 0, by decide +kernel⟩,
   ⟨withSet State.reset 0x0301 95 [6], 95, by decide +kernel⟩,
   ⟨State.reset, 0, _, 0, _, _, rfl, rfl, rfl, by decide +kernel⟩,
   ⟨withSet State.reset 0x0406 0 [1], 0, _, 0, _, _, rfl, rfl, rfl, by decide +kernel⟩,
   ⟨State.reset.setOtn 0 { opuBips := [1, 2] }, 0, _, 0, _, _, 1, 2, [], rfl, rfl, rfl, by decide +kernel⟩,
   ⟨withSet State.reset 0x0301 0 [6], 0, by decide +kernel⟩,
   ⟨(withSet State.reset 0x0301 0 [6]).setOtn 0 { sigSince := some 0 }, 0, 0, by decide +kernel⟩⟩

/-- Hypotheses of BridgeLearningAndAgeing are met. -/
theorem witness_BridgeLearningAndAgeing :
    (∃ (s : State) (k : SliceId) (r : LearnReq) (rest : List LearnReq), ((s.mac k).queue = r :: rest)) ∧
    (∃ (s : State) (k i : Nat) (e : MacEntry) (dest : Nat), (e.moves + 1 < s.sn 0x0504) ∧ (∀ t, e.windowEnd = some t → s.now ≤ t)) ∧
    (∃ (s : State) (k : SliceId) (loc : MacLoc) (e : MacEntry) (t : Nat), (Tab.find? (s.mac k).entries (macIndex loc) = some e) ∧ (e.windowEnd = some t) ∧ (t < s.now) ∧ (e.frozen = false)) ∧
    (∃ (s : State) (k : SliceId) (loc : MacLoc) (e : MacEntry) (t : Nat), (Tab.find? (s.mac k).entries (macIndex loc) = some e) ∧ (e.frozen = true) ∧ (e.thawAt = some t) ∧ (t ≤ s.now)) ∧
    (∃ (s : State) (p : PortId), (s.son 0x0507 = true)) ∧
    (∃ (s : State) (k : SliceId) (loc : MacLoc) (e : MacEntry), (Tab.find? (s.mac k).entries (macIndex loc) = some e) ∧ (s.sweeps k = true) ∧ (e.static = false) ∧ (e.frozen = false) ∧ (s.son 0x0509 k = true) ∧ (macIndex loc ≠ macOverflow + 4095) ∧ (∀ t n, e.touch = some (t, n) → t ≠ s.now)) ∧
    (∃ (s : State) (k : SliceId) (loc : MacLoc) (e : MacEntry) (n : Nat), (Tab.find? (s.mac k).entries (macIndex loc) = some e) ∧ (s.sweeps k = true) ∧ (e.static = false) ∧ (e.frozen = false) ∧ (s.son 0x0509 k = true) ∧ (macIndex loc ≠ macOverflow + 4095) ∧ (e.touch = some (s.now, n))) ∧
    (∃ (s : State) (k : SliceId) (loc : MacLoc), (s.sweeps k = false)) ∧
    (∃ (s : State) (k : SliceId) (vid mac i : Nat) (e : MacEntry) (l : List (Nat × MacEntry)), ((s.mac k).lost = (i, e) :: l) ∧ (e.vid = vid) ∧ (e.mac = mac) ∧ (∀ y, Tab.find? (s.mac k).entries i = some y → y.evictable = true) ∧ (∀ x ∈ (s.mac k).entries, x.2.vid = vid → x.2.mac = mac → x.2.evictable = false)) ∧
    (∃ (s : State) (k : SliceId) (t : RouteTable) (id : Nat), (s.bridge.badRoutes.contains (badRoute k (routeTableNum t) id) = true)) :=
  ⟨⟨macIs 7 { queue := [⟨0, 0, 1, 1, 0⟩] }, 7, ⟨0, 0, 1, 1, 0⟩, [], by decide +kernel⟩,
   ⟨State.reset, 0, 0, { mac := 1, vid := 1, dest := 0, moves := 6 }, 1, by decide +kernel, by intro t h; cases h⟩,
   ⟨{ macIs 0 { entries := [(0, { mac := 1, vid := 1, dest := 0, windowEnd := some 0 })] } with now := 1 }, 0, .bucket 0 0, { mac := 1, vid := 1, dest := 0, windowEnd := some 0 }, 0, by decide +kernel⟩,
   ⟨macIs 0 { entries := [(macOverflow, { mac := 1, vid := 1, dest := 0, frozen := true, thawAt := some 0 })] }, 0, .overflow 0, { mac := 1, vid := 1, dest := 0, frozen := true, thawAt := some 0 }, 0, by decide +kernel⟩,
   ⟨State.reset, 95, by decide +kernel⟩,
   ⟨macIs 0 { entries := [(262143, { mac := 1, vid := 1, dest := 0 })] }, 0, .bucket 65535 3, { mac := 1, vid := 1, dest := 0 }, by decide +kernel, by decide +kernel, by decide +kernel, by decide +kernel, by decide +kernel, by decide +kernel, by intro t n h; cases h⟩,
   ⟨macIs 0 { entries := [(0, { mac := 1, vid := 1, dest := 0, touch := some (0, 2) })] }, 0, .bucket 0 0, { mac := 1, vid := 1, dest := 0, touch := some (0, 2) }, 2, by decide +kernel⟩,
   ⟨{ State.reset with fault := { drain := some { slice := 7, at_ := 0, drained := true } } }, 7, .overflow 4095, by decide +kernel⟩,
   ⟨macIs 0 { lost := [(4, { mac := 1, vid := 1, dest := 0, static := true })] }, 0, 1, 1, 4, { mac := 1, vid := 1, dest := 0, static := true }, [], by decide +kernel, rfl, rfl, (by intro y h; cases h), by intro x h; cases h⟩,
   ⟨{ State.reset with bridge := { badRoutes := [badRoute 7 1 65535] } }, 7, .nextHop, 65535, by decide +kernel⟩⟩

/-- Hypotheses of AggregationMembers are met. -/
theorem witness_AggregationMembers :
    (∃ (s : State) (p : PortId), ((s.port p).lacpRx = true) ∧ ((s.port p).lacpAt + sec 3 ≤ s.now)) ∧
    (∃ (s : State) (p : PortId) (g : Nat), (s.lagOfPort p = some g)) ∧
    (∃ (s : State) (g i : Nat) (m : SlotMove), (Tab.find? (s.lag g).moves i = some m)) :=
  ⟨⟨{ portIs 95 { lacpRx := true } with now := sec 3 }, 95, by decide +kernel⟩,
   ⟨lagOf0, 5, 0, lagOf0_port⟩,
   ⟨State.reset.setLag 47 { moves := [(0, { target := 1, since := 0 })] }, 47, 0, { target := 1, since := 0 }, by decide +kernel⟩⟩

/-- Hypotheses of FlowTableUpkeep are met. -/
theorem witness_FlowTableUpkeep :
    (∃ (s : State) (loc : FlowLoc) (r : FlowRec), (s.recAt (flowIndex loc) = some r) ∧ (r.live = false ∨ r.visited = s.flow.passes ∨ s.sweeps (sweepOwner (flowIndex loc)) = false)) ∧
    (∃ (s : State) (loc : FlowLoc) (r : FlowRec), (s.recAt (flowIndex loc) = some r) ∧ (r.live = true) ∧ (r.visited ≠ s.flow.passes) ∧ (s.sweeps (sweepOwner (flowIndex loc)) = true)) ∧
    (∃ (s : State) (v : Visit) (r : FlowRec), (v.kind = .sweep) ∧ (s.recAt v.loc = some r) ∧ (r.live = true) ∧ (recKey r.bytes = v.key)) ∧
    (∃ (s t : State) (l : Nat) (r q : FlowRec), (s.recAt l = some r) ∧ (r.live = true) ∧ (t = ((s.setRec l { r with visited := s.flow.passes }).sweepScan l).dropHist l) ∧ (t.recAt l = some q) ∧ (t.evaluates (recClass q.bytes) = true) ∧ (q.till = none) ∧ (t.son 0x0604 = true) ∧ (recBit q.bytes bitPinned = false) ∧ (t.shadowed (recKey q.bytes) = false)) ∧
    (∃ (s : State), (s.now < s.flow.passAt + ns s.flow.passNs)) ∧
    (∃ (s : State), (s.flow.passAt + ns s.flow.passNs ≤ s.now)) ∧
    (∃ (s : State) (idx : Nat) (r : FlowRec), (s.recAt (flowOverflow + idx % 262144) = some r) ∧ (s.son 0x0606 = true) ∧ (r.live = true) ∧ (r.placed < s.flow.passes) ∧ (s.sweeps (sweepOwner (flowOverflow + idx % 262144)) = true)) ∧
    (∃ (s t : State) (v : Visit) (r : FlowRec) (b : Nat) (rest : List Nat), (v.kind = .move) ∧ (s.recAt v.loc = some r) ∧ (r.live = true) ∧ (recKey r.bytes = v.key) ∧ (t = { s with flow := { s.flow with visits := s.flow.visits.filter (· != v) } }) ∧ (t.bucketFree (t.flowBuckets (recKey r.bytes)).1 ++ t.bucketFree (t.flowBuckets (recKey r.bytes)).2 = b :: rest)) ∧
    (∃ (s : State) (pool : Fin 1024) (block t : Nat) (c : PoolConf), (Tab.find? (s.alloc pool).holding block = some t) ∧ (s.poolConf pool s.bales.epoch = some c) ∧ (t ≤ s.now) ∧ ((s.alloc pool).used.any (fun u => c.blockOfPort u == block) = false)) :=
  ⟨⟨State.reset.setRec 0 { bytes := zeroRec, bale := some 1 }, .bucket 0 0, { bytes := zeroRec, bale := some 1 }, by decide +kernel⟩,
   ⟨{ recIn 1073741823 with flow := { (recIn 1073741823).flow with passes := 1 } }, .bucket 268435455 3, { bytes := zeroRec }, by decide +kernel⟩,
   ⟨recIn 0, { key := List.replicate 40 0, loc := 0, stamp := 0, kind := .sweep }, { bytes := zeroRec }, by decide +kernel⟩,
   ⟨{ recIn 1073741823 with flow := { (recIn 1073741823).flow with passes := 1 } }, _, 1073741823, { bytes := zeroRec }, { bytes := zeroRec, visited := 1 }, by decide +kernel, by decide +kernel, rfl, by decide +kernel⟩,
   ⟨{ State.reset with flow := { passNs := 1000 } }, by decide +kernel⟩,
   ⟨{ State.reset with flow := { State.reset.flow with passNs := 0 } }, by decide +kernel⟩,
   ⟨{ recIn (flowOverflow + 262143) with flow := { (recIn (flowOverflow + 262143)).flow with passes := 1 } }, 262143, { bytes := zeroRec }, by decide +kernel⟩,
   ⟨recIn (flowOverflow + 5), _, { key := List.replicate 40 0, loc := flowOverflow + 5, stamp := 0, kind := .move }, { bytes := zeroRec }, zeroPlace, ((recIn (flowOverflow + 5)).bucketFree ((recIn (flowOverflow + 5)).flowBuckets (recKey zeroRec)).1 ++ (recIn (flowOverflow + 5)).bucketFree ((recIn (flowOverflow + 5)).flowBuckets (recKey zeroRec)).2).tail, by decide +kernel, by decide +kernel, by decide +kernel, by decide +kernel, rfl, by decide +kernel⟩,
   ⟨({ State.reset with bales := { objects := [(objKey .transPool 1023, [(0, some (List.replicate 32 0))])] } }).setAlloc 1023 { holding := [(0, 0)] }, 1023, 0, 0, poolConfOf (List.replicate 32 0), by decide +kernel⟩⟩

/-- Hypotheses of FlowSequencer are met. -/
theorem witness_FlowSequencer :
    (∃ (s : State) (n : Nat) (p : Packet), (s.MayLook n p) ∧ (s.seqBlocked n p p.key = true)) ∧
    (∃ (s : State) (n l : Nat) (p : Packet), (s.MayLook n p) ∧ (s.seqBlocked n p p.key = false) ∧ (s.findRec p.key p.epoch = some l) ∧ (s.cached l = true)) ∧
    (∃ (s : State) (n : Nat) (p : Packet), (s.MayLook n p) ∧ (s.seqBlocked n p p.key = false) ∧ (∀ l, s.findRec p.key p.epoch = some l → s.cached l = false) ∧ (p.exempt = false)) ∧
    (∃ (s : State) (rd n : Nat) (r : MemRead) (p : Packet), (s.mem.reads.find? (fun x => x.id == rd) = some r) ∧ (s.readIssued r = true) ∧ (r.owner = .record n) ∧ (s.pkt? n = some p) ∧ (p.record = .wanted)) ∧
    (∃ (s : State) (n t : Nat) (p : Packet), (s.pkt? n = some p) ∧ (p.waitAt = some t) ∧ (t + ns (s.sn 0x0609) < s.now)) :=
  ⟨⟨{ pktIs asks with now := ns 175, flow := { ops := [{ key := List.replicate 40 0, pkt := 1, stamp := 0, port := 0, lock := true }] } }, 0, asks, by unfold State.MayLook; decide +kernel, by decide +kernel⟩,
   ⟨{ ((pktIs asks).setRec zeroPlace { bytes := zeroRec }).setCache (State.reset.flowSet (List.replicate 40 0)) [{ loc := zeroPlace }] with now := ns 175 }, 0, zeroPlace, asks, by unfold State.MayLook; decide +kernel, by decide +kernel⟩,
   ⟨{ pktIs asks with now := ns 175 }, 0, asks, by unfold State.MayLook; decide +kernel, by decide +kernel, (by intro l h; rw [show State.findRec { pktIs asks with now := ns 175 } asks.key asks.epoch = none from by decide +kernel] at h; cases h), by decide +kernel⟩,
   ⟨{ pktIs asks with mem := { reads := [{ id := 5, place := zeroPlace, unit := 0, owner := .record 0 }] } }, 5, 0, { id := 5, place := zeroPlace, unit := 0, owner := .record 0 }, asks, by decide +kernel⟩,
   ⟨{ pktIs { asks with waitAt := some 0 } with now := ns (State.reset.sn 0x0609) + 1 }, 0, 0, { asks with waitAt := some 0 }, by decide +kernel⟩⟩

/-- Hypotheses of MatchAndAutomata are met. -/
theorem witness_MatchAndAutomata :
    (∃ (s : State) (a b : Nat) (r : MatchRow), (a / 256 = b / 256) ∧ (a + 1 = b ∨ b + 1 = a) ∧ (a < 65536) ∧ (b < 65536) ∧ (s.stepSpaces a b = true) ∧ ((List.range 8).any s.sweeps = true) ∧ (∀ m ∈ s.matcher.bad, m % 65536 ≠ a) ∧ (s.rowAt a = some r) ∧ (s.rowAt b = none)) ∧
    (∃ (s : State) (n l : Nat) (ls : List Nat), (s.dropLate.freeLanes = l :: ls) ∧ (s.dropLate.oldestSegment l = some n)) ∧
    (∃ (s : State) (a : AwnId) (lane : Fin 2) (sc : Scan) (p : Packet) (x : PatternSet), (Tab.find? s.awn.lanes (2 * a + lane) = some sc) ∧ (s.pkt? sc.pkt = some p) ∧ (s.patternAt p.epoch = some x) ∧ ((scanRun x sc.start (segmentOf p.bytes)).visited.any (fun st => s.awn.badEntries.contains st) = false)) ∧
    (∃ (s : State) (n : Nat) (p : Packet), (s.pkt? n = some p) ∧ (p.stage = .queued) ∧ ((Tab.values s.awn.lanes).any (fun x => x.pkt == n) = false) ∧ (((Tab.find? s.awn.rescans n).map (·.at_)).getD (p.at_ + p.fenced) + ns (s.sn 0x0A0A) < s.now)) ∧
    (∃ (s : State) (a : AwnId), (s.awnState a = 0)) ∧
    (∃ (s : State) (a : AwnId), (s.awnState a = 1)) ∧
    (∃ (s : State) (a : AwnId), (s.awnState a = 1)) ∧
    (∃ (s : State) (n : Nat) (p : Packet), (s.pkt? n = some p) ∧ (p.stage = .digest) ∧ (s.isHashing n = true)) :=
  ⟨⟨{ State.reset with matcher := { rows := [(65535, { rec_ := [] })] } }, 65535, 65534, { rec_ := [] }, by decide +kernel, by decide +kernel, by decide +kernel, by decide +kernel, by decide +kernel, by decide +kernel, (by intro m h; cases h), by decide +kernel, by decide +kernel⟩,
   ⟨{ pktIs { asks with stage := .queued } with awn := { queue := [(0, [0])] } }, 0, 0, (List.range 64).tail, by decide +kernel⟩,
   ⟨{ pktIs asks with awn := { lanes := [(63, { pkt := 0, start := 0, at_ := 0 })], sets := [{ handle := 1, image := [], base := 1, size := 1, from_ := some 0 }] } }, 31, 1, { pkt := 0, start := 0, at_ := 0 }, asks, { handle := 1, image := [], base := 1, size := 1, from_ := some 0 }, by refine ⟨rfl, rfl, rfl, ?_⟩; rw [List.any_eq_false]; intro _ _ h; cases h⟩,
   ⟨{ pktIs { asks with stage := .queued } with now := sec 1 }, 0, { asks with stage := .queued }, by decide +kernel⟩,
   ⟨State.reset, 0, by decide +kernel⟩,
   ⟨{ State.reset with awn := { state := [(0, 1)] } }, 0, by decide +kernel⟩,
   ⟨{ State.reset with awn := { state := [(0, 1)] } }, 0, by decide +kernel⟩,
   ⟨{ pktIs { asks with stage := .digest } with gate := { hashing := [(15, 0)] } }, 0, { asks with stage := .digest }, by decide +kernel⟩⟩

/-- Hypotheses of ExportMessages are met. -/
theorem witness_ExportMessages :
    (∃ (z s t : State) (x : Bytes) (q : List Bytes) (n : Nat) (bs : Bytes) (rest : List Bytes), (s = z.skipLost) ∧ (s.svc.staging = x :: q) ∧ (takeStaged (beAt x 0 2) (s.sn 0x090B 0 0 - 20) s.svc.staging = (bs, n, rest)) ∧ (n ≠ 0) ∧ (s.toRing = true ∨ s.collectors ≠ 0) ∧ (s.power.level = 0) ∧ (s.sendExport (s.ipfixMessage (ipfixSet (beAt x 0 2) bs)) = some t)) ∧
    (∃ (s : State) (m : Bytes), (s.toRing = false)) ∧
    (∃ (s : State), (s.power.level = 0) ∧ (s.toRing = false) ∧ (s.svc.templateDue = true ∨ s.svc.templateAt + ns (s.sn 0x090B 0 1) ≤ s.now)) ∧
    (∃ (s : State), (1 ≤ s.power.level)) :=
  ⟨⟨withSet { State.reset with svc := { staging := [[0, 2, 1]] } } 0x090A 0 [1, 1], _, _, [0, 2, 1], [], 1, [1], [], rfl, by decide +kernel, by decide +kernel, by decide +kernel, by decide +kernel, by decide +kernel, rfl⟩,
   ⟨withSet State.reset 0x090A 0 [1, 1], [], by decide +kernel⟩,
   ⟨withSet { State.reset with svc := { templateDue := true } } 0x090A 0 [1, 1], by decide +kernel⟩,
   ⟨{ State.reset with power := { level := 1 } }, by decide +kernel⟩⟩

/-- Hypotheses of GateIntake are met. -/
theorem witness_GateIntake :
    (∃ (s : State) (sp : SealPairId) (e : Bool) (i : Intake), (Tab.find? s.gate.verifying sp.val = some i) ∧ (¬(s.owned ∧ s.ledgerFull))) ∧
    (∃ (s : State) (sp : SealPairId) (e : Bool) (i : Intake), (Tab.find? s.gate.verifying sp.val = some i) ∧ (¬(s.owned ∧ s.ledgerFull))) ∧
    (∃ (s : State) (key seq loc : Nat) (i : Intake), (s.gate.waiting.find? (fun i => i.granted && i.named key seq) = some i) ∧ (s.lowerLeft i = false) ∧ (¬(s.owned ∧ s.ledgerFull)) ∧ (s.bodyKeyOk i.body = true) ∧ (s.gate.isShut = false) ∧ (s.lateCause i = none) ∧ (s.slotFor i = some loc)) ∧
    (∃ (s : State) (loc : PermitLoc) (e : PermitEntry), (s.permitAt (permitIndex loc) = some e) ∧ (leAt e.bytes 88 8 * 1000000000 ≤ s.tai + s.sn 0x0B07) ∧ (s.tai ≤ leAt e.bytes 96 8 * 1000000000)) ∧
    (∃ (s : State) (loc : PermitLoc) (e : PermitEntry), (s.permitAt (permitIndex loc) = some e) ∧ ((entryFlags e.bytes).testBit 1 = true) ∧ (leAt e.bytes 104 8 ≤ s.angle) ∧ (s.angle ≤ leAt e.bytes 112 8)) ∧
    (∃ (s : State) (loc : PermitLoc) (e : PermitEntry) (k : Nat), (s.permitAt (permitIndex loc) = some e) ∧ (leAt e.bytes 96 8 * 1000000000 < s.tai) ∧ (e.bale = none) ∧ (e.waits = false) ∧ ((List.range 8).find? s.sweeps = some k)) ∧
    (∃ (s : State) (h : HashId), (Tab.get 0 s.gate.hashSt h.val ≠ 2)) ∧
    (∃ (s : State) (sp : SealPairId), (Tab.get 0 s.gate.sealSt sp.val = 0)) ∧
    (∃ (s : State) (sp : SealPairId), (Tab.get 0 s.gate.sealSt sp.val ≠ 2)) :=
  ⟨⟨{ State.reset with gate := { verifying := [(0, grantedShut)] } }, 0, true, grantedShut, by decide +kernel⟩,
   ⟨{ State.reset with gate := { verifying := [(0, grantedShut)] } }, 0, false, grantedShut, by decide +kernel⟩,
   ⟨{ State.reset with gate := { ring := ring0, waiting := [grantedShut] } }, 0, 1, 4 * (State.reset.permitBuckets (bodySelector shutBody)).1, grantedShut, by decide +kernel⟩,
   ⟨permitIn 16777215, ⟨4194303, 3⟩, blankPermit, by decide +kernel⟩,
   ⟨{ State.reset with gate := { permits := [(0, { bytes := patch blankPermit.bytes 74 [2] })] } }, ⟨0, 0⟩, { bytes := patch blankPermit.bytes 74 [2] }, by decide +kernel⟩,
   ⟨{ permitIn 0 with tiller := { (permitIn 0).tiller with taiSec := 1 } }, ⟨0, 0⟩, blankPermit, 0, by decide +kernel⟩,
   ⟨State.reset, 15, by decide +kernel⟩,
   ⟨State.reset, 31, by decide +kernel⟩,
   ⟨State.reset, 0, by decide +kernel⟩⟩

/-- Hypotheses of GatePassage are met. -/
theorem witness_GatePassage :
    (∃ (s : State) (n : Nat) (p : Packet), (s.pkt? n = some p) ∧ (s.gate.isShut = true)) ∧
    (∃ (s : State) (n : Nat) (p : Packet), (s.pkt? n = some p) ∧ (p.stage = .judge) ∧ (s.earlierOnPath n p = false) ∧ (s.earlierCommand n p = false) ∧ (s.mem.reads = []) ∧ (s.recentOf p = none)) ∧
    (∃ (s t : State) (n : Nat) (p : Packet) (gs : List Grant), (s.pkt? n = some p) ∧ (s.gate.isShut = false) ∧ (s.verdictRoom p = true) ∧ (p.acked = false) ∧ (s.grants (s.cmdProfile p) p.pdus [] = some gs) ∧ (t = gs.foldl (fun s g => s.takeGrant n g) (s.setPkt n { p with pdus := (p.pdus.zip gs).map (fun (x : Pdu × Grant) => { x.1 with used := some (x.2.key, x.2.seq, x.2.left, x.2.flags) }), holdAt := some (p.holdAt.getD s.now) })) ∧ (t.isConsuming n = false)) ∧
    (∃ (s : State) (n : Nat) (p : Packet), (s.pkt? n = some p) ∧ (p.stage = .held) ∧ (s.holdOver p = true) ∧ (s.isConsuming n = false)) ∧
    (∃ (s : State) (cause source key : Nat), (s.son 0x0B08 = false)) ∧
    (∃ (s : State) (t : Nat), (s.sn 0x0B09 0 0 = 1) ∧ (s.gate.pin = false) ∧ (s.gate.isShut = true) ∧ (s.gate.cause = 10) ∧ (s.gate.releasedAt = some t) ∧ (t + ns (s.sn 0x0B09 0 2) ≤ s.now) ∧ (s.staysShut = false)) :=
  ⟨⟨{ pktIs asks with gate := { isShut := true, cause := 11 } }, 0, asks, by decide +kernel⟩,
   ⟨pktIs { asks with stage := .judge }, 0, { asks with stage := .judge }, by decide +kernel⟩,
   ⟨pktIs { asks with stage := .judge }, _, 0, { asks with stage := .judge }, [], by decide +kernel, by decide +kernel, by decide +kernel, by decide +kernel, by decide +kernel, rfl, by decide +kernel⟩,
   ⟨{ pktIs { asks with stage := .held, holdAt := some 0 } with now := ms 20 + 1 }, 0, { asks with stage := .held, holdAt := some 0 }, by decide +kernel⟩,
   ⟨withSet State.reset 0x0B08 0 [0], 1, 0, 0, by decide +kernel⟩,
   ⟨{ withSet State.reset 0x0B09 0 [1, 0, 0] with gate := { isShut := true, cause := 10, releasedAt := some 0 } }, 0, by decide +kernel⟩⟩

/-- Hypotheses of LedgerAndRefusals are met. -/
theorem witness_LedgerAndRefusals :
    (∃ (s : State) (r : Bytes) (rest : List Bytes), (s.ledger.queue = r :: rest) ∧ (s.ledger.mark + s.ledgerRing ≤ leAt r 0 8 ∨ s.ledgerTakes (leAt r 0 8 % 8) = false)) ∧
    (∃ (s : State) (r : Bytes) (rest : List Bytes), (s.ledger.queue = r :: rest) ∧ (leAt r 0 8 < s.ledger.mark + s.ledgerRing) ∧ (s.ledgerTakes (leAt r 0 8 % 8) = true)) ∧
    (∃ (s : State), (s.owned = true) ∧ (s.ledger.queue.length < 8192) ∧ (s.ledger.started = true) ∧ (s.ledger.sealAt + ns (s.sn 0x0B0B 0 0) ≤ s.now ∨ s.sn 0x0B0B 0 1 ≤ s.ledger.sinceSeal)) ∧
    (∃ (s : State), (s.owned = true → s.ledger.queue.length + (s.gate.aggregates.filter (fun a => decide (a.sec < s.now / sec 1))).length ≤ 8192)) ∧
    (∃ (s : State) (a : Aggregate), (s.owned = true) ∧ (s.ledgerFull = true)) :=
  ⟨⟨{ State.reset with ledger := { queue := [natLe 8 (2 ^ 60)] } }, natLe 8 (2 ^ 60), [], by decide +kernel⟩,
   ⟨{ State.reset with ledger := { queue := [natLe 8 0] } }, natLe 8 0, [], by decide +kernel⟩,
   ⟨{ State.reset with ledger := { started := true, sinceSeal := State.reset.sn 0x0B0B 0 1 }, trust := { otp := { owned := true } } }, by decide +kernel⟩,
   ⟨State.reset, by decide +kernel⟩,
   ⟨{ ownedDev with ledger := { queue := List.replicate 8192 [] } }, ⟨0, 0, 0, 0⟩, by decide +kernel⟩⟩

/-- Hypotheses of FramesIn are met. -/
theorem witness_FramesIn :
    (∃ (s : State) (p : PortId) (b : Bytes) (e : LookupFaults), ((s.port p).sliceDown = true)) ∧
    (∃ (s : State) (p : PortId) (b : Bytes) (e : LookupFaults), ((s.port p).sliceDown = false) ∧ ((s.port p).isUp = false)) ∧
    (∃ (s t : State) (p : PortId) (b : Bytes) (e : LookupFaults), ((s.port p).isUp = true) ∧ (t = (s.count 1 (256 * p)).count 1 (256 * p + 1) b.length) ∧ (s.frameKind p s.bales.epoch b (parse b) = .pause)) ∧
    (∃ (s t : State) (p : PortId) (b : Bytes) (e : LookupFaults), ∃ vid pcp tagged, ((s.port p).isUp = true) ∧ (t = (s.count 1 (256 * p)).count 1 (256 * p + 1) b.length) ∧ (s.ingressVlan p s.bales.epoch (parse b) = .vlan vid pcp tagged) ∧ (s.frameKind p s.bales.epoch b (parse b) = .slow)) ∧
    (∃ (s t : State) (p : PortId) (b : Bytes) (e : LookupFaults), ∃ vid pcp tagged, ((s.port p).isUp = true) ∧ (t = (s.count 1 (256 * p)).count 1 (256 * p + 1) b.length) ∧ (s.ingressVlan p s.bales.epoch (parse b) = .vlan vid pcp tagged) ∧ (s.frameKind p s.bales.epoch b (parse b) = .permit)) ∧
    (∃ (s t : State) (p : PortId) (b : Bytes) (e : LookupFaults), ∃ vid pcp tagged, ((s.port p).isUp = true) ∧ (t = (s.count 1 (256 * p)).count 1 (256 * p + 1) b.length) ∧ (s.ingressVlan p s.bales.epoch (parse b) = .vlan vid pcp tagged) ∧ (s.frameKind p s.bales.epoch b (parse b) = .ptp) ∧ (s.ptpPort p = true)) ∧
    (∃ (s t : State) (p : PortId) (b : Bytes) (e : LookupFaults), ∃ vid pcp tagged, ∃ (k : FrameKind), ((s.port p).isUp = true) ∧ (t = (s.count 1 (256 * p)).count 1 (256 * p + 1) b.length) ∧ (s.ingressVlan p s.bales.epoch (parse b) = .vlan vid pcp tagged) ∧ (s.frameKind p s.bales.epoch b (parse b) = k) ∧ (k ∉ [.pause, .slow, .permit]) ∧ (k = .ptp → s.ptpPort p = false)) ∧
    (∃ (s t : State) (p : PortId) (b : Bytes) (e : LookupFaults), ((s.port p).isUp = true) ∧ (t = (s.count 1 (256 * p)).count 1 (256 * p + 1) b.length) ∧ (s.frameKind p s.bales.epoch b (parse b) ≠ .pause) ∧ (s.ingressVlan p s.bales.epoch (parse b) = .discard)) ∧
    (∃ (s : State) (n : Nat) (c : Bool) (x : Packet), (s.pkt? n = some x) ∧ (x.complete = false)) :=
  ⟨⟨portIs 95 { sliceDown := true }, 95, [], {}, by decide +kernel⟩,
   ⟨State.reset, 0, [], {}, by decide +kernel⟩,
   ⟨portIs 0 { st := .up }, _, 0, ethFrame 0x8808, {}, by decide +kernel, rfl, by decide +kernel⟩,
   ⟨withSet (portIs 0 { st := .up }) 0x0511 0 [0], _, 0, ethFrame 0x8809, {}, 1, 0, false, by decide +kernel, rfl, by decide +kernel, by decide +kernel⟩,
   ⟨withSet (withSet (withSet (portIs 0 { st := .up }) 0x0511 0 [0]) 0x0B05 0 [1]) 0x0B03 0 [0x1234, 0, 0, 0, 0, 0, 1], _, 0, List.replicate 5 0 ++ [1] ++ List.replicate 6 0 ++ [0x12, 0x34] ++ List.replicate 50 0, {}, 1, 0, false, by decide +kernel, rfl, by decide +kernel, by decide +kernel⟩,
   ⟨withSet (withSet (portIs 0 { st := .up }) 0x0511 0 [0]) 0x0213 0 [1, 0, 254], _, 0, ethFrame 0x88F7, {}, 1, 0, false, by decide +kernel, rfl, by decide +kernel, by decide +kernel, by decide +kernel⟩,
   ⟨withSet (portIs 0 { st := .up }) 0x0511 0 [0], _, 0, ethFrame 0x1234, {}, 1, 0, false, .plain, by decide +kernel, rfl, by decide +kernel, by decide +kernel, by decide +kernel, by decide +kernel⟩,
   ⟨withSet (portIs 0 { st := .up }) 0x0510 0 [1], _, 0, ethFrame 0x1234, {}, by decide +kernel, rfl, by decide +kernel, by decide +kernel⟩,
   ⟨pktIs asks, 0, true, asks, by decide +kernel⟩⟩

/-- Hypotheses of FramesThrough are met. -/
theorem witness_FramesThrough :
    (∃ (s : State) (n : Nat) (x : Packet), (s.pkt? n = some x) ∧ (x.stage = .step7) ∧ (s.flowBlocked n x = false) ∧ (x.discard = true)) ∧
    (∃ (s : State) (n : Nat) (x y : Packet), (s.pkt? n = some x) ∧ (x.stage = .step7) ∧ (s.flowBlocked n x = false) ∧ (x.discard = false) ∧ (y = { x with dests := s.destsNow x }) ∧ (s.storesFirst y = true → y.complete = true) ∧ (s.slotMoves y = false)) ∧
    (∃ (s t : State) (p : PortId) (c n : Nat), ((s.port p).isUp = true) ∧ ((s.port p).sending = none) ∧ ((s.latchGates p).choose p = some (c, n, t))) ∧
    (∃ (s : State) (p : PortId) (corrupt : Bool) (n : Nat) (x : Packet) (c : Copy), ((s.port p).sending = some n) ∧ (s.pkt? n = some x) ∧ (x.copyAt p = some c) ∧ (x.complete = true)) ∧
    (∃ (s : State) (n t : Nat) (x : Packet), (s.pkt? n = some x) ∧ (x.residueAt = some t) ∧ (t ≤ s.now)) ∧
    (∃ (s : State), (s.core.auditAt + sec 10 ≤ s.now)) ∧
    (∃ (s : State) (p : PortId) (t : Nat), (Tab.find? s.sched.bankBusy p = some t)) ∧
    (∃ (s : State) (x : Nat × Bytes) (rest : List (Nat × Bytes)), (s.core.staged = x :: rest) ∧ ((s.ringOf 1).enable = true) ∧ (((s.ringOf 1).prod + 2 ^ 32 - (s.ringOf 1).cons) % 2 ^ 32 < 2 ^ (s.ringOf 1).log2)) :=
  ⟨⟨pktIs { atStep7 with discard := true }, 0, { atStep7 with discard := true }, by decide +kernel⟩,
   ⟨pktIs atStep7, 0, atStep7, atStep7, by decide +kernel⟩,
   ⟨queued0, _, 0, 7, 0, by decide +kernel, by decide +kernel, rfl⟩,
   ⟨(pktIs { atStep7 with stage := .inQueues, copies := [{ port := 0, cls := 0 }] }).setPort 0 { sending := some 0 }, 0, true, 0, { atStep7 with stage := .inQueues, copies := [{ port := 0, cls := 0 }] }, { port := 0, cls := 0 }, by decide +kernel⟩,
   ⟨pktIs { atStep7 with residueAt := some 0 }, 0, 0, { atStep7 with residueAt := some 0 }, by decide +kernel⟩,
   ⟨atTime (sec 10), by decide +kernel⟩,
   ⟨{ State.reset with sched := { bankBusy := [(95, 0)] } }, 95, 0, by decide +kernel⟩,
   ⟨({ State.reset with core := { staged := [(0, [])] } }).setRing 1 { enable := true, log2 := 10 }, (0, []), [], by decide +kernel⟩⟩

/-- Hypotheses of PauseAndCounters are met. -/
theorem witness_PauseAndCounters :
    (∃ (s : State) (p : PortId) (c : ClassId) (t : Nat), ((s.xoffOf p c).since = some t) ∧ ((s.xoffOf p c).sentAt + us 80 ≤ s.now) ∧ (s.now < t + ns (s.sn 0x0C10 p 0))) ∧
    (∃ (s : State) (p : PortId) (c : ClassId) (t : Nat), ((s.xoffOf p c).since = some t) ∧ (t + ns (s.sn 0x0C10 p 0) ≤ s.now)) ∧
    (∃ (s : State) (p : PortId) (c : ClassId) (t : Nat), ((s.xoffOf p c).backoff = some t) ∧ (t ≤ s.now)) ∧
    (∃ (s : State) (due : Option Nat), (s.cnt.armed = some due) ∧ (s.cnt.armedAt < s.now) ∧ (∀ d, due = some d → d ≤ s.angle)) ∧
    (∃ (s : State) (k : SliceId) (n : Fin 8) (x : Nat × Nat) (rest : List (Nat × Nat)), (Tab.get [] s.cnt.expired (8 * k.val + n.val) = x :: rest) ∧ (((Tab.get [] s.cnt.raised k).filter (fun t => decide (s.now < t + sec 1))).length < s.sn 0x1403) ∧ (s.power.level = 0) ∧ (s.son 0x1404 = true)) ∧
    (∃ (s : State) (k : SliceId) (n : Fin 8) (x : Nat × Nat) (rest : List (Nat × Nat)), (Tab.get [] s.cnt.expired (8 * k.val + n.val) = x :: rest) ∧ (s.sn 0x1403 ≤ ((Tab.get [] s.cnt.raised k).filter (fun t => decide (s.now < t + sec 1))).length)) ∧
    (∃ (s : State) (k : SliceId) (n : Fin 8) (t a : Nat), (Tab.find? s.cnt.capture (8 * k.val + n.val) = some (t, a)) ∧ (t + 64 * clk ≤ s.now)) :=
  ⟨⟨{ State.reset.setXoff 0 7 { since := some 0 } with now := us 80 }, 0, 7, 0, by decide +kernel⟩,
   ⟨{ State.reset with now := ns (State.reset.sn 0x0C10 0 0), core := { xoff := [(0, { since := some 0 })] } }, 0, 0, 0, by decide +kernel⟩,
   ⟨{ State.reset with core := { xoff := [(0, { backoff := some 0 })] } }, 0, 0, 0, by decide +kernel⟩,
   ⟨{ State.reset with now := 1, cnt := { armed := some none } }, none, by decide +kernel, by decide +kernel, by intro d h; cases h⟩,
   ⟨{ State.reset with now := sec 1, cnt := { expired := [(63, [(0, 1)])] } }, 7, 7, (0, 1), [], by decide +kernel⟩,
   ⟨{ State.reset with cnt := { expired := [(0, [(0, 1)])], raised := [(0, List.replicate (State.reset.sn 0x1403) 0)] } }, 0, 0, (0, 1), [], by decide +kernel⟩,
   ⟨{ State.reset with now := 320, cnt := { capture := [(0, (0, 0))] } }, 0, 0, 0, 0, by decide +kernel⟩⟩

/-- Hypotheses of SramErrors are met. -/
theorem witness_SramErrors :
    (∃ (s : State) (k i : Nat) (e : MacEntry), (Tab.find? (s.mac k).entries i = some e)) ∧
    (∃ (s : State) (n : Nat) (x : Packet), (s.pkt? n = some x)) ∧
    (∃ (s t : State) (p : PortId) (c : ClassId) (v : SchedValue), (t = s.bufferError (p / 12) 5 (8 * p + c))) ∧
    (∃ (s : State) (loc : FlowLoc) (d : Bool) (r : FlowRec) (c : CacheLine), (s.recAt (flowIndex loc) = some r) ∧ ((s.cacheSet (s.flowSet (recKey r.bytes))).find? (fun c => c.loc == flowIndex loc) = some c)) :=
  ⟨⟨macIs 0 { entries := [(0, { mac := 1, vid := 1, dest := 0, static := true })] }, 0, 0, { mac := 1, vid := 1, dest := 0, static := true }, by decide +kernel⟩,
   ⟨pktIs asks, 0, asks, by decide +kernel⟩,
   ⟨State.reset, _, 0, 0, .deficit, rfl⟩,
   ⟨(recIn 0).setCache (State.reset.flowSet (List.replicate 40 0)) [{ loc := 0 }], .bucket 0 0, true, { bytes := zeroRec }, { loc := 0 }, by decide +kernel⟩⟩

/-- Hypotheses of MemoryScheduling are met. -/
theorem witness_MemoryScheduling :
    (∃ (s : State) (u : UnitId) (b : Nat), ((s.munit u).state = 0) ∧ (s.refreshForced u = some b)) ∧
    (∃ (s : State) (u : UnitId) (r : MemReq), ((s.munit u).state = 0) ∧ (s.refreshForced u = none) ∧ ((s.munit u).queue.find? (fun r => !r.write && earlierSame (s.munit u).queue r true) = some r)) ∧
    (∃ (s : State) (u : UnitId) (r : MemReq), ((s.munit u).state = 0) ∧ (s.refreshForced u = none) ∧ ((s.munit u).queue.find? (fun r => !r.write && earlierSame (s.munit u).queue r true) = none) ∧ (s.nextRequest u = some r)) ∧
    (∃ (s t : State) (u : UnitId) (b : Nat) (x : BankRefresh), (t = s.senseTemp u) ∧ ((s.munit u).used = true) ∧ (Tab.get ({} : BankRefresh) (s.munit u).refresh b = x) ∧ (x.due ≤ s.now) ∧ ((s.munit u).queue.any (fun r => (s.placeOf u r.addr).1 == b) = true) ∧ (x.postponed < Config.postponeLimit (isHbm u))) ∧
    (∃ (s t : State) (u : UnitId) (b : Nat) (x : BankRefresh), (t = s.senseTemp u) ∧ ((s.munit u).used = true) ∧ (Tab.get ({} : BankRefresh) (s.munit u).refresh b = x) ∧ (x.due ≤ s.now) ∧ ((s.munit u).queue.any (fun r => (s.placeOf u r.addr).1 == b) = false) ∧ (x.postponed = 0)) ∧
    (∃ (s : State) (u : UnitId) (a : Nat) (res : ReadResult), ((s.munit u).used = true)) :=
  ⟨⟨unitIs 0 { refresh := [(0, { postponed := Config.postponeLimit true })] }, 0, 0, by refine ⟨rfl, ?_⟩; have e : (((unitIs 0 { refresh := [(0, { postponed := Config.postponeLimit true })] }).munit ((0 : UnitId) : Nat)).refresh) = [(0, { postponed := Config.postponeLimit true })] := rfl; unfold State.refreshForced; rw [e]; simp [List.findSome?, isHbm, Config.postponeLimit]⟩,
   ⟨unitIs 127 { queue := [⟨1, 64, true, 0⟩, ⟨2, 64, false, 0⟩] }, 127, ⟨2, 64, false, 0⟩, by decide +kernel⟩,
   ⟨unitIs 0 { queue := [⟨1, 64, false, 0⟩] }, 0, ⟨1, 64, false, 0⟩, by decide +kernel⟩,
   ⟨unitIs 0 { queue := [⟨1, 0, false, 0⟩] }, _, 0, ((unitIs 0 {}).placeOf 0 0).1, {}, rfl, by decide +kernel, by decide +kernel, by decide +kernel, by decide +kernel, Nat.succ_pos _⟩,
   ⟨State.reset, _, 143, 0, {}, rfl, by decide +kernel⟩,
   ⟨State.reset, 0, 0, .ok, by decide +kernel⟩⟩

/-- Hypotheses of MemoryRetraining are met. -/
theorem witness_MemoryRetraining :
    (∃ (s t : State) (u : UnitId), (t = s.senseTemp u)) ∧
    (∃ (s : State) (u : UnitId) (t : Nat), (s.mayFence u = true) ∧ ((s.munit u).retryAt = some t) ∧ (t ≤ s.now)) ∧
    (∃ (s : State) (u : UnitId), ((s.munit u).state = 1)) ∧
    (∃ (s : State) (u : UnitId), ((s.munit u).state = 1)) ∧
    (∃ (s : State) (u : UnitId), ((s.munit u).state = 1)) ∧
    (∃ (s : State) (d : DdrId) (r : Rebuild), (Tab.find? s.mem.rebuilding (d % 8) = some r) ∧ (r.failed = d.val) ∧ (r.at_ + s.rebuildTime ≤ s.now)) :=
  ⟨⟨unitIs 143 {}, _, 143, rfl⟩,
   ⟨unitIs 0 { retryAt := some 0 }, 0, 0, by decide +kernel⟩,
   ⟨unitIs 0 { state := 1 }, 0, by decide +kernel⟩,
   ⟨unitIs 127 { state := 1 }, 127, by decide +kernel⟩,
   ⟨unitIs 127 { state := 1 }, 127, by decide +kernel⟩,
   ⟨{ State.reset with now := State.reset.rebuildTime, mem := { rebuilding := [(7, { failed := 15, at_ := 0, upTo := 0 })] } }, 15, { failed := 15, at_ := 0, upTo := 0 }, by decide +kernel⟩⟩

/-- Hypotheses of SheafLinks are met. -/
theorem witness_SheafLinks :
    (∃ (s : State) (l : SheafLaneId), (((s.link (linkOf l)).lane (laneNo l)).power = 0)) ∧
    (∃ (s : State) (l : SheafLaneId) (q : CoefRequest) (c : Bool) (t : Nat), ((s.link (linkOf l)).attemptAt = some t) ∧ ((s.link (linkOf l)).up = false) ∧ (s.linkPowered (linkOf l) = true) ∧ (s.linkTest (linkOf l) = false) ∧ (laneNo l ≠ 8) ∧ (s.now < t + ns (sheafBound 3)) ∧ (q.delta ≠ 0 → (s.link (linkOf l)).requests + 1 ≤ sheafBound 5)) ∧
    (∃ (s : State) (l : SheafLaneId) (q : CoefRequest) (st : Nat) (v : Int), (((s.link (linkOf l)).lane (laneNo l)).pendingReq = some q) ∧ (∀ t, ((s.link (linkOf l)).lane (laneNo l)).lastAnswer = some t → t + ns (sheafBound 4) ≤ s.now) ∧ (2 ≤ q.tap.val) ∧ (answerTap (tapBounds 4 q.tap).1 (tapBounds 4 q.tap).2 (((s.link (linkOf l)).lane (laneNo l)).taps.getD (q.tap - 2) 0) q.delta = (st, v))) ∧
    (∃ (s : State) (n : LinkId) (t : Nat), ((s.link n).retryAt = some t) ∧ (t ≤ s.now)) ∧
    (∃ (s : State) (n : LinkId) (t k : Nat), ((s.link n).retryAt = none) ∧ ((s.link n).attemptAt = some t) ∧ (t + ns (sheafBound 3) ≤ s.now) ∧ ((s.link n).up = false) ∧ ((List.range 8).find? (fun k => !((s.link n).lane k).converged) = some k)) ∧
    (∃ (s : State) (n : LinkId) (x : Superframe) (l : SheafLink), (s.linkPowered n = true) ∧ (s.linkTest n = false) ∧ (l = { s.link n with lanes := ((s.link n).lanes.zipIdx).map (fun (y : SheafLane × Nat) => if y.2 < 8 then y.1.frame (x.seen.getD y.2 []) else y.1) }) ∧ (l.aligned = true)) ∧
    (∃ (s : State) (n : LinkId), (s.linkPowered n = true) ∧ (s.linkTest n = false) ∧ (((s.link n).lanes.take 8).all (fun x => x.converged) = true) ∧ ((s.link n).sentAt + superframeTime ≤ s.now)) :=
  ⟨⟨linkIs 1 liveLink, 17, by decide +kernel⟩,
   ⟨linkIs 0 { liveLink with up := false, attemptAt := some 0 }, 7, { tap := 4, delta := 1 }, true, 0, by decide +kernel⟩,
   ⟨linkIs 0 { liveLink with lanes := [{ liveLane 0 with pendingReq := some { tap := 4, delta := 0 } }] }, 0, { tap := 4, delta := 0 }, 3, 0, by decide +kernel, (by intro t h; cases h), by decide +kernel, by decide +kernel⟩,
   ⟨linkIs 1 { liveLink with up := false, retryAt := some 0 }, 1, 0, by decide +kernel⟩,
   ⟨{ linkIs 1 { liveLink with up := false, attemptAt := some 0, lanes := (List.range 9).map (fun i => { liveLane i with converged := i != 7 }) } with now := ns (sheafBound 3) }, 1, 0, 7, by decide +kernel⟩,
   ⟨linkIs 1 liveLink, 1, ⟨(List.range 8).map (fun i => [(0, 0x50 + i)]), []⟩, _, by decide +kernel, by decide +kernel, rfl, by decide +kernel⟩,
   ⟨{ linkIs 0 liveLink with now := superframeTime }, 0, by decide +kernel⟩⟩

/-- Hypotheses of SheafTwin are met. -/
theorem witness_SheafTwin :
    (∃ (s t : State) (n : LinkId) (x : PairingBody) (key : Bytes), (s.twinKey = some key) ∧ ((s.link n).up = true) ∧ (s.pairId ≠ 0) ∧ (t = s.setLink n { s.link n with paired := false }) ∧ (x.pairId ≠ s.pairId)) ∧
    (∃ (s t : State) (n : LinkId) (x : PairingBody) (key : Bytes), (s.twinKey = some key) ∧ ((s.link n).up = true) ∧ (s.pairId ≠ 0) ∧ (t = s.setLink n { s.link n with paired := false }) ∧ (x.pairId = s.pairId) ∧ (x.key ≠ key)) ∧
    (∃ (s t : State) (n : LinkId) (x : PairingBody) (key : Bytes), ∃ g, (s.twinKey = some key) ∧ ((s.link n).up = true) ∧ (s.pairId ≠ 0) ∧ (t = s.setLink n { s.link n with paired := false }) ∧ (x.pairId = s.pairId) ∧ (x.key = key) ∧ ((s.link n).twinNonce = x.nonce) ∧ (x.sig = some g)) ∧
    (∃ (s : State) (n : LinkId), ((s.link n).up = true) ∧ ((s.link n).paired = true) ∧ ((s.link n).delayAt + sec 1 ≤ s.now)) ∧
    (∃ (s t : State) (n : LinkId) (x : DelayBody), ((s.link n).up = true) ∧ ((s.link n).paired = true) ∧ (s.sheaf.twin = 1) ∧ (x.num = s.sheaf.rxNum + 1) ∧ (s.sheaf.early = []) ∧ (t = { s with sheaf := { s.sheaf with rxNum := x.num } }) ∧ (x.t2 = 0)) ∧
    (∃ (s t : State) (n : LinkId) (x : DelayBody), ((s.link n).up = true) ∧ ((s.link n).paired = true) ∧ (s.sheaf.twin = 1) ∧ (x.num = s.sheaf.rxNum + 1) ∧ (s.sheaf.early = []) ∧ (t = { s with sheaf := { s.sheaf with rxNum := x.num } }) ∧ (x.t2 ≠ 0) ∧ (x.t3 ≠ 0)) :=
  ⟨⟨pairing0, _, 0, ⟨2, 0, 1 :: List.replicate 31 0, [], none⟩, 1 :: List.replicate 31 0, by decide +kernel, by decide +kernel, by decide +kernel, rfl, by decide +kernel⟩,
   ⟨pairing0, _, 0, ⟨1, 0, 2 :: List.replicate 31 0, [], none⟩, 1 :: List.replicate 31 0, by decide +kernel, by decide +kernel, by decide +kernel, rfl, by decide +kernel⟩,
   ⟨pairing0, _, 0, ⟨1, 0, 1 :: List.replicate 31 0, [], some []⟩, 1 :: List.replicate 31 0, [], by decide +kernel, by decide +kernel, by decide +kernel, rfl, by decide +kernel⟩,
   ⟨{ linkIs 0 liveLink with now := sec 1 }, 0, by decide +kernel⟩,
   ⟨twinned, _, 0, ⟨1, 0, 0, 0, 0⟩, by decide +kernel, by decide +kernel, by decide +kernel, by decide +kernel, by decide +kernel, rfl, by decide +kernel⟩,
   ⟨twinned, _, 0, ⟨1, 0, 1, 1, 0⟩, by decide +kernel, by decide +kernel, by decide +kernel, by decide +kernel, by decide +kernel, rfl, by decide +kernel⟩⟩

/-- Hypotheses of SheafNumberedMessages are met. -/
theorem witness_SheafNumberedMessages :
    (∃ (s : State) (num : Nat) (c : Instr) (m : Msg), ((∃ key seq, c = .reservation num key seq ∧ m = .reservation key seq) ∨ (∃ key seq g, c = .reservationResult num key seq g ∧ m = .result key seq g) ∨ (∃ b st, c = .permitCopy num b st ∧ m = .permitCopy b st) ∨ (∃ key seq uses, c = .consumption num key seq uses ∧ m = .consumption key seq uses) ∨ (∃ key seq, c = .consumptionAcknowledge num key seq ∧ m = .ack key seq) ∨ (∃ ws, c = .windowMerge num ws ∧ m = .windows ws) ∨ (∃ (n : LinkId) (x : DelayBody), c = .delayExchange n x ∧ x.num = num ∧ (s.link n).up = true ∧ (s.link n).paired = true ∧ m = if x.t2 = 0 then .delay n x.t1 s.tai 0 0 else .delay n x.t1 x.t2 x.t3 s.tai) ∨ (∃ x, c = .translationCheckpoint num x ∧ m = .checkpoint x) ∨ (∃ b, c = .sheafGuoloMessage num b ∧ m = .guolo b) ∨ (∃ n, c = .resyncDone num n ∧ m = .resyncDone n)) ∧ (s.strangeLink = false) ∧ (s.sheaf.twin = 1) ∧ (num = s.sheaf.rxNum + 1)) ∧
    (∃ (s : State) (num : Nat) (c : Instr) (m : Msg), ((∃ key seq, c = .reservation num key seq ∧ m = .reservation key seq) ∨ (∃ key seq g, c = .reservationResult num key seq g ∧ m = .result key seq g) ∨ (∃ b st, c = .permitCopy num b st ∧ m = .permitCopy b st) ∨ (∃ key seq uses, c = .consumption num key seq uses ∧ m = .consumption key seq uses) ∨ (∃ key seq, c = .consumptionAcknowledge num key seq ∧ m = .ack key seq) ∨ (∃ ws, c = .windowMerge num ws ∧ m = .windows ws) ∨ (∃ (n : LinkId) (x : DelayBody), c = .delayExchange n x ∧ x.num = num ∧ (s.link n).up = true ∧ (s.link n).paired = true ∧ m = if x.t2 = 0 then .delay n x.t1 s.tai 0 0 else .delay n x.t1 x.t2 x.t3 s.tai) ∨ (∃ x, c = .translationCheckpoint num x ∧ m = .checkpoint x) ∨ (∃ b, c = .sheafGuoloMessage num b ∧ m = .guolo b) ∨ (∃ n, c = .resyncDone num n ∧ m = .resyncDone n)) ∧ (s.strangeLink = false) ∧ (s.sheaf.twin ≠ 1 ∨ num ≤ s.sheaf.rxNum ∨ s.sheaf.early.any (fun x => x.1 == num) = true) ∧ (num ≠ s.sheaf.rxNum + 1)) ∧
    (∃ (s : State) (num : Nat) (c : Instr) (m : Msg), ((∃ key seq, c = .reservation num key seq ∧ m = .reservation key seq) ∨ (∃ key seq g, c = .reservationResult num key seq g ∧ m = .result key seq g) ∨ (∃ b st, c = .permitCopy num b st ∧ m = .permitCopy b st) ∨ (∃ key seq uses, c = .consumption num key seq uses ∧ m = .consumption key seq uses) ∨ (∃ key seq, c = .consumptionAcknowledge num key seq ∧ m = .ack key seq) ∨ (∃ ws, c = .windowMerge num ws ∧ m = .windows ws) ∨ (∃ (n : LinkId) (x : DelayBody), c = .delayExchange n x ∧ x.num = num ∧ (s.link n).up = true ∧ (s.link n).paired = true ∧ m = if x.t2 = 0 then .delay n x.t1 s.tai 0 0 else .delay n x.t1 x.t2 x.t3 s.tai) ∨ (∃ x, c = .translationCheckpoint num x ∧ m = .checkpoint x) ∨ (∃ b, c = .sheafGuoloMessage num b ∧ m = .guolo b) ∨ (∃ n, c = .resyncDone num n ∧ m = .resyncDone n)) ∧ (s.strangeLink = false) ∧ (s.sheaf.twin = 1) ∧ (s.sheaf.rxNum + 1 < num) ∧ (s.sheaf.early.any (fun x => x.1 == num) = false)) ∧
    (∃ (s : State) (num key seq : Nat) (g : Bool), (s.strangeLink = true)) ∧
    (∃ (s : State) (c : Checkpoint) (rest : List Checkpoint), (s.sheaf.twin = 1) ∧ (s.sheaf.outq = c :: rest) ∧ (s.sheaf.checkpointAt + ns 50 ≤ s.now)) ∧
    (∃ (s : State), (s.sheaf.twin = 1) ∧ (s.sheaf.outq = []) ∧ (s.sheaf.resyncOn = true) ∧ (s.sheaf.checkpointAt + ns 500 ≤ s.now) ∧ (s.sheaf.resyncLeft = [])) ∧
    (∃ (s : State) (num n : Nat) (ls : List Nat) (m : Sent), (s.sheaf.unacked.find? (fun m => m.num == num) = some m) ∧ (m.at_ + ns 6400 ≤ s.now) ∧ (s.linksUp = n :: ls)) :=
  ⟨⟨twinned, 1, .reservation 1 0 1, .reservation 0 1, .inl ⟨0, 1, rfl, rfl⟩, by decide +kernel, by decide +kernel⟩,
   ⟨State.reset, 0, .resyncDone 0 0, .resyncDone 0, .inr (.inr (.inr (.inr (.inr (.inr (.inr (.inr (.inr (⟨0, rfl, rfl⟩))))))))), by decide +kernel, by decide +kernel⟩,
   ⟨twinned, 2, .windowMerge 2 [], .windows [], .inr (.inr (.inr (.inr (.inr (.inl ⟨[], rfl, rfl⟩))))), by decide +kernel, by decide +kernel, by decide +kernel⟩,
   ⟨{ twinned.setLink 1 { liveLink with paired := false } with sheaf := { (twinned.setLink 1 { liveLink with paired := false }).sheaf with twin := 1 } }, 1, 0, 0, true, by decide +kernel⟩,
   ⟨{ twinned with now := ns 50, sheaf := { twinned.sheaf with outq := [blankCheckpoint] } }, blankCheckpoint, [], by decide +kernel⟩,
   ⟨{ twinned with now := ns 500, sheaf := { twinned.sheaf with resyncOn := true } }, by decide +kernel⟩,
   ⟨{ twinned with now := ns 6400, sheaf := { twinned.sheaf with unacked := [{ num := 1, msg := .ack 0 1, at_ := 0 }] } }, 1, 0, [], { num := 1, msg := .ack 0 1, at_ := 0 }, by decide +kernel⟩⟩

/-- Hypotheses of HostRegisterWrites are met. -/
theorem witness_HostRegisterWrites :
    (∃ (s : State) (mb : HostMbId) (v : W32), ((s.mbRegs mb).enable = true)) ∧
    (∃ (s : State) (n : Nat) (v : W32), (n < 64) ∧ (v.getLsbD 0 = false) ∧ (s.host.pba.testBit n = true)) ∧
    (∃ (s : State) (a : Nat), (a % 4 = 0) ∧ (0x260 ≤ a ∧ a < 0x1000 ∨ 0x900000 ≤ a)) :=
  ⟨⟨State.reset.setMbRegs 7 { enable := true }, 7, by decide +kernel⟩,
   ⟨{ State.reset with host := { pba := 2 ^ 63 } }, 63, 0, by decide +kernel⟩,
   ⟨State.reset, 0x900000, by decide +kernel⟩⟩

/-- Hypotheses of HostEventsAndManagement are met. -/
theorem witness_HostEventsAndManagement :
    (∃ (s : State) (e : EventRec) (rest : List EventRec), (s.scemasRuns = true) ∧ (s.quiesced = false) ∧ ((s.masterQ 1).queue = e :: rest) ∧ ((s.ringOf 0).enable = true) ∧ ((s.ringOf 0).room = true)) ∧
    (∃ (s : State) (e : EventRec) (rest : List EventRec), (s.scemasRuns = true) ∧ (s.quiesced = false) ∧ ((s.masterQ 0).queue = e :: rest) ∧ (allZero s.supervisor = false) ∧ (s.mgmtSigned = false)) ∧
    (∃ (s : State) (e : EventRec) (rest : List EventRec), (s.scemasRuns = true) ∧ (s.quiesced = false) ∧ ((s.masterQ 2).queue = e :: rest) ∧ (s.sheaf.twin = 1)) ∧
    (∃ (s : State) (m : Master), (s.scemasRuns = false ∨ s.quiesced = true)) ∧
    (∃ (s : State) (m : Nat) (e : EventRec) (rest : List EventRec), ((s.masterQ m).queue = e :: rest) ∧ ((s.masterQ m).lost = 0)) ∧
    (∃ (s : State) (m : Nat) (e : EventRec) (rest : List EventRec), ((s.masterQ m).queue = e :: rest) ∧ ((s.masterQ m).lost ≠ 0)) ∧
    (∃ (s : State) (mb : MbId), ((s.box mb).frags ≠ []) ∧ ((s.box mb).fragAt + ms 100 ≤ s.now)) ∧
    (∃ (s : State) (mb : MbId), ((s.box mb).gapAt.any (fun t => decide (t + ns (s.sn 0x0F04) ≤ s.now)) = true)) ∧
    (∃ (s : State) (w : W32), ((s.host.jtag ++ [w.toNat]).length < 8)) ∧
    (∃ (s : State) (mb : MbId) (pc : Nat) (x : LongReq), (s.host.longs.find? (fun x => x.mb == mb.val && x.kind != 0) = some x) ∧ (x.at_ + sec 1 ≤ s.now)) :=
  ⟨⟨({ State.reset with host := { masters := [(1, { queue := [someEvent] })] } }).setRing 0 { enable := true, log2 := 10 }, someEvent, [], by decide +kernel⟩,
   ⟨withSet (withSet { State.reset with host := { masters := [(0, { queue := [someEvent] })] } } 0x0F01 0 (List.replicate 33 1)) 0x0F03 0 [0], someEvent, [], by decide +kernel⟩,
   ⟨{ twinned with host := { masters := [(2, { queue := [someEvent] })] } }, someEvent, [], by decide +kernel⟩,
   ⟨{ State.reset with fault := { mc := [(0, 2), (1, 2)] } }, .twin, by decide +kernel⟩,
   ⟨{ State.reset with host := { masters := [(1, { queue := [someEvent] })] } }, 1, someEvent, [], by decide +kernel⟩,
   ⟨{ State.reset with host := { masters := [(1, { queue := [someEvent], lost := 1 })] } }, 1, someEvent, [], by decide +kernel⟩,
   ⟨{ State.reset.setBox 8 { frags := [(0, [1])], fragTotal := 2 } with now := ms 100 }, 8, by decide +kernel⟩,
   ⟨{ State.reset.setBox 11 { gapAt := some 0 } with now := ns (State.reset.sn 0x0F04) }, 11, by decide +kernel⟩,
   ⟨{ State.reset with host := { jtag := [1, 2, 3, 4, 5, 6] } }, 7, by decide +kernel⟩,
   ⟨{ State.reset with now := sec 1, host := { longs := [{ mb := 15, seq := 0, opcode := 0, kind := 1, idx := 0 }] } }, 15, 100, { mb := 15, seq := 0, opcode := 0, kind := 1, idx := 0 }, by decide +kernel⟩⟩

/-- Hypotheses of WindowWriteReadsBack are met. -/
theorem witness_WindowWriteReadsBack :
    (∃ (s : State) (a : Nat) (v : W32), ∃ b, (Tab.wf 0 s.host.windows = true) ∧ (a % 4 = 0) ∧ (0x100000 ≤ a) ∧ (a < 0x900000) ∧ (b < a - 0x100000 ∨ a - 0x100000 + 4 ≤ b)) :=
  ⟨State.reset, 0x100000, 0, 4, by decide +kernel⟩

/-- Hypotheses of SagLevels are met. -/
theorem witness_SagLevels :
    (∃ (s : State), (s.power.level < s.sagRequest.2)) ∧
    (∃ (s : State), (s.sagRequest.2 < s.power.level) ∧ (s.power.level < 5)) ∧
    (∃ (s : State) (t : Nat), (1 ≤ s.power.level) ∧ (s.power.level ≤ 4) ∧ (s.sagRequest.2 < s.power.level) ∧ (s.power.releaseAt = some t) ∧ (t ≤ s.now)) :=
  ⟨⟨{ State.reset with power := { monitors := [(0, 3)] } }, by decide +kernel⟩,
   ⟨{ State.reset with power := { level := 4 } }, by decide +kernel⟩,
   ⟨{ State.reset with power := { level := 1, releaseAt := some 0 } }, 0, by decide +kernel⟩⟩

/-- Hypotheses of SupplyClockAndTemperature are met. -/
theorem witness_SupplyClockAndTemperature :
    (∃ (s : State) (x : VcoreStep), (s.son 0x130B = true) ∧ (s.power.pmbusLost = false) ∧ (s.power.vcoreAt + us 100 ≤ s.now)) ∧
    (∃ (s : State) (temp : Int), (s.power.therm = false) ∧ ((s.sn 0x130A : Int) ≤ temp)) ∧
    (∃ (s : State) (temp : Int), (s.power.therm = true) ∧ (temp ≤ (s.sn 0x130A : Int) - 5)) ∧
    (∃ (s : State) (temp : Int), (s.power.therm = true → (s.sn 0x130A : Int) - 5 < temp) ∧ (s.power.therm = false → temp < (s.sn 0x130A : Int))) ∧
    (∃ (s : State), (s.keeper.vkeep = true)) ∧
    (∃ (s : State), (s.keeper.vkeep = true)) :=
  ⟨⟨{ withSet State.reset 0x130B 0 [1] with now := us 100 }, ⟨true, true⟩, by decide +kernel⟩,
   ⟨State.reset, State.reset.sn 0x130A, by decide +kernel⟩,
   ⟨{ State.reset with power := { therm := true } }, (State.reset.sn 0x130A : Int) - 5, by decide +kernel⟩,
   ⟨{ State.reset with power := { therm := true } }, (State.reset.sn 0x130A : Int) - 4, by decide +kernel⟩,
   ⟨State.reset, by decide +kernel⟩,
   ⟨State.reset, by decide +kernel⟩⟩

/-- Hypotheses of FaultEvents are met. -/
theorem witness_FaultEvents :
    (∃ (s : State) (k : SliceId) (d : Drain), (s.fault.drain = some d) ∧ (d.slice = k.val) ∧ (d.drained = false) ∧ ((d.at_ + ms 1 ≤ s.now ∨ (s.slicePackets k).isEmpty = true))) ∧
    (∃ (s : State) (k : SliceId) (d : Drain), (s.fault.drain = some d) ∧ (d.slice = k.val) ∧ (d.drained = true)) ∧
    (∃ (s : State) (q : Fin 2), (s.mcState q ≠ 2)) ∧
    (∃ (s : State) (q : Fin 2), (s.mcState q = 1)) ∧
    (∃ (s : State), (s.fault.sysclk = true)) :=
  ⟨⟨{ State.reset with fault := { drain := some { slice := 7, at_ := 0 } } }, 7, { slice := 7, at_ := 0 }, by decide +kernel⟩,
   ⟨{ State.reset with fault := { drain := some { slice := 0, at_ := 0, drained := true } } }, 0, { slice := 0, at_ := 0, drained := true }, by decide +kernel⟩,
   ⟨State.reset, 1, by decide +kernel⟩,
   ⟨{ State.reset with fault := { mc := [(1, 1)] } }, 1, by decide +kernel⟩,
   ⟨State.reset, by decide +kernel⟩⟩

/-- Hypotheses of FaultRungs are met. -/
theorem witness_FaultRungs :
    (∃ (s : State) (u cause detail source : Nat) (act : Nat → Nat), ∃ v, (Tab.wf [] s.fault.logs = true) ∧ (Tab.wf 0 s.fault.counts = true) ∧ (s.drainingUnit u = false) ∧ (v ≠ u)) :=
  ⟨{ State.reset with fault := { drain := some { slice := 1, at_ := 0 }, logs := [(0, [{ cls := 3, cause := 1, rung := 1, detail := 0, stamp := 0 }])] } }, 97, 1, 0, 0, id, 0, by decide +kernel⟩

/-- Hypotheses of BootAndSwitchover are met. -/
theorem witness_BootAndSwitchover :
    (∃ (s : State) (x : BootInputs), (s.trust.flash.record.2.2 ≠ 1) ∧ (s.slotOk (s.slotCheck s.trust.flash.record.2.1 (if s.trust.flash.record.2.1 = 0 then x.slotA else x.slotB)) = true)) ∧
    (∃ (s : State) (x : BootInputs), (s.trust.flash.record.2.2 ≠ 1) ∧ (s.trust.flash.record.2.1 = 0) ∧ (s.slotOk (s.slotCheck 0 x.slotA) = false) ∧ ((s.bootTamper 5).slotOk (s.slotCheck 1 x.slotB) = false)) ∧
    (∃ (s : State), (s.mem.trained = false)) ∧
    (∃ (s : State) (x : Switchover), (s.trust.switchover = some x) ∧ (x.quiesced = none) ∧ (s.slotFault x.slot = none)) ∧
    (∃ (s : State) (x : Switchover) (st d : Nat) (ok : Bool), (s.trust.switchover = some x) ∧ (x.quiesced = none) ∧ (s.slotFault x.slot = some (st, d))) ∧
    (∃ (s : State) (x : Switchover), (s.trust.switchover = some x) ∧ (x.quiesced.isSome = true)) ∧
    (∃ (s : State) (x : Switchover), (s.trust.switchover = some x)) :=
  ⟨⟨State.reset, bootIn true, by decide +kernel⟩,
   ⟨State.reset, bootIn false, by decide +kernel, by decide +kernel, by decide +kernel, by unfold State.slotOk; rfl⟩,
   ⟨State.reset, by decide +kernel⟩,
   ⟨switching none, { slot := 1, header := [], quiesced := none }, by decide +kernel⟩,
   ⟨{ switching none with trust := { (switching none).trust with flash := { slotB := { image := [0] } } } }, { slot := 1, header := [], quiesced := none }, 0x0B02, 0, true, by decide +kernel⟩,
   ⟨switching (some 0), { slot := 1, header := [], quiesced := some 0 }, by decide +kernel⟩,
   ⟨switching (some 0), { slot := 1, header := [], quiesced := some 0 }, by decide +kernel⟩⟩

/-- Hypotheses of AluResults are met. -/
theorem witness_AluResults :
    (∃ (s t : State) (x : AluSlot) (p : Packet) (c d : Context), ∃ op ∈ aluResults c x, (c.holds x.cond = true) ∧ (x.setf = false) ∧ (t = s.noteWord (sliceOf p.port) c) ∧ (d = s.aluCtx c) ∧ (s.AluRuns op.1 x p c)) ∧
    (∃ (s t : State) (x : AluSlot) (p : Packet) (c d : Context), (c.holds x.cond = true) ∧ (x.setf = false) ∧ (t = s.noteWord (sliceOf p.port) c) ∧ (d = s.aluCtx c) ∧ (s.AluRuns 17 x p c)) ∧
    (∃ (s t : State) (x : AluSlot) (p : Packet) (c d : Context), (c.holds x.cond = true) ∧ (x.setf = false) ∧ (t = s.noteWord (sliceOf p.port) c) ∧ (d = s.aluCtx c) ∧ (s.AluRuns 15 x p c) ∧ ((aluB c x).toNat % 4 ≠ 0)) ∧
    (∃ (s t : State) (x : AluSlot) (p : Packet) (c d : Context), (c.holds x.cond = true) ∧ (x.setf = false) ∧ (t = s.noteWord (sliceOf p.port) c) ∧ (d = s.aluCtx c) ∧ (s.AluRuns 15 x p c) ∧ ((aluB c x).toNat % 4 = 0)) ∧
    (∃ (s : State) (x : AluSlot) (p : Packet) (c : Context), (s.AluRuns 0 x p c)) ∧
    (∃ (s : State) (x : AluSlot) (p : Packet) (c : Context), ∃ op ∈ aluResults c x, (s.runningCtx x.ctx = some (p, c)) ∧ (x.fault = none) ∧ (c.aluDone = true ∨ wordAlu (s.wordOf c) ≠ aluSpelling op.1 x)) :=
  ⟨⟨aluAt 1 (aluOf true false 1 0) ctx0, _, aluOf true false 1 0, runPkt ctx0, ctx0, _, _, List.mem_cons_self, by decide +kernel, by decide +kernel, rfl, rfl, by unfold State.AluRuns; decide +kernel⟩,
   ⟨aluAt 17 (aluOf true false 1 0) ctx0, _, aluOf true false 1 0, runPkt ctx0, ctx0, _, by decide +kernel, by decide +kernel, rfl, rfl, by unfold State.AluRuns; decide +kernel⟩,
   ⟨aluAt 15 (aluOf true false 0xFFFFFFFF 0) ctx0, _, aluOf true false 0xFFFFFFFF 0, runPkt ctx0, ctx0, _, by decide +kernel, by decide +kernel, rfl, rfl, by unfold State.AluRuns; decide +kernel, by decide +kernel⟩,
   ⟨aluAt 15 (aluOf false false 0 0) ctx0, _, aluOf false false 0 0, runPkt ctx0, ctx0, _, by decide +kernel, by decide +kernel, rfl, rfl, by unfold State.AluRuns; decide +kernel, by decide +kernel⟩,
   ⟨aluAt 0 (aluOf true false 1 0) ctx0, aluOf true false 1 0, runPkt ctx0, ctx0, by unfold State.AluRuns; decide +kernel⟩,
   ⟨aluAt 2 (aluOf true false 1 0) ctx0, aluOf true false 1 0, runPkt ctx0, ctx0, _, List.mem_cons_self, by decide +kernel, by decide +kernel, .inr (by decide +kernel)⟩⟩

/-- Hypotheses of AluFlags are met. -/
theorem witness_AluFlags :
    (∃ (s t : State) (x : AluSlot) (p : Packet) (c d : Context), (c.holds x.cond = true) ∧ (x.setf = true) ∧ (t = s.noteWord (sliceOf p.port) c) ∧ (d = s.aluCtx c) ∧ (s.AluRuns 1 x p c)) ∧
    (∃ (s t : State) (x : AluSlot) (p : Packet) (c d : Context), (c.holds x.cond = true) ∧ (x.setf = true) ∧ (t = s.noteWord (sliceOf p.port) c) ∧ (d = s.aluCtx c) ∧ (s.AluRuns 2 x p c)) ∧
    (∃ (s t : State) (x : AluSlot) (p : Packet) (c d : Context), ∃ op ∈ aluResults c x, (c.holds x.cond = true) ∧ (x.setf = true) ∧ (t = s.noteWord (sliceOf p.port) c) ∧ (d = s.aluCtx c) ∧ (2 < op.1) ∧ (s.AluRuns op.1 x p c)) ∧
    (∃ (s t : State) (x : AluSlot) (p : Packet) (c d : Context), (c.holds x.cond = true) ∧ (x.setf = true) ∧ (t = s.noteWord (sliceOf p.port) c) ∧ (d = s.aluCtx c) ∧ (s.AluRuns 17 x p c)) ∧
    (∃ (s t : State) (x : AluSlot) (p : Packet) (c d : Context), (c.holds x.cond = true) ∧ (x.setf = true) ∧ (t = s.noteWord (sliceOf p.port) c) ∧ (d = s.aluCtx c) ∧ (s.AluRuns 15 x p c) ∧ ((aluB c x).toNat % 4 ≠ 0)) ∧
    (∃ (s : State) (x : AluSlot) (p : Packet) (c : Context), ∃ op ∈ [(15, Instr.aluBswap), (17, Instr.aluIns)] ++ (aluResults c x).map (fun op => (op.1, op.2.1)), ∃ h, (s.runningCtx x.ctx = some (p, c)) ∧ (x.fault = some h)) ∧
    (∃ (s : State) (x : AluSlot) (p : Packet) (c : Context), ∃ op ∈ [(15, Instr.aluBswap), (17, Instr.aluIns)] ++ (aluResults c x).map (fun op => (op.1, op.2.1)), (s.runningCtx x.ctx = some (p, c)) ∧ (s.AluRuns op.1 x p c) ∧ (c.holds x.cond = false)) :=
  ⟨⟨aluAt 1 (aluOf true true 1 0) ctx0, _, aluOf true true 1 0, runPkt ctx0, ctx0, _, by decide +kernel, by decide +kernel, rfl, rfl, by unfold State.AluRuns; decide +kernel⟩,
   ⟨aluAt 2 (aluOf true true 1 0) ctx0, _, aluOf true true 1 0, runPkt ctx0, ctx0, _, by decide +kernel, by decide +kernel, rfl, rfl, by unfold State.AluRuns; decide +kernel⟩,
   ⟨aluAt 3 (aluOf true true 1 0) ctx0, _, aluOf true true 1 0, runPkt ctx0, ctx0, _, _, List.mem_cons_of_mem _ (List.mem_cons_of_mem _ List.mem_cons_self), by decide +kernel, by decide +kernel, rfl, rfl, by decide +kernel, by unfold State.AluRuns; decide +kernel⟩,
   ⟨aluAt 17 (aluOf true true 1 0) ctx0, _, aluOf true true 1 0, runPkt ctx0, ctx0, _, by decide +kernel, by decide +kernel, rfl, rfl, by unfold State.AluRuns; decide +kernel⟩,
   ⟨aluAt 15 (aluOf true true 1 0) ctx0, _, aluOf true true 1 0, runPkt ctx0, ctx0, _, by decide +kernel, by decide +kernel, rfl, rfl, by unfold State.AluRuns; decide +kernel, by decide +kernel⟩,
   ⟨runs ctx0, { aluOf true true 1 0 with fault := some .residue }, runPkt ctx0, ctx0, _, List.mem_cons_self, .residue, by decide +kernel, by decide +kernel⟩,
   ⟨aluAt 15 (aluOf true true 1 1) ctx0, aluOf true true 1 1, runPkt ctx0, ctx0, _, List.mem_cons_self, by decide +kernel, by unfold State.AluRuns; decide +kernel, by decide +kernel⟩⟩

/-- Hypotheses of MemoryLoads are met. -/
theorem witness_MemoryLoads :
    (∃ (s t : State) (x : MemSlot) (p q : Packet) (c d : Context), (t = s.memBegun x p c) ∧ (d = s.memCtx c) ∧ (q = { p with ctx := some d }) ∧ (s.MemRuns 0 x p c)) ∧
    (∃ (s t : State) (x : MemSlot) (p q : Packet) (c d : Context), (t = s.memBegun x p c) ∧ (d = s.memCtx c) ∧ (q = { p with ctx := some d }) ∧ (s.MemRuns 1 x p c) ∧ (memAddr c x ≤ 255)) ∧
    (∃ (s t : State) (x : MemSlot) (p q : Packet) (c d : Context), (t = s.memBegun x p c) ∧ (d = s.memCtx c) ∧ (q = { p with ctx := some d }) ∧ (s.MemRuns 1 x p c) ∧ (255 < memAddr c x)) ∧
    (∃ (s t : State) (x : MemSlot) (p q : Packet) (c d : Context), ∃ f ∈ [(0, p.stamp.angle), (1, p.stamp.ns), (2, p.stamp.sec), (3, p.profile), (4, p.zone), (5, p.vid), (6, p.cls), (8, p.epoch % 256)], (t = s.memBegun x p c) ∧ (d = s.memCtx c) ∧ (q = { p with ctx := some d }) ∧ (s.MemRuns 3 x p c) ∧ (memField x = f.1)) ∧
    (∃ (s t : State) (x : MemSlot) (p q : Packet) (c d : Context), (t = s.memBegun x p c) ∧ (d = s.memCtx c) ∧ (q = { p with ctx := some d }) ∧ (s.MemRuns 3 x p c) ∧ (memField x = 7)) ∧
    (∃ (s t : State) (x : MemSlot) (p q : Packet) (c d : Context), (t = s.memBegun x p c) ∧ (d = s.memCtx c) ∧ (q = { p with ctx := some d }) ∧ (s.MemRuns 3 x p c) ∧ (8 < memField x)) ∧
    (∃ (s t : State) (x : MemSlot) (p q : Packet) (c d : Context), ∃ b, (t = s.memBegun x p c) ∧ (d = s.memCtx c) ∧ (q = { p with ctx := some d }) ∧ (s.MemRuns 7 x p c) ∧ (Tab.find? c.snaps (recHandle x) = some b) ∧ (recOffset x + memLen x ≤ 128)) ∧
    (∃ (s t : State) (x : MemSlot) (p q : Packet) (c d : Context), (t = s.memBegun x p c) ∧ (d = s.memCtx c) ∧ (q = { p with ctx := some d }) ∧ (s.MemRuns 7 x p c) ∧ (Tab.find? c.snaps (recHandle x) = none ∨ 128 < recOffset x + memLen x)) ∧
    (∃ (s t : State) (x : MemSlot) (p q : Packet) (c d : Context), (t = s.memBegun x p c) ∧ (d = s.memCtx c) ∧ (q = { p with ctx := some d }) ∧ (s.MemRuns 14 x p c) ∧ (objectRegion < memAddr c x + memLen x)) ∧
    (∃ (s t : State) (x : MemSlot) (p q : Packet) (c d : Context), ∃ u, (t = s.memBegun x p c) ∧ (d = s.memCtx c) ∧ (q = { p with ctx := some d }) ∧ (s.MemRuns 14 x p c) ∧ (memAddr c x + memLen x ≤ objectRegion) ∧ (u = t.setCtx x.ctx { d with waiting := some (.object (memAddr c x) x.mreg.val (memLen x)), hw := none })) ∧
    (∃ (s : State) (n : Nat) (res : ReadResult) (r : MemRead), (s.mem.reads.find? (fun r => r.owner == .object n && s.readIssued r) = some r)) ∧
    (∃ (s : State) (n : Nat) (res : ReadResult) (r : MemRead), (s.mem.reads.find? (fun r => r.owner == .lock n && s.readIssued r) = some r)) ∧
    (∃ (s : State) (n : Nat) (res : ReadResult), (s.mem.reads = [])) ∧
    (∃ (s : State) (x : MemSlot) (p : Packet) (c : Context), ∃ op ∈ [(0, Instr.memNone), (1, Instr.hdrLd), (2, Instr.hdrSt), (3, Instr.metaLd), (4, Instr.descSt), (5, Instr.keySt), (6, Instr.recLock), (7, Instr.recLd), (8, Instr.recSt), (9, Instr.mrgAdd), (10, Instr.mrgOr), (11, Instr.mrgMax), (12, Instr.mrgMin), (13, Instr.mrgAvg), (14, Instr.objLd), (15, Instr.cntAdd), (16, Instr.evt)], (s.runningCtx x.ctx = some (p, c)) ∧ (x.fault = none) ∧ (c.memDone = false) ∧ (c.holds x.cond = false) ∧ (wordMem (s.wordOf c) = memSpelling op.1 x)) :=
  ⟨⟨memAt 0 (memOf 0 0) ctx0, _, memOf 0 0, runPkt ctx0, _, ctx0, _, rfl, rfl, rfl, by unfold State.MemRuns; decide +kernel⟩,
   ⟨memAt 1 (memOf 7 255) ctx0, _, memOf 7 255, runPkt ctx0, _, ctx0, _, rfl, rfl, rfl, by unfold State.MemRuns; decide +kernel, by decide +kernel⟩,
   ⟨memAt 1 (memOf 7 256) ctx0, _, memOf 7 256, runPkt ctx0, _, ctx0, _, rfl, rfl, rfl, by unfold State.MemRuns; decide +kernel, by decide +kernel⟩,
   ⟨memAt 3 (memOf 7 0) ctx0, _, memOf 7 0, runPkt ctx0, _, ctx0, _, _, List.mem_cons_self, rfl, rfl, rfl, by unfold State.MemRuns; decide +kernel, by decide +kernel⟩,
   ⟨memAt 3 (memOf 7 7) ctx0, _, memOf 7 7, runPkt ctx0, _, ctx0, _, rfl, rfl, rfl, by unfold State.MemRuns; decide +kernel, by decide +kernel⟩,
   ⟨memAt 3 (memOf 7 9) ctx0, _, memOf 7 9, runPkt ctx0, _, ctx0, _, rfl, rfl, rfl, by unfold State.MemRuns; decide +kernel, by decide +kernel⟩,
   ⟨memAt 7 (memOf 7 120) ctxRec, _, memOf 7 120, runPkt ctxRec, _, ctxRec, _, zeroRec, rfl, rfl, rfl, by unfold State.MemRuns; decide +kernel, by decide +kernel⟩,
   ⟨memAt 7 (memOf 7 0) ctx0, _, memOf 7 0, runPkt ctx0, _, ctx0, _, rfl, rfl, rfl, by unfold State.MemRuns; decide +kernel, by decide +kernel⟩,
   ⟨memAt 14 { memOf 7 0 with moff := 0xFFFFFFFF } ctx0, _, { memOf 7 0 with moff := 0xFFFFFFFF }, runPkt ctx0, _, ctx0, _, rfl, rfl, rfl, by unfold State.MemRuns; decide +kernel, by decide +kernel⟩,
   ⟨memAt 14 (memOf 7 0) ctx0, _, memOf 7 0, runPkt ctx0, _, ctx0, _, _, rfl, rfl, rfl, by unfold State.MemRuns; decide +kernel, by decide +kernel, rfl⟩,
   ⟨{ State.reset with mem := { reads := [⟨5, 0, 0, false, .object 0⟩] } }, 0, .ok, ⟨5, 0, 0, false, .object 0⟩, by decide +kernel⟩,
   ⟨{ State.reset with mem := { reads := [⟨5, 0, 0, false, .lock 0⟩] } }, 0, .ok, ⟨5, 0, 0, false, .lock 0⟩, by decide +kernel⟩,
   ⟨State.reset, 0, .ok, by decide +kernel⟩,
   ⟨memAt 0 { memOf 0 0 with cond := 15 } ctx0, { memOf 0 0 with cond := 15 }, runPkt ctx0, ctx0, _, List.mem_cons_self, by decide +kernel⟩⟩

/-- Hypotheses of MemoryStores are met. -/
theorem witness_MemoryStores :
    (∃ (s : State) (x : MemSlot) (p : Packet) (c : Context), (s.MemRuns 2 x p c) ∧ (memAddr c x ≤ 255) ∧ (memAddr c x + memLen x ≤ p.len) ∧ (c.edits.length < 16) ∧ (∀ e ∈ c.edits, memAddr c x + memLen x ≤ e.off ∨ e.off + e.bytes.length ≤ memAddr c x)) ∧
    (∃ (s : State) (x : MemSlot) (p : Packet) (c : Context), (s.MemRuns 4 x p c) ∧ (memField x ≤ 4)) ∧
    (∃ (s : State) (x : MemSlot) (p : Packet) (c : Context), (s.MemRuns 5 x p c) ∧ (memAddr c x ≤ 32)) ∧
    (∃ (s : State) (x : MemSlot) (p : Packet) (c : Context), (s.MemRuns 8 x p c) ∧ (s.mayStage x p c (.store (recHandle x) (recOffset x) (natLe (memLen x) (memData c x).toNat))) ∧ (recHandle x = 0 → c.hold = true)) ∧
    (∃ op ∈ [(9, Instr.mrgAdd, Merge.add), (10, Instr.mrgOr, Merge.or), (11, Instr.mrgMax, Merge.max), (12, Instr.mrgMin, Merge.min), (13, Instr.mrgAvg, Merge.avg)], ∃ (s : State) (x : MemSlot) (p : Packet) (c : Context) (w : Staged), (s.MemRuns op.1 x p c) ∧ (memLen x = 4 ∨ memLen x = 8) ∧ (w = .merge (recHandle x) op.2.2 (recOffset x) (memLen x) ((memData c x).toNat % 2 ^ (8 * memLen x))) ∧ (s.mayStage x p c w)) ∧
    (∃ (s t u : State) (x : MemSlot) (p q : Packet) (c e : Context), (t = s.memBegun x p c) ∧ (q = { p with ctx := some (s.memCtx c) }) ∧ (e = { s.memCtx c with waiting := some (.lock (lockHandle x) (lockCreates x)), tried := [] }) ∧ (u = (if t.flow.ops.any (fun o => o.pkt == x.ctx && o.key == c.key) then t else t.issueOp x.ctx q c.key).setPkt x.ctx { q with ctx := some e }) ∧ (s.MemRuns 6 x p c) ∧ (2 ≤ lockHandle x) ∧ (u.seqBlocked x.ctx q c.key = true)) ∧
    (∃ (s t u : State) (x : MemSlot) (p q : Packet) (c e : Context), (t = s.memBegun x p c) ∧ (q = { p with ctx := some (s.memCtx c) }) ∧ (e = { s.memCtx c with waiting := some (.lock (lockHandle x) (lockCreates x)), tried := [] }) ∧ (u = (if t.flow.ops.any (fun o => o.pkt == x.ctx && o.key == c.key) then t else t.issueOp x.ctx q c.key).setPkt x.ctx { q with ctx := some e }) ∧ (s.MemRuns 6 x p c) ∧ (2 ≤ lockHandle x) ∧ (u.seqBlocked x.ctx q c.key = false)) ∧
    (∃ (s : State) (x : MemSlot) (p : Packet) (c : Context), (s.MemRuns 15 x p c)) ∧
    (∃ (s : State) (x : MemSlot) (p : Packet) (c : Context), (s.MemRuns 16 x p c)) ∧
    (∃ (s : State) (x : MemSlot) (p : Packet) (c : Context), (s.MemRuns 2 x p c) ∧ (255 < memAddr c x ∨ p.len < memAddr c x + memLen x ∨ 16 ≤ c.edits.length ∨ (∃ e ∈ c.edits, memAddr c x < e.off + e.bytes.length ∧ e.off < memAddr c x + memLen x))) ∧
    (∃ (s : State) (x : MemSlot) (p : Packet) (c : Context), (s.MemRuns 4 x p c) ∧ (4 < memField x)) ∧
    (∃ (s : State) (x : MemSlot) (p : Packet) (c : Context), (s.MemRuns 5 x p c) ∧ (32 < memAddr c x)) ∧
    (∃ (s : State) (x : MemSlot) (p : Packet) (c : Context), (s.MemRuns 6 x p c) ∧ (lockHandle x < 2)) ∧
    (∃ (s : State) (x : MemSlot) (p : Packet) (c : Context), (s.MemRuns 8 x p c) ∧ (s.memWritable x p c = false ∨ recHandle x = 0 ∧ c.hold = false)) ∧
    (∃ (s : State) (x : MemSlot) (p : Packet) (c : Context), (s.MemRuns 8 x p c) ∧ (s.memWritable x p c = true) ∧ (recHandle x = 0 → c.hold = true) ∧ (¬ s.mayStage x p c (.store (recHandle x) (recOffset x) (natLe (memLen x) (memData c x).toNat)))) ∧
    (∃ (s : State) (x : MemSlot) (p : Packet) (c : Context), ∃ op ∈ [(9, Instr.mrgAdd, Merge.add), (10, Instr.mrgOr, Merge.or), (11, Instr.mrgMax, Merge.max), (12, Instr.mrgMin, Merge.min), (13, Instr.mrgAvg, Merge.avg)], (s.MemRuns op.1 x p c) ∧ (s.memWritable x p c = false ∨ (memLen x ≠ 4 ∧ memLen x ≠ 8))) ∧
    (∃ (s : State) (x : MemSlot) (p : Packet) (c : Context), ∃ op ∈ [(9, Instr.mrgAdd, Merge.add), (10, Instr.mrgOr, Merge.or), (11, Instr.mrgMax, Merge.max), (12, Instr.mrgMin, Merge.min), (13, Instr.mrgAvg, Merge.avg)], (s.MemRuns op.1 x p c) ∧ (s.memWritable x p c = true) ∧ (memLen x = 4 ∨ memLen x = 8) ∧ (¬ s.mayStage x p c (.merge (recHandle x) op.2.2 (recOffset x) (memLen x) ((memData c x).toNat % 2 ^ (8 * memLen x))))) :=
  ⟨⟨memAt 2 (memOf 7 52) ctx0, (memOf 7 52), runPkt ctx0, ctx0, by unfold State.MemRuns; decide +kernel, by decide +kernel⟩,
   ⟨memAt 4 (memOf 7 4) ctx0, (memOf 7 4), runPkt ctx0, ctx0, by unfold State.MemRuns; decide +kernel, by decide +kernel⟩,
   ⟨memAt 5 (memOf 7 32) ctx0, (memOf 7 32), runPkt ctx0, ctx0, by unfold State.MemRuns; decide +kernel, by decide +kernel⟩,
   ⟨memAt 8 (memOf 7 104) ctxRec, (memOf 7 104), runPkt ctxRec, ctxRec, by unfold State.MemRuns; decide +kernel, by unfold State.mayStage; decide +kernel, by decide +kernel⟩,
   ⟨_, List.mem_cons_self, memAt 9 (memOf 3 124) ctxRec, memOf 3 124, runPkt ctxRec, ctxRec, _, by unfold State.MemRuns; decide +kernel, by decide +kernel, rfl, by unfold State.mayStage; decide +kernel⟩,
   ⟨{ memAt 6 (memOf 0 2) ctx0 with flow := { ops := [{ key := ctx0.key, pkt := 1, stamp := 0, port := 0, lock := true }] } }, _, _, memOf 0 2, runPkt ctx0, _, ctx0, _, rfl, rfl, rfl, rfl, by unfold State.MemRuns; decide +kernel, by decide +kernel, by decide +kernel⟩,
   ⟨memAt 6 (memOf 0 3) ctx0, _, _, memOf 0 3, runPkt ctx0, _, ctx0, _, rfl, rfl, rfl, rfl, by unfold State.MemRuns; decide +kernel, by decide +kernel, by decide +kernel⟩,
   ⟨memAt 15 (memOf 0 0) ctx0, (memOf 0 0), runPkt ctx0, ctx0, by unfold State.MemRuns; decide +kernel⟩,
   ⟨memAt 16 (memOf 0 0) ctx0, (memOf 0 0), runPkt ctx0, ctx0, by unfold State.MemRuns; decide +kernel⟩,
   ⟨memAt 2 (memOf 7 57) ctx0, (memOf 7 57), runPkt ctx0, ctx0, by unfold State.MemRuns; decide +kernel, by decide +kernel⟩,
   ⟨memAt 4 (memOf 7 5) ctx0, (memOf 7 5), runPkt ctx0, ctx0, by unfold State.MemRuns; decide +kernel, by decide +kernel⟩,
   ⟨memAt 5 (memOf 7 33) ctx0, (memOf 7 33), runPkt ctx0, ctx0, by unfold State.MemRuns; decide +kernel, by decide +kernel⟩,
   ⟨memAt 6 (memOf 0 1) ctx0, (memOf 0 1), runPkt ctx0, ctx0, by unfold State.MemRuns; decide +kernel, by decide +kernel⟩,
   ⟨memAt 8 (memOf 7 256) ctxRec, (memOf 7 256), runPkt ctxRec, ctxRec, by unfold State.MemRuns; decide +kernel, by decide +kernel⟩,
   ⟨memAt 8 (memOf 7 104) { ctxRec with staged := List.replicate 40 (.store 0 104 (List.replicate 8 0)) }, (memOf 7 104), runPkt { ctxRec with staged := List.replicate 40 (.store 0 104 (List.replicate 8 0)) }, { ctxRec with staged := List.replicate 40 (.store 0 104 (List.replicate 8 0)) }, by unfold State.MemRuns; decide +kernel, by decide +kernel, by decide +kernel, by unfold State.mayStage; decide +kernel⟩,
   ⟨memAt 9 (memOf 0 104) ctxRec, (memOf 0 104), runPkt ctxRec, ctxRec, _, List.mem_cons_self, by unfold State.MemRuns; decide +kernel, by decide +kernel⟩,
   ⟨memAt 9 (memOf 3 124) { ctxRec with staged := List.replicate 40 (.store 0 104 (List.replicate 8 0)) }, (memOf 3 124), runPkt { ctxRec with staged := List.replicate 40 (.store 0 104 (List.replicate 8 0)) }, { ctxRec with staged := List.replicate 40 (.store 0 104 (List.replicate 8 0)) }, _, List.mem_cons_self, by unfold State.MemRuns; decide +kernel, by decide +kernel, by decide +kernel, by unfold State.mayStage; decide +kernel⟩⟩

/-- Hypotheses of BranchesAndDispatch are met. -/
theorem witness_BranchesAndDispatch :
    (∃ (s t : State) (x : BrSlot) (p : Packet) (c d : Context), (t = s.noteWord (sliceOf p.port) c) ∧ (d = s.issued c) ∧ (c.holds x.cond = true) ∧ (s.BrRuns 0 x p c)) ∧
    (∃ (s t : State) (x : BrSlot) (p : Packet) (c d : Context), (t = s.noteWord (sliceOf p.port) c) ∧ (d = s.issued c) ∧ (c.holds x.cond = true) ∧ (s.BrRuns 1 x p c)) ∧
    (∃ (s t : State) (x : BrSlot) (p : Packet) (c d : Context), (t = s.noteWord (sliceOf p.port) c) ∧ (d = s.issued c) ∧ (c.holds x.cond = true) ∧ (s.BrRuns 2 x p c)) ∧
    (∃ (s t : State) (x : BrSlot) (p : Packet) (c d : Context), ∃ a rest, (t = s.noteWord (sliceOf p.port) c) ∧ (d = s.issued c) ∧ (c.holds x.cond = true) ∧ (s.BrRuns 3 x p c) ∧ (c.stack = a :: rest)) ∧
    (∃ (s t : State) (x : BrSlot) (p : Packet) (c d : Context), (t = s.noteWord (sliceOf p.port) c) ∧ (d = s.issued c) ∧ (c.holds x.cond = true) ∧ (s.BrRuns 3 x p c) ∧ (c.stack = [])) ∧
    (∃ (s t : State) (x : BrSlot) (p : Packet) (c d : Context), (t = s.noteWord (sliceOf p.port) c) ∧ (d = s.issued c) ∧ (c.holds x.cond = true) ∧ (s.BrRuns 4 x p c)) ∧
    (∃ (s : State) (x : BrSlot) (p : Packet) (c : Context), ∃ op ∈ [(0, Instr.brNext), (1, Instr.brJump), (2, Instr.brCall), (3, Instr.brReturn), (4, Instr.brEnd)], (c.holds x.cond = false) ∧ (s.BrRuns op.1 x p c)) ∧
    (∃ (s : State) (x : BrSlot) (p : Packet) (c : Context) (cause : Nat), ∃ op ∈ [(0, Instr.brNext), (1, Instr.brJump), (2, Instr.brCall), (3, Instr.brReturn), (4, Instr.brEnd)], (s.runningCtx x.ctx = some (p, c)) ∧ (x.fault = none) ∧ (c.waiting = none) ∧ (c.slotsDone (s.wordOf c) = true) ∧ (c.check = some cause) ∧ (wordBr (s.wordOf c) = brSpelling op.1 x)) ∧
    (∃ (s : State) (n e : Nat) (p : Packet), (s.pkt? n = some p) ∧ (p.stage = .ready) ∧ (s.contexts (sliceOf p.port) < 4096) ∧ (s.dispatchAhead (sliceOf p.port) n = false) ∧ (s.pickEngine (sliceOf p.port) p.avoid = some e) ∧ ((s.plan p (s.recOf p)).hold = true → s.recOf p = none ∨ s.holdsLock n p.key = true)) ∧
    (∃ (s : State) (n : Nat) (p : Packet) (h : Option LarzenuFault), (s.pkt? n = some p) ∧ (p.stage = .ready) ∧ (s.pickEngine (sliceOf p.port) p.avoid = none ∨ s.dispatchAhead (sliceOf p.port) n = true ∨ 4096 ≤ s.contexts (sliceOf p.port))) ∧
    (∃ (s : State) (k : SliceId) (bank : Fin 2) (word : Nat), (s.eng.badWords.contains (wordIndex k bank (word % 16384)) = false)) ∧
    (∃ (s : State) (k : SliceId) (v : SvId) (e : Nat), ((if s.svOk k v then some v.val else (List.range 4).find? (s.svOk k)) = some e)) ∧
    (∃ (s : State) (k : SliceId) (v : SvId) (f : LarzenuFault) (n : Nat), (n = (Tab.get ({ runsOn := v.val } : Service) s.eng.services (4 * k.val + v.val)).runsOn) ∧ (s.svOk k n = true)) :=
  ⟨⟨brAt 0 (brOf 0 0) ctx0, _, brOf 0 0, runPkt ctx0, ctx0, _, rfl, rfl, by decide +kernel, by unfold State.BrRuns; decide +kernel⟩,
   ⟨brAt 1 (brOf 0 0x3FFF) ctx0, _, brOf 0 0x3FFF, runPkt ctx0, ctx0, _, rfl, rfl, by decide +kernel, by unfold State.BrRuns; decide +kernel⟩,
   ⟨brAt 2 (brOf 0 0x3000) ctx0, _, brOf 0 0x3000, runPkt ctx0, ctx0, _, rfl, rfl, by decide +kernel, by unfold State.BrRuns; decide +kernel⟩,
   ⟨brAt 3 (brOf 0 0) { ctx0 with stack := [0x3002] }, _, brOf 0 0, runPkt { ctx0 with stack := [0x3002] }, { ctx0 with stack := [0x3002] }, _, 0x3002, [], rfl, rfl, by decide +kernel, by unfold State.BrRuns; decide +kernel, rfl⟩,
   ⟨brAt 3 (brOf 0 0) ctx0, _, brOf 0 0, runPkt ctx0, ctx0, _, rfl, rfl, by decide +kernel, by unfold State.BrRuns; decide +kernel, rfl⟩,
   ⟨brAt 4 (brOf 0 0) ctx0, _, brOf 0 0, runPkt ctx0, ctx0, _, rfl, rfl, by decide +kernel, by unfold State.BrRuns; decide +kernel⟩,
   ⟨brAt 0 (brOf 15 0) ctx0, brOf 15 0, runPkt ctx0, ctx0, _, List.mem_cons_self, by decide +kernel, by unfold State.BrRuns; decide +kernel⟩,
   ⟨brAt 0 (brOf 0 0) { ctx0 with check := some 6 }, (brOf 0 0), runPkt { ctx0 with check := some 6 }, { ctx0 with check := some 6 }, 6, _, List.mem_cons_self, by decide +kernel⟩,
   ⟨pktIs { asks with stage := .ready }, 0, 0, { asks with stage := .ready }, by decide +kernel⟩,
   ⟨(pktIs { asks with stage := .ready }).setPkt 1 { asks with stage := .ready }, 1, { asks with stage := .ready }, none, by decide +kernel⟩,
   ⟨State.reset, 0, 1, 16383, by decide +kernel⟩,
   ⟨State.reset, 0, 3, 3, by decide +kernel⟩,
   ⟨State.reset, 7, 0, .hw .residue, _, rfl, by decide +kernel⟩⟩

/-- Hypotheses of BaleCommands are met. -/
theorem witness_BaleCommands :
    (∃ (s : State) (r : Request) (key : Option Nat), (s.Admits 0x0701 1 false r key) ∧ (r.bale = 0) ∧ (r.payload = []) ∧ (s.sn 0x0701 ≤ s.balesHeld (masterOf r.mb) ∨ s.idsSpent = true)) ∧
    (∃ (s : State) (r : Request) (key : Option Nat), (s.Admits 0x0701 1 false r key) ∧ (r.bale = 0) ∧ (r.payload = []) ∧ (s.balesHeld (masterOf r.mb) < s.sn 0x0701) ∧ (s.idsSpent = false)) ∧
    (∃ (s : State) (r : Request) (key : Option Nat) (b : Bale), (s.namedBale (leAt r.payload 0 4) (masterOf r.mb) = some b) ∧ (b.st = .opened) ∧ (s.Admits 0x0702 b.cls false r key) ∧ (r.bale = 0) ∧ (r.payload.length = 16) ∧ (leAt r.payload 4 1 = 0) ∧ (leAt r.payload 5 1 < 2) ∧ ((s.admitted 0x0702 r key).recheck b = none)) ∧
    (∃ (s : State) (r : Request) (key : Option Nat) (b : Bale), ∃ st i, (s.namedBale (leAt r.payload 0 4) (masterOf r.mb) = some b) ∧ (b.st = .opened) ∧ (s.Admits 0x0702 b.cls false r key) ∧ (r.bale = 0) ∧ (r.payload.length = 16) ∧ (leAt r.payload 4 1 = 0) ∧ (leAt r.payload 5 1 < 2) ∧ ((s.admitted 0x0702 r key).recheck b = some (st, i))) ∧
    (∃ (s : State) (r : Request) (key : Option Nat), (s.Admits 0x0702 1 false r key) ∧ (r.bale = 0) ∧ (r.payload.length = 16) ∧ (leAt r.payload 4 1 < 2) ∧ (leAt r.payload 5 1 < 2) ∧ (s.namedBale (leAt r.payload 0 4) (masterOf r.mb) = none)) ∧
    (∃ (s : State) (r : Request) (key : Option Nat) (b : Bale), (s.Admits 0x0703 1 false r key) ∧ (r.bale = 0) ∧ (r.payload.length = 4) ∧ (s.namedBale (leAt r.payload 0 4) (masterOf r.mb) = some b) ∧ (b.st = .opened)) ∧
    (∃ (s : State) (r : Request) (key : Option Nat) (b : Bale), (s.Admits 0x0703 1 false r key) ∧ (r.bale = 0) ∧ (r.payload.length = 4) ∧ (s.namedBale (leAt r.payload 0 4) (masterOf r.mb) = some b) ∧ (b.st = .pending) ∧ (b.armedAt = s.now)) ∧
    (∃ (s : State) (r : Request) (key : Option Nat) (b : Bale), (s.Admits 0x0703 1 false r key) ∧ (r.bale = 0) ∧ (r.payload.length = 4) ∧ (s.namedBale (leAt r.payload 0 4) (masterOf r.mb) = some b) ∧ (b.st = .pending) ∧ (b.armedAt ≠ s.now) ∧ (b.due = none)) ∧
    (∃ (s : State) (r : Request) (key : Option Nat) (b : Bale), (s.Admits 0x0704 0 true r key) ∧ (r.bale = 0) ∧ (r.payload.length = 4) ∧ (s.bales.list.find? (fun b => b.id == leAt r.payload 0 4 && !b.single) = some b)) :=
  ⟨⟨{ ownedDev with bales := { next := 2 ^ 32 } }, signedReq 1 0 [], some 0xFF00, admits_signed (by decide +kernel), by decide +kernel⟩,
   ⟨ownedDev, signedReq 1 0 [], some 0xFF00, admits_signed (by decide +kernel), by decide +kernel⟩,
   ⟨withBale bale1, signedReq 1 0 (natLe 4 1 ++ List.replicate 12 0), some 0xFF00, bale1, by decide +kernel, rfl, admits_signed (by decide +kernel), by decide +kernel⟩,
   ⟨withBale { bale1 with lost := true }, signedReq 1 0 (natLe 4 1 ++ [0, 1] ++ List.replicate 10 0), some 0xFF00, { bale1 with lost := true }, 0x070A, 0, by decide +kernel, rfl, admits_signed (by decide +kernel), by decide +kernel, by decide +kernel, by decide +kernel, by decide +kernel, by decide +kernel⟩,
   ⟨withBale bale1, signedReq 1 0 (natLe 4 2 ++ [1, 1] ++ List.replicate 10 0), some 0xFF00, admits_signed (by decide +kernel), by decide +kernel⟩,
   ⟨withBale bale1, signedReq 1 0 (natLe 4 1), some 0xFF00, bale1, admits_signed (by decide +kernel), by decide +kernel⟩,
   ⟨withBale { bale1 with st := .pending }, signedReq 1 0 [1, 0, 0, 0], some 0xFF00, { bale1 with st := .pending }, admits_signed (by decide +kernel), by decide +kernel⟩,
   ⟨{ withBale { bale1 with st := .pending } with now := 5 }, signedReq 1 0 [1, 0, 0, 0], some 0xFF00, { bale1 with st := .pending }, admits_signed (by decide +kernel), by decide +kernel⟩,
   ⟨{ readyDev with bales := { list := [bale1], next := 2 } }, unsigned0 (natLe 4 1), none, bale1, admits_unsigned (by decide +kernel), by decide +kernel⟩⟩

/-- Hypotheses of BaleTicks are met. -/
theorem witness_BaleTicks :
    (∃ (s : State), (s.onGrid = false) ∧ (s.insertedTick = false)) ∧
    (∃ (s t : State), (s.onGrid = true ∨ s.insertedTick = true) ∧ (t = { s.reclaimDrained with bales := { s.reclaimDrained.bales with tickAt := if s.onGrid then s.now - (s.now - s.bales.tickAt) % us 1 else s.bales.tickAt, lastTick := s.angle } }) ∧ (t.tickBales = [])) ∧
    (∃ (s t : State), (s.onGrid = true ∨ s.insertedTick = true) ∧ (t = { s.reclaimDrained with bales := { s.reclaimDrained.bales with tickAt := if s.onGrid then s.now - (s.now - s.bales.tickAt) % us 1 else s.bales.tickAt, lastTick := s.angle } }) ∧ (t.tickBales ≠ []) ∧ (∀ b ∈ t.tickBales, b.rewriting = false)) ∧
    (∃ (e room : Nat) (b : Bale) (rest : List Bale) (t : Tick), (b.reopens = false)) ∧
    (∃ (e room : Nat) (b : Bale) (rest : List Bale) (t : Tick), (b.reopens = true) ∧ (t.st.gate.pin = true)) ∧
    (∃ (e room : Nat) (b : Bale) (rest : List Bale) (t : Tick), ∃ w, (b.reopens = true) ∧ (t.st.gate.pin = false) ∧ ((Tick.run e room rest t).applied.find? (fun x => x.shuts) = some w)) ∧
    (∃ (s : State) (bale : Nat) (b : Bale), (s.bales.list.find? (fun b => b.id == bale && b.st == .opened) = some b) ∧ (b.touched + ns (s.sn 0x0702) < s.now)) ∧
    (∃ (s : State) (bale : Nat) (b : Bale), (s.bales.list.find? (fun b => b.id == bale && b.st == .opened) = some b) ∧ (s.now ≤ b.touched + ns (s.sn 0x0702))) :=
  ⟨⟨State.reset, by decide +kernel⟩,
   ⟨atTime (us 1), _, .inl (by decide +kernel), rfl, List.mergeSort_nil⟩,
   ⟨{ atTime (us 1) with bales := { list := [{ bale1 with st := .pending }] } }, _, .inl (by decide +kernel), rfl, (by rw [tick_takes _ rfl]; exact List.cons_ne_nil _ _), (by rw [tick_takes _ rfl]; decide +kernel)⟩,
   ⟨0, 0, bale1, [], { st := State.reset }, by decide +kernel⟩,
   ⟨1, 16, { bale1 with actions := [{ code := 0x0608, scope := 0, body := [], owner := true, key := 0xFF00, mb := 0 }] }, [], { st := { State.reset with gate := { pin := true } } }, by decide +kernel⟩,
   ⟨1, 16, { bale1 with actions := [{ code := 0x0608, scope := 0, body := [], owner := true, key := 0xFF00, mb := 0 }] }, [{ bale1 with id := 2, actions := [{ code := 0x0607, scope := 0, body := [], owner := true, key := 0xFF00, mb := 0 }] }], { st := State.reset }, { bale1 with id := 2, actions := [{ code := 0x0607, scope := 0, body := [], owner := true, key := 0xFF00, mb := 0 }] }, by decide +kernel⟩,
   ⟨{ withBale bale1 with now := ns (State.reset.sn 0x0702) + 1 }, 1, bale1, by decide +kernel⟩,
   ⟨{ withBale bale1 with now := ns (State.reset.sn 0x0702) }, 1, bale1, by decide +kernel⟩⟩

/-- Hypotheses of StateChangesOutsideABale are met. -/
theorem witness_StateChangesOutsideABale :
    (∃ (mk : Request → Instr) (op cls : Nat), ∃ (s : State) (r : Request) (key : Option Nat), (SettingRow mk op cls ∨ (mk, op, cls) = (Instr.gateShut, 0x0607, 4) ∨ (mk, op, cls) = (Instr.gateReopen, 0x0608, 5)) ∧ (isSettings op = true → asksChange op r = true) ∧ (r.bale = 0) ∧ (s.Admits op cls false r key) ∧ (s.idsSpent = true)) ∧
    (∃ (mk : Request → Instr) (op cls : Nat), ∃ (s : State) (r : Request) (key : Option Nat), ∃ e, (SettingRow mk op cls ∨ (mk, op, cls) = (Instr.gateShut, 0x0607, 4) ∨ (mk, op, cls) = (Instr.gateReopen, 0x0608, 5)) ∧ (isSettings op = true → asksChange op r = true) ∧ (r.bale = 0) ∧ (s.Admits op cls false r key) ∧ (s.idsSpent = false) ∧ ((s.admitted op r key).checkAction (s.freshBale r.mb true) (actionOf r op key) = .error e)) ∧
    (∃ (mk : Request → Instr) (op cls : Nat), ∃ (s : State) (r : Request) (key : Option Nat), ∃ x, (SettingRow mk op cls ∨ (mk, op, cls) = (Instr.gateShut, 0x0607, 4) ∨ (mk, op, cls) = (Instr.gateReopen, 0x0608, 5)) ∧ (isSettings op = true → asksChange op r = true) ∧ (r.bale = 0) ∧ (s.Admits op cls false r key) ∧ (s.idsSpent = false) ∧ ((s.admitted op r key).checkAction (s.freshBale r.mb true) (actionOf r op key) = .ok x)) ∧
    (∃ (mk : Request → Instr) (op cls : Nat), ∃ (s : State) (r : Request) (key : Option Nat), ∃ x, (SettingRow mk op cls ∨ (mk, op, cls) = (Instr.gateShut, 0x0607, 4) ∨ (mk, op, cls) = (Instr.gateReopen, 0x0608, 5)) ∧ (isSettings op = true → asksChange op r = true) ∧ (r.bale = 0) ∧ (s.Admits op cls false r key) ∧ (s.idsSpent = false) ∧ ((s.admitted op r key).checkAction (s.freshBale r.mb true) (actionOf r op key) = .ok x)) ∧
    (∃ (mk : Request → Instr) (op cls : Nat), ∃ (s : State) (r : Request) (key : Option Nat), ∃ x, (SettingRow mk op cls ∨ (mk, op, cls) = (Instr.gateShut, 0x0607, 4) ∨ (mk, op, cls) = (Instr.gateReopen, 0x0608, 5)) ∧ (isSettings op = true → asksChange op r = true) ∧ (r.bale = 0) ∧ (s.Admits op cls false r key) ∧ (s.idsSpent = false) ∧ ((s.admitted op r key).checkAction (s.freshBale r.mb true) (actionOf r op key) = .ok x)) :=
  ⟨⟨.gateShut, 0x0607, 4, { ownedDev with bales := { next := 2 ^ 32 } }, signedReq 4 0 [], some 0xFF00, .inr (.inl rfl), by decide +kernel, rfl, admits_signed (by decide +kernel), by decide +kernel⟩,
   ⟨.gateShut, 0x0607, 4, ownedDev, signedReq 4 0 [1], some 0xFF00, (0x0301, 0), .inr (.inl rfl), by decide +kernel, rfl, admits_signed (by decide +kernel), by decide +kernel, rfl⟩,
   ⟨.gateShut, 0x0607, 4, ownedDev, signedReq 4 0 [], some 0xFF00, _, .inr (.inl rfl), by decide +kernel, rfl, admits_signed (by decide +kernel), by decide +kernel, rfl⟩,
   ⟨.baleOptionsSet, 0x0705, 1, ownedDev, signedReq 1 0 eightBales, some 0xFF00, _, .inl (by simp [SettingRow]), by decide +kernel, rfl, admits_signed (by decide +kernel), by decide +kernel, rfl⟩,
   ⟨.gateReopen, 0x0608, 5, { ownedDev with gate := { isShut := true } }, signedReq 5 0 [], some 0xFF00, _, .inr (.inr rfl), by decide +kernel, rfl, admits_signed (by decide +kernel), by decide +kernel, rfl⟩⟩

/-- Hypotheses of ActionsInABale are met. -/
theorem witness_ActionsInABale :
    (∃ (mk : Request → Instr) (op cls : Nat), ∃ (s : State) (r : Request) (key : Option Nat) (b : Bale), ∃ x, (ActionRow mk op cls) ∧ (isSettings op = true → asksChange op r = true) ∧ (s.Admits op cls false r key) ∧ (r.bale ≠ 0) ∧ (s.namedBale r.bale (masterOf r.mb) = some b) ∧ (b.st = .opened) ∧ (r.payload.length ≤ 1016) ∧ (b.hasRoom (actionOf r op key) = true) ∧ (((s.admitted op r key).putBale { b with touched := s.now }).checkAction { b with touched := s.now } (actionOf r op key) = .ok x)) ∧
    (∃ (mk : Request → Instr) (op cls : Nat), ∃ (s t : State) (r : Request) (key : Option Nat) (b : Bale), (ActionRow mk op cls) ∧ (isSettings op = true → asksChange op r = true) ∧ (s.Admits op cls false r key) ∧ (r.bale ≠ 0) ∧ (s.namedBale r.bale (masterOf r.mb) = some b) ∧ (b.st = .opened) ∧ (t = (s.admitted op r key).putBale { b with touched := s.now }) ∧ (1016 < r.payload.length)) ∧
    (∃ (mk : Request → Instr) (op cls : Nat), ∃ (s t : State) (r : Request) (key : Option Nat) (b : Bale), (ActionRow mk op cls) ∧ (isSettings op = true → asksChange op r = true) ∧ (s.Admits op cls false r key) ∧ (r.bale ≠ 0) ∧ (s.namedBale r.bale (masterOf r.mb) = some b) ∧ (b.st = .opened) ∧ (t = (s.admitted op r key).putBale { b with touched := s.now }) ∧ (r.payload.length ≤ 1016) ∧ (b.hasRoom (actionOf r op key) = false)) ∧
    (∃ (mk : Request → Instr) (op cls : Nat), ∃ (s t : State) (r : Request) (key : Option Nat) (b : Bale), ∃ e, (ActionRow mk op cls) ∧ (isSettings op = true → asksChange op r = true) ∧ (s.Admits op cls false r key) ∧ (r.bale ≠ 0) ∧ (s.namedBale r.bale (masterOf r.mb) = some b) ∧ (b.st = .opened) ∧ (t = (s.admitted op r key).putBale { b with touched := s.now }) ∧ (r.payload.length ≤ 1016) ∧ (b.hasRoom (actionOf r op key) = true) ∧ (t.checkAction { b with touched := s.now } (actionOf r op key) = .error e)) ∧
    (∃ (mk : Request → Instr) (op cls : Nat), ∃ (s : State) (r : Request) (key : Option Nat), (ActionRow mk op cls) ∧ (isSettings op = true → asksChange op r = true) ∧ (s.Admits op cls false r key) ∧ (r.bale ≠ 0) ∧ (∀ b, s.namedBale r.bale (masterOf r.mb) = some b → b.st ≠ .opened)) ∧
    (∃ (mk : Request → Instr) (op cls : Nat), ∃ (s : State) (r : Request) (key : Option Nat), (BaleRow mk op cls) ∧ (s.Admits op cls false r key) ∧ (r.bale = 0)) :=
  ⟨⟨.baleOptionsSet, 0x0705, 1, withBale bale1, signedReq 1 1 eightBales, some 0xFF00, bale1, _, .inr (.inl (by simp [SettingRow])), by decide +kernel, admits_signed (by decide +kernel), by decide +kernel, by decide +kernel, by decide +kernel, by decide +kernel, by decide +kernel, rfl⟩,
   ⟨.gateShut, 0x0607, 4, withBale bale1, _, signedReq 4 1 (List.replicate 1017 0), some 0xFF00, bale1, .inr (.inr List.mem_cons_self), by decide +kernel, admits_signed (by decide +kernel), by decide +kernel, by decide +kernel, by decide +kernel, rfl, by decide +kernel⟩,
   ⟨.gateShut, 0x0607, 4, withBale fullBale, _, signedReq 4 1 [], some 0xFF00, fullBale, .inr (.inr List.mem_cons_self), by decide +kernel, admits_signed (by decide +kernel), by decide +kernel, rfl, rfl, rfl, by decide +kernel, full_has_no_room _⟩,
   ⟨.gateShut, 0x0607, 4, withBale bale1, _, signedReq 4 1 [1], some 0xFF00, bale1, (0x0301, 0), .inr (.inr List.mem_cons_self), by decide +kernel, admits_signed (by decide +kernel), by decide +kernel, by decide +kernel, by decide +kernel, rfl, by decide +kernel, by decide +kernel, rfl⟩,
   ⟨.gateShut, 0x0607, 4, withBale { bale1 with st := .pending }, signedReq 4 1 [], some 0xFF00, .inr (.inr List.mem_cons_self), by decide +kernel, admits_signed (by decide +kernel), by decide +kernel, fun b hb => by cases (show some ({ bale1 with st := .pending } : Bale) = some b from hb); decide⟩,
   ⟨.vlanSet, 0x0408, 1, ownedDev, signedReq 1 0 [], some 0xFF00, by simp [BaleRow], admits_signed (by decide +kernel), rfl⟩⟩

/-- Hypotheses of SettingsReads are met. -/
theorem witness_SettingsReads :
    (∃ (mk : Request → Instr) (op : Nat), ∃ (s : State) (r : Request) (key : Option Nat) (heads : List (Nat × List Nat)), (SettingReadRow mk op) ∧ (s.Admits (op + 0x80) 0 true r key) ∧ (r.bale = 0) ∧ (heads ≠ []) ∧ (r.payload.length = 8 * heads.length) ∧ (∀ i, i < heads.length → headerTargets (kindsOf op) r.payload (8 * i) = .ok (heads.getD i (0, [])))) ∧
    (∃ (mk : Request → Instr) (op : Nat), ∃ (s : State) (r : Request) (key : Option Nat), (SettingReadRow mk op) ∧ (s.Admits (op + 0x80) 0 true r key) ∧ (r.bale = 0) ∧ (r.payload = [])) ∧
    (∃ (mk : Request → Instr) (op : Nat), ∃ (s : State) (r : Request) (key : Option Nat), ∃ i e, (SettingReadRow mk op) ∧ (s.Admits (op + 0x80) 0 true r key) ∧ (r.bale = 0) ∧ (8 * i < r.payload.length) ∧ (headerTargets (kindsOf op) r.payload (8 * i) = .error e) ∧ (∀ j, j < i → (headerTargets (kindsOf op) r.payload (8 * j)).isOk = true)) ∧
    (∃ (mk : Request → Instr) (op cls : Nat), ∃ (s : State) (r : Request) (key : Option Nat), (SettingRow mk op cls) ∧ (allExpert op = true) ∧ (r.expert = false) ∧ (s.Admits op 0 true r key) ∧ (r.bale = 0)) :=
  ⟨⟨.sagOptionsSetRead, 0x0C03, readyDev, unsigned0 [0, 1, 0, 0, 0, 0, 0, 0], none, [(0, [0])], by simp [SettingReadRow], admits_unsigned (by decide +kernel), rfl, by decide +kernel, by decide +kernel, fun i h => by rw [Nat.lt_one_iff.mp h]; rfl⟩,
   ⟨.baleOptionsSetRead, 0x0705, readyDev, unsigned0 [], none, by simp [SettingReadRow], admits_unsigned (by decide +kernel), rfl, rfl⟩,
   ⟨.portQueueSetRead, 0x020D, readyDev, unsigned0 [1, 0, 95, 0, 1, 0, 0, 0, 1, 0, 96, 0, 1, 0, 0, 0], none, 1, 0x0302, by simp [SettingReadRow], admits_unsigned (by decide +kernel), rfl, by decide +kernel, rfl, fun j h => by rw [Nat.lt_one_iff.mp h]; rfl⟩,
   ⟨.memoryScrubSet, 0x0803, 1, readyDev, unsigned0 [], none, by simp [SettingRow], by decide +kernel, rfl, admits_unsigned (by decide +kernel), rfl⟩⟩

/-- Hypotheses of SettingTakesEffect are met. -/
theorem witness_SettingTakesEffect :
    (∃ (s : State) (bale m t : Nat) (it : Item), ∃ id i, (Tab.risesFrom none s.settings = true) ∧ ((Catalogue.row? it.id).isSome = true) ∧ (it.targets = [t]) ∧ (t < 65536) ∧ (m < 65536) ∧ (it.id ∉ [0x0210, 0x0211, 0x0212, 0x0215, 0x0216, 0x0301, 0x0302, 0x0305, 0x0306, 0x0307, 0x0308, 0x0309, 0x030F, 0x0310, 0x0311, 0x0312, 0x0313, 0x0314, 0x0404, 0x0406, 0x050D, 0x0607, 0x0802, 0x0A04, 0x0C01, 0x0C02, 0x0C03, 0x0C0C, 0x0C0E, 0x0C0F, 0x0D04, 0x0D0A, 0x0E01, 0x0E02, 0x0E07, 0x0E08, 0x1105, 0x1106, 0x1305, 0x1308, 0x1309, 0x130A, 0x130B, 0x1401, 0x1402]) ∧ (i < 65536) ∧ ((id, i) ≠ (it.id, if it.id = 0x0F05 then m else t))) :=
  ⟨State.reset, 0, 65535, 65535, ⟨0x0F05, 0, [65535], [8], 0⟩, 0x0F05, 0, by decide +kernel⟩

/-- Hypotheses of DeviceAndTargetReads are met. -/
theorem witness_DeviceAndTargetReads :
    (∃ (s : State) (r : Request) (key : Option Nat), (s.Admits 0x0105 0 true r key ∧ s.Admits 0x0C04 0 true r key ∧ s.Admits 0x0308 0 true r key ∧ s.Admits 0x050F 0 true r key ∧ s.Admits 0x050D 0 true r key ∧ s.Admits 0x0904 0 true r key) ∧ (r.bale = 0 ∧ devicePayload r.payload = true)) ∧
    (∃ (s : State) (r : Request) (key : Option Nat), (s.Admits 0x0101 0 true r key) ∧ (r.bale = 0) ∧ (r.payload = [])) ∧
    (∃ (s : State) (r : Request) (key : Option Nat) (ts : List Nat), (s.Admits 0x020F 0 true r key ∧ r.bale = 0 ∧ readTargets 1 r.payload = .ok ts)) ∧
    (∃ (s : State) (r : Request) (key : Option Nat), (s.Admits 0x020F 0 true r key ∧ r.bale = 0 ∧ readTargets 1 r.payload = .error (0x0302, 0))) ∧
    (∃ (s : State) (r : Request) (key : Option Nat) (ts : List Nat), (s.Admits 0x0806 0 true r key ∧ r.bale = 0 ∧ readTargets 12 r.payload = .ok ts)) ∧
    (∃ (s : State) (r : Request) (key : Option Nat) (ts : List Nat), (s.Admits 0x0413 0 true r key ∧ r.bale = 0 ∧ readTargets 5 r.payload = .ok ts)) ∧
    (∃ (s : State) (r : Request) (key : Option Nat), (s.Admits 0x0C01 0 true r key) ∧ (r.bale = 0) ∧ (devicePayload r.payload = true)) ∧
    (∃ (s : State) (r : Request) (key : Option Nat), (s.Admits 0x060D 0 true r key) ∧ (r.bale = 0) ∧ (devicePayload r.payload = true)) :=
  ⟨⟨readyDev, unsigned0 [], none, ⟨admits_unsigned (by decide +kernel), admits_unsigned (by decide +kernel), admits_unsigned (by decide +kernel), admits_unsigned (by decide +kernel), admits_unsigned (by decide +kernel), admits_unsigned (by decide +kernel)⟩, by decide +kernel⟩,
   ⟨readyDev, unsigned0 [], none, admits_unsigned (by decide +kernel), by decide +kernel⟩,
   ⟨readyDev, unsigned0 [1, 0, 95, 0, 1, 0, 0, 0], none, [95], admits_unsigned (by decide +kernel), by decide +kernel⟩,
   ⟨readyDev, unsigned0 [1, 0, 96, 0, 1, 0, 0, 0], none, admits_unsigned (by decide +kernel), by decide +kernel⟩,
   ⟨readyDev, unsigned0 [12, 0, 0, 0, 1, 0, 0, 0], none, [0], admits_unsigned (by decide +kernel), by decide +kernel⟩,
   ⟨readyDev, unsigned0 [5, 0, 7, 0, 1, 0, 0, 0], none, [7], admits_unsigned (by decide +kernel), by decide +kernel⟩,
   ⟨readyDev, unsigned0 [], none, admits_unsigned (by decide +kernel), by decide +kernel⟩,
   ⟨readyDev, unsigned0 [], none, admits_unsigned (by decide +kernel), by decide +kernel⟩⟩

/-- Hypotheses of TableReads are met. -/
theorem witness_TableReads :
    (∃ (s : State) (r : Request) (key : Option Nat), (s.Admits 0x050E 0 true r key ∧ s.Admits 0x0A03 0 true r key ∧ s.Admits 0x060C 0 true r key) ∧ (r.bale = 0 ∧ r.payload.length = 12)) ∧
    (∃ (s : State) (r : Request) (key : Option Nat), (s.Admits 0x0B08 0 true r key) ∧ (r.bale = 0) ∧ (r.payload = [])) ∧
    (∃ (s : State) (r : Request) (key : Option Nat), (s.Admits 0x0412 0 true r key) ∧ (r.bale = 0) ∧ (r.payload.length = 20) ∧ (leAt r.payload 1 1 = 0) ∧ (leAt r.payload 6 2 = 0) ∧ (leAt r.payload 0 1 < 8)) ∧
    (∃ (s : State) (r : Request) (key : Option Nat), (s.Admits 0x0411 0 true r key) ∧ (r.bale = 0) ∧ (r.payload.length = 4) ∧ (leAt r.payload 0 1 < 8) ∧ (leAt r.payload 1 1 = 0)) ∧
    (∃ (s : State) (r : Request) (key : Option Nat), (s.Admits 0x0505 0 true r key) ∧ (r.bale = 0) ∧ (r.payload.length = 40)) ∧
    (∃ (s : State) (r : Request) (key : Option Nat), (s.Admits 0x060B 0 true r key) ∧ (r.bale = 0) ∧ (r.payload.length = 40)) ∧
    (∃ (s : State) (r : Request) (key : Option Nat) (n : Nat), (s.Admits 0x0A04 0 true r key) ∧ (r.bale = 0) ∧ (r.payload.length = 4 * n) ∧ (0 < n) ∧ (n ≤ 4096) ∧ ((∀ i, i < n → counterKnown (leAt r.payload (4 * i) 4) = true ∧ leAt r.payload (4 * i) 4 < 2 ^ 31))) ∧
    (∃ (s : State) (r : Request) (key : Option Nat) (kind : Nat) (ts : List Nat), (s.Admits 0x0B04 2 true r key) ∧ (r.bale = 0) ∧ (r.payload.length = 13) ∧ (headerTargets [5] r.payload 0 = .ok (kind, ts)) ∧ (leAt r.payload 8 1 < 2) ∧ (leAt r.payload 9 2 + leAt r.payload 11 2 ≤ 16384)) ∧
    (∃ (s : State) (r : Request) (key : Option Nat), (s.Admits 0x0B07 0 true r key) ∧ (r.bale = 0) ∧ (r.payload.length = 32)) :=
  ⟨⟨readyDev, unsigned0 (List.replicate 12 0), none, ⟨admits_unsigned (by decide +kernel), admits_unsigned (by decide +kernel), admits_unsigned (by decide +kernel)⟩, by decide +kernel⟩,
   ⟨readyDev, unsigned0 [], none, admits_unsigned (by decide +kernel), by decide +kernel⟩,
   ⟨readyDev, unsigned0 (7 :: List.replicate 19 0), none, admits_unsigned (by decide +kernel), by decide +kernel⟩,
   ⟨readyDev, unsigned0 [7, 0, 0, 0], none, admits_unsigned (by decide +kernel), by decide +kernel⟩,
   ⟨readyDev, unsigned0 (List.replicate 40 0), none, admits_unsigned (by decide +kernel), by decide +kernel⟩,
   ⟨readyDev, unsigned0 (List.replicate 40 0), none, admits_unsigned (by decide +kernel), by decide +kernel⟩,
   ⟨readyDev, unsigned0 [23, 95, 0, 1], none, 1, admits_unsigned (by decide +kernel), by decide +kernel⟩,
   ⟨ownedDev, { signedReq 2 0 [5, 0, 7, 0, 1, 0, 0, 0, 1, 0, 0x30, 0, 0x10] with expert := true }, some 0xFF00, 5, [7], admits_signed (by decide +kernel), by decide +kernel⟩,
   ⟨readyDev, unsigned0 (List.replicate 32 0), none, admits_unsigned (by decide +kernel), by decide +kernel⟩⟩

/-- Hypotheses of DirectCommands are met. -/
theorem witness_DirectCommands :
    (∃ (s : State) (r : Request) (key : Option Nat) (due : Option Nat), (s.Admits 0x0A05 1 false r key) ∧ (r.bale = 0) ∧ (r.payload.length = 16) ∧ (leAt r.payload 1 1 = 0) ∧ (leAt r.payload 4 4 = 0) ∧ (s.cnt.armed = none) ∧ ((leAt r.payload 0 1 = 0 ∧ due = none) ∨ (leAt r.payload 0 1 = 1 ∧ leAt r.payload 8 8 ≤ s.angle / 65536 + 2 ^ 24 ∧ due = if s.angle < leAt r.payload 8 8 * 65536 + leAt r.payload 2 2 then some (leAt r.payload 8 8 * 65536 + leAt r.payload 2 2) else none))) ∧
    (∃ (s : State) (r : Request) (key : Option Nat), (s.Admits 0x0A05 1 false r key) ∧ (r.bale = 0) ∧ (r.payload.length = 16) ∧ (leAt r.payload 0 1 = 0) ∧ (leAt r.payload 1 1 = 0) ∧ (leAt r.payload 4 4 = 0) ∧ (s.cnt.armed.isSome = true)) ∧
    (∃ (s : State) (r : Request) (key : Option Nat), (s.Admits 0x0A06 1 false r key) ∧ (r.bale = 0) ∧ (r.payload.length = 1) ∧ (leAt r.payload 0 1 < 2)) ∧
    (∃ (s : State) (r : Request) (key : Option Nat), (s.Admits 0x0606 6 false r key) ∧ (r.bale = 0) ∧ (r.payload.length = 8) ∧ (leAt r.payload 0 8 < s.ledger.next - s.ledger.queue.length)) ∧
    (∃ (s : State) (r : Request) (key : Option Nat), (s.Admits 0x0606 6 false r key) ∧ (r.bale = 0) ∧ (r.payload.length = 8) ∧ (s.ledger.next - s.ledger.queue.length ≤ leAt r.payload 0 8)) ∧
    (∃ (s : State) (r : Request) (key : Option Nat), (s.Admits 0x0404 1 false r key) ∧ (r.bale = 0) ∧ (r.payload.length = 20) ∧ (leAt r.payload 6 2 = 0) ∧ (leAt r.payload 0 1 < 8)) ∧
    (∃ (s : State) (r : Request) (key : Option Nat), (s.Admits 0x0609 0 false r key) ∧ (r.bale = 0) ∧ (r.payload.length = 192) ∧ (s.sameClock r.payload (0x0100 + r.mb.val) = none) ∧ (s.bodyCause r.payload = none) ∧ (s.gate.queue.length < 16384) ∧ (s.sealAny = true)) ∧
    (∃ (s : State) (r : Request) (key : Option Nat) (c : Nat), (s.Admits 0x0609 0 false r key) ∧ (r.bale = 0) ∧ (r.payload.length = 192) ∧ (((s.admitted 0x0609 r key).takeBody r.payload (0x0100 + r.mb.val)).1 = some c)) :=
  ⟨⟨ownedDev, signedReq 1 0 ([1, 0, 5, 0, 0, 0, 0, 0] ++ natLe 8 (2 ^ 24)), some 0xFF00, some (2 ^ 40 + 5), admits_signed (by decide +kernel), by decide +kernel, by decide +kernel, by decide +kernel, by decide +kernel, by decide +kernel, .inr (by decide +kernel)⟩,
   ⟨{ ownedDev with cnt := { armed := some none } }, signedReq 1 0 (List.replicate 16 0), some 0xFF00, admits_signed (by decide +kernel), by decide +kernel⟩,
   ⟨ownedDev, signedReq 1 0 [1], some 0xFF00, admits_signed (by decide +kernel), by decide +kernel⟩,
   ⟨{ ownedDev with ledger := { next := 1 } }, signedReq 6 0 (List.replicate 8 0), some 0xFF00, admits_signed (by decide +kernel), by decide +kernel⟩,
   ⟨{ ownedDev with ledger := { next := 1 } }, signedReq 6 0 (1 :: List.replicate 7 0), some 0xFF00, admits_signed (by decide +kernel), by decide +kernel⟩,
   ⟨ownedDev, signedReq 1 0 (7 :: List.replicate 19 0), some 0xFF00, admits_signed (by decide +kernel), by decide +kernel⟩,
   ⟨gateReady, unsigned0 wholeShut, none, admits_unsigned (by decide +kernel), by decide +kernel⟩,
   ⟨{ ownedDev with gate := { ring := ring0 } }, unsigned0 (List.replicate 192 0), none, 16, admits_unsigned (by decide +kernel), by decide +kernel⟩⟩

/-- Hypotheses of ImageLoads are met. -/
theorem witness_ImageLoads :
    (∃ (s t : State) (r : Request) (key : Option Nat), (s.Admits 0x0507 1 false r key) ∧ (r.bale = 0) ∧ (t = s.admitted 0x0507 r key) ∧ (s.imgFault 4 r.payload = none)) ∧
    (∃ (s : State) (r : Request) (key : Option Nat) (e : Nat × Nat), (s.Admits 0x0507 1 false r key) ∧ (r.bale = 0) ∧ (s.imgFault 4 r.payload = some e)) ∧
    (∃ (s t : State) (r : Request) (key : Option Nat) (kind : Nat), (s.Admits 0x0B02 1 false r key) ∧ (r.bale = 0) ∧ (kind = (if leAt r.payload 4 1 = 2 then 2 else 3)) ∧ (t = s.admitted 0x0B02 r key) ∧ (s.shadowBusy = true)) ∧
    (∃ (s t : State) (r : Request) (key : Option Nat) (kind : Nat), ∃ e, (s.Admits 0x0B02 1 false r key) ∧ (r.bale = 0) ∧ (kind = (if leAt r.payload 4 1 = 2 then 2 else 3)) ∧ (t = s.admitted 0x0B02 r key) ∧ (s.shadowBusy = false) ∧ (s.imgFault kind r.payload = some e)) ∧
    (∃ (s t : State) (r : Request) (key : Option Nat) (kind : Nat), ∃ i, (s.Admits 0x0B02 1 false r key) ∧ (r.bale = 0) ∧ (kind = (if leAt r.payload 4 1 = 2 then 2 else 3)) ∧ (t = s.admitted 0x0B02 r key) ∧ (s.shadowBusy = false) ∧ (s.imgFault kind r.payload = none) ∧ (kind = 3) ∧ ((microWords (imgPayload r.payload)).findIdx? (fun w => !microWordOk w) = some i)) ∧
    (∃ (s t : State) (r : Request) (key : Option Nat) (kind : Nat), (s.Admits 0x0B02 1 false r key) ∧ (r.bale = 0) ∧ (kind = (if leAt r.payload 4 1 = 2 then 2 else 3)) ∧ (t = s.admitted 0x0B02 r key) ∧ (s.shadowBusy = false) ∧ (s.imgFault kind r.payload = none) ∧ (kind = 3 → (microWords (imgPayload r.payload)).findIdx? (fun w => !microWordOk w) = none)) ∧
    (∃ (s t : State) (r : Request) (key : Option Nat) (image patch : Bytes), (s.Admits 0x0B05 1 false r key) ∧ (r.bale = 0) ∧ (s.trust.switchover = none) ∧ (image = r.payload.take (192 + imgLength r.payload)) ∧ (patch = r.payload.drop (192 + imgLength r.payload)) ∧ (t = s.admitted 0x0B05 r key)) ∧
    (∃ (s : State) (r : Request) (key : Option Nat), (s.Admits 0x0B06 3 false r key) ∧ (r.bale = 0) ∧ (r.payload.length = 1) ∧ (leAt r.payload 0 1 < 2) ∧ (s.host.longs.all (fun x => x.kind == 0 || x.kind == 4) = true) ∧ (s.fault.drain = none)) ∧
    (∃ (s : State) (r : Request) (key : Option Nat), (s.Admits 0x0B06 3 false r key) ∧ (r.bale = 0) ∧ (r.payload.length = 1) ∧ (leAt r.payload 0 1 < 2) ∧ (s.host.longs.any (fun x => x.kind == 1 || x.kind == 2 || x.kind == 3) = true ∨ s.fault.drain.isSome = true)) :=
  ⟨⟨ownedDev, _, signedReq 1 0 (imageOf 4 0xFF00 shaNothing []), some 0xFF00, admits_signed (by decide +kernel), by decide +kernel, rfl, image_passes (by decide +kernel) (by decide +kernel) (by decide +kernel)⟩,
   ⟨ownedDev, signedReq 1 0 [], some 0xFF00, (0x0B02, 0), admits_signed (by decide +kernel), by decide +kernel⟩,
   ⟨{ ownedDev with eng := { oldBank := some 0 } }, _, signedReq 1 0 [], some 0xFF00, 3, admits_signed (by decide +kernel), by decide +kernel, by decide +kernel, rfl, by decide +kernel⟩,
   ⟨ownedDev, _, signedReq 1 0 [], some 0xFF00, 3, (0x0B02, 0), admits_signed (by decide +kernel), by decide +kernel, by decide +kernel, rfl, by decide +kernel, by decide +kernel⟩,
   ⟨ownedDev, _, signedReq 1 0 (imageOf 3 0xFF00 (sha512 badWord) badWord), some 0xFF00, 3, 0, admits_signed (by decide +kernel), by decide +kernel, by decide +kernel, rfl, by decide +kernel, image_passes (by decide +kernel) (by decide +kernel) (by decide +kernel), rfl, by decide +kernel⟩,
   ⟨ownedDev, _, signedReq 1 0 (imageOf 3 0xFF00 shaNothing []), some 0xFF00, 3, admits_signed (by decide +kernel), by decide +kernel, by decide +kernel, rfl, by decide +kernel, image_passes (by decide +kernel) (by decide +kernel) (by decide +kernel), fun _ => by decide +kernel⟩,
   ⟨ownedDev, _, signedReq 1 0 [], some 0xFF00, _, _, admits_signed (by decide +kernel), by decide +kernel, by decide +kernel, rfl, rfl, rfl⟩,
   ⟨ownedDev, signedReq 3 0 [1], some 0xFF00, admits_signed (by decide +kernel), by decide +kernel⟩,
   ⟨{ ownedDev with host := { longs := [{ mb := 0, seq := 0, opcode := 0, kind := 3, idx := 0 }] } }, signedReq 3 0 [1], some 0xFF00, admits_signed (by decide +kernel), by decide +kernel⟩⟩

/-- Hypotheses of OwnerKeysAndCounters are met. -/
theorem witness_OwnerKeysAndCounters :
    (∃ (s : State) (r : Request) (key : Option Nat) (slot : Nat) (present : List Nat), (s.Admits 0x0B0A 3 false r key) ∧ (r.bale = 0) ∧ (r.payload.length = 40) ∧ (leNat (slice r.payload 1 7) = 0) ∧ (slot = leAt r.payload 0 1) ∧ (slot < 4) ∧ (present = (List.range 4).filter (fun i => (s.ownerKey i).isSome)) ∧ (leNat (slice r.payload 8 32) = 0 → slot ∈ present ∧ present ≠ [slot]) ∧ (2 ≤ present.length → key.getD 0xFFFF - 0xFF00 ≠ slot) ∧ (s.rollback 2 < 255) ∧ (s.trust.otp.rows.length < 260)) ∧
    (∃ (s : State) (r : Request) (key : Option Nat) (slot : Nat) (present : List Nat), ∃ t, (s.Admits 0x0B0A 3 false r key) ∧ (r.bale = 0) ∧ (r.payload.length = 40) ∧ (leNat (slice r.payload 1 7) = 0) ∧ (slot = leAt r.payload 0 1) ∧ (slot < 4) ∧ (present = (List.range 4).filter (fun i => (s.ownerKey i).isSome)) ∧ (t = s.admitted 0x0B0A r key) ∧ (leNat (slice r.payload 8 32) = 0) ∧ (slot ∉ present)) ∧
    (∃ (s : State) (r : Request) (key : Option Nat) (slot : Nat) (present : List Nat), ∃ t, (s.Admits 0x0B0A 3 false r key) ∧ (r.bale = 0) ∧ (r.payload.length = 40) ∧ (leNat (slice r.payload 1 7) = 0) ∧ (slot = leAt r.payload 0 1) ∧ (slot < 4) ∧ (present = (List.range 4).filter (fun i => (s.ownerKey i).isSome)) ∧ (t = s.admitted 0x0B0A r key) ∧ (leNat (slice r.payload 8 32) = 0) ∧ (present = [slot])) ∧
    (∃ (s : State) (r : Request) (key : Option Nat) (slot : Nat) (present : List Nat), ∃ t, (s.Admits 0x0B0A 3 false r key) ∧ (r.bale = 0) ∧ (r.payload.length = 40) ∧ (leNat (slice r.payload 1 7) = 0) ∧ (slot = leAt r.payload 0 1) ∧ (slot < 4) ∧ (present = (List.range 4).filter (fun i => (s.ownerKey i).isSome)) ∧ (t = s.admitted 0x0B0A r key) ∧ (leNat (slice r.payload 8 32) = 0 → slot ∈ present) ∧ (2 ≤ present.length) ∧ (key.getD 0xFFFF - 0xFF00 = slot)) ∧
    (∃ (s : State) (r : Request) (key : Option Nat) (slot : Nat) (present : List Nat), ∃ t, (s.Admits 0x0B0A 3 false r key) ∧ (r.bale = 0) ∧ (r.payload.length = 40) ∧ (leNat (slice r.payload 1 7) = 0) ∧ (slot = leAt r.payload 0 1) ∧ (slot < 4) ∧ (present = (List.range 4).filter (fun i => (s.ownerKey i).isSome)) ∧ (t = s.admitted 0x0B0A r key) ∧ (leNat (slice r.payload 8 32) ≠ 0) ∧ (2 ≤ present.length → key.getD 0xFFFF - 0xFF00 ≠ slot) ∧ (s.rollback 2 = 255 ∨ 260 ≤ s.trust.otp.rows.length)) ∧
    (∃ (s : State) (r : Request) (key : Option Nat) (k limit : Nat), (s.Admits 0x0B09 3 false r key) ∧ (r.bale = 0) ∧ (r.payload.length = 2) ∧ (k = leAt r.payload 0 1) ∧ (k < 4) ∧ (limit = (if k = 0 then s.trust.imageSv else if k = 1 then s.eng.patchSv else 255)) ∧ (s.rollback k < leAt r.payload 1 1) ∧ (leAt r.payload 1 1 ≤ limit)) ∧
    (∃ (s : State) (r : Request) (key : Option Nat) (k limit : Nat), (s.Admits 0x0B09 3 false r key) ∧ (r.bale = 0) ∧ (r.payload.length = 2) ∧ (k = leAt r.payload 0 1) ∧ (k < 4) ∧ (limit = (if k = 0 then s.trust.imageSv else if k = 1 then s.eng.patchSv else 255)) ∧ (leAt r.payload 1 1 ≤ s.rollback k ∨ limit < leAt r.payload 1 1)) :=
  ⟨⟨ownedDev, signedReq 3 0 (3 :: List.replicate 7 0 ++ idKey), some 0xFF00, 3, _, admits_signed (by decide +kernel), by decide +kernel, by decide +kernel, by decide +kernel, by decide +kernel, by decide +kernel, rfl, by decide +kernel, by decide +kernel, by decide +kernel, by decide +kernel⟩,
   ⟨ownedDev, signedReq 3 0 (3 :: List.replicate 39 0), some 0xFF00, 3, _, _, admits_signed (by decide +kernel), by decide +kernel, by decide +kernel, by decide +kernel, by decide +kernel, by decide +kernel, rfl, rfl, by decide +kernel, by decide +kernel⟩,
   ⟨ownedDev, signedReq 3 0 (List.replicate 40 0), some 0xFF00, 0, _, _, admits_signed (by decide +kernel), by decide +kernel, by decide +kernel, by decide +kernel, by decide +kernel, by decide +kernel, rfl, rfl, by decide +kernel, by decide +kernel⟩,
   ⟨twoKeys, signedReq 3 0 (List.replicate 8 0 ++ idKey), some 0xFF00, 0, _, _, admits_signed (by decide +kernel), by decide +kernel, by decide +kernel, by decide +kernel, by decide +kernel, by decide +kernel, rfl, rfl, by decide +kernel, by decide +kernel, by decide +kernel⟩,
   ⟨{ ownedDev with trust := { ownedDev.trust with otp := { ownedDev.trust.otp with rollback := [0, 0, 255, 0] } } }, signedReq 3 0 (3 :: List.replicate 7 0 ++ idKey), some 0xFF00, 3, _, _, admits_signed (by decide +kernel), by decide +kernel, by decide +kernel, by decide +kernel, by decide +kernel, by decide +kernel, rfl, rfl, by decide +kernel, by decide +kernel, by decide +kernel⟩,
   ⟨ownedDev, signedReq 3 0 [3, 255], some 0xFF00, 3, 255, admits_signed (by decide +kernel), by decide +kernel⟩,
   ⟨ownedDev, signedReq 3 0 [3, 0], some 0xFF00, 3, 255, admits_signed (by decide +kernel), by decide +kernel⟩⟩

/-- Hypotheses of ClaimAndSuccession are met. -/
theorem witness_ClaimAndSuccession :
    (∃ (s : State) (r : Request) (n : Nat), (s.Serves r) ∧ (headerStatus 0x0B01 3 r = 0) ∧ (r.bale = 0) ∧ (s.owned = false) ∧ (r.mb.val ≠ 12) ∧ (r.mb.val ≠ 13) ∧ (leAt r.payload 0 1 = n) ∧ (1 ≤ n) ∧ (n ≤ 4) ∧ (r.payload.length = 8 + 32 * n) ∧ (leNat (slice r.payload 1 7) = 0) ∧ (s.newKeyStatus 0x0B01 3 r (fun id => if id = 0xFF00 then some (slice r.payload 8 32) else none) = 0)) ∧
    (∃ (s : State) (r : Request), (s.Serves r) ∧ (headerStatus 0x0B01 3 r = 0) ∧ (r.bale = 0) ∧ (s.owned = true)) ∧
    (∃ (s : State) (r : Request) (key : Option Nat), (s.Admits 0x0B0B 3 false r key) ∧ (r.bale = 0) ∧ (r.payload = []) ∧ (s.rollback 3 ≠ 255)) ∧
    (∃ (s : State) (r : Request) (key : Option Nat) (acts : List (Nat × Nat × Bytes)), (s.Admits 0x0B0C 3 false r key) ∧ (r.bale = 0) ∧ (s.owned = true) ∧ (s.trust.otp.succeeded = true) ∧ (s.Takes r acts)) ∧
    (∃ (s : State) (r : Request) (acts : List (Nat × Nat × Bytes)) (id : Nat) (sig : Bytes), (s.Serves r) ∧ (headerStatus 0x0B0C 3 r = 0) ∧ (r.bale = 0) ∧ (s.owned = false) ∧ (r.mb.val ≠ 12) ∧ (r.mb.val ≠ 13) ∧ (r.trailer = some (id, sig)) ∧ (s.newKeyStatus 0x0B0C 3 r (packageKey r) = 0) ∧ (s.Takes r acts)) ∧
    (∃ (s : State) (r : Request) (key : Option Nat), (s.Admits 0x0B0C 3 false r key) ∧ (r.bale = 0) ∧ (s.owned = true) ∧ (s.trust.otp.succeeded = false)) ∧
    (∃ (s : State) (r : Request) (key : Option Nat), ∃ t p, ∃ e, (s.Admits 0x0B0C 3 false r key) ∧ (r.bale = 0) ∧ (s.owned = true) ∧ (s.trust.otp.succeeded = true) ∧ (t = s.admitted 0x0B0C r key) ∧ (p = imgPayload r.payload) ∧ (s.imgFault 5 r.payload = some e)) ∧
    (∃ (s : State) (r : Request) (key : Option Nat), ∃ t p, (s.Admits 0x0B0C 3 false r key) ∧ (r.bale = 0) ∧ (s.owned = true) ∧ (s.trust.otp.succeeded = true) ∧ (t = s.admitted 0x0B0C r key) ∧ (p = imgPayload r.payload) ∧ (s.imgFault 5 r.payload = none) ∧ (configActions p.length (p.drop 304) = none ∨ packageMade p = false)) ∧
    (∃ (s : State) (r : Request) (key : Option Nat), ∃ t p, (s.Admits 0x0B0C 3 false r key) ∧ (r.bale = 0) ∧ (s.owned = true) ∧ (s.trust.otp.succeeded = true) ∧ (t = s.admitted 0x0B0C r key) ∧ (p = imgPayload r.payload) ∧ (s.imgFault 5 r.payload = none) ∧ ((configActions p.length (p.drop 304)).isSome = true) ∧ (packageMade p = true) ∧ (s.notForUs p = true)) ∧
    (∃ (s : State) (r : Request) (key : Option Nat), ∃ t p, (s.Admits 0x0B0C 3 false r key) ∧ (r.bale = 0) ∧ (s.owned = true) ∧ (s.trust.otp.succeeded = true) ∧ (t = s.admitted 0x0B0C r key) ∧ (p = imgPayload r.payload) ∧ (s.imgFault 5 r.payload = none) ∧ ((configActions p.length (p.drop 304)).isSome = true) ∧ (packageMade p = true) ∧ (s.notForUs p = false) ∧ (260 < s.trust.otp.rows.length + (s.importRows p).length)) :=
  ⟨⟨readyDev, signedReq 3 0 ([1, 0, 0, 0, 0, 0, 0, 0] ++ idKey), 1, (meets_serves (op := 0x0B01) (cls := 3) (by decide +kernel)).1, by decide +kernel, by decide +kernel, by decide +kernel, by decide +kernel, by decide +kernel, by decide +kernel, by decide +kernel, by decide +kernel, by decide +kernel, by decide +kernel, new_key_signs (by decide +kernel) (by decide +kernel)⟩,
   ⟨ownedDev, signedReq 3 0 [], (meets_serves (op := 0x0B01) (cls := 3) (by decide +kernel)).1, by decide +kernel⟩,
   ⟨ownedDev, signedReq 3 0 [], some 0xFF00, admits_signed (by decide +kernel), by decide +kernel⟩,
   ⟨succeededDev, signedReq 3 0 (imageOf 5 0xFF00 (sha512 (packageOf 1 0)) (packageOf 1 0)), some 0xFF00, [], admits_signed (by decide +kernel), by decide +kernel, by decide +kernel, by decide +kernel, succeeded_takes⟩,
   ⟨readyDev, signedReq 3 0 (imageOf 5 0xFF00 (sha512 (packageOf 1 0)) (packageOf 1 0)), [], 0xFF00, idSig, (meets_serves (op := 0x0B0C) (cls := 3) (by decide +kernel)).1, by decide +kernel, by decide +kernel, by decide +kernel, by decide +kernel, by decide +kernel, by decide +kernel, new_key_signs (by decide +kernel) (by decide +kernel), unowned_takes⟩,
   ⟨ownedDev, signedReq 3 0 [], some 0xFF00, admits_signed (by decide +kernel), by decide +kernel⟩,
   ⟨succeededDev, signedReq 3 0 [], some 0xFF00, _, _, (0x0B02, 0), admits_signed (by decide +kernel), by decide +kernel, by decide +kernel, by decide +kernel, rfl, rfl, by decide +kernel⟩,
   ⟨succeededDev, signedReq 3 0 (imageOf 5 0xFF00 (sha512 (packageOf 1 0 ++ [0])) (packageOf 1 0 ++ [0])), some 0xFF00, _, _, admits_signed (by decide +kernel), by decide +kernel, by decide +kernel, by decide +kernel, rfl, rfl, image_passes (by decide +kernel) (by decide +kernel) (by decide +kernel), .inr (by decide +kernel)⟩,
   ⟨succeededDev, signedReq 3 0 (imageOf 5 0xFF00 (sha512 (packageOf 0 0)) (packageOf 0 0)), some 0xFF00, _, _, admits_signed (by decide +kernel), by decide +kernel, by decide +kernel, by decide +kernel, rfl, rfl, image_passes (by decide +kernel) (by decide +kernel) (by decide +kernel), by decide +kernel, by decide +kernel, by decide +kernel⟩,
   ⟨fullDev, signedReq 3 0 (imageOf 5 0xFF00 (sha512 (packageOf 1 0)) (packageOf 1 0)), some 0xFF00, _, _, admits_signed (by decide +kernel), by decide +kernel, by decide +kernel, by decide +kernel, rfl, rfl, full_passes, full_package.1, full_package.2.1, full_package.2.2, full_rows (full_imports _)⟩⟩

/-- Hypotheses of PacketBales are met. -/
theorem witness_PacketBales :
    (∃ (s : State) (k : SliceId) (e : SliceEngine) (res : KnownAnswer), (s.engineState (engineIndex k e) = 2)) ∧
    (∃ (s : State) (k : SliceId) (e : SliceEngine) (f : LarzenuFault), (s.engineState (engineIndex k e) ≠ 2)) ∧
    (∃ (s : State) (k : SliceId) (e : SliceEngine), (s.engineState (engineIndex k e) = 1)) ∧
    (∃ (s : State) (k : SliceId) (e : SliceEngine), (s.engineState (engineIndex k e) ≠ 1)) ∧
    (∃ (s : State) (k : SliceId) (e : SliceEngine), (s.engineState (engineIndex k e) ≠ 2)) :=
  ⟨⟨{ State.reset with eng := { state := [(engineIndex 0 (.service 3), 2)] } }, 0, .service 3, .passed, by decide +kernel⟩,
   ⟨State.reset, 7, .action 63, .program .runaway, by decide +kernel⟩,
   ⟨{ State.reset with eng := { state := [(0, 1)] } }, 0, .action 0, by decide +kernel⟩,
   ⟨State.reset, 7, .service 3, by decide +kernel⟩,
   ⟨State.reset, 7, .action 63, by decide +kernel⟩⟩

/-- Hypotheses of StepRunsTheFront are met. -/
theorem witness_StepRunsTheFront : (∃ (s : State) (c : Instr) (rest : List Instr), (s.pending = c :: rest)) :=
  ⟨{ State.reset with pending := [.commitTick] }, .commitTick, [], by decide +kernel⟩

/-- Hypotheses of ReplayWindow are met. -/
theorem witness_ReplayWindow :
    (∃ (w : Window64) (q : Nat), (w.bitmap < 2 ^ 64) ∧ (w.passes q = true) ∧ (q < w.high)) ∧
    (∃ (w : Window64) (q : Nat), (w.bitmap < 2 ^ 64) ∧ (w.passes q = true) ∧ (w.high < q)) ∧
    (∃ (s : State), (Tab.risesFrom none s.gate.windows = true)) ∧
    (∃ (w : Window64) (q : Nat) (p : Nat), (w.bitmap < 2 ^ 64) ∧ (w.passes q = true) ∧ ((p = q ∨ w.passes p = false))) :=
  ⟨⟨{ high := 5, bitmap := 0 }, 4, by decide +kernel⟩,
   ⟨{ high := 5, bitmap := 1 }, 70, by decide +kernel⟩,
   ⟨State.reset, by decide +kernel⟩,
   ⟨{ high := 64, bitmap := 0 }, 0, 64, by decide +kernel⟩⟩

/-- Hypotheses of KeyRevocation are met. -/
theorem witness_KeyRevocation :
    (∃ (s : State) (x : Switchover), (s.trust.switchover = some x) ∧ (x.quiesced.isSome = true) ∧ (imgKey x.header < 4)) ∧
    (∃ (s : State) (kind : Nat) (b : Bytes), (kind ≤ 2) ∧ (s.trust.otp.revoked.testBit (imgKey b) = true)) ∧
    (∃ (s : State), (s.trust.flash.slotA.image ≠ [] ∧ s.trust.otp.revoked.testBit (imgKey s.trust.flash.slotA.image) = true)) ∧
    (∃ (s : State) (c : SlotCheck), (s.trust.otp.revoked.testBit c.keyId = true)) :=
  ⟨⟨switching (some 0), { slot := 1, header := [], quiesced := some 0 }, by decide +kernel⟩,
   ⟨{ State.reset with trust := { State.reset.trust with otp := { State.reset.trust.otp with revoked := 1 } } }, 2, [], by decide +kernel⟩,
   ⟨{ State.reset with trust := { State.reset.trust with otp := { State.reset.trust.otp with revoked := 1 }, flash := { State.reset.trust.flash with slotA := { image := [0], patch := [] } } } }, by decide +kernel⟩,
   ⟨{ State.reset with trust := { State.reset.trust with otp := { State.reset.trust.otp with revoked := 1 } } }, slotCheck true, by decide +kernel⟩⟩

/-- Hypotheses of EvictionDraws are met. -/
theorem witness_EvictionDraws :
    (∃ (s : State), (Tab.risesFrom none s.bridge.macs = true)) ∧
    (∃ (x : Nat), (x < 2 ^ 16 ∧ x ≠ 0)) :=
  ⟨⟨State.reset, by decide +kernel⟩,
   ⟨65535, by decide +kernel⟩⟩

/-- Hypotheses of CoreClock are met. -/
theorem witness_CoreClock :
    (∃ (s : State), (s.pending = []) ∧ (s.keeper.vkeep = true ∧ s.keeper.xtal = true)) ∧
    (∃ (s : State), (s.pending = []) ∧ (¬(s.keeper.vkeep = true ∧ s.keeper.xtal = true))) ∧
    (∃ (s : State), (s.pending = []) ∧ (∀ k, k < 8 → (s.mac k).aged = [])) ∧
    (∃ (s : State), (s.pending = []) ∧ (s.lanes = []) ∧ (s.otn = []) ∧ (s.sheaf.links = []) ∧ (s.packets = []) ∧ (s.flow.poolWait = []) ∧ (s.flow.visits = []) ∧ (∀ k, k < 8 → (s.mac k).aged = [])) :=
  ⟨⟨{ State.reset with keeper := { State.reset.keeper with vkeep := true, xtal := true } }, by decide +kernel⟩,
   ⟨{ State.reset with keeper := { State.reset.keeper with vkeep := false } }, by decide +kernel⟩,
   ⟨State.reset, by decide +kernel⟩,
   ⟨State.reset, by decide +kernel⟩⟩

/-- Hypotheses of ResetState are met. -/
theorem witness_ResetState : (∃ (id : _), ((Catalogue.row? id).isSome = true)) :=
  ⟨0x0701, by decide +kernel⟩

/-- Hypotheses of OtpStaysLaidOut are met. -/
theorem witness_OtpStaysLaidOut : (∃ (s : State) (t : State), (OtpOk s.trust.otp) ∧ (step s = .next t)) :=
  ⟨{ ownedDev with pending := [.objLdReply 0 .ok] }, ownedDev, by unfold OtpOk; decide +kernel, rfl⟩

/-- Hypotheses of OtpIsNeverCleared are met. -/
theorem witness_OtpIsNeverCleared : (∃ (s : State) (t : State), (OtpOk s.trust.otp) ∧ (step s = .next t)) :=
  ⟨{ ownedDev with pending := [.objLdReply 0 .ok] }, ownedDev, by unfold OtpOk; decide +kernel, rfl⟩

end Slice0

end Sys2Proof.Tests
end

section
/-! The core clock of the model's log entry 3, and a clear of the safe state that its tick has taken (R399, log entry 267). -/

namespace Sys2Proof.Machine

/-- An idle device in the safe state that SYSCLK loss entered (R398), on whose last tick a clear-safe-state item was taken (R399): the clear
takes effect as that clock ends (log entry 267). -/
def safeClearTaken : State :=
  { State.reset with fault := { State.reset.fault with safe := true, safeCause := 4, clearing := true } }

/-- No log entry is in handling, the management-core pairs are in service and SYSCLK is present, so nothing blocks the clear (R399). -/
theorem coreClock_safeClearTaken_safe : safeClearTaken.coreClock.fault.safe = false := by
  decide +kernel

/-- With an empty queue a step is one core clock (log entry 3). -/
theorem step_of_pending_nil {s : State} (h : s.pending = []) : step s = .next s.coreClock := by
  simp only [step, h]

/-- Refutes O53. On an empty queue the core clock also carries out a clear of the safe state that a tick has taken (R399, log entry 267), which
the statement leaves out: `safeClearTaken` has no lane, OTN port, Sheaf link, packet, aged entry or sequencer work, yet the clock ends its
safe state, while the frame of the second clause keeps the fault controller as it was. -/
theorem not_coreClock : ¬ Obligations.CoreClock := by
  unfold Obligations.CoreClock
  rintro ⟨-, idle, -⟩
  have noneAged : ∀ k, k < 8 → (safeClearTaken.mac k).aged = [] := by decide +kernel
  obtain ⟨t, stepsTo, -, -, frame⟩ := idle safeClearTaken rfl rfl rfl rfl rfl rfl rfl noneAged
  have kept : t.fault.safe = true := congrArg (fun u : State => u.fault.safe) frame
  have clocked : t = safeClearTaken.coreClock := by
    rw [step_of_pending_nil rfl] at stepsTo
    exact (Host.Outcome.next.inj stepsTo).symm
  rw [clocked, coreClock_safeClearTaken_safe] at kept
  exact Bool.false_ne_true kept

end Sys2Proof.Machine
end

section
/-! A frame's first and last bit: where it is consumed, where it enters, and what its end finds (R20, R84, R123, R297, R309, R310, R401). -/

namespace Sys2Proof.Machine

/-- A port that is up is not held down by a slice reset (R401). -/
theorem Port.sliceDown_of_isUp {q : Port} (hup : q.isUp = true) : q.sliceDown = false := by
  simp only [Port.isUp, Bool.and_eq_true, Bool.not_eq_true'] at hup
  exact hup.2

theorem exec_frameArrival (p : PortId) (b : Bytes) (e : LookupFaults) (s : State) :
    exec (.frameArrival p b e) s = execFrameArrival p b e s := rfl

theorem exec_frameReceiveComplete (n : Nat) (codeError : Bool) (s : State) :
    exec (.frameReceiveComplete n codeError) s = execFrameReceiveComplete n codeError s := rfl

/-- A frame and its bytes are counted at a port that is up (R83). -/
def State.countArrival (s : State) (p : Nat) (b : Bytes) : State := (s.count 1 (256 * p)).count 1 (256 * p + 1) b.length

section
variable {s : State} {p : PortId} {b : Bytes} {e : LookupFaults}

theorem execFrameArrival_of_sliceDown (hdown : (s.port p).sliceDown = true) :
    execFrameArrival p b e s = .next (s.count 1 (256 * p + 16)) := by
  simp only [execFrameArrival, hdown, if_true, done, State.countPort]

theorem execFrameArrival_of_not_isUp (hheld : (s.port p).sliceDown = false) (hup : (s.port p).isUp = false) :
    execFrameArrival p b e s = .next s := by
  simp [execFrameArrival, hheld, hup, done]

theorem execFrameArrival_of_pause (hup : (s.port p).isUp = true) (hpause : s.frameKind p s.bales.epoch b (parse b) = .pause) :
    execFrameArrival p b e s = .next ((s.countArrival p b).countFcs p b) := by
  simp [execFrameArrival, Port.sliceDown_of_isUp hup, hup, hpause, done, State.countPort, State.countArrival]

/-- A frame that its VLAN rules discard goes no further; `hkind` takes the match to its branch of frames that do not end at the port. -/
theorem execFrameArrival_of_discard (hup : (s.port p).isUp = true) (hkind : s.frameKind p s.bales.epoch b (parse b) ≠ .pause)
    (hvlan : s.ingressVlan p s.bales.epoch (parse b) = .discard) :
    execFrameArrival p b e s = .next (((s.countArrival p b).count 1 (256 * p + 22)).countFcs p b) := by
  simp [execFrameArrival, Port.sliceDown_of_isUp hup, hup, hvlan, done, State.countPort, State.countArrival]

/-- A frame that its VLAN rules take is consumed by the policer of its kind, or enters the device (R84, R123). -/
theorem execFrameArrival_of_vlan {vid pcp : Nat} {tagged : Bool} (hup : (s.port p).isUp = true)
    (hkind : s.frameKind p s.bales.epoch b (parse b) ≠ .pause)
    (hvlan : s.ingressVlan p s.bales.epoch (parse b) = .vlan vid pcp tagged) :
    execFrameArrival p b e s = .next (
      if s.frameKind p s.bales.epoch b (parse b) = .slow then ((s.countArrival p b).consume p 8 b).countFcs p b
      else if s.frameKind p s.bales.epoch b (parse b) = .permit then ((s.countArrival p b).consume p 11 b).countFcs p b
      else if s.frameKind p s.bales.epoch b (parse b) = .ptp ∧ s.ptpPort p = true then
        ((s.countArrival p b).consume p 9 b).countFcs p b
      else ((s.countArrival p b).enterFrame p b e (parse b) (s.frameKind p s.bales.epoch b (parse b)) vid pcp tagged).xoffCheck) := by
  simp [execFrameArrival, Port.sliceDown_of_isUp hup, hup, hvlan, done, State.countPort, State.countArrival,
    apply_ite Host.Outcome.next]

end

/-- The end of a frame inside the device: what its check and its length make of it, and where a good one goes on (R297, R309, R310). -/
theorem execFrameReceiveComplete_of_incomplete {s : State} {n : Nat} {codeError : Bool} {x : Packet} (hpkt : s.pkt? n = some x)
    (hopen : x.complete = false) :
    execFrameReceiveComplete n codeError s = .next (
      let long := decide (x.hint < x.bytes.length)
      let t := if long then (s.countFcs x.port x.bytes).count 1 (256 * x.port + 10) else s.countFcs x.port x.bytes
      let bad := long || codeError || fcsOf x.bytes != .good
      let u := t.setPkt n { x with complete := true, bad := bad, truncated := long, bytes := if long then x.bytes.take x.hint else x.bytes }
      if bad then (if long then u.sampleFate n 8 else u).foundBad n
      else if x.stage = .waitFrame then (if x.judged ≠ 0 then u.beginC1 n else u.joinWork n)
      else u) := by
  simp only [execFrameReceiveComplete, hpkt, hopen, done, State.countPort, apply_ite Host.Outcome.next, Bool.false_eq_true, if_false]

/-- Settles O17, one lemma for each place where a frame can end or go on. -/
theorem framesIn : Obligations.FramesIn := by
  unfold Obligations.FramesIn
  simp only [exec_frameArrival, exec_frameReceiveComplete]
  refine ⟨fun s p b e => execFrameArrival_of_sliceDown, fun s p b e => execFrameArrival_of_not_isUp, ?_,
    fun s n c x => execFrameReceiveComplete_of_incomplete⟩
  rintro s _ p b e hup rfl
  refine ⟨execFrameArrival_of_pause hup, fun vid pcp tagged hvlan => ⟨?slow, ?permit, ?ptp, ?enters⟩,
    execFrameArrival_of_discard hup⟩
  case slow =>
    intro hk
    simp [execFrameArrival_of_vlan hup (by simp [hk]) hvlan, hk, State.countArrival]
  case permit =>
    intro hk
    simp [execFrameArrival_of_vlan hup (by simp [hk]) hvlan, hk, State.countArrival]
  case ptp =>
    intro hk hptp
    simp [execFrameArrival_of_vlan hup (by simp [hk]) hvlan, hk, hptp, State.countArrival]
  case enters =>
    rintro k hk hother hptp
    simp only [List.mem_cons, List.not_mem_nil, or_false, not_or] at hother
    obtain ⟨hpause, hslow, hpermit⟩ := hother
    have hnoPtp : ¬(k = .ptp ∧ s.ptpPort p = true) := fun h => by simp [hptp h.1] at h
    rw [execFrameArrival_of_vlan hup (hk ▸ hpause) hvlan, hk, if_neg hslow, if_neg hpermit, if_neg hnoPtp, State.countArrival]

end Sys2Proof.Machine
end

section
/-! Rows of the match array, scans of the Awn engines and command digests (R28, R29, R244 to R256, R262). -/

namespace Sys2Proof.Machine

/-- A row with no rewrite due moves to a hole and takes nothing else with it (R246, R256). -/
theorem State.relocate_of_hole {s : State} {a b : Nat} {r : MatchRow} (hrow : s.rowAt a = some r) (hhole : s.rowAt b = none)
    (hclean : ∀ m ∈ s.matcher.bad, m % 65536 ≠ a) : s.relocate a b = (s.putRow b r).eraseRow a := by
  have hkept : s.matcher.bad.filter (fun m => m % 65536 != a) = s.matcher.bad :=
    List.filter_eq_self.2 fun m hm => by simpa using hclean m hm
  simp only [State.relocate, hrow, hhole, State.putRow, State.eraseRow, hkept]

theorem exec_matchRelocationStep {s : State} {a b : Nat} {r : MatchRow} (hbank : a / 256 = b / 256) (hnext : a + 1 = b ∨ b + 1 = a)
    (ha : a < 65536) (hb : b < 65536) (hcloser : s.stepSpaces a b = true) (hruns : (List.range 8).any s.sweeps = true)
    (hclean : ∀ m ∈ s.matcher.bad, m % 65536 ≠ a) (hrow : s.rowAt a = some r) (hhole : s.rowAt b = none) :
    exec (.matchRelocationStep a b) s = .next ((List.range 8).foldl (fun (s : State) k => if s.sweeps k then s.safePoint k else s)
      ((s.putRow b r).eraseRow a)).settleSpacing := by
  have hnoRewrite : s.matcher.bad.all (fun m => m % 65536 != a) = true := List.all_eq_true.2 fun m hm => by simpa using hclean m hm
  rw [← State.relocate_of_hole hrow hhole hclean]
  exact if_pos ⟨hruns, hnoRewrite, hbank, hnext, ha, hb, hcloser⟩

theorem exec_matchRowScrub (s : State) (k : SliceId) (i : Nat) (d : Bool) :
    exec (.matchRowScrub k i d) s = .next (
      if d ∨ s.matcher.bad.contains (65536 * k.val + i) then
        let t := { s with matcher := { s.matcher with bad := s.matcher.bad.filter (· != 65536 * k.val + i) } }
        (if s.matcher.bad.contains (65536 * k.val + i) then t else t.noteFault 1).raise 0x0408 (src 5 k) (natLe 2 i)
      else s) :=
  (apply_ite Host.Outcome.next _ _ _).symm

theorem exec_segmentScanStart {s : State} {n l : Nat} {ls : List Nat} (hfree : s.dropLate.freeLanes = l :: ls)
    (holdest : s.dropLate.oldestSegment l = some n) : exec .segmentScanStart s = .next (s.dropLate.intoLane n l) := by
  show execSegmentScanStart s = _
  simp [execSegmentScanStart, hfree, holdest, done]

theorem exec_segmentScanComplete {s : State} {a : AwnId} {lane : Fin 2} {sc : Scan} {p : Packet} {x : PatternSet}
    (hlane : Tab.find? s.awn.lanes (2 * a + lane) = some sc) (hpkt : s.pkt? sc.pkt = some p) (hset : s.patternAt p.epoch = some x)
    (hgood : (scanRun x sc.start (segmentOf p.bytes)).visited.any (fun st => s.awn.badEntries.contains st) = false) :
    exec (.segmentScanComplete a lane none) s = .next (
      let run := scanRun x sc.start (segmentOf p.bytes)
      let r := scanResult x (s.awnProfile p) run
      let t := { s with awn := { s.awn with lanes := Tab.erase s.awn.lanes (2 * a + lane) } }
      ((t.saveScan p x sc.lost r).pmu (sliceOf p.port) 11 (segmentOf p.bytes).length).scanDone sc.pkt x r) := by
  show execSegmentScanComplete a lane none s = _
  simp only [execSegmentScanComplete, hlane, hpkt, hset, hgood, done, Bool.false_eq_true, if_false]

/-- A packet is dropped as profiled work: counted in count 10 of its slice and reported at most once a second (R28, R29). -/
theorem State.dropWork_of_pkt {s : State} {n : Nat} {p : Packet} (hpkt : s.pkt? n = some p) :
    s.dropWork n = ((s.count 4 (256 * sliceOf p.port + 10)).raiseLimited 0x0509 (src 5 (sliceOf p.port))
      (sec 1) [] 4).endPacket n false true := by
  simp only [State.dropWork, hpkt, State.countSlice]

theorem State.workOver_iff (s : State) (n : Nat) (p : Packet) :
    s.workOver n p = true ↔ p.stage = .queued ∧ (Tab.values s.awn.lanes).any (fun x => x.pkt == n) = false ∧
      ((Tab.find? s.awn.rescans n).map (·.at_)).getD (p.at_ + p.fenced) + ns (s.sn 0x0A0A) < s.now := by
  simp only [State.workOver, Bool.and_eq_true, Bool.not_eq_true', decide_eq_true_eq, beq_iff_eq, and_assoc]

theorem exec_profiledWorkDeadlineExpiry {s : State} {n : Nat} {p : Packet} (hpkt : s.pkt? n = some p) (hover : s.workOver n p = true) :
    exec (.profiledWorkDeadlineExpiry n) s = .next (s.dropWork n) := by
  show execProfiledWorkDeadlineExpiry n s = _
  simp only [execProfiledWorkDeadlineExpiry, hpkt, hover, if_true, done]

section
variable {s : State} {a : AwnId}

/-- A known-answer scan that passes changes nothing in an engine in use (R255). -/
theorem exec_awnKnownAnswerScan_pass_inService (hst : s.awnState a = 0) : exec (.awnKnownAnswerScan a true) s = .next s := by
  show execAwnKnownAnswerScan a true s = _
  simp [execAwnKnownAnswerScan, hst, done]

/-- A fenced engine that passes returns (R255). -/
theorem exec_awnKnownAnswerScan_pass_fenced (hst : s.awnState a = 1) :
    exec (.awnKnownAnswerScan a true) s = .next (((s.setAwn a 0).settle (64 + a.val)).faultReport 9 3 1 2 a (srcAwn a) 0) := by
  show execAwnKnownAnswerScan a true s = _
  simp [execAwnKnownAnswerScan, hst, done]

/-- A fenced engine that fails is retired, and what is in its lanes is scanned again (R255). -/
theorem exec_awnKnownAnswerScan_fail_fenced (hst : s.awnState a = 1) :
    exec (.awnKnownAnswerScan a false) s = .next (
      let ls := [2 * a.val, 2 * a.val + 1]
      ((((s.setAwn a 1).rescanLanes ls).awnFault a 2 (s.inScan ls)).retireAwn a).faultReport 9 4 1 2 a (srcAwn a) 0) := by
  show execAwnKnownAnswerScan a false s = _
  simp [execAwnKnownAnswerScan, hst, done]

end

/-- A fold that collects the image of each element beside a state that it leaves alone is a map. -/
theorem foldl_collect {α β σ : Type} (f : α → β) (l : List α) (bs : List β) (t : σ) :
    l.foldl (fun (x : List β × σ) u => (x.1 ++ [f u], x.2)) (bs, t) = (bs ++ l.map f, t) := by
  induction l generalizing bs with
  | nil => simp
  | cons u l ih => simp [ih]

theorem exec_commandDigestComplete {s : State} {n : Nat} {p : Packet} (hpkt : s.pkt? n = some p) (hstage : p.stage = .digest)
    (hhashing : s.isHashing n = true) :
    exec (.commandDigestComplete n false) s = .next (
      let us := p.pdus.map (fun u => { u with digest := commandDigest p.judged u })
      ((s.setPkt n { p with pdus := us, stage := .judge }).readPermits us).giveHashes) := by
  show execCommandDigestComplete n false s = _
  simp [execCommandDigestComplete, hpkt, hstage, hhashing, done, foldl_collect]

/-- Settles O12, one lemma for each command. -/
theorem matchAndAutomata : Obligations.MatchAndAutomata := by
  unfold Obligations.MatchAndAutomata
  refine ⟨fun s a b r => exec_matchRelocationStep, fun s k i => rfl, exec_matchRowScrub, fun s n l ls => exec_segmentScanStart,
    fun s a lane sc p x => exec_segmentScanComplete, ?late, fun s e => rfl, fun s a => exec_awnKnownAnswerScan_pass_inService,
    fun s a => exec_awnKnownAnswerScan_pass_fenced, fun s a => exec_awnKnownAnswerScan_fail_fenced,
    fun s n p => exec_commandDigestComplete⟩
  case late =>
    intro s n p hpkt hqueued hnoLane hlate
    have hover : s.workOver n p = true := (s.workOver_iff n p).2 ⟨hqueued, hnoLane, hlate⟩
    rw [exec_profiledWorkDeadlineExpiry hpkt hover, State.dropWork_of_pkt hpkt]

end Sys2Proof.Machine
end

section
/-! An edge of CYC_REF: which of its cases comes about, and what it writes (R42, R43, R46 to R48, R51, R69). -/

namespace Sys2Proof.Machine

/-- `t` differs from `s` in Tiller, and in the host interface that events and a change of STATUS write, alone. -/
def State.TillerAndHostOnly (s t : State) : Prop := { t with tiller := s.tiller, host := s.host, outbox := s.outbox } = s

theorem State.TillerAndHostOnly.trans {s t u : State} (hst : s.TillerAndHostOnly t) (htu : t.TillerAndHostOnly u) :
    s.TillerAndHostOnly u :=
  calc ({ u with tiller := s.tiller, host := s.host, outbox := s.outbox } : State)
    _ = { t with tiller := s.tiller, host := s.host, outbox := s.outbox } :=
      congrArg (fun v : State => { v with tiller := s.tiller, host := s.host, outbox := s.outbox }) htu
    _ = s := hst

theorem State.tillerAndHostOnly_loopSeen (s : State) (d : Nat) : s.TillerAndHostOnly (s.loopSeen d) := rfl

theorem State.tillerAndHostOnly_setTiller (s : State) (x : Tiller) : s.TillerAndHostOnly (s.setTiller x) := by
  cases s; simp [TillerAndHostOnly, setTiller]

theorem State.tillerAndHostOnly_raise (s : State) (code source : Nat) (body : Bytes) : s.TillerAndHostOnly (s.raise code source body) := by
  cases s; simp [TillerAndHostOnly]

@[simp] theorem State.setTiller_tiller (s : State) (x : Tiller) : (s.setTiller x).tiller = x := by
  simp [setTiller]

/-- An edge that the loop takes is tracked by its error (R46, R47); whether TILLER_LOCKED's event is raised changes nothing here. -/
theorem State.trackEdge_tiller (s : State) (t d : Nat) (recent : List Nat) :
    (s.trackEdge t d recent).tiller = { (s.loopSeen d).tiller with
      st := s.trackState (s.edgeError t), freq := (s.loop s.tiller.freq s.tiller.rate d (s.edgeError t)).1
      rate := (s.loop s.tiller.freq s.tiller.rate d (s.edgeError t)).2, gap := s.loopGap d (s.edgeError t)
      error := -(toAu (s.edgeError t)), estPhase := s.loopGap d (s.edgeError t) / (2 ^ 32 : Nat), lastEdge := some t
      lastAccepted := some t, rejected := 0, recent := recent, stuckMul := s.sn 0x0209, refDelay := s.sn 0x0203 } := by
  unfold trackEdge
  dsimp only
  split <;> simp

theorem State.tillerAndHostOnly_trackEdge (s : State) (t d : Nat) (recent : List Nat) : s.TillerAndHostOnly (s.trackEdge t d recent) := by
  unfold trackEdge
  dsimp only
  have tracked := fun x => (s.tillerAndHostOnly_loopSeen d).trans ((s.loopSeen d).tillerAndHostOnly_setTiller x)
  split
  · exact (tracked _).trans (tillerAndHostOnly_raise ..)
  · exact tracked _

/-- Holdover is entered with no anchor, so that the next edge becomes it (R44, R48). -/
theorem State.enterHoldover_tiller (s : State) (c : Nat) :
    (s.enterHoldover c).tiller.st = .holdover ∧ (s.enterHoldover c).tiller.anchored = false := by
  simp [enterHoldover]

section
variable {s : State} {t : Nat}

theorem State.trackedEdge_of_accepted {a : Nat} (hlast : s.tiller.lastAccepted = some a) (haccepted : s.judge (t - a) = .accepted)
    (hcalm : (s.recentEdges t).length ≤ s.sn 0x020A) : s.trackedEdge t = s.trackEdge t (t - a) (s.recentEdges t) := by
  simp only [trackedEdge, edgeAccepted, hlast, Option.getD_some, haccepted, if_true, if_neg (Nat.not_lt.2 hcalm)]

/-- A rejected edge short of both limits is counted, and the settings of the reference apply from it (R42, R69). -/
theorem State.trackedEdge_of_rejected {a : Nat} (hlast : s.tiller.lastAccepted = some a) (hrejected : s.judge (t - a) ≠ .accepted)
    (hfew : s.tiller.rejected + 1 < s.sn 0x0208) (hcalm : (s.recentEdges t).length ≤ s.sn 0x020A) :
    s.trackedEdge t = { s.seenEdge t (s.recentEdges t) with
      tiller := { (s.seenEdge t (s.recentEdges t)).tiller with rejected := s.tiller.rejected + 1 } } := by
  simp only [trackedEdge, edgeRejected, hlast, Option.getD_some, if_neg hrejected, if_neg (Nat.not_le.2 hfew),
    if_neg (Nat.not_lt.2 hcalm)]

theorem State.untrackedEdge_of_not_anchored (hanchor : s.tiller.anchored = false) : s.untrackedEdge t = s.anchorEdge t := by
  simp [untrackedEdge, hanchor]

theorem State.referenceEdge_of_tracking (htrack : s.tracking = true) (hkept : s.lossAt t = none) : s.referenceEdge t = s.trackedEdge t := by
  simp only [referenceEdge, hkept, htrack, if_true]

/-- A reference lost by the time of the edge gives holdover, of which that edge is the anchor (R43, R48). -/
theorem State.referenceEdge_of_lost {c : Nat} (htrack : s.tracking = true) (hlost : s.lossAt t = some c) :
    s.referenceEdge t = (s.enterHoldover c).anchorEdge t := by
  obtain ⟨hst, hanchor⟩ := s.enterHoldover_tiller c
  have hfree : (s.enterHoldover c).tracking = false := by simp [tracking, hst]
  simp only [referenceEdge, hlost, loseReference, htrack, hfree, if_true, Bool.false_eq_true, if_false,
    untrackedEdge_of_not_anchored hanchor]

/-- The first edge becomes the anchor, also where what came before it is long past (R48). -/
theorem State.referenceEdge_of_first (hfree : s.tracking = false) (hanchor : s.tiller.anchored = false) :
    s.referenceEdge t = s.anchorEdge t := by
  cases hloss : s.lossAt t with
  | none => simp [referenceEdge, hloss, hfree, untrackedEdge_of_not_anchored hanchor]
  | some c =>
    have hstill : { s with tiller := { s.tiller with anchored := false, qualCount := 0 } }.tracking = false := hfree
    simp only [referenceEdge, hloss, loseReference, hfree, Bool.false_eq_true, if_false, hstill]
    rw [untrackedEdge_of_not_anchored rfl]
    rfl

end

theorem exec_cycRefEdge_of_chosen {s : State} {rising : Bool} {t : Nat} (hdir : rising = (s.sn 0x0201 == 0))
    (hheeds : s.tiller.ignoring = false) (hown : s.following = false) :
    exec (.cycRefEdge rising t) s = .next (s.referenceEdge (t - s.sn 0x0203)) := by
  show execCycRefEdge rising t s = _
  simp [execCycRefEdge, hdir, hheeds, hown, done]

theorem exec_cycRefEdge_of_unheeded {s : State} {rising : Bool} {t : Nat}
    (h : rising ≠ (s.sn 0x0201 == 0) ∨ s.tiller.ignoring = true) : exec (.cycRefEdge rising t) s = .next s := by
  have hskip : (rising != (s.sn 0x0201 == 0) || s.tiller.ignoring || s.following) = true := by
    rcases h with hdir | hign
    · rw [bne_iff_ne.2 hdir, Bool.true_or, Bool.true_or]
    · rw [hign, Bool.or_true, Bool.true_or]
  exact if_pos hskip

/-- Settles O1: an edge that is heeded is the first, an accepted one, a rejected one, or the first after a loss. -/
theorem tillerReferenceEdge : Obligations.TillerReferenceEdge := by
  unfold Obligations.TillerReferenceEdge
  refine ⟨?first, ?accepted, ?rejected, ?lost, fun s rising t => exec_cycRefEdge_of_unheeded⟩
  case first =>
    intro s rising t hdir hheeds hown hfree hanchor
    rw [exec_cycRefEdge_of_chosen hdir hheeds hown, State.referenceEdge_of_first hfree hanchor]
    rfl
  case accepted =>
    intro s rising t a hdir hheeds hown htrack hlast haccepted hkept hcalm
    refine ⟨_, exec_cycRefEdge_of_chosen hdir hheeds hown, ?_⟩
    rw [State.referenceEdge_of_tracking htrack hkept, State.trackedEdge_of_accepted hlast haccepted hcalm, State.trackEdge_tiller]
    exact ⟨rfl, rfl, rfl, rfl, s.tillerAndHostOnly_trackEdge _ _ _⟩
  case rejected =>
    intro s rising t a hdir hheeds hown htrack hlast hrejected hkept hfew hcalm
    rw [exec_cycRefEdge_of_chosen hdir hheeds hown, State.referenceEdge_of_tracking htrack hkept,
      State.trackedEdge_of_rejected hlast hrejected hfew hcalm]
    rfl
  case lost =>
    intro s rising t c hdir hheeds hown htrack hlost
    rw [exec_cycRefEdge_of_chosen hdir hheeds hown, State.referenceEdge_of_lost htrack hlost]

end Sys2Proof.Machine
end

section
/-! TAI's sources and second boundary, PTP messages, and the CYC_OUT and PPS_OUT pins (R52, R53, R66 to R68, R432, R467). -/

namespace Sys2Proof.Machine

theorem exec_ppsOutRise (s : State) :
    exec .ppsOutRise s = .next (
      if s.tiller.loaded ∧ s.son 0x0216 0 1 ∧ s.sn 0x0217 ≤ s.tiller.taiNs ∧ s.tiller.ppsSec ≠ some s.tiller.taiSec then
      { s with tiller := { s.tiller with ppsOut := true, ppsRose := s.now, ppsSec := some s.tiller.taiSec } } else s) := by
  show execPpsOutRise s = _
  simp only [execPpsOutRise, done, Bool.and_eq_true, decide_eq_true_eq, bne_iff_ne, and_assoc, apply_ite Host.Outcome.next]

theorem exec_ppsOutFall (s : State) :
    exec .ppsOutFall s = .next (if s.tiller.ppsRose + ns (s.sn 0x0216) ≤ s.now then
      { s with tiller := { s.tiller with ppsOut := false } } else s) :=
  (apply_ite Host.Outcome.next _ _ _).symm

/-- The silent sources are dropped without a write of the keeper, the ports or the TAI second. -/
theorem State.dropSilent_frame (s : State) :
    s.dropSilent.keeper = s.keeper ∧ s.dropSilent.ports = s.ports ∧ s.dropSilent.tiller.taiSec = s.tiller.taiSec := by
  simp [dropSilent, setTiller]

theorem exec_taiSecondBoundary (s : State) :
    exec .taiSecondBoundary s = .next ((Tab.keys s.ports).foldl (fun s p => s.sendLacp p)
      (if (s.dropSilent.tiller.taiState = 2 ∨ s.dropSilent.tiller.taiState = 3) ∧ s.keeper.vkeep then
        { s.dropSilent with keeper := { s.keeper with rtc := s.tiller.taiSec, sub := 0, seed := true } }
        else s.dropSilent).sendPdelay) := by
  show execTaiSecondBoundary s = _
  obtain ⟨hkeeper, hports, hsec⟩ := s.dropSilent_frame
  simp only [execTaiSecondBoundary, done, ← hkeeper, ← hports, ← hsec]
  by_cases hqualified : s.dropSilent.tiller.taiState = 2 ∨ s.dropSilent.tiller.taiState = 3
  · by_cases hvkeep : s.dropSilent.keeper.vkeep = true
    · simp only [hqualified, hvkeep, and_self, if_true]
    · simp only [hqualified, hvkeep, and_false, if_true, if_false, Bool.false_eq_true]
  · simp only [hqualified, false_and, if_false]

/-- The offset of an edge of PPS_IN is the one within half a second of it (R52). -/
theorem halfSecond_offset_unique {x off : Int} (hcong : (off - x) % 1000000000 = 0) (hlo : -500000000 ≤ off) (hhi : off < 500000000) :
    (if 2 * (x % 1000000000) < 1000000000 then x % 1000000000 else x % 1000000000 - 1000000000) = off := by
  split <;> omega

theorem exec_ppsInEdge_of_timeRef {s : State} {t : Nat} {off : Int} (href : s.tiller.timeRef = true)
    (hcong : (off - ((s.tai : Int) - ((toNs s.now : Int) - (t : Int)))) % 1000000000 = 0)
    (hlo : -500000000 ≤ off) (hhi : off < 500000000) :
    exec (.ppsInEdge t) s = .next (({ s with tiller := { s.tiller with ppsOk := true, ppsAt := s.now } }).discipline 1 3
      (off + s.ppsSeconds off)) := by
  show execPpsInEdge t s = _
  simp only [execPpsInEdge, href, if_true, done, halfSecond_offset_unique hcong hlo hhi]

theorem exec_ppsInEdge_of_no_timeRef {s : State} {t : Nat} (href : s.tiller.timeRef = false) : exec (.ppsInEdge t) s = .next s :=
  if_neg (by simp [href])

theorem exec_timeRefLoss (s : State) :
    exec .timeRefLoss s = .next (s.setTiller { s.tiller with
      timeRef := false, ppsOk := false, taiState := if s.tiller.taiState = 3 then 4 else s.tiller.taiState }) := rfl

/-- A port that takes no part, or a message of another domain (R53). -/
theorem exec_ptpMessageReceive_of_outside {s : State} {p : PortId} {m : PtpMessage}
    (h : s.ptpPort p = false ∨ m.domain ≠ s.sn 0x0213 0 2) : exec (.ptpMessageReceive p m) s = .next s := by
  have hskip : (!s.ptpPort p || m.domain != s.sn 0x0213 0 2) = true := by
    rcases h with hport | hdomain
    · rw [hport, Bool.not_false, Bool.true_or]
    · rw [bne_iff_ne.2 hdomain, Bool.or_true]
  exact if_pos hskip

section
variable {s : State} {p : PortId} {m : PtpMessage} (hport : s.ptpPort p = true) (hdomain : m.domain = s.sn 0x0213 0 2)
include hport hdomain

theorem exec_ptpMessageReceive_pdelayReq (hkind : m.kind = .pdelayReq) :
    exec (.ptpMessageReceive p m) s = .next (s.emit (.ptp p { s.ptpMsg p .pdelayResp m.seq 0 with
      corrNs := m.corrNs + (s.txTime p - s.rxTime p : Nat) })) := by
  show execPtpMessageReceive p m s = _
  simp [execPtpMessageReceive, hport, hdomain, hkind, done]

theorem exec_ptpMessageReceive_pdelayRespFollowUp (hkind : m.kind = .pdelayRespFollowUp) :
    exec (.ptpMessageReceive p m) s = .next (s.setPtp p { s.ptpOf p with
      delay := ((((s.ptpOf p).t4 : Int) - ((s.ptpOf p).t1 : Int)) -
        (((m.tsSec * 1000000000 + m.tsNs : Nat) : Int) - ((s.ptpOf p).t2 : Int)) - (s.ptpOf p).respCorr - m.corrNs) / 2 }) := by
  show execPtpMessageReceive p m s = _
  simp [execPtpMessageReceive, hport, hdomain, hkind, done]

variable (hboundary : s.sn 0x0213 0 1 ≠ 1)
include hboundary

theorem exec_ptpMessageReceive_announce (hkind : m.kind = .announce) :
    exec (.ptpMessageReceive p m) s = .next (s.hearAnnounce p m) := by
  show execPtpMessageReceive p m s = _
  simp [execPtpMessageReceive, State.ptpTransparent, hport, hdomain, hkind, hboundary, done]

theorem exec_ptpMessageReceive_sync (hkind : m.kind = .sync) (hstep : m.twoStep = false) :
    exec (.ptpMessageReceive p m) s = .next (if s.facesMaster p then s.ptpSync p (s.rxTime p) m.corrNs m else s) := by
  show execPtpMessageReceive p m s = _
  cases hmaster : s.facesMaster p <;>
    simp [execPtpMessageReceive, State.ptpTransparent, hport, hdomain, hkind, hboundary, hstep, hmaster, done]

theorem exec_ptpMessageReceive_twoStepSync (hkind : m.kind = .sync) (hstep : m.twoStep = true) (hmaster : s.facesMaster p = true) :
    exec (.ptpMessageReceive p m) s = .next (s.setPtp p { s.ptpOf p with syncAt := some (m.seq, s.rxTime p, m.corrNs) }) := by
  show execPtpMessageReceive p m s = _
  simp [execPtpMessageReceive, State.ptpTransparent, hport, hdomain, hkind, hboundary, hstep, hmaster, done]

theorem exec_ptpMessageReceive_followUp {rx : Nat} {c : Int} (hkind : m.kind = .followUp)
    (hsync : (s.ptpOf p).syncAt = some (m.seq, rx, c)) (hmaster : s.facesMaster p = true) :
    exec (.ptpMessageReceive p m) s = .next (s.ptpSync p rx (c + m.corrNs) m) := by
  show execPtpMessageReceive p m s = _
  simp [execPtpMessageReceive, State.ptpTransparent, hport, hdomain, hkind, hboundary, hsync, hmaster, done]

end

/-- Settles O3, one lemma for each command, and for each kind of PTP message. -/
theorem tillerTimeAndOutputs : Obligations.TillerTimeAndOutputs := by
  unfold Obligations.TillerTimeAndOutputs
  refine ⟨fun s => rfl, exec_ppsOutRise, exec_ppsOutFall, ?second, fun s t off => exec_ppsInEdge_of_timeRef,
    fun s t => exec_ppsInEdge_of_no_timeRef, ?lost, ?ptp, fun s p m => exec_ptpMessageReceive_of_outside⟩
  case second =>
    rintro s _ rfl
    exact exec_taiSecondBoundary s
  case lost =>
    intro s
    refine ⟨_, exec_timeRefLoss s, ?_⟩
    rw [State.setTiller_tiller]
    exact ⟨rfl, rfl, rfl, s.tillerAndHostOnly_setTiller _⟩
  case ptp =>
    intro s p m hport hdomain
    refine ⟨exec_ptpMessageReceive_pdelayReq hport hdomain, exec_ptpMessageReceive_pdelayRespFollowUp hport hdomain, ?announce,
      fun hkind hstep hboundary => exec_ptpMessageReceive_sync hport hdomain hboundary hkind hstep,
      fun hkind hstep hboundary => exec_ptpMessageReceive_twoStepSync hport hdomain hboundary hkind hstep,
      fun rx c hkind hsync hboundary => exec_ptpMessageReceive_followUp hport hdomain hboundary hkind hsync⟩
    rintro hkind hboundary _ rfl
    exact exec_ptpMessageReceive_announce hport hdomain hboundary hkind

end Sys2Proof.Machine
end

section
/-! The state after reset (R16, R41, R68, R269, R363, R369, R450, R456, R477). -/

namespace Sys2Proof.Machine

/-- A setting that nothing has written reads the default of its row (R16). -/
theorem Settings.get_of_unwritten {t : Settings} {id idx : Nat} (h : Tab.find? t (id * 65536 + idx) = none) :
    t.get id idx = ((Catalogue.row? id).map (fun r => Catalogue.dflt r idx)).getD [] := by
  simp only [Settings.get, h]
  cases Catalogue.row? id <;> rfl

/-- Settles O54: after reset every table is empty, so that each entry reads its reset value, and every register holds its own. -/
theorem resetState : Obligations.ResetState := by
  unfold Obligations.ResetState
  exact ⟨rfl, rfl, fun id i _ => Settings.get_of_unwritten (Tab.find_nil _), rfl, rfl, rfl, rfl, fun id => rfl, rfl, fun key => rfl,
    fun k => ⟨rfl, rfl⟩, rfl, rfl, rfl, rfl, rfl, rfl, rfl, fun n => rfl, rfl⟩

end Sys2Proof.Machine
end

section
/-! Attempts of a line port: their start, negotiation, and the failures of Table 3-3 (R77, R79, R81). -/

namespace Sys2Proof.Machine

theorem exec_trainingAttemptStart (s : State) (p : PortId) :
    exec (.trainingAttemptStart p) s = .next (if s.attemptDue p then s.beginAttempt p else s) :=
  (apply_ite Host.Outcome.next _ _ _).symm

theorem exec_retryWaitExpiry (s : State) (p : PortId) :
    exec (.retryWaitExpiry p) s = .next (if s.attemptDue p ∧ (s.port p).st ≠ .suspended then s.beginAttempt p else s) :=
  (apply_ite Host.Outcome.next _ _ _).symm

theorem exec_suspensionIntervalExpiry (s : State) (p : PortId) :
    exec (.suspensionIntervalExpiry p) s = .next (if s.attemptDue p ∧ (s.port p).st = .suspended then s.beginAttempt p else s) :=
  (apply_ite Host.Outcome.next _ _ _).symm

section
variable {s : State} {p : PortId} (hattempt : (s.port p).attempt = true)
include hattempt

/-- The mode found is the head of the modes in common, fastest first (R77). -/
theorem exec_negotiationComplete {partner : ModeSet} (hst : (s.port p).st = .negotiating) :
    exec (.negotiationComplete p partner) s = .next (match (s.advertised p).filter (fun m => partner.val.testBit (m - 1)) with
      | m :: _ => s.setPort p { s.port p with st := .training, runMode := m, attemptAt := s.now }
      | [] => s.failAttempt p 5) := by
  show execNegotiationComplete p partner s = _
  simp only [execNegotiationComplete, hattempt, hst, ← List.head?_filter]
  cases (s.advertised p).filter (fun m => partner.val.testBit (m - 1)) <;> rfl

theorem exec_negotiationTimeout (hst : (s.port p).st = .negotiating)
    (hlate : (s.port p).attemptAt + ns (s.sn 0x0305 p 0) ≤ s.now) :
    exec (.negotiationTimeout p) s = .next (s.failAttempt p (if (s.port p).sawSignal then 1 else 6)) :=
  if_pos ⟨hattempt, hst, hlate⟩

/-- An Ethernet attempt has the training limit of its modulation: that of NRZ in modes 4 and 5 (Table 3-3). -/
theorem exec_trainingTimeout_of_ethernet (hst : (s.port p).st = .training) (hmode : (s.port p).runMode ≠ 6)
    (hlate : (s.port p).attemptAt + ns (s.sn 0x0305 p (if (s.port p).runMode = 4 ∨ (s.port p).runMode = 5 then 3 else 2)) ≤ s.now) :
    exec (.trainingTimeout p) s = .next (s.failAttempt p (if (s.port p).sawSignal then 3 else 6)) := by
  have hlimit : (if isPam4 (s.port p).runMode then s.sn 0x0305 p 2 else s.sn 0x0305 p 3) =
      s.sn 0x0305 p (if (s.port p).runMode = 4 ∨ (s.port p).runMode = 5 then 3 else 2) := by
    by_cases hnrz : (s.port p).runMode = 4 ∨ (s.port p).runMode = 5
    · rw [if_pos hnrz, if_neg (by simpa [isPam4] using fun h4 => hnrz.resolve_left h4)]
    · rw [if_neg hnrz, if_pos (by simpa [isPam4] using hnrz)]
  show execTrainingTimeout p s = _
  simp only [execTrainingTimeout, hlimit, hattempt, hst, hlate, hmode, if_false, and_self, if_true]
  rfl

/-- An OTU4 attempt names the highest fault cause present (R103). -/
theorem exec_trainingTimeout_of_otu4 (hst : (s.port p).st = .training) (hmode : (s.port p).runMode = 6)
    (hlate : (s.port p).attemptAt + ns (s.sn 0x0305 p 2) ≤ s.now) :
    exec (.trainingTimeout p) s = .next (s.failAttempt p (match activeRows (s.otnOf p).defects with
      | r :: _ => causeDefect r
      | [] => 3)) := by
  show execTrainingTimeout p s = _
  have hpam : isPam4 6 = true := rfl
  simp only [execTrainingTimeout, hmode, hpam, hattempt, hst, hlate, and_self, if_true]
  rfl

theorem exec_nextPageReceive (hst : (s.port p).st = .negotiating) :
    exec (.nextPageReceive p) s = .next (
      let t := s.setPort p { s.port p with pages := (s.port p).pages + 1 }
      if s.sn 0x0305 p 1 < (s.port p).pages + 1 then t.failAttempt p 2 else t) := by
  show execNextPageReceive p s = _
  simp [execNextPageReceive, hattempt, hst, done, causePageFlood, apply_ite Host.Outcome.next]

end

/-- Settles O4, one lemma for each command; a failure is the model's own by its definition. -/
theorem portAttempts : Obligations.PortAttempts := by
  unfold Obligations.PortAttempts
  exact ⟨fun s p cause => rfl, exec_trainingAttemptStart, exec_retryWaitExpiry, exec_suspensionIntervalExpiry,
    fun s p partner hattempt => exec_negotiationComplete hattempt, fun s p => exec_negotiationTimeout,
    fun s p => exec_trainingTimeout_of_ethernet, fun s p => exec_trainingTimeout_of_otu4, fun s p => exec_nextPageReceive⟩

end Sys2Proof.Machine
end

section
/-! Signal on a line lane, where the table of the ports is not canonical (R79, R99). -/

namespace Sys2Proof.Machine

/-- P00 stands in the table of the ports twice: as the port after reset, which is what a read gives, and behind it as an OTU4 port. L001 has
signal. -/
def twicePort0 : State := { State.reset with ports := [(0, {}), (0, { runMode := 6 })], lanes := [(1, { signal := true })] }

/-- With signal on L000 as well the write of P00, which is not in an attempt, erases the entry that is as after reset, the OTU4 port behind
it is read, and its clear interval starts. -/
theorem exec_signalAppears_twicePort0 : ∃ t, exec (.signalAppears 0) twicePort0 = .next t ∧ t.otn ≠ [] :=
  ⟨_, rfl, by decide +kernel⟩

/-- Refutes O5 by its clause on SIGNAL_APPEARS, in which the running mode is that of the port as it was read before the write, while the
model reads the port once it has been written. The two agree in a canonical table (`State.port_setPort`), but the statement is about every
state, and in `twicePort0` they differ. -/
theorem not_laneTraining : ¬ Obligations.LaneTraining := by
  unfold Obligations.LaneTraining
  rintro ⟨-, -, signal, -⟩
  obtain ⟨t, ht, -, -, -, otn⟩ := signal twicePort0 0
  obtain ⟨u, hu, started⟩ := exec_signalAppears_twicePort0
  have htu : u = t := Host.Outcome.next.inj (hu.symm.trans ht)
  have hmode : (twicePort0.port ((0 : LaneId) / 2)).runMode ≠ 6 := by decide +kernel
  simp only [hmode, false_and, if_false] at otn
  exact started (htu ▸ otn)

end Sys2Proof.Machine
end

section
/-! The end of a watchdog recovery (R83). -/

namespace Sys2Proof.Machine

/-- The watchdog of class 0 on P00 is in a recovery that is over, and keeps a time at which it was reached. -/
def recoveredReached : State := State.reset.setPauseRx 0 0 { recovery := some 0, reachedAt := some 0 }

/-- The watchdog restarts from zero: the time at which it was reached goes with the recovery (R83). -/
theorem exec_pauseWatchdogRecoveryEnd {s : State} {p : PortId} {c : ClassId} {t : Nat} (hrecovery : (s.pauseRx p c).recovery = some t)
    (hover : t ≤ s.now) :
    exec (.pauseWatchdogRecoveryEnd p c) s = .next (s.setPauseRx p c { s.pauseRx p c with
      recovery := none, held := 0, reachedAt := none }) := by
  show execPauseWatchdogRecoveryEnd p c s = _
  simp only [execPauseWatchdogRecoveryEnd, hrecovery, hover, if_true, done]

/-- Refutes O6. At the end of a recovery the time at which the watchdog was reached goes too, since the watchdog restarts from zero (R83); the
statement leaves it as it was, which differs where one stands, as in `recoveredReached`. -/
theorem not_portPauseAndRecalibration : ¬ Obligations.PortPauseAndRecalibration := by
  unfold Obligations.PortPauseAndRecalibration
  rintro ⟨-, -, -, recoveryEnd, -⟩
  have hrecovery : (recoveredReached.pauseRx (0 : PortId) (0 : ClassId)).recovery = some 0 := by decide +kernel
  have answers := recoveryEnd recoveredReached 0 0 0 hrecovery (Nat.zero_le _)
  rw [exec_pauseWatchdogRecoveryEnd hrecovery (Nat.zero_le _)] at answers
  have same := congrArg (fun u : State => u.pauseRx 0 0) (Host.Outcome.next.inj answers)
  revert same
  decide +kernel

end Sys2Proof.Machine
end

section
/-! Loss of signal and of a line reference clock, and OTU4 framing (R75, R79, R80, R97 to R108). -/

namespace Sys2Proof.Machine

/-- Mode 6 is OTU4 (R94, Table 16-4). -/
theorem State.isOtn_iff (s : State) (p : Nat) : s.isOtn p = true ↔ s.sn 0x0301 p = 6 := beq_iff_eq

/-- The lane loses signal and lock, counted where there was signal, whatever its port then makes of it (R393). -/
theorem State.laneLoss_eq (s : State) (l : Nat) :
    s.laneLoss l = (
      let p : Nat := l / 2
      let t := (if (s.lane l).signal then s.noteFault 12 else s).setLane l { s.lane l with signal := false, locked := false }
      if s.laneUsed l = false ∧ l ≠ 2 * p then t
      else if s.sn 0x0301 p = 6 then
        let u := (t.setOtn p (if (s.lane l).signal then (s.otnOf p).losing (l % 2) s.now else { s.otnOf p with sigSince := none })).setDefects p
          ((s.otnOf p).defects ||| rowBit 1)
        if (s.port p).attempt ∧ (s.lane l).signal then u.failAttempt p 6 else u
      else if (s.port p).st = .up then (t.portDown p 7 false).beginAttempt p
      else if (s.port p).attempt ∧ (s.lane l).signal ∧ ((s.port p).st = .negotiating → l = 2 * p) then t.failAttempt p 6
      else t) := by
  have hlane : (if (s.lane l).signal then s.noteFault 12 else s).lane l = s.lane l := by split <;> rfl
  have hotn : ∀ y, ((if (s.lane l).signal then s.noteFault 12 else s).setLane l y).otnOf (l / 2) = s.otnOf (l / 2) := by
    intro y; split <;> rfl
  simp only [laneLoss, modLane, portOfLane, hlane, hotn, isOtn_iff, Bool.not_eq_true']
  rfl

theorem exec_lossOfSignal (s : State) (l : LaneId) : exec (.lossOfSignal l) s = .next (s.laneLoss l) := rfl

theorem exec_refclkLineLoss {s : State} {n : Fin 6} (hfirst : s.refclkLost.contains n.val = false) :
    exec (.refclkLineLoss n) s = .next ((List.range 32).foldl
      (fun s k => if (s.lane (32 * n + k)).signal then s.laneLoss (32 * n + k) else s) { s with refclkLost := s.refclkLost ++ [n.val] }) := by
  show execRefclkLineLoss n s = _
  simp only [execRefclkLineLoss, hfirst, done, Bool.false_eq_true, if_false]

theorem exec_otu4FrameReceive {s : State} {p : PortId} {f : OtuFrame} (hmode : s.sn 0x0301 p = 6) (hshed : (s.port p).shed = false) :
    exec (.otu4FrameReceive p f) s = .next (
      let t := ((s.draw.2.count 3 (256 * p + 16) f.fecBits).count 3 (256 * p + 17) f.fecSymbols).count 3 (256 * p + 18) f.fecUncorrectable
      let o := s.otnFrame p (s.draw.1.toNat % 16384) f
      (t.setOtn p o).setDefects p (t.frameDefects p o)) :=
  if_neg (by simp [(s.isOtn_iff p).2 hmode, hshed])

/-- A frame brings the client's PCS lock, and one that loses it the time at which it was lost (R104). -/
theorem State.otnFrame_pcs (s : State) (p cm : Nat) (f : OtuFrame) :
    (s.otnFrame p cm f).pcsLock = f.pcsLock ∧
      (s.otnFrame p cm f).pcsLostAt = (if (s.otnOf p).pcsLock = true ∧ f.pcsLock = false then some s.now else (s.otnOf p).pcsLostAt) := by
  by_cases hais : (s.otnOf p).aisSince.isSome <;> simp [otnFrame, hais, replacedFrame]

/-- A loss of PCS lock on an earlier clock takes a port that is up down, with its highest fault cause (R104, Table 4-5). -/
theorem State.pcsDown_of_up {s : State} {p t : Nat} (hlost : (s.otnOf p).pcsLostAt = some t) (hpast : t < s.now)
    (hup : (s.port p).st = .up) :
    s.pcsDown p = ((s.setOtn p { s.otnOf p with pcsLostAt := none }).portDown p (match activeRows (s.otnOf p).defects with
      | r :: _ => causeDefect r
      | [] => causeClientPcs) false).beginAttempt p := by
  have hpastAny : (s.otnOf p).pcsLostAt.any (fun t => decide (t < s.now)) = true := by
    rw [hlost, Option.any_some, decide_eq_true hpast]
  exact (if_pos hpastAny).trans (if_pos hup)

theorem exec_otu4FrameTransmit {s : State} {p : PortId} (hmode : s.sn 0x0301 p = 6) :
    exec (.otu4FrameTransmit p) s = .next (
      (if s.towardPartner (2 * p) = .own ∧ s.towardPartner (2 * p + 1) = .own then s.draw.2.emit (.otuOverhead p (s.otuSent p s.draw.1))
        else s.draw.2).setOtn p { s.otnOf p with
        txMfas := ((s.otnOf p).txMfas + 1) % 256, txMarker := ((s.otnOf p).txMarker + 1) % 240
        opuBips := s.opuBip p s.draw.1 :: (s.otnOf p).opuBips.take 1 }) :=
  if_neg (by simp [(s.isOtn_iff p).2 hmode])

/-- The overhead of a frame that leaves (R97, R102, R105, Tables 4-3 and 4-4). -/
theorem State.otuSent_overhead (s : State) (p : Nat) (r : W64) :
    (s.otuSent p r).pmStat = (if (s.port p).st = .test ∨ s.son 0x0406 p then 5 else if (s.port p).st = .disabled then 6 else 1) ∧
      ((s.otuSent p r).lck = false → (s.otuSent p r).mfas = 0 → (s.otuSent p r).psi = 7) ∧
      ((s.otuSent p r).lck = true → (s.otuSent p r).psi = 0x55 ∧ (s.otuSent p r).jc = List.replicate 6 0x55) ∧
      ∀ a b l, (s.otnOf p).opuBips = a :: b :: l → (s.otuSent p r).smBip = b.toNat ∧ (s.otuSent p r).pmBip = b.toNat := by
  refine ⟨?stat, ?client, ?lck, ?bips⟩
  case stat => simp [otuSent, sendsLck]
  case client =>
    intro (hlck : s.sendsLck p = false) (hmfas : (s.otnOf p).txMfas = 0)
    simp [otuSent, hlck, hmfas]
  case lck =>
    intro (hlck : s.sendsLck p = true)
    simp [otuSent, hlck]
  case bips =>
    intro a b l hbips
    simp [otuSent, hbips]

theorem exec_otnPersistenceExpiry {s : State} {p : PortId} (hmode : s.sn 0x0301 p = 6) (hshed : (s.port p).shed = false) :
    exec (.otnPersistenceExpiry p) s = .next (
      let o := s.otnOf p
      let now (x : Stage) (was : Bool) := if x.since + ms 3 ≤ s.now then x.out else was
      s.setDefects p (setRow (setRow (setRow o.defects 2 (now o.lane (o.defects.testBit 1))) 3 (now o.frame (o.defects.testBit 2)))
        4 (now o.multi (o.defects.testBit 3)))) :=
  if_neg (by simp [(s.isOtn_iff p).2 hmode, hshed])

theorem exec_dlosClearTimeout {s : State} {p : PortId} {t : Nat} (hsignal : (s.otnOf p).sigSince = some t) (hmode : s.sn 0x0301 p = 6) :
    exec (.dlosClearTimeout p) s = .next (if t + ms 1 ≤ s.now then s.setDefects p (setRow (s.otnOf p).defects 1 false) else s) := by
  show execDlosClearTimeout p s = _
  simp only [execDlosClearTimeout, hsignal, (s.isOtn_iff p).2 hmode, and_true, done, apply_ite Host.Outcome.next]

theorem exec_otnSecondEnd (s : State) :
    exec .otnSecondEnd s = .next ((List.range 96).foldl (fun s p => if s.sn 0x0301 p = 6 then s.endSecond p else s) s) := by
  show execOtnSecondEnd s = _
  simp only [execOtnSecondEnd, State.isOtn_iff, done]

/-- Settles O7, one lemma for each command, and one for what a frame brings, what leaves in one, and the port that lost its PCS lock. -/
theorem otnAndSignalLoss : Obligations.OtnAndSignalLoss := by
  unfold Obligations.OtnAndSignalLoss
  refine ⟨?loss, fun s n => exec_refclkLineLoss, fun s p f => exec_otu4FrameReceive, ?frame, fun s p t => State.pcsDown_of_up,
    fun s p => exec_otu4FrameTransmit, ?sent, fun s p => exec_otnPersistenceExpiry, fun s p t => exec_dlosClearTimeout, exec_otnSecondEnd⟩
  case loss =>
    intro s l
    rw [exec_lossOfSignal, State.laneLoss_eq]
  case frame =>
    intro s p f hmode hshed
    exact ⟨_, _, exec_otu4FrameReceive hmode hshed, rfl, s.otnFrame_pcs p _ f⟩
  case sent =>
    rintro s p m r tim x rfl rfl rfl
    obtain ⟨stat, client, lck, bips⟩ := s.otuSent_overhead p r
    exact ⟨rfl, rfl, rfl, rfl, rfl, rfl, stat, client, lck, rfl, bips, rfl, rfl, rfl⟩

end Sys2Proof.Machine
end

section
/-! Sheaf lanes, their training, superframes, and the going down of the links (R345 to R350, R467). -/

namespace Sys2Proof.Machine

/-- A time that was kept, if one was, is past by a span. -/
theorem any_lt_add_eq_false {o : Option Nat} {span now : Nat} (h : ∀ t, o = some t → t + span ≤ now) :
    o.any (fun t => decide (now < t + span)) = false := by
  cases o with
  | none => rfl
  | some t => simpa using h t rfl

section
variable {s : State} {l : SheafLaneId}

theorem exec_sheafSymbolLockGain (hpower : ((s.link (linkOf l)).lane (laneNo l)).power = 0) :
    exec (.sheafSymbolLockGain l) s = .next (
      let t := s.setLink (linkOf l) (((s.link (linkOf l)).modLane (laneNo l) (fun y => { y with lock := true, signal := true })).modLane 8
        (fun y => { y with signal := true }))
      { t with sheaf := { t.sheaf with refclk := true } }) :=
  if_neg (not_not_intro hpower)

/-- Loss of the clock lane takes the lock of every lane, and loss on a data lane fails an attempt (R346, R349). -/
theorem exec_sheafLaneLossOfSignal (s : State) (l : SheafLaneId) :
    exec (.sheafLaneLossOfSignal l) s = .next (
      let t := s.lostLane l downSignal false
      let u := if laneNo l = 8 then t.setLink (linkOf l) (t.link (linkOf l)).unlocked else t
      if ((s.link (linkOf l)).lane (laneNo l)).signal = true ∧ laneNo l < 8 ∧ (s.link (linkOf l)).up = false ∧
          (s.link (linkOf l)).attemptAt.isSome = true then u.sheafFail (linkOf l) l causeNoSignal else u) := by
  show execSheafLaneLossOfSignal l s = _
  simp only [execSheafLaneLossOfSignal, done, State.modLink, Bool.not_eq_true', apply_ite Host.Outcome.next]

/-- A training frame within the bounds of its attempt; a field that holds is no request (R346, log entry 44). -/
theorem exec_sheafTrainingFrame {q : CoefRequest} {c : Bool} {t : Nat} (hattempt : (s.link (linkOf l)).attemptAt = some t)
    (hup : (s.link (linkOf l)).up = false) (hpowered : s.linkPowered (linkOf l) = true) (htest : s.linkTest (linkOf l) = false)
    (hdata : laneNo l ≠ 8) (hearly : s.now < t + ns (sheafBound 3))
    (hfew : q.delta ≠ 0 → (s.link (linkOf l)).requests + 1 ≤ sheafBound 5) :
    exec (.sheafTrainingFrame l q c) s = .next (
      let x := (s.link (linkOf l)).modLane (laneNo l) (fun y => { y with
        signal := true, converged := y.converged || c, pendingReq := if q.delta = 0 then y.pendingReq else some q })
      ((s.setLink (linkOf l) { x with
        requests := if q.delta = 0 then (s.link (linkOf l)).requests else (s.link (linkOf l)).requests + 1
        attemptAt := if (List.range 8).all (fun j => (x.lane j).converged) then none else some t }).answerSheaf l).adaptSheaf l) := by
  have hnoFlood : ¬(decide (q.delta ≠ 0) = true ∧ sheafBound 5 < (s.link (linkOf l)).requests + 1) := fun h =>
    Nat.not_lt.2 (hfew (of_decide_eq_true h.1)) h.2
  show execSheafTrainingFrame l q c s = _
  simp only [execSheafTrainingFrame, hattempt, hup, hpowered, htest, hdata, Nat.not_le.2 hearly, hnoFlood, Bool.not_true,
    Bool.false_eq_true, or_self, if_false]
  by_cases hhold : q.delta = 0
  · simp only [hhold, ne_eq, not_true_eq_false, decide_false, Bool.false_eq_true, if_false, if_true]
    rfl
  · simp only [hhold, ne_eq, not_false_eq_true, decide_true, if_false, if_true]
    rfl

end

/-- A request whose response interval is over moves one of the three taps of a Sheaf lane (R346). -/
theorem State.answerSheaf_of_pending {s : State} {l : SheafLaneId} {q : CoefRequest} {st : Nat} {v : Int}
    (hpending : ((s.link (linkOf l)).lane (laneNo l)).pendingReq = some q)
    (hover : ∀ t, ((s.link (linkOf l)).lane (laneNo l)).lastAnswer = some t → t + ns (sheafBound 4) ≤ s.now) (htap : 2 ≤ q.tap.val)
    (hanswer : answerTap (tapBounds 4 q.tap).1 (tapBounds 4 q.tap).2 (((s.link (linkOf l)).lane (laneNo l)).taps.getD (q.tap - 2) 0)
      q.delta = (st, v)) :
    s.answerSheaf l = (s.setLink (linkOf l) ((s.link (linkOf l)).modLane (laneNo l) (fun y => { y with
      pendingReq := none, lastAnswer := some s.now, taps := y.taps.set (q.tap - 2) v }))).emit (.sheafCoef l q.tap st) := by
  simp only [answerSheaf, hpending, any_lt_add_eq_false hover, Nat.not_lt.2 htap, hanswer, if_false, Bool.false_eq_true]
  rfl

section
variable {s : State} {n : LinkId}

theorem exec_sheafTrainingRetry_of_due {t : Nat} (hretry : (s.link n).retryAt = some t) (hdue : t ≤ s.now) :
    exec (.sheafTrainingRetry n) s = .next (s.setLink n (if (s.link n).active then (s.link n).attempt s.now else (s.link n).rest)) := by
  show execSheafTrainingRetry n s = _
  simp [execSheafTrainingRetry, hretry, hdue, done]

/-- An attempt past its bound fails on its first lane that has not converged (R346). -/
theorem exec_sheafTrainingRetry_of_late {t k : Nat} (hretry : (s.link n).retryAt = none) (hattempt : (s.link n).attemptAt = some t)
    (hlate : t + ns (sheafBound 3) ≤ s.now) (hup : (s.link n).up = false)
    (hlane : (List.range 8).find? (fun k => !((s.link n).lane k).converged) = some k) :
    exec (.sheafTrainingRetry n) s = .next (s.sheafFail n (9 * n + k)
      (if ((s.link n).lane k).signal then causeTrainTimeout else causeNoSignal)) := by
  have hlateAny : (s.link n).attemptAt.any (fun t => decide (t + ns (sheafBound 3) ≤ s.now)) = true := by
    rw [hattempt, Option.any_some, decide_eq_true hlate]
  show execSheafTrainingRetry n s = _
  simp only [execSheafTrainingRetry, hretry, Option.any_none, hlateAny, hup, hlane, Option.getD_some, done, Bool.not_false, and_self,
    Bool.false_eq_true, if_false, if_true]

/-- The header of an aligned superframe is checked, and counts for or against the link (R347, R349). -/
theorem exec_superframeReceive_of_aligned {x : Superframe} {l : SheafLink} (hpowered : s.linkPowered n = true)
    (htest : s.linkTest n = false)
    (hl : l = { s.link n with
      lanes := ((s.link n).lanes.zipIdx).map (fun (y : SheafLane × Nat) => if y.2 < 8 then y.1.frame (x.seen.getD y.2 []) else y.1) })
    (haligned : l.aligned = true) :
    exec (.superframeReceive n x) s = .next (
      if crc32c crcOnes ((x.payload.take 32).take 28) = BitVec.ofNat 32 (beAt (x.payload.take 32) 28 4) then
        let t := (s.setLink n l).setLink n { l with crcOk := (s.link n).crcOk + 1, crcBad := 0 }
        if (s.link n).up then t.header n (x.payload.take 32) else if 8 ≤ (s.link n).crcOk + 1 then t.sheafUp n else t
      else
        let t := (s.setLink n l).setLink n { l with crcOk := 0, crcBad := (s.link n).crcBad + 1 }
        if (s.link n).up ∧ 8 ≤ (s.link n).crcBad + 1 then t.sheafDown n downCrc else t) := by
  subst hl
  show execSuperframeReceive n x s = _
  simp only [execSuperframeReceive, hpowered, htest, haligned, done, Bool.not_true, Bool.false_eq_true, or_self, if_false,
    apply_ite Host.Outcome.next]

theorem exec_superframeSend_of_due (hpowered : s.linkPowered n = true) (htest : s.linkTest n = false)
    (hconverged : ((s.link n).lanes.take 8).all (fun x => x.converged) = true) (hdue : (s.link n).sentAt + superframeTime ≤ s.now) :
    exec (.superframeSend n) s = .next (
      let slots := (s.link n).txq.take 255
      (s.setLink n { s.link n with txq := (s.link n).txq.drop 255, sfNumber := (s.link n).sfNumber + 1, sentAt := s.now }).emit
        (.superframe n ((List.range 8).map (laneSymbols ((s.superHeader n ++ slots.flatten).map Symbol.data ++
          (List.replicate (255 - slots.length) idleSlot).flatten))))) :=
  if_neg (by simp [hpowered, htest, hconverged, hdue])

end

/-- Settles O23, one lemma for each command, and one for the answer to a request. -/
theorem sheafLinks : Obligations.SheafLinks := by
  unfold Obligations.SheafLinks
  exact ⟨fun s l => exec_sheafSymbolLockGain, fun s l => rfl, exec_sheafLaneLossOfSignal, fun s => rfl,
    fun s l q c t => exec_sheafTrainingFrame, fun s l q st v => State.answerSheaf_of_pending,
    fun s n t => exec_sheafTrainingRetry_of_due, fun s n t k => exec_sheafTrainingRetry_of_late,
    fun s n x l => exec_superframeReceive_of_aligned, fun s n => exec_superframeSend_of_due, fun s n => rfl⟩

end Sys2Proof.Machine
end

section
/-! A received LACP frame, where the table of the ports is not canonical (R130). -/

namespace Sys2Proof.Machine

/-- The frame of a partner that is in sync and does not collect. -/
def inSyncOnly : LacpInfo := { inSync := true, collecting := false, distributing := false }

/-- In `twicePort0` P00 reads as after reset. The model writes the frame's time first, which is time 0, so that the write erases that entry; the
OTU4 port behind it is read, and its member collects. -/
theorem exec_lacpFrameReceive_twicePort0 : ∃ t, exec (.lacpFrameReceive 0 inSyncOnly) twicePort0 = .next t ∧ (t.port 0).runMode = 6 :=
  ⟨_, rfl, by decide +kernel⟩

/-- Refutes O9 by its clause (a), in which the frame's time and the actor's state are one write of the port as it was read, while the model
writes the time and reads the port again before it writes the state. The two agree in a canonical table (`State.port_setPort`), but the
statement is about every state, and in `twicePort0` the first puts a port in no mode where the second puts the OTU4 port. -/
theorem not_aggregationMembers : ¬ Obligations.AggregationMembers := by
  unfold Obligations.AggregationMembers
  rintro ⟨receive, -⟩
  obtain ⟨t, ht, hmode⟩ := exec_lacpFrameReceive_twicePort0
  have stated := Host.Outcome.next.inj (ht.symm.trans (receive twicePort0 0 inSyncOnly))
  rw [stated] at hmode
  revert hmode
  decide +kernel

end Sys2Proof.Machine
end

section
/-! What an error in an on-die SRAM does (R122, R129, R147, R160, R244, R251, R313). -/

namespace Sys2Proof.Machine

/-- An entry with a parity error goes, and a static one waits for its restore (R122). -/
theorem State.macParity_of_entry {s : State} {k i : Nat} {e : MacEntry} (hentry : Tab.find? (s.mac k).entries i = some e) :
    s.macParity k i = ((s.setMac k { s.mac k with
      entries := Tab.erase (s.mac k).entries i, lost := if e.static then (s.mac k).lost ++ [(i, e)] else (s.mac k).lost }).noteFault 1).raise
      0x0404 (src 5 k) (natLe 4 (locationField i)) := by
  simp only [State.macParity, hentry]

theorem exec_onDieSramScrub_copyCount {s : State} {n : Nat} {x : Packet} (hpkt : s.pkt? n = some x) :
    exec (.onDieSramScrub (.copyCount n)) s = .next ((s.bufferError (x.port / 12) 4 n).setPkt n { x with countLost := true }) := by
  show execOnDieSramScrub (.copyCount n) s = _
  simp only [execOnDieSramScrub, hpkt, done, sliceOf]

/-- A value that is struck becomes 0, and its port's error is reported (Table 12-3). -/
theorem exec_onDieSramScrub_scheduler (s : State) (p : PortId) (c : ClassId) (v : SchedValue) :
    exec (.onDieSramScrub (.scheduler p c v)) s = .next ((s.bufferError (p / 12) 5 (8 * p + c)).zeroSched p c v) := rfl

theorem exec_onDieSramScrub_automata (s : State) (i : Nat) (correctable : Bool) :
    exec (.onDieSramScrub (.automata i correctable)) s = .next (
      if correctable ∨ s.awn.badEntries.contains i then s
      else { s.noteFault 1 with awn := { s.awn with badEntries := s.awn.badEntries ++ [i] } }) :=
  (apply_ite Host.Outcome.next _ _ _).symm

/-- A single-bit error of a line in the cache is only counted; a double-bit error of a clean line has it read again, and of a dirty one loses
the record (R147, R160). -/
theorem State.cacheError_of_cached {s : State} {l : Nat} {double : Bool} {r : FlowRec} {c : CacheLine} (hrec : s.recAt l = some r)
    (hline : (s.cacheSet (s.flowSet (recKey r.bytes))).find? (fun c => c.loc == l) = some c) :
    s.cacheError l double = (
      if double = false then s.noteFault 1
      else if c.dirty then (s.noteFault 1).loseRecord (s.placePc l) l
      else ((s.noteFault 1).uncache l).issueRead (s.placePc l) (s.placeAddr l) l false .refill 4) := by
  simp only [State.cacheError, hrec, hline, Bool.not_eq_true']

/-- Settles O20, one case for each structure; what a structure does is the model's own by its definition, but for what its contents decide. -/
theorem sramErrors : Obligations.SramErrors := by
  unfold Obligations.SramErrors
  refine ⟨fun s k loc => rfl, fun s k i e => State.macParity_of_entry, fun s k t id => rfl, fun s k i => rfl, fun s n => rfl,
    fun s i => rfl, fun s p c => rfl, fun s n x => exec_onDieSramScrub_copyCount, ?scheduler, exec_onDieSramScrub_automata, ?cacheLine⟩
  case scheduler =>
    rintro s _ p c v rfl
    rw [exec_onDieSramScrub_scheduler]
    cases v <;> rfl
  case cacheLine =>
    intro s loc double r c hrec hline
    exact congrArg Host.Outcome.next (State.cacheError_of_cached hrec hline)

end Sys2Proof.Machine
end

section
/-! A request that passes its checks, outside a bale: the answer of a read, and of a direct command (R370, R381, R386). -/

namespace Sys2Proof.Machine

section
variable {s : State} {op cls : Nat} {r : Request} {key : Option Nat}

/-- The checks of a request write the host interface alone. -/
theorem State.admitted_eq_with_host (s : State) (op : Nat) (r : Request) (key : Option Nat) :
    s.admitted op r key = { s with host := (s.admitted op r key).host } := by
  cases key <;> rfl

@[simp] theorem State.admitted_frame (s : State) (op : Nat) (r : Request) (key : Option Nat) :
    (s.admitted op r key).now = s.now ∧ (s.admitted op r key).bales = s.bales ∧ (s.admitted op r key).gate = s.gate ∧
      (s.admitted op r key).ledger = s.ledger ∧ (s.admitted op r key).cnt = s.cnt := by
  rw [admitted_eq_with_host]
  exact ⟨rfl, rfl, rfl, rfl, rfl⟩

/-- A read answers what its function gives, whatever the host interface holds (R381). -/
theorem State.plainRead_of_admits {f : State → Ans} {resp : Bytes} (hadmits : s.Admits op cls true r key) (hbale : r.bale = 0)
    (hanswer : ∀ h, f { s with host := h } = { resp := resp }) :
    s.plainRead op cls r f = .next ((s.admitted op r key).answer r.mb r.seq 0 0 resp s.bales.lastTick) := by
  have hresp : f (s.admitted op r key) = { resp := resp } := by rw [admitted_eq_with_host]; exact hanswer _
  simp only [plainRead, readReq, done, State.request_admits s op cls true r key hadmits, hbale, ne_eq, not_true_eq_false, if_false, hresp,
    admitted_frame]
  rw [State.conclude_now _ _ _ _ rfl]

/-- A direct command outside a bale is carried out, and concludes (R386). -/
theorem State.directReq_of_admits {run : Option Nat → State → Ans × State} (hadmits : s.Admits op cls false r key) (hbale : r.bale = 0) :
    s.directReq op cls r run =
      (run key (s.admitted op r key)).2.conclude op r (run key (s.admitted op r key)).1 := by
  simp only [directReq, State.request_admits s op cls false r key hadmits, hbale, ne_eq, not_true_eq_false, if_false]

/-- A direct command that answers at once completes its request. -/
theorem State.directReq_answers {run : Option Nat → State → Ans × State} {a : Ans} {t : State} (hadmits : s.Admits op cls false r key)
    (hbale : r.bale = 0) (hrun : run key (s.admitted op r key) = (a, t)) (hnow : a.later = []) :
    done (s.directReq op cls r run) = .next (t.answer r.mb r.seq a.status a.detail a.resp a.tick) := by
  rw [State.directReq_of_admits hadmits hbale, hrun, State.conclude_now _ _ _ _ hnow, done]

end

end Sys2Proof.Machine
end

section
/-! Reads of rings, tables, counters, permits, microcode and the attestation log, and the quote (R112, R125, R154, R192, R234, R241, R274,
R319, R388, R421, R422). -/

namespace Sys2Proof.Machine

theorem ringAns_of_length {p : Bytes} (f : Nat → Nat → Bytes) (hlen : p.length = 12) :
    ringAns p f = { resp := f (leAt p 0 8) (leAt p 8 4) } :=
  if_neg (not_not_intro hlen)

section
variable {s : State} {r : Request} {key : Option Nat} (hbale : r.bale = 0)
include hbale

theorem exec_archiveRead (hadmits : s.Admits 0x050E 0 true r key) (hlen : r.payload.length = 12) :
    exec (.archiveRead r) s = .next ((s.admitted 0x050E r key).answer r.mb r.seq 0 0
      (ringRead s.svc.archive s.svc.archiveBase s.svc.archiveSeq s.archiveSize (leAt r.payload 0 8) (leAt r.payload 8 4)) s.bales.lastTick) :=
  State.plainRead_of_admits hadmits hbale fun _ => ringAns_of_length _ hlen

theorem exec_strawRead (hadmits : s.Admits 0x0A03 0 true r key) (hlen : r.payload.length = 12) :
    exec (.strawRead r) s = .next ((s.admitted 0x0A03 r key).answer r.mb r.seq 0 0
      (ringRead s.core.straw s.core.strawBase s.core.strawNext s.strawSize (leAt r.payload 0 8) (leAt r.payload 8 4)) s.bales.lastTick) :=
  State.plainRead_of_admits hadmits hbale fun _ => ringAns_of_length _ hlen

theorem exec_ledgerRead (hadmits : s.Admits 0x060C 0 true r key) (hlen : r.payload.length = 12) :
    exec (.ledgerRead r) s = .next ((s.admitted 0x060C r key).answer r.mb r.seq 0 0
      ((s.ledgerRecords.filter (fun (x : Nat × Bytes) =>
        decide (leAt r.payload 0 8 ≤ x.1 ∧ x.1 < leAt r.payload 0 8 + leAt r.payload 8 4))).map (·.2)).flatten s.bales.lastTick) :=
  State.plainRead_of_admits hadmits hbale fun _ => ringAns_of_length _ hlen

theorem exec_attestationLogRead (hadmits : s.Admits 0x0B08 0 true r key) (hnil : r.payload = []) :
    exec (.attestationLogRead r) s = .next ((s.admitted 0x0B08 r key).answer r.mb r.seq 0 0 s.trust.log.flatten s.bales.lastTick) :=
  State.plainRead_of_admits hadmits hbale fun _ => if_pos (List.isEmpty_iff.2 hnil)

theorem exec_bridgeRead (hadmits : s.Admits 0x0412 0 true r key) (hlen : r.payload.length = 20) (hzero : leAt r.payload 1 1 = 0)
    (hzero' : leAt r.payload 6 2 = 0) (hslice : leAt r.payload 0 1 < 8) :
    exec (.bridgeRead r) s = .next ((s.admitted 0x0412 r key).answer r.mb r.seq 0 0
      (((s.macsUnder (leAt r.payload 0 1) r.payload).map (fun (x : Nat × MacEntry) => x.2.bytes (leAt r.payload 0 1) x.1)).flatten)
      s.bales.lastTick) := by
  refine State.plainRead_of_admits hadmits hbale fun h => ?_
  simp only [hlen, hzero, hzero', Nat.not_le.2 hslice, ne_eq, not_true_eq_false, or_self, if_false]
  rfl

/-- A read by ID, which is no expert's alone, finds the row that the epoch in force sees (R241, R388). -/
theorem exec_matchRead_by_id (hadmits : s.Admits 0x0411 0 true r key) (hlen : r.payload.length = 4) (hslice : leAt r.payload 0 1 < 8)
    (hid : leAt r.payload 1 1 = 0) :
    exec (.matchRead r) s = .next ((s.admitted 0x0411 r key).answer r.mb r.seq 0 0
      (match List.find? (fun (x : Nat × MatchRow) => rowId x.2.rec_ == leAt r.payload 2 2 && x.2.visible s.bales.epoch) s.matcher.rows with
       | some x => s.rowAnswer (leAt r.payload 0 1) x.1 x.2
       | none => []) s.bales.lastTick) := by
  have hgood : ¬(8 ≤ leAt r.payload 0 1 ∨ 2 ≤ leAt r.payload 1 1) := by omega
  have hplace : leAt r.payload 1 1 ≠ 1 := by omega
  refine State.plainRead_of_admits hadmits hbale fun h => ?_
  simp only [hlen, hgood, hplace, ne_eq, not_true_eq_false, if_false, false_and]
  cases List.find? (fun (x : Nat × MatchRow) => rowId x.2.rec_ == leAt r.payload 2 2 && x.2.visible s.bales.epoch) s.matcher.rows <;> rfl

theorem exec_flowRead_by_key (hadmits : s.Admits 0x0505 0 true r key) (hlen : r.payload.length = 40) :
    exec (.flowRead r) s = .next ((s.admitted 0x0505 r key).answer r.mb r.seq 0 0
      (match (s.findRec r.payload s.bales.epoch).bind s.recAt with | some x => x.at s.bales.epoch | none => []) s.bales.lastTick) := by
  refine State.plainRead_of_admits hadmits hbale fun h => (if_pos hlen).trans ?_
  show (match (s.findRec r.payload s.bales.epoch).bind s.recAt with
    | none => ({} : Ans)
    | some x => { resp := x.at s.bales.epoch }) = _
  cases (s.findRec r.payload s.bales.epoch).bind s.recAt <;> rfl

theorem exec_permitRead (hadmits : s.Admits 0x060B 0 true r key) (hlen : r.payload.length = 40) :
    exec (.permitRead r) s = .next ((s.admitted 0x060B r key).answer r.mb r.seq 0 0
      ((((s.permitsOf r.payload).filter (fun (x : Nat × PermitEntry) => x.2.inForce)).map (fun (x : Nat × PermitEntry) => x.2.bytes)).flatten)
      s.bales.lastTick) :=
  State.plainRead_of_admits hadmits hbale fun _ => if_neg (not_not_intro hlen)

/-- Counters that exist, none of which is named in its snapshot, are read with the stamp of the read (R458). -/
theorem exec_counterRead_live {n : Nat} (hadmits : s.Admits 0x0A04 0 true r key) (hlen : r.payload.length = 4 * n) (hsome : 0 < n)
    (hmost : n ≤ 4096)
    (hlive : ∀ i, i < n → counterKnown (leAt r.payload (4 * i) 4) = true ∧ leAt r.payload (4 * i) 4 < 2 ^ 31) :
    exec (.counterRead r) s = .next ((s.admitted 0x0A04 r key).answer r.mb r.seq 0 0
      (s.stamp.bytes ++ ((List.range n).map (fun i => natLe 8 (Tab.get 0 s.cnt.live (leAt r.payload (4 * i) 4)))).flatten)
      s.bales.lastTick) := by
  have hwords : r.payload.length / 4 = n := by omega
  have hempty : r.payload.isEmpty = false := by
    rw [List.isEmpty_eq_false_iff, ← List.length_pos_iff]
    omega
  have hwhole : r.payload.length % 4 = 0 := by omega
  have hknown : ((List.range n).map (fun i => leAt r.payload (4 * i) 4)).findIdx? (fun id => !counterKnown id) = none := by
    simp only [List.findIdx?_eq_none_iff, List.forall_mem_map, List.mem_range, Bool.not_eq_false']
    exact fun i hi => (hlive i hi).1
  have hnow : ∀ id ∈ (List.range n).map (fun i => leAt r.payload (4 * i) 4), id.testBit 31 = false := by
    simp only [List.forall_mem_map, List.mem_range]
    exact fun i hi => Nat.testBit_lt_two_pow (hlive i hi).2
  have hhead : (((List.range n).map (fun i => leAt r.payload (4 * i) 4)).headD 0).testBit 31 = false := by
    cases hids : (List.range n).map (fun i => leAt r.payload (4 * i) 4) with
    | nil => rfl
    | cons id ids => exact hnow id (hids ▸ List.mem_cons_self)
  have hnone : ((List.range n).map (fun i => leAt r.payload (4 * i) 4)).any (fun id => id.testBit 31 != false) = false := by
    simpa using hnow
  refine State.plainRead_of_admits hadmits hbale fun h => ?_
  simp only [hwords, hempty, Nat.not_lt.2 hmost, hwhole, hknown, hhead, hnone, ne_eq, not_true_eq_false, if_false, Bool.false_eq_true,
    List.map_map]
  rfl

theorem exec_microcodeRead {kind : Nat} {ts : List Nat} (hadmits : s.Admits 0x0B04 2 true r key) (hlen : r.payload.length = 13)
    (htargets : headerTargets [5] r.payload 0 = .ok (kind, ts)) (hbank : leAt r.payload 8 1 < 2)
    (hrange : leAt r.payload 9 2 + leAt r.payload 11 2 ≤ 16384) :
    exec (.microcodeRead r) s = .next ((s.admitted 0x0B04 r key).answer r.mb r.seq 0 0
      ((ts.map (fun _ => ((List.range (leAt r.payload 11 2)).map (fun i => natLe 24 (if leAt r.payload 9 2 + i < 0x3000 then 0
        else Tab.get 0 s.eng.store (16384 * leAt r.payload 8 1 + (leAt r.payload 9 2 + i))))).flatten)).flatten) s.bales.lastTick) := by
  refine State.plainRead_of_admits hadmits hbale fun h => ?_
  simp only [hlen, htargets, Nat.not_le.2 hbank, Nat.not_lt.2 hrange, ne_eq, not_true_eq_false, or_self, if_false]

theorem exec_attestationQuote (hadmits : s.Admits 0x0B07 0 true r key) (hlen : r.payload.length = 32) :
    exec (.attestationQuote r) s = .next ((s.admitted 0x0B07 r key).answer r.mb r.seq 0 0
      (s.quoteBytes r.payload ++ edSign Config.identitySeed (s.quoteBytes r.payload)) s.bales.lastTick) :=
  State.plainRead_of_admits hadmits hbale fun _ => if_neg (not_not_intro hlen)

end

/-- Settles O46, one lemma for each command. -/
theorem tableReads : Obligations.TableReads := by
  unfold Obligations.TableReads
  refine ⟨?rings, fun s r key hadmits hbale => exec_attestationLogRead hbale hadmits,
    fun s r key hadmits hbale => exec_bridgeRead hbale hadmits, fun s r key hadmits hbale => exec_matchRead_by_id hbale hadmits,
    fun s r key hadmits hbale => exec_flowRead_by_key hbale hadmits, fun s r key hadmits hbale => exec_permitRead hbale hadmits,
    fun s r key n hadmits hbale => exec_counterRead_live hbale hadmits,
    fun s r key kind ts hadmits hbale => exec_microcodeRead hbale hadmits,
    fun s r key hadmits hbale => exec_attestationQuote hbale hadmits⟩
  case rings =>
    simp only [List.forall_mem_cons, List.not_mem_nil, false_imp_iff, implies_true, and_true]
    exact ⟨fun s r key hadmits hbale => exec_archiveRead hbale hadmits, fun s r key hadmits hbale => exec_strawRead hbale hadmits,
      fun s r key hadmits hbale => exec_ledgerRead hbale hadmits⟩

end Sys2Proof.Machine
end

section
/-! Bridge copy, ledger acknowledge, counter snapshot and freeze, and permit submit (R125, R263, R289, R456, R457). -/

namespace Sys2Proof.Machine

/-- A free pair that takes a body writes the gate alone. -/
theorem feedSeals_now (n : Nat) (s : State) : (State.feedSeals n s).now = s.now := by
  induction n generalizing s with
  | zero => rfl
  | succ n ih =>
    unfold State.feedSeals
    split
    · rfl
    · exact ih _

/-- A body that passes the first checks, with room and a pair that is not retired, joins the intake queue (R267, R268). -/
theorem State.takeBody_joins {s : State} {b : Bytes} {source : Nat} (hclock : s.sameClock b source = none) (hcause : s.bodyCause b = none)
    (hroom : s.gate.queue.length < 16384) (hpair : s.sealAny = true) :
    s.takeBody b source = (none, State.feedSeals 32 { s with gate := { s.gate with
      queue := s.gate.queue ++ [{ body := b, source := source, at_ := s.now }] } }) := by
  simp only [takeBody, hclock, hcause, Nat.not_le.2 hroom, hpair, if_false, Bool.not_true, Bool.false_eq_true]

section
variable {s : State} {r : Request} {key : Option Nat} (hbale : r.bale = 0)
include hbale

/-- A snapshot is armed for the next clock, or for the time that it states, where that is yet to come (R457). -/
theorem exec_counterSnapshot_arms {due : Option Nat} (hadmits : s.Admits 0x0A05 1 false r key) (hlen : r.payload.length = 16)
    (hzero : leAt r.payload 1 1 = 0) (hzero' : leAt r.payload 4 4 = 0) (hnone : s.cnt.armed = none)
    (hdue : (leAt r.payload 0 1 = 0 ∧ due = none) ∨ (leAt r.payload 0 1 = 1 ∧ leAt r.payload 8 8 ≤ s.angle / 65536 + 2 ^ 24 ∧
      due = if s.angle < leAt r.payload 8 8 * 65536 + leAt r.payload 2 2 then some (leAt r.payload 8 8 * 65536 + leAt r.payload 2 2) else none)) :
    exec (.counterSnapshot r) s = .next (State.answer { (s.admitted 0x0A05 r key) with
      cnt := { s.cnt with armed := some due, armedAt := s.now } } r.mb r.seq 0 0 [] 0) := by
  have hangle : (s.admitted 0x0A05 r key).angle = s.angle := by rw [State.admitted_eq_with_host]; rfl
  refine State.directReq_answers (a := {}) hadmits hbale ?_ rfl
  rcases hdue with ⟨hform, rfl⟩ | ⟨hform, hahead, rfl⟩
  · simp [hlen, hzero, hzero', hform, hnone]
  · simpa [hlen, hzero, hzero', hform, hnone, hangle] using hahead

theorem exec_counterSnapshot_of_armed (hadmits : s.Admits 0x0A05 1 false r key) (hlen : r.payload.length = 16)
    (hform : leAt r.payload 0 1 = 0) (hzero : leAt r.payload 1 1 = 0) (hzero' : leAt r.payload 4 4 = 0) (harmed : s.cnt.armed.isSome = true) :
    exec (.counterSnapshot r) s = .next ((s.admitted 0x0A05 r key).answer r.mb r.seq 0x0303 0 [] 0) := by
  refine State.directReq_answers (a := { status := 0x0303 }) hadmits hbale ?_ rfl
  simp [hlen, hzero, hzero', hform, harmed]

theorem exec_counterFreeze (hadmits : s.Admits 0x0A06 1 false r key) (hlen : r.payload.length = 1) (hform : leAt r.payload 0 1 < 2) :
    exec (.counterFreeze r) s = .next (State.answer { (s.admitted 0x0A06 r key) with
      cnt := { s.cnt with frozen := leAt r.payload 0 1 == 1 } } r.mb r.seq 0 0 [] 0) := by
  refine State.directReq_answers (a := {}) hadmits hbale ?_ rfl
  simp [hlen, Nat.not_le.2 hform]

theorem exec_ledgerAcknowledge_of_written (hadmits : s.Admits 0x0606 6 false r key) (hlen : r.payload.length = 8)
    (hwritten : leAt r.payload 0 8 < s.ledger.next - s.ledger.queue.length) :
    exec (.ledgerAcknowledge r) s = .next (
      (State.ledgerLevel { (s.admitted 0x0606 r key) with ledger := { s.ledger with mark := leAt r.payload 0 8 } }).answer
        r.mb r.seq 0 0 [] 0) := by
  refine State.directReq_answers (a := {}) hadmits hbale ?_ rfl
  simp only [hlen, State.admitted_frame, Nat.not_le.2 hwritten, ne_eq, not_true_eq_false, if_false]

theorem exec_ledgerAcknowledge_of_unwritten (hadmits : s.Admits 0x0606 6 false r key) (hlen : r.payload.length = 8)
    (hunwritten : s.ledger.next - s.ledger.queue.length ≤ leAt r.payload 0 8) :
    exec (.ledgerAcknowledge r) s = .next ((s.admitted 0x0606 r key).answer r.mb r.seq 0x0604 0 [] 0) := by
  refine State.directReq_answers (a := { status := 0x0604 }) hadmits hbale ?_ rfl
  simp only [hlen, State.admitted_frame, hunwritten, ne_eq, not_true_eq_false, if_false, if_true]

/-- Each learned entry that matches goes into each other slice of the mask, and the copies that a slice takes are counted (R125, log entry 99). -/
theorem exec_bridgeCopy (hadmits : s.Admits 0x0404 1 false r key) (hlen : r.payload.length = 20) (hzero : leAt r.payload 6 2 = 0)
    (hslice : leAt r.payload 0 1 < 8) :
    exec (.bridgeCopy r) s = .next (
      let k := leAt r.payload 0 1
      let ts := (List.range 8).filter (fun t => t != k && (leAt r.payload 1 1).testBit t)
      let jobs := ((s.macsUnder k r.payload).filter (fun (x : Nat × MacEntry) => !x.2.static)).flatMap
        (fun (x : Nat × MacEntry) => ts.map (fun t => (x.2, t)))
      let a := jobs.foldl (fun (a : State × Nat) (j : MacEntry × Nat) => ((a.1.copyMac j.2 j.1).1, a.2 + b2n (a.1.copyMac j.2 j.1).2))
        (s.admitted 0x0404 r key, 0)
      a.1.answer r.mb r.seq 0 0 (natLe 4 a.2 ++ natLe 4 (jobs.length - a.2)) 0) := by
  have hmacs : (s.admitted 0x0404 r key).macsUnder (leAt r.payload 0 1) r.payload = s.macsUnder (leAt r.payload 0 1) r.payload := by
    rw [State.admitted_eq_with_host]; rfl
  refine State.directReq_answers (a := { resp := _ }) hadmits hbale ?_ rfl
  simp only [hlen, hzero, hmacs, Nat.not_le.2 hslice, ne_eq, not_true_eq_false, or_self, if_false]

/-- A body that joins the intake queue leaves its request to its decision (R263, R268). -/
theorem exec_permitSubmit_joins (hadmits : s.Admits 0x0609 0 false r key) (hlen : r.payload.length = 192)
    (hclock : s.sameClock r.payload (0x0100 + r.mb.val) = none) (hcause : s.bodyCause r.payload = none)
    (hroom : s.gate.queue.length < 16384) (hpair : s.sealAny = true) :
    exec (.permitSubmit r) s = .next (
      let x := State.feedSeals 32 { (s.admitted 0x0609 r key) with gate := { s.gate with
        queue := s.gate.queue ++ [{ body := r.payload, source := 0x0100 + r.mb.val, at_ := s.now }] } }
      { x with host := { x.host with longs := x.host.longs ++ [{
        mb := r.mb.val, seq := r.seq, opcode := reqCode r 0x0609, kind := 4, idx := bodyWait r.payload, at_ := s.now }] } }) := by
  have htaken := State.takeBody_joins (s := s.admitted 0x0609 r key) (b := r.payload) (source := 0x0100 + r.mb.val)
    (by rw [State.admitted_eq_with_host]; exact hclock) (by rw [State.admitted_eq_with_host]; exact hcause)
    (by simpa using hroom) (by rw [State.admitted_eq_with_host]; exact hpair)
  show done (s.request 0x0609 0 false r _) = _
  simp only [State.request_admits s 0x0609 0 false r key hadmits, hbale, hlen, htaken, done, ne_eq, not_true_eq_false, if_false,
    State.admitted_frame, feedSeals_now, State.conclude_later _ _ _ _ (4, bodyWait r.payload)]

theorem exec_permitSubmit_refused {c : Nat} (hadmits : s.Admits 0x0609 0 false r key) (hlen : r.payload.length = 192)
    (hrefused : ((s.admitted 0x0609 r key).takeBody r.payload (0x0100 + r.mb.val)).1 = some c) :
    exec (.permitSubmit r) s = .next (((s.admitted 0x0609 r key).takeBody r.payload (0x0100 + r.mb.val)).2.answer
      r.mb r.seq 0x0603 c [] 0) := by
  rcases htaken : (s.admitted 0x0609 r key).takeBody r.payload (0x0100 + r.mb.val) with ⟨cause, t⟩
  obtain rfl : cause = some c := by rwa [htaken] at hrefused
  show done (s.request 0x0609 0 false r _) = _
  simp only [State.request_admits s 0x0609 0 false r key hadmits, hbale, hlen, htaken, done, ne_eq, not_true_eq_false, if_false]
  rw [State.conclude_now _ _ _ _ rfl]

end

/-- Settles O47, one lemma for each way in which a command can end. -/
theorem directCommands : Obligations.DirectCommands := by
  unfold Obligations.DirectCommands
  exact ⟨fun s r key due hadmits hbale => exec_counterSnapshot_arms hbale hadmits,
    fun s r key hadmits hbale => exec_counterSnapshot_of_armed hbale hadmits, fun s r key hadmits hbale => exec_counterFreeze hbale hadmits,
    fun s r key hadmits hbale => exec_ledgerAcknowledge_of_written hbale hadmits,
    fun s r key hadmits hbale => exec_ledgerAcknowledge_of_unwritten hbale hadmits,
    fun s r key hadmits hbale => exec_bridgeCopy hbale hadmits, fun s r key hadmits hbale => exec_permitSubmit_joins hbale hadmits,
    fun s r key c hadmits hbale => exec_permitSubmit_refused hbale hadmits⟩

end Sys2Proof.Machine
end

section
/-! The flow table's sweep, its passes, relocation out of overflow, and the end of a block's hold (R148, R151 to R153, R161, R218, R254). -/

namespace Sys2Proof.Machine

section
variable {s : State} {loc : FlowLoc} {r : FlowRec}

/-- A place with a valid record gives a service engine that record. -/
theorem State.recAt_live {l : Nat} (hrec : s.recAt l = some r) (hlive : r.live = true) : (s.recAt l).filter (·.live) = some r := by
  rw [hrec, Option.filter_some, if_pos hlive]

/-- A place with a record that is not valid gives it none (R154, R179). -/
theorem State.recAt_not_live {l : Nat} (hrec : s.recAt l = some r) (hdead : r.live = false) : (s.recAt l).filter (·.live) = none := by
  simp [hrec, hdead]

/-- A visit is skipped for no valid record, for a second time in its pass, and for engines that do not run (R151, R202). -/
theorem exec_flowSweepVisit_idle (hrec : s.recAt (flowIndex loc) = some r)
    (hidle : r.live = false ∨ r.visited = s.flow.passes ∨ s.sweeps (sweepOwner (flowIndex loc)) = false) :
    exec (.flowSweepVisit loc) s = .next s := by
  show execFlowSweepVisit loc s = _
  cases hlive : r.live with
  | false => simp only [execFlowSweepVisit, State.recAt_not_live hrec hlive, done]
  | true =>
    have hskip : r.visited = s.flow.passes ∨ (!s.sweeps (sweepOwner (flowIndex loc))) = true := by simpa [hlive] using hidle
    simp only [execFlowSweepVisit, State.recAt_live hrec hlive, if_pos hskip, done]

/-- The visit is issued to the sequencer, where it waits for its turn (R148, R161). -/
theorem exec_flowSweepVisit_issues (hrec : s.recAt (flowIndex loc) = some r) (hlive : r.live = true) (hfirst : r.visited ≠ s.flow.passes)
    (hruns : s.sweeps (sweepOwner (flowIndex loc)) = true) :
    exec (.flowSweepVisit loc) s = .next (s.issueVisit (flowIndex loc) r .sweep) := by
  show execFlowSweepVisit loc s = _
  simp only [execFlowSweepVisit, State.recAt_live hrec hlive, hfirst, hruns, Bool.not_true, Bool.false_eq_true, or_self, if_false, done]

theorem exec_overflowRelocationMove_issues {idx : Nat} (hrec : s.recAt (flowOverflow + idx % 262144) = some r) (hon : s.son 0x0606 = true)
    (hlive : r.live = true) (hearlier : r.placed < s.flow.passes) (hruns : s.sweeps (sweepOwner (flowOverflow + idx % 262144)) = true) :
    exec (.overflowRelocationMove idx) s = .next (s.issueVisit (flowOverflow + idx % 262144) r .move) := by
  show execOverflowRelocationMove idx s = _
  simp only [execOverflowRelocationMove, State.recAt_live hrec hlive, hon, Nat.not_le.2 hearlier, hruns, Bool.not_true, Bool.false_eq_true,
    or_self, if_false, done]

end

/-- The sequencer without an operation that it carries out (R161). -/
def State.withoutVisit (s : State) (v : Visit) : State := { s with flow := { s.flow with visits := s.flow.visits.filter (· != v) } }

section
variable {s : State} {v : Visit} {r : FlowRec}

/-- An operation of a service engine is carried out where its record stands at its place (R148). -/
theorem State.runVisit_of_recAt (hkind : v.kind = .sweep ∨ v.kind = .move) (hrec : s.recAt v.loc = some r) (hlive : r.live = true)
    (hkey : recKey r.bytes = v.key) : s.runVisit v = (s.withoutVisit v).doVisit v := by
  have hstands : ((s.withoutVisit v).recAt v.loc).any (fun r => r.live && recKey r.bytes == v.key) = true := by
    show (s.recAt v.loc).any _ = true
    simp [hrec, hlive, hkey]
  rcases hkind with hkind | hkind <;> simp only [runVisit, hkind] <;> exact if_pos hstands

theorem State.runVisit_sweep (hkind : v.kind = .sweep) (hrec : s.recAt v.loc = some r) (hlive : r.live = true)
    (hkey : recKey r.bytes = v.key) : s.runVisit v = (s.withoutVisit v).sweepVisit v.loc := by
  rw [State.runVisit_of_recAt (.inl hkind) hrec hlive hkey]
  simp only [doVisit, hkind]

/-- An overflow record moves to the first free place of its buckets (R153). -/
theorem State.moveOverflow_of_free {l b : Nat} {rest : List Nat} (hrec : s.recAt l = some r) (hlive : r.live = true)
    (hfree : s.bucketFree (s.flowBuckets (recKey r.bytes)).1 ++ s.bucketFree (s.flowBuckets (recKey r.bytes)).2 = b :: rest) :
    s.moveOverflow l = (s.moveRec l b).safePoint (sweepOwner l) := by
  simp only [moveOverflow, State.recAt_live hrec hlive, hfree]

theorem State.runVisit_move {b : Nat} {rest : List Nat} (hkind : v.kind = .move) (hrec : s.recAt v.loc = some r) (hlive : r.live = true)
    (hkey : recKey r.bytes = v.key)
    (hfree : (s.withoutVisit v).bucketFree ((s.withoutVisit v).flowBuckets (recKey r.bytes)).1 ++
      (s.withoutVisit v).bucketFree ((s.withoutVisit v).flowBuckets (recKey r.bytes)).2 = b :: rest) :
    s.runVisit v = ((s.withoutVisit v).moveRec v.loc b).safePoint (sweepOwner v.loc) := by
  have hstill : (s.withoutVisit v).recAt v.loc = some r := hrec
  rw [State.runVisit_of_recAt (.inr hkind) hrec hlive hkey, ← State.moveOverflow_of_free hstill hlive hfree]
  simp only [doVisit, hkind]

end

/-- With ageing on, a record that nothing protects is aged by its bits: removed where it was neither hit since the last evaluation nor before
it, and else marked and exported as its profile asks (R152, R233). -/
theorem State.evaluateRec_of_ageing {t : State} {l : Nat} {q : FlowRec} (hinForce : q.till = none) (hon : t.son 0x0604 = true)
    (hfree : recBit q.bytes bitPinned = false) (hnew : t.shadowed (recKey q.bytes) = false) :
    t.evaluateRec l q = (
      if recBit q.bytes bitHit = false ∧ recBit q.bytes bitStale = true then t.removeRec l (agedReason q.bytes)
      else
        let u := t.sweepRec l (fun b => recSetBit (recSetBit b bitHit false) bitStale (!recBit q.bytes bitHit))
        let pr := t.profile (recProfile q.bytes) t.bales.epoch
        if pr.flags.testBit 7 then u.exportRecord pr q.bytes (u.histBytes q.bytes) 2 else u) := by
  simp only [evaluateRec, hinForce, hon, hfree, hnew, Option.isSome_none, Bool.not_true, Bool.false_eq_true, or_self, if_false,
    Bool.not_eq_true']

/-- A visit first clears what the record names that is no longer there, and then evaluates it where its class is due (R151, R254). -/
theorem State.sweepVisit_of_evaluates {s t : State} {l : Nat} {r q : FlowRec} (hrec : s.recAt l = some r) (hlive : r.live = true)
    (hclean : t = ((s.setRec l { r with visited := s.flow.passes }).sweepScan l).dropHist l) (hnow : t.recAt l = some q)
    (hdue : t.evaluates (recClass q.bytes) = true) : s.sweepVisit l = (t.evaluateRec l q).safePoint (sweepOwner l) := by
  subst hclean
  simp only [sweepVisit, State.recAt_live hrec hlive, hnow, hdue, if_true]

section
variable {s : State}

theorem exec_flowSweepPassEnd_early (hearly : s.now < s.flow.passAt + ns s.flow.passNs) : exec .flowSweepPassEnd s = .next s :=
  if_pos hearly

/-- The next pass takes the pace that the settings ask for, and the pattern sets that no record names any more become free (R151, R254). -/
theorem exec_flowSweepPassEnd_due (hdue : s.flow.passAt + ns s.flow.passNs ≤ s.now) :
    exec .flowSweepPassEnd s = .next { s with
      flow := { s.flow with
        pass := if s.sweepPlan.1 = s.flow.passNs ∧ s.sweepPlan.2 = s.flow.passEval then s.flow.pass + 1 else 0
        passNs := s.sweepPlan.1
        passEval := s.sweepPlan.2
        passDrained := s.bales.drained
        passes := s.flow.passes + 1
        passAt := s.now }
      awn := { s.awn with sets := if s.scansSwept then s.awn.sets.filter (fun x => !(x.till.any (fun e => decide (e < s.flow.passDrained))))
        else s.awn.sets } } := by
  have hpace : (if decide (s.sweepPlan.1 ≠ s.flow.passNs ∨ s.sweepPlan.2 ≠ s.flow.passEval) = true then 0 else s.flow.pass + 1) =
      if s.sweepPlan.1 = s.flow.passNs ∧ s.sweepPlan.2 = s.flow.passEval then s.flow.pass + 1 else 0 := by
    simp only [ne_eq, ← not_and_or, decide_eq_true_eq, ite_not]
  rw [← hpace]
  exact if_neg (Nat.not_lt.2 hdue)

end

/-- A block that no port uses any more is released, and exported where it had a holder (R218). -/
theorem exec_blockHoldExpiry_releases {s : State} {pool : Fin 1024} {block t : Nat} {c : PoolConf}
    (hhold : Tab.find? (s.alloc pool).holding block = some t) (hconf : s.poolConf pool s.bales.epoch = some c) (hover : t ≤ s.now)
    (hunused : (s.alloc pool).used.any (fun u => c.blockOfPort u == block) = false) :
    exec (.blockHoldExpiry pool block) s = .next (
      let u := match (s.alloc pool).holder block with | some b => s.exportBlock c b block 17 | none => s
      u.setAlloc pool (releaseBlock c (u.alloc pool) block)) := by
  show execBlockHoldExpiry pool block s = _
  cases hholder : (s.alloc pool).holder block <;>
    simp only [execBlockHoldExpiry, hhold, hconf, hholder, Nat.not_lt.2 hover, hunused, Bool.false_eq_true, or_self, if_false, done]

/-- Settles O10, one lemma for each command, and one for what each operation does at its turn; how one is issued to the sequencer is the model's
own by its definition. -/
theorem flowTableUpkeep : Obligations.FlowTableUpkeep := by
  unfold Obligations.FlowTableUpkeep
  refine ⟨fun s loc r => exec_flowSweepVisit_idle, fun s loc r => exec_flowSweepVisit_issues, fun s v r => State.runVisit_sweep, ?evaluated,
    fun s => exec_flowSweepPassEnd_early, fun s hdue => ⟨_, exec_flowSweepPassEnd_due hdue, rfl, rfl, rfl, rfl, rfl, rfl, rfl⟩,
    fun s idx r => exec_overflowRelocationMove_issues, ?moved, fun s pool block t c => exec_blockHoldExpiry_releases⟩
  case evaluated =>
    intro s t l r q hrec hlive hclean hnow hdue hinForce hon hfree hnew
    rw [State.sweepVisit_of_evaluates hrec hlive hclean hnow hdue, State.evaluateRec_of_ageing hinForce hon hfree hnew]
  case moved =>
    rintro s _ v r b rest hkind hrec hlive hkey rfl hfree
    exact State.runVisit_move hkind hrec hlive hkey hfree

end Sys2Proof.Machine
end

section
/-! The flow sequencer: a lookup that runs, the read that answers it, and a wait that ends in a drop (R148, R158, R332). -/

namespace Sys2Proof.Machine

section
variable {s : State} {n : Nat} {p : Packet}

/-- A packet that may look up its record waits behind an earlier operation on its key, and otherwise looks (R148). -/
theorem exec_flowSequencerRelease_of_mayLook (hlook : s.MayLook n p) :
    exec (.flowSequencerRelease n) s = .next (
      if s.seqBlocked n p p.key then (if p.stage = .lookedUp then s.pmuPkt n 6 else s).waitForRecord n p false
      else s.lookStart n p) := by
  obtain ⟨hpkt, hwanted, hstage, hlocks, hctx, hreads, hpool, hissued⟩ := hlook
  show execFlowSequencerRelease n s = _
  simp only [execFlowSequencerRelease, hpkt, hwanted, hstage, hlocks, hctx, hreads, hpool, hissued, done, apply_ite Host.Outcome.next, ne_eq,
    not_true_eq_false, decide_true, Bool.not_true, Bool.false_eq_true, or_self, if_false]

theorem State.lookStart_cached {l : Nat} (hfind : s.findRec p.key p.epoch = some l) (hcached : s.cached l = true) :
    s.lookStart n p = (s.pmuPkt n 3).foundRecord n l := by
  simp only [lookStart, hfind, Option.filter_some, hcached, if_true]

/-- A record that is not in the cache is read from HBM once a transaction is there (R147, R158). -/
theorem State.lookStart_uncached (hfind : ∀ l, s.findRec p.key p.epoch = some l → s.cached l = false) (htimed : p.exempt = false) :
    s.lookStart n p = (if s.transactionFree (sliceOf p.port) n then
      let q := { p.offFence s.now with stage := .waitRecord, waitAt := none, exempt := true }
      let t := ((s.pmuPkt n 4).setPkt n q).readDirectory p.key (.record n)
      if (t.readsOf n).isEmpty then t.lookOn n q else t
      else s.waitForRecord n p true) := by
  have hnone : (s.findRec p.key p.epoch).filter s.cached = none := by
    simpa only [Option.filter_eq_none_iff, Bool.not_eq_true] using hfind
  cases hfree : s.transactionFree (sliceOf p.port) n <;>
    simp only [lookStart, hnone, htimed, hfree, Bool.not_false, Bool.not_true, Bool.false_eq_true, and_self, and_false, if_true, if_false]

/-- A read that has left its unit's queue answers the lookup that waits for it (R332). -/
theorem exec_memoryReadComplete_record {rd : Nat} {res : ReadResult} {r : MemRead}
    (hread : s.mem.reads.find? (fun x => x.id == rd) = some r) (hissued : s.readIssued r = true) (howner : r.owner = .record n) :
    exec (.memoryReadComplete rd res) s = .next (s.recordReply n r res) := by
  show execMemoryReadComplete rd res s = _
  simp only [execMemoryReadComplete, hread, hissued, howner, Bool.not_true, Bool.false_eq_true, if_false, done]

/-- Good data ends its read: a directory's entry leads on once both are read, and a record is the packet's by its key (R143). -/
theorem State.recordReply_ok {r : MemRead} (hpkt : s.pkt? n = some p) (hwanted : p.record = .wanted) :
    s.recordReply n r .ok = (
      let t := { s with mem := { s.mem with reads := s.mem.reads.filter (fun x => x.id != r.id) } }
      if r.directory then (if (t.readsOf n).isEmpty then t.lookOn n p else t)
      else if t.keyAt r.place p.key then t.foundRecord n r.place
      else ((t.pmuPkt n 7).setPkt n { p with tried := p.tried ++ [r.place] }).lookOn n { p with tried := p.tried ++ [r.place] }) := by
  have hstill : (s.endRead r .ok).pkt? n = some p := hpkt
  simp only [recordReply, hstill, hwanted, ne_eq, not_true_eq_false, if_false, reduceCtorEq]
  rfl

theorem exec_flowRecordWaitTimeout_over {t : Nat} (hpkt : s.pkt? n = some p) (hwait : p.waitAt = some t)
    (hover : t + ns (s.sn 0x0609) < s.now) :
    exec (.flowRecordWaitTimeout n) s = .next ((n :: (s.packets.filter (fun (x : Nat × Packet) => x.2.waitKey == p.waitKey &&
        (x.2.record == .wanted || x.2.waitsLock) && x.1 != n &&
        (opOf n p p.waitKey).before (opOf x.1 x.2 p.waitKey))).map (·.1)).foldl (fun s m => match s.pkt? m with
      | some q => ((s.count 4 (256 * sliceOf q.port + 8)).raiseLimited 0x0504 (src 5 (sliceOf q.port)) (sec 1) [] 4).endPacket m false true
      | none => s) s) := by
  have hlate : p.waitAt.any (fun t => decide (t + ns (s.sn 0x0609) < s.now)) = true := by simp [hwait, hover]
  show execFlowRecordWaitTimeout n s = _
  simp only [execFlowRecordWaitTimeout, hpkt, if_pos hlate]
  rfl

end

/-- Settles O11, one lemma for each outcome of a lookup, of a reply and of a wait. -/
theorem flowSequencer : Obligations.FlowSequencer := by
  unfold Obligations.FlowSequencer
  refine ⟨?waits, ?cached, ?reads, ?answered, fun s n t p => exec_flowRecordWaitTimeout_over⟩
  case waits =>
    intro s n p hlook hblocked
    rw [exec_flowSequencerRelease_of_mayLook hlook, if_pos hblocked]
  case cached =>
    intro s n l p hlook hfree hfind hcached
    rw [exec_flowSequencerRelease_of_mayLook hlook, hfree, if_neg Bool.false_ne_true, State.lookStart_cached hfind hcached]
  case reads =>
    intro s n p hlook hfree hfind htimed
    rw [exec_flowSequencerRelease_of_mayLook hlook, hfree, if_neg Bool.false_ne_true, State.lookStart_uncached hfind htimed]
  case answered =>
    intro s rd n r p hread hissued howner hpkt hwanted
    rw [exec_memoryReadComplete_record hread hissued howner, State.recordReply_ok hpkt hwanted]

end Sys2Proof.Machine
end

section
/-! The reads of the device, of its ports, memory units and slices, and of the gate and its power (R381, R405, R439, R443, Table 16-6). -/

namespace Sys2Proof.Machine

section
variable {s : State} {op : Nat} {r : Request} {key : Option Nat}

/-- A request that passes its checks and is answered at once completes with its answer (R370). -/
theorem State.request_answers {cls : Nat} {read_ : Bool} {run : Option Nat → State → Ans × State} {a : Ans} {t : State}
    (hadmits : s.Admits op cls read_ r key) (hrun : run key (s.admitted op r key) = (a, t)) (hnow : a.later = []) :
    done (s.request op cls read_ r run) = .next (t.answer r.mb r.seq a.status a.detail a.resp a.tick) := by
  rw [State.request_admits s op cls read_ r key hadmits, hrun, State.conclude_now _ _ _ _ hnow, done]

/-- The checks of a request draw no free value. -/
theorem State.admitted_fresh (s : State) (op : Nat) (r : Request) (key : Option Nat) : (s.admitted op r key).fresh = s.fresh := by
  rw [admitted_eq_with_host]

/-- A read of the whole device answers its record, which the host interface does not enter (R381, assumption 60). -/
theorem State.deviceRead_of_admits {f : State → Bytes} (hadmits : s.Admits op 0 true r key) (hbale : r.bale = 0)
    (hpayload : devicePayload r.payload = true) (hhost : ∀ h, f { s with host := h } = f s) :
    s.deviceRead op r f = .next ((s.admitted op r key).answer r.mb r.seq 0 0 (f s) s.bales.lastTick) :=
  State.plainRead_of_admits hadmits hbale fun h => by rw [if_pos hpayload, hhost]

section
variable {kind : Nat} {f : State → Nat → Bytes}

/-- A read of targets answers their records in the order named (assumption 60). -/
theorem State.targetRead_of_targets {ts : List Nat} (hadmits : s.Admits op 0 true r key) (hbale : r.bale = 0)
    (htargets : readTargets kind r.payload = .ok ts) (hhost : ∀ h, f { s with host := h } = f s) :
    s.targetRead op kind r f = .next ((s.admitted op r key).answer r.mb r.seq 0 0 ((ts.map (f s)).flatten) s.bales.lastTick) :=
  State.plainRead_of_admits hadmits hbale fun h => by simp only [htargets, hhost]

/-- A header that names no target of the kind refuses the read at its offset (R384). -/
theorem State.targetRead_of_badHeader {st off : Nat} (hadmits : s.Admits op 0 true r key) (hbale : r.bale = 0)
    (hbad : readTargets kind r.payload = .error (st, off)) :
    s.targetRead op kind r f = .next ((s.admitted op r key).answer r.mb r.seq st off [] s.bales.lastTick) := by
  refine State.request_answers (a := { status := st, detail := off, tick := s.bales.lastTick }) hadmits ?_ rfl
  simp only [hbale, hbad, State.admitted_frame, ne_eq, not_true_eq_false, if_false]

end

end

/-- The index of the last record made; before the first it is the free value that the read draws (log entry 63). -/
def State.lastIndex (s : State) : Nat := if s.ledger.next = 0 then (Config.freeWord s.fresh).toNat else s.ledger.next - 1

theorem State.lastIndex_succ {s : State} (hmade : s.ledger.next ≠ 0) : s.lastIndex + 1 = s.ledger.next := by
  rw [lastIndex, if_neg hmade]
  omega

section
variable {s : State} {r : Request} {key : Option Nat} (hbale : r.bale = 0)
include hbale

theorem exec_deviceStatus (hadmits : s.Admits 0x0101 0 true r key) (hnil : r.payload = []) :
    exec (.deviceStatus r) s = .next ((s.admitted 0x0101 r key).answer r.mb r.seq 0 0 s.deviceBytes s.bales.lastTick) :=
  State.plainRead_of_admits hadmits hbale fun _ => if_pos (List.isEmpty_iff.2 hnil)

theorem exec_sheafStatus (hadmits : s.Admits 0x0904 0 true r key) (hpayload : devicePayload r.payload = true) :
    exec (.sheafStatus r) s = .next ((s.admitted 0x0904 r key).answer r.mb r.seq 0 0
      (natLe 1 s.sheaf.twin ++ natLe 1 (b2n (s.link 0).up + b2n (s.link 1).up) ++ [0, 0] ++ natLe 4 (unsigned 32 s.sheaf.angleOffset) ++
        natLe 8 (unsigned 64 s.sheaf.cycleOffset) ++ natLe 4 s.sheaf.roundTrip ++ natLe 8 s.sheaf.dropped ++
        (if r.expert then s.sheafCheckers else [])) s.bales.lastTick) := by
  refine (State.deviceRead_of_admits hadmits hbale hpayload fun _ => rfl).trans ?_
  cases r.expert <;> simp only [Bool.false_eq_true, if_true, if_false, List.append_nil, id_eq]

/-- The power figure is a free value, drawn at each read (R443, log entry 63). -/
theorem exec_powerStatus (hadmits : s.Admits 0x0C01 0 true r key) (hpayload : devicePayload r.payload = true) :
    exec (.powerStatus r) s = .next (State.answer { (s.admitted 0x0C01 r key) with fresh := s.fresh + 1 } r.mb r.seq 0 0
      (natLe 1 s.power.level ++ natLe 1 s.power.trigger ++ natLe 2 s.railFlags ++ natLe 4 (Config.powerEstimate s.fresh) ++ s.stamp.bytes)
      s.bales.lastTick) := by
  refine State.request_answers (a := { resp := _, tick := s.bales.lastTick }) hadmits ?_ rfl
  simp only [hbale, hpayload, State.admitted_fresh, State.admitted_frame, ne_eq, not_true_eq_false, Bool.not_true, Bool.false_eq_true, if_false]
  rw [State.admitted_eq_with_host]
  rfl

theorem exec_gateStatus (hadmits : s.Admits 0x060D 0 true r key) (hpayload : devicePayload r.payload = true) :
    exec (.gateStatus r) s = .next (State.answer { (s.admitted 0x060D r key) with fresh := s.fresh + 1 } r.mb r.seq 0 0
      (natLe 1 (b2n s.gate.isShut) ++ natLe 1 s.gate.cause ++ natLe 2 s.heldFlows ++ natLe 4 s.permitCount ++ natLe 8 s.lastIndex)
      s.bales.lastTick) := by
  refine State.request_answers (a := { resp := _, tick := s.bales.lastTick }) hadmits ?_ rfl
  simp only [hbale, hpayload, State.draw, State.admitted_fresh, State.admitted_frame, ne_eq, not_true_eq_false, Bool.not_true, Bool.false_eq_true,
    if_false]
  rw [State.admitted_eq_with_host]
  rfl

end

/-- Settles O45, by the reads of the device and of targets, and one lemma for each other command. -/
theorem deviceAndTargetReads : Obligations.DeviceAndTargetReads := by
  unfold Obligations.DeviceAndTargetReads
  refine ⟨?device, fun s r key hadmits hbale => exec_deviceStatus hbale hadmits, ?targets,
    fun s r key hadmits hbale hpayload => ⟨Config.powerEstimate s.fresh, exec_powerStatus hbale hadmits hpayload⟩,
    fun s r key hadmits hbale hpayload => ⟨s.lastIndex, State.lastIndex_succ, exec_gateStatus hbale hadmits hpayload⟩⟩
  case device =>
    simp only [List.forall_mem_cons, List.not_mem_nil, false_imp_iff, implies_true, and_true]
    refine ⟨?fault, ?sag, ?tiller, ?flow, ?ipfix, fun s r key hadmits hbale => exec_sheafStatus hbale hadmits⟩
    all_goals exact fun s r key hadmits hbale hpayload => State.deviceRead_of_admits hadmits hbale hpayload fun _ => rfl
  case targets =>
    simp only [List.forall_mem_cons, List.not_mem_nil, false_imp_iff, implies_true, and_true]
    refine ⟨?ports, ?units, ?routes⟩
    all_goals exact fun s r key hadmits hbale => ⟨fun ts htargets => State.targetRead_of_targets hadmits hbale htargets fun _ => rfl,
      fun st off hbad => State.targetRead_of_badHeader hadmits hbale hbad⟩

end Sys2Proof.Machine
end

section
/-! State changes: an action that joins an open bale of its master, and a change outside a bale (R164, R165, R166, R381, R386). -/

namespace Sys2Proof.Machine

section
variable {mk : Request → Instr} {op cls : Nat} {s : State} {r : Request} {key : Option Nat}

/-! ### What each command of the table is -/

theorem exec_baleRow (hrow : BaleRow mk op cls) (r : Request) (s : State) : exec (mk r) s = done (s.baleReq op cls r) := by
  simp only [BaleRow, List.mem_append, List.mem_cons, List.not_mem_nil, or_false, Prod.mk.injEq] at hrow
  casesm* _ ∨ _, _ ∧ _ <;> subst_vars <;> rfl

theorem exec_settingRow (hrow : SettingRow mk op cls) (r : Request) (s : State) : exec (mk r) s = done (s.settingsSet op cls r) := by
  simp only [SettingRow, List.mem_append, List.mem_cons, List.not_mem_nil, or_false, Prod.mk.injEq] at hrow
  casesm* _ ∨ _, _ ∧ _ <;> subst_vars <;> rfl

/-- Every settings command has a row in the settings catalogue (R383). -/
theorem isSettings_of_settingRow (hrow : SettingRow mk op cls) : isSettings op = true := by
  simp only [SettingRow, List.mem_append, List.mem_cons, List.not_mem_nil, or_false, Prod.mk.injEq] at hrow
  casesm* _ ∨ _, _ ∧ _ <;> subst_vars <;> decide +kernel

theorem State.settingsSet_of_asksChange (hasks : asksChange op r = true) : s.settingsSet op cls r = s.changeReq op cls r := by
  refine if_neg fun ⟨hall, hform⟩ => ?_
  simp only [asksChange, hall, hform] at hasks
  exact absurd hasks (by decide)

/-- A settings command that asks for a change is one, whatever its form (R383). -/
theorem exec_settingRow_of_asksChange (hrow : SettingRow mk op cls) (hasks : isSettings op = true → asksChange op r = true) :
    exec (mk r) s = done (s.changeReq op cls r) := by
  rw [exec_settingRow hrow, State.settingsSet_of_asksChange (hasks (isSettings_of_settingRow hrow))]

/-! ### In a bale -/

/-- In a bale every command that an open bale takes is an add (R164, R386). -/
theorem exec_actionRow_in_bale (hrow : ActionRow mk op cls) (hasks : isSettings op = true → asksChange op r = true)
    (hadmits : s.Admits op cls false r key) (hbale : r.bale ≠ 0) :
    exec (mk r) s = done (((s.admitted op r key).addAction r op cls key).2.conclude op r ((s.admitted op r key).addAction r op cls key).1) := by
  have hchange : s.changeReq op cls r =
      ((s.admitted op r key).addAction r op cls key).2.conclude op r ((s.admitted op r key).addAction r op cls key).1 := by
    simp only [State.changeReq, State.request_admits s op cls false r key hadmits, hbale, ne_eq, not_false_eq_true, if_true]
  rcases hrow with hbaleRow | hsetting | hgate
  · rw [exec_baleRow hbaleRow, ← hchange]
    simp only [State.baleReq, State.changeReq, hbale, ne_eq, not_false_eq_true, if_true]
  · rw [exec_settingRow_of_asksChange hsetting hasks, hchange]
  · simp only [List.mem_cons, List.not_mem_nil, or_false, Prod.mk.injEq] at hgate
    rcases hgate with ⟨rfl, rfl, rfl⟩ | ⟨rfl, rfl, rfl⟩ | ⟨rfl, rfl, rfl⟩
    · exact congrArg done hchange
    · exact congrArg done hchange
    · rw [← hchange]
      show done (s.request 0x0609 0 false r _) = done (s.request 0x0609 0 false r _)
      simp only [hbale, ne_eq, not_false_eq_true, if_true]

/-- An add that is answered at once completes its request. -/
theorem exec_actionRow_answers {a : Ans} {t : State} (hrow : ActionRow mk op cls) (hasks : isSettings op = true → asksChange op r = true)
    (hadmits : s.Admits op cls false r key) (hbale : r.bale ≠ 0) (hadd : (s.admitted op r key).addAction r op cls key = (a, t))
    (hnow : a.later = []) : exec (mk r) s = .next (t.answer r.mb r.seq a.status a.detail a.resp a.tick) := by
  rw [exec_actionRow_in_bale hrow hasks hadmits hbale, hadd, State.conclude_now _ _ _ _ hnow, done]

theorem exec_baleRow_outside_bale (hrow : BaleRow mk op cls) (hadmits : s.Admits op cls false r key) (hbale : r.bale = 0) :
    exec (mk r) s = .next ((s.admitted op r key).answer r.mb r.seq 0x0304 0 [] 0) := by
  rw [exec_baleRow hrow]
  simp only [State.baleReq, State.request_admits s op cls false r key hadmits, hbale, ne_eq, not_true_eq_false, if_false, done]
  rw [State.conclude_now _ _ _ _ rfl]

theorem State.admitted_namedBale (s : State) (op : Nat) (r : Request) (key : Option Nat) (id master : Nat) :
    (s.admitted op r key).namedBale id master = s.namedBale id master := by
  simp only [namedBale, admitted_frame]

theorem State.addAction_of_not_open (hclosed : ∀ b, s.namedBale r.bale (masterOf r.mb) = some b → b.st ≠ .opened) :
    s.addAction r op cls key = ({ status := 0x0701 }, s) := by
  have hnone : (s.namedBale r.bale (masterOf r.mb)).filter (fun b => b.st == .opened) = none := by
    simpa [Option.filter_eq_none_iff] using hclosed
  simp only [addAction, hnone]

section
variable {b : Bale} (hnamed : s.namedBale r.bale (masterOf r.mb) = some b) (hopen : b.st = .opened)
include hnamed hopen

/-- An add touches its bale, and then is too long, lacks room, is refused, or joins (R165, R166). -/
theorem State.addAction_of_open : s.addAction r op cls key =
    let t := s.putBale { b with touched := s.now }
    if 1016 < r.payload.length then ({ status := 0x0104 }, t)
    else if b.hasRoom (actionOf r op key) = false then ({ status := 0x0703 }, t)
    else match t.checkAction { b with touched := s.now } (actionOf r op key) with
      | .error e => ({ status := e.1, detail := e.2 }, t.noteRefused { b with touched := s.now } (actionOf r op key) e)
      | .ok x => ({ resp := natLe 4 b.actions.length }, x.st.putBale { b with
          touched := s.now, actions := b.actions ++ [s.recorded (actionOf r op key) x], cls := max b.cls (effClass op cls r.expert) }) := by
  have hfound : (s.namedBale r.bale (masterOf r.mb)).filter (fun b => b.st == .opened) = some b := by
    rw [hnamed]
    simp [Option.filter, hopen]
  have hroom : b.hasRoom (actionOf r op key) = false ↔
      16384 ≤ b.actions.length ∨ 2 ^ 24 < (b.actions.map (·.size)).sum + (actionOf r op key).size := by
    rw [Bale.hasRoom, Bool.and_eq_false_iff, decide_eq_false_iff_not, decide_eq_false_iff_not, Nat.not_lt, Nat.not_le]
  simp only [addAction, hfound, hroom]
  rfl

theorem State.addAction_too_long (hlong : 1016 < r.payload.length) :
    s.addAction r op cls key = ({ status := 0x0104 }, s.putBale { b with touched := s.now }) := by
  rw [addAction_of_open hnamed hopen]
  exact if_pos hlong

section
variable (hshort : r.payload.length ≤ 1016)
include hshort

theorem State.addAction_no_room (hfull : b.hasRoom (actionOf r op key) = false) :
    s.addAction r op cls key = ({ status := 0x0703 }, s.putBale { b with touched := s.now }) := by
  simp only [addAction_of_open hnamed hopen, Nat.not_lt.2 hshort, hfull, if_false, if_true]

variable (hroom : b.hasRoom (actionOf r op key) = true)
include hroom

theorem State.addAction_refused {e : Nat × Nat}
    (hcheck : (s.putBale { b with touched := s.now }).checkAction { b with touched := s.now } (actionOf r op key) = .error e) :
    s.addAction r op cls key = ({ status := e.1, detail := e.2 },
      (s.putBale { b with touched := s.now }).noteRefused { b with touched := s.now } (actionOf r op key) e) := by
  simp only [addAction_of_open hnamed hopen, Nat.not_lt.2 hshort, hroom, hcheck, Bool.true_eq_false, if_false]

theorem State.addAction_joins {x : Accepted}
    (hcheck : (s.putBale { b with touched := s.now }).checkAction { b with touched := s.now } (actionOf r op key) = .ok x) :
    s.addAction r op cls key = ({ resp := natLe 4 b.actions.length }, x.st.putBale { b with
      touched := s.now, actions := b.actions ++ [s.recorded (actionOf r op key) x], cls := max b.cls (effClass op cls r.expert) }) := by
  simp only [addAction_of_open hnamed hopen, Nat.not_lt.2 hshort, hroom, hcheck, Bool.true_eq_false, if_false]

end
end
end

/-- Settles O42, by the ways in which an add can end. -/
theorem actionsInABale : Obligations.ActionsInABale := by
  unfold Obligations.ActionsInABale
  refine ⟨?joins, ?refused, ?closed, fun mk op cls hrow s r key => exec_baleRow_outside_bale hrow⟩
  case joins =>
    intro mk op cls hrow s r key b hasks hadmits hbale hnamed hopen hshort hroom x hcheck
    have hnow : (s.admitted op r key).now = s.now := (State.admitted_frame s op r key).1
    rw [← hnow] at hcheck ⊢
    rw [← State.admitted_namedBale s op r key] at hnamed
    exact exec_actionRow_answers (a := { resp := _ }) hrow hasks hadmits hbale (State.addAction_joins hnamed hopen hshort hroom hcheck) rfl
  case refused =>
    rintro mk op cls hrow s _ r key b hasks hadmits hbale hnamed hopen rfl
    have hnow : (s.admitted op r key).now = s.now := (State.admitted_frame s op r key).1
    rw [← hnow]
    rw [← State.admitted_namedBale s op r key] at hnamed
    refine ⟨fun hlong => ?_, fun hshort hfull => ?_, fun hshort hroom e hcheck => ?_⟩
    · exact exec_actionRow_answers (a := { status := 0x0104 }) hrow hasks hadmits hbale (State.addAction_too_long hnamed hopen hlong) rfl
    · exact exec_actionRow_answers (a := { status := 0x0703 }) hrow hasks hadmits hbale (State.addAction_no_room hnamed hopen hshort hfull) rfl
    · exact exec_actionRow_answers (a := { status := e.1, detail := e.2 }) hrow hasks hadmits hbale
        (State.addAction_refused hnamed hopen hshort hroom hcheck) rfl
  case closed =>
    intro mk op cls hrow s r key hasks hadmits hbale hclosed
    simp only [← State.admitted_namedBale s op r key] at hclosed
    exact exec_actionRow_answers (a := { status := 0x0701 }) hrow hasks hadmits hbale (State.addAction_of_not_open hclosed) rfl

end Sys2Proof.Machine
end

section
/-! A change outside a bale that an owner key signs keeps that key with its bale (Table 18-13), which its statement leaves out. -/

namespace Sys2Proof.Machine

/-! ### A signature that checks for every message -/

/-- Points with x = 0 and y = z, which are the neutral point in other coordinates, are closed under addition (RFC 8032, 5.1.4). -/
theorem edAdd_neutral (y z : Nat) : ∃ w, edAdd ⟨0, y, y, 0⟩ ⟨0, z, z, 0⟩ = ⟨0, w, w, 0⟩ := by
  have hprod : (y + edP) * (z + edP) % edP = y * z % edP :=
    Nat.ModEq.mul (n := edP) (Nat.add_mod_right y edP) (Nat.add_mod_right z edP)
  have hdouble : y * z % edP + y * z % edP ≡ 2 * y * z % edP [MOD edP] := by
    rw [← Nat.two_mul, Nat.mul_assoc]
    exact ((Nat.mod_modEq _ _).mul_left 2).trans (Nat.mod_modEq _ _).symm
  have hshift : 2 * y * z % edP + edP ≡ 2 * y * z % edP [MOD edP] := Nat.add_mod_right _ _
  refine ⟨(2 * y * z % edP + edP) * (2 * y * z % edP) % edP, ?_⟩
  simp only [edAdd, Nat.sub_zero, Nat.add_zero, Nat.mul_zero, Nat.zero_mul, Nat.zero_mod, hprod, Nat.add_sub_cancel_left, Nat.mul_mod_right]
  rw [show 2 * y * z % edP * (y * z % edP + y * z % edP) % edP = (2 * y * z % edP + edP) * (2 * y * z % edP) % edP from hshift.symm.mul hdouble]

theorem edMul_neutral (n k y : Nat) : ∃ w, edMul n k ⟨0, y, y, 0⟩ = ⟨0, w, w, 0⟩ := by
  induction n generalizing k y with
  | zero => exact ⟨1, rfl⟩
  | succ n ih =>
    obtain ⟨u, hu⟩ := edAdd_neutral y y
    obtain ⟨v, hv⟩ := ih (k / 2) u
    simp only [edMul, hu, hv]
    split
    · exact edAdd_neutral v y
    · exact ⟨v, rfl⟩

theorem edMul_zero (n : Nat) (p : EdPoint) : edMul n 0 p = EdPoint.zero := by
  induction n generalizing p with
  | zero => rfl
  | succ n ih => simp [edMul, ih]

/-- The encoding of the neutral point: a key under which one signature checks for every message, so that no digest need be computed. -/
def neutralKey : Bytes := 1 :: List.replicate 31 0
/-- That key's signature of any message: the neutral point and the scalar 0. -/
def neutralSig : Bytes := neutralKey ++ List.replicate 32 0

theorem edVerify_neutral (msg : Bytes) : edVerify neutralKey msg neutralSig = true := by
  have hlen : neutralSig.length = 64 := by decide +kernel
  have hpoint : neutralSig.take 32 = neutralKey := by decide +kernel
  have hscalar : leNat (neutralSig.drop 32) = 0 := by decide +kernel
  have hkey : edDecode neutralKey = some ⟨0, 1, 1, 0⟩ := by decide +kernel
  obtain ⟨v, hv⟩ := edMul_neutral 256 (leNat (sha512 (neutralKey ++ neutralKey ++ msg)) % edL) 1
  obtain ⟨w, hw⟩ := edAdd_neutral 1 v
  simp only [edVerify, hlen, hpoint, hscalar, hkey, hv, hw, edMul_zero, if_true, EdPoint.zero, edEq, Nat.zero_mul, Nat.mul_one, Nat.one_mul,
    BEq.rfl, Bool.and_self, Bool.and_true]
  decide +kernel

/-! ### A change that an owner key signed -/

/-- An owned device that serves, with the neutral point as the key of owner slot 0. -/
def ownedDevice : State :=
  { State.reset with trust := { State.reset.trust with ready := true, otp := { owned := true, rows := [(0, true, neutralKey)] } } }
/-- A gate shut outside a bale, signed by owner key 0xFF00. -/
def ownerShut : Request := { mb := 0, flags := 1, authClass := 4, trailer := some (0xFF00, neutralSig) }

theorem ownedDevice_checkSignature : ownedDevice.checkSignature 0x0607 4 ownerShut = .ok 0xFF00 := by
  have hkey : ownedDevice.keyOf 0xFF00 = some ⟨neutralKey, 2 ^ 32 - 1, 2 ^ 64 - 1, true, 0, 2 ^ 64⟩ := by decide +kernel
  have hseal : ownedDevice.sealAny = true := by decide +kernel
  simp only [State.checkSignature, ownerShut, hseal, hkey, edVerify_neutral]
  decide +kernel

theorem ownedDevice_admits : ownedDevice.Admits 0x0607 4 false ownerShut (some 0xFF00) :=
  ⟨by unfold State.Serves; decide +kernel, by decide +kernel, .inl (by decide +kernel), by decide +kernel, ownedDevice_checkSignature⟩

/-- The bale of an accepted change outside a bale, with the owner key that signed it. -/
def State.changeBale (s : State) (r : Request) (op : Nat) (key : Option Nat) (x : Accepted) : Bale :=
  { s.freshBale r.mb true with actions := [s.recorded (actionOf r op key) x], signer := s.signerOf key }

/-- A change outside a bale that its checks accept is armed as a bale of its own, and its request waits for the tick (R381). -/
theorem State.changeReq_of_accepted {s t : State} {op cls : Nat} {r : Request} {key : Option Nat} {x : Accepted}
    (hadmits : s.Admits op cls false r key) (hbale : r.bale = 0) (ht : t = s.admitted op r key) (hids : t.idsSpent = false)
    (hcheck : t.checkAction (t.freshBale r.mb true) (actionOf r op key) = .ok x) :
    s.changeReq op cls r = State.conclude ((x.st.joinBale (t.changeBale r op key x)).arm (t.changeBale r op key x) none) op r
      { later := [(0, t.bales.next)] } := by
  subst ht
  simp only [changeReq, State.request_admits _ _ _ _ _ _ hadmits, hbale, change, hids, hcheck, ne_eq, not_true_eq_false, Bool.false_eq_true,
    if_false]
  rfl

/-- The gate shut of `ownerShut` is accepted. -/
def shutAccepted : Accepted :=
  { objs := [objKey .gateState 0], sec := 1, st := ownedDevice.admitted 0x0607 ownerShut (some 0xFF00) }

/-- Refutes O41. The bale of a change outside a bale keeps the owner key that signed it, with its public key, by which its tick looks whether
that key has been replaced since (Table 18-13); the statement's bale keeps none. A gate shut that owner key 0xFF00 signs shows it. -/
theorem not_stateChangesOutsideABale : ¬ Obligations.StateChangesOutsideABale := by
  unfold Obligations.StateChangesOutsideABale
  intro h
  obtain ⟨-, -, haccepted⟩ := h .gateShut 0x0607 4 (.inr (.inl rfl)) ownedDevice ownerShut (some 0xFF00) (by decide +kernel) rfl
    ownedDevice_admits
  have hexec : exec (.gateShut ownerShut) ownedDevice = .next _ :=
    congrArg done (State.changeReq_of_accepted ownedDevice_admits rfl rfl (by decide +kernel) (x := shutAccepted) rfl)
  have hstated := hexec.symm.trans (haccepted (by decide +kernel) shutAccepted rfl)
  rw [Host.Outcome.next.injEq] at hstated
  have hsigners := congrArg (fun t : State => t.bales.list.map (·.signer)) hstated
  exact absurd hsigners (by decide +kernel)

end Sys2Proof.Machine
end

section
/-! The memory slot of a word: when it executes, and its loads (R178, R183, R192, R194, R196, Table 8-6). -/

namespace Sys2Proof.Machine

section
variable {s : State} {op : Nat} {x : MemSlot} {p : Packet} {c : Context}

/-! ### The context in which a memory slot executes -/

/-- A memory slot that executes marks itself done and notes when its word was issued, and leaves the rest of its context. -/
theorem State.memCtx_eq (s : State) (c : Context) : s.memCtx c = { c with issuedAt := (s.issued c).issuedAt, memDone := true } := by
  unfold memCtx issued
  split <;> rfl

@[simp] theorem State.memCtx_operands (s : State) (c : Context) (x : MemSlot) :
    memAddr (s.memCtx c) x = memAddr c x ∧ memData (s.memCtx c) x = memData c x := by
  rw [memCtx_eq]
  exact ⟨rfl, rfl⟩

@[simp] theorem State.memCtx_frame (s : State) (c : Context) :
    (s.memCtx c).conds = c.conds ∧ (s.memCtx c).condsNext = c.condsNext ∧ (s.memCtx c).hold = c.hold ∧ (s.memCtx c).key = c.key ∧
    (s.memCtx c).snaps = c.snaps ∧ (s.memCtx c).staged = c.staged ∧ (s.memCtx c).desc = c.desc ∧ (s.memCtx c).edits = c.edits := by
  rw [memCtx_eq]
  exact ⟨rfl, rfl, rfl, rfl, rfl, rfl, rfl, rfl⟩

/-! ### When it executes -/

/-- A memory slot that executes, its condition met, has its effect on the state in which its word is issued (R190, R192). -/
theorem State.memSlot_of_memRuns {f : Packet → Context → State → State} (hruns : s.MemRuns op x p c) :
    s.memSlot op x f = .next (f { p with ctx := some (s.memCtx c) } (s.memCtx c) (s.memBegun x p c)) := by
  obtain ⟨hctx, hfault, hfirst, hword, hcond⟩ := hruns
  simp only [memSlot, hctx, hfault, hfirst, hword, hcond, ne_eq, not_true_eq_false, Bool.false_eq_true, or_self, if_false, Bool.not_true]
  rfl

/-- A memory slot whose condition is not met only executes (R192, Table 8-4). -/
theorem State.memSlot_of_not_holds {f : Packet → Context → State → State} (hctx : s.runningCtx x.ctx = some (p, c)) (hfault : x.fault = none)
    (hfirst : c.memDone = false) (hcond : c.holds x.cond = false) (hword : wordMem (s.wordOf c) = memSpelling op x) :
    s.memSlot op x f = .next (s.memBegun x p c) := by
  simp only [memSlot, hctx, hfault, hfirst, hword, hcond, ne_eq, not_true_eq_false, Bool.false_eq_true, or_self, if_false, Bool.not_false,
    if_true]
  rfl

/-! ### Loads -/

theorem exec_memNone (hruns : s.MemRuns 0 x p c) : exec (.memNone x) s = .next (s.memBegun x p c) := by
  show execMemNone x s = _
  rw [execMemNone, State.memSlot_of_memRuns hruns]

theorem exec_hdrLd_within (hruns : s.MemRuns 1 x p c) (hin : memAddr c x ≤ 255) :
    ∃ rest : Bytes, rest.length = memLen x - (p.len - memAddr c x) ∧
      exec (.hdrLd x) s = .next (State.setCtx { s.memBegun x p c with fresh := (s.memBegun x p c).fresh + rest.length } x.ctx
        ((s.memCtx c).setReg x.mreg (BitVec.ofNat 64 (beNat
          (slice p.bytes (memAddr c x) (min (memLen x) (p.len - memAddr c x)) ++ rest))))) := by
  have hlen : ((s.memBegun x p c).drawBytes (memLen x - min (memLen x) (p.len - memAddr c x))).1.length =
      memLen x - (p.len - memAddr c x) := by
    simp only [State.drawBytes, List.length_map, List.length_range]
    omega
  refine ⟨_, hlen, ?_⟩
  show execHdrLd x s = _
  rw [execHdrLd, State.memSlot_of_memRuns hruns]
  simp only [State.memCtx_operands, Nat.not_lt.2 hin, if_false]
  rw [hlen, show memLen x - (p.len - memAddr c x) = memLen x - min (memLen x) (p.len - memAddr c x) by omega]
  rfl

theorem exec_hdrLd_beyond (hruns : s.MemRuns 1 x p c) (hbeyond : 255 < memAddr c x) :
    exec (.hdrLd x) s = .next (s.memChecked x p c 6) := by
  show execHdrLd x s = _
  rw [execHdrLd, State.memSlot_of_memRuns hruns]
  simp only [State.memCtx_operands, hbeyond, if_true]
  rfl

/-- A field of the packet's metadata is loaded; one beyond the table's is refused (log entry 179). -/
theorem exec_metaLd (hruns : s.MemRuns 3 x p c) : exec (.metaLd x) s = .next (
    let load (n : W64) : State := (s.memBegun x p c).setCtx x.ctx ((s.memCtx c).setReg x.mreg n)
    match memField x with
    | 0 => load (BitVec.ofNat 64 p.stamp.angle)
    | 1 => load (BitVec.ofNat 64 p.stamp.ns)
    | 2 => load (BitVec.ofNat 64 p.stamp.sec)
    | 3 => load (BitVec.ofNat 64 p.profile)
    | 4 => load (BitVec.ofNat 64 p.zone)
    | 5 => load (BitVec.ofNat 64 p.vid)
    | 6 => load (BitVec.ofNat 64 p.cls)
    | 7 => load (matchVector p.scan)
    | 8 => load (BitVec.ofNat 64 (p.epoch % 256))
    | _ => s.memChecked x p c 6) := by
  show execMetaLd x s = _
  rw [execMetaLd, State.memSlot_of_memRuns hruns]
  rfl

theorem exec_metaLd_beyond (hruns : s.MemRuns 3 x p c) (hbeyond : 8 < memField x) :
    exec (.metaLd x) s = .next (s.memChecked x p c 6) := by
  rw [exec_metaLd hruns]
  split
  case h_10 => rfl
  all_goals omega

theorem exec_recLd_of_snap {b : Bytes} (hruns : s.MemRuns 7 x p c) (hsnap : Tab.find? c.snaps (recHandle x) = some b)
    (hin : recOffset x + memLen x ≤ 128) :
    exec (.recLd x) s = .next ((s.memBegun x p c).setCtx x.ctx ((s.memCtx c).setReg x.mreg (BitVec.ofNat 64
      (leAt ((s.memCtx c).withStaged { p with ctx := some (s.memCtx c) } ((s.memBegun x p c).profile p.profile p.epoch) b (recHandle x))
        (recOffset x) (memLen x))))) := by
  show execRecLd x s = _
  rw [execRecLd, State.memSlot_of_memRuns hruns]
  simp only [State.memCtx_frame, hsnap, Nat.not_lt.2 hin, if_false]
  rfl

theorem exec_recLd_refused (hruns : s.MemRuns 7 x p c)
    (hbad : Tab.find? c.snaps (recHandle x) = none ∨ 128 < recOffset x + memLen x) :
    exec (.recLd x) s = .next (s.memChecked x p c 6) := by
  show execRecLd x s = _
  rw [execRecLd, State.memSlot_of_memRuns hruns]
  simp only [State.memCtx_frame]
  cases hsnap : Tab.find? c.snaps (recHandle x) with
  | none => rfl
  | some b =>
    simp only [hsnap, reduceCtorEq, false_or] at hbad
    simp only [hbad, if_true]
    rfl

theorem exec_objLd_outside (hruns : s.MemRuns 14 x p c) (hout : objectRegion < memAddr c x + memLen x) :
    exec (.objLd x) s = .next (s.memChecked x p c 6) := by
  show execObjLd x s = _
  rw [execObjLd, State.memSlot_of_memRuns hruns]
  simp only [State.memCtx_operands, hout, if_true]
  rfl

/-- An object read goes out at once where its slice has a transaction for it, and else waits for one (R183, R194). -/
theorem exec_objLd_within {u : State} (hruns : s.MemRuns 14 x p c) (hin : memAddr c x + memLen x ≤ objectRegion)
    (hu : u = (s.memBegun x p c).setCtx x.ctx
      { s.memCtx c with waiting := some (.object (memAddr c x) x.mreg.val (memLen x)), hw := none }) :
    exec (.objLd x) s = .next (if 4096 ≤ u.transactions (sliceOf p.port) then u else u.readObject x.ctx (memAddr c x)) := by
  subst hu
  show execObjLd x s = _
  rw [execObjLd, State.memSlot_of_memRuns hruns]
  simp only [State.memCtx_operands, Nat.not_lt.2 hin, if_false]
  rfl

end

/-- Settles O36, one lemma for each way in which a load can end. -/
theorem memoryLoads : Obligations.MemoryLoads := by
  unfold Obligations.MemoryLoads
  refine ⟨?loads, ?objectReply, ?lockReply, ?noReply, ?unmet⟩
  case loads =>
    rintro s _ x p _ c _ rfl rfl rfl
    refine ⟨exec_memNone, exec_hdrLd_within, exec_hdrLd_beyond, ?field, ?record, fun hruns => ⟨exec_objLd_outside hruns, ?object⟩⟩
    case field =>
      intro hruns
      simp only [List.forall_mem_cons, List.not_mem_nil, false_imp_iff, implies_true, and_true]
      rw [exec_metaLd hruns]
      refine ⟨?named, fun hfield => by rw [hfield]; rfl, exec_metaLd hruns ▸ exec_metaLd_beyond hruns⟩
      and_intros
      all_goals
        intro hfield
        rw [hfield]
        rfl
    case record => exact fun hruns => ⟨fun b => exec_recLd_of_snap hruns, exec_recLd_refused hruns⟩
    case object => exact fun u => exec_objLd_within hruns
  case objectReply =>
    intro s n res r hread
    show execObjLdReply n res s = _
    simp only [execObjLdReply, hread, done]
  case lockReply =>
    intro s n res r hread
    show execRecLockReply n res s = _
    simp only [execRecLockReply, hread, done]
  case noReply =>
    intro s n res hnone
    show execObjLdReply n res s = _ ∧ execRecLockReply n res s = _
    simp only [execObjLdReply, execRecLockReply, hnone, List.find?_nil, done, and_self]
  case unmet =>
    intro s x p c hctx hfault hfirst hcond
    simp only [List.forall_mem_cons, List.not_mem_nil, false_imp_iff, implies_true, and_true]
    have unmet {op : Nat} {f : Packet → Context → State → State} := State.memSlot_of_not_holds (op := op) (f := f) hctx hfault hfirst hcond
    exact ⟨fun h => (show execMemNone x s = _ from unmet h), fun h => (show execHdrLd x s = _ from unmet h),
      fun h => (show execHdrSt x s = _ from unmet h), fun h => (show execMetaLd x s = _ from unmet h),
      fun h => (show execDescSt x s = _ from unmet h), fun h => (show execKeySt x s = _ from unmet h),
      fun h => (show execRecLock x s = _ from unmet h), fun h => (show execRecLd x s = _ from unmet h),
      fun h => (show execRecSt x s = _ from unmet h), fun h => (show s.mergeSlot 9 x .add = _ from unmet h),
      fun h => (show s.mergeSlot 10 x .or = _ from unmet h), fun h => (show s.mergeSlot 11 x .max = _ from unmet h),
      fun h => (show s.mergeSlot 12 x .min = _ from unmet h), fun h => (show s.mergeSlot 13 x .avg = _ from unmet h),
      fun h => (show execObjLd x s = _ from unmet h), fun h => (show execCntAdd x s = _ from unmet h),
      fun h => (show execEvt x s = _ from unmet h)⟩

end Sys2Proof.Machine
end

section
/-! The memory slot's stores, merges and locks, and the customer's counters and events (R178, R188, R189, R194 to R196, Table 8-6). -/

namespace Sys2Proof.Machine

section
variable {s : State} {x : MemSlot} {p : Packet} {c : Context}

/-! ### Header edits -/

theorem exec_hdrSt_edits (hruns : s.MemRuns 2 x p c) (hoff : memAddr c x ≤ 255) (hend : memAddr c x + memLen x ≤ p.len)
    (hroom : c.edits.length < 16) (hclear : ∀ e ∈ c.edits, memAddr c x + memLen x ≤ e.off ∨ e.off + e.bytes.length ≤ memAddr c x) :
    exec (.hdrSt x) s = .next ((s.memBegun x p c).setCtx x.ctx { s.memCtx c with
      edits := c.edits ++ [{ off := memAddr c x, bytes := natBe (memLen x) ((memData c x).toNat % 2 ^ (8 * memLen x)) }]
      condsNext := some { c.condsNext.getD c.conds with editsFull := decide (c.edits.length = 15) } }) := by
  have hapart : (c.edits.any fun e => decide (memAddr c x < e.off + e.bytes.length ∧ e.off < memAddr c x + memLen x)) = false := by
    simp only [List.any_eq_false, decide_eq_true_eq, not_and, not_lt]
    intro e he hbelow
    exact (hclear e he).resolve_right (Nat.not_le.2 hbelow)
  have hgood : ¬(255 < memAddr c x ∨ Packet.len { p with ctx := some (s.memCtx c) } < memAddr c x + memLen x ∨
      16 ≤ c.edits.length) := by
    rw [show Packet.len { p with ctx := some (s.memCtx c) } = p.len from rfl]
    omega
  have hfull : decide (16 ≤ c.edits.length + 1) = decide (c.edits.length = 15) := decide_eq_decide.2 (by omega)
  show execHdrSt x s = _
  rw [execHdrSt, State.memSlot_of_memRuns hruns]
  simp only [State.memCtx_operands, State.memCtx_frame, hapart, Bool.false_eq_true, false_or, hgood, if_false, List.length_append,
    List.length_cons, List.length_nil, Nat.zero_add, hfull]

theorem exec_hdrSt_refused (hruns : s.MemRuns 2 x p c) (hbad : 255 < memAddr c x ∨ p.len < memAddr c x + memLen x ∨ 16 ≤ c.edits.length ∨
      (∃ e ∈ c.edits, memAddr c x < e.off + e.bytes.length ∧ e.off < memAddr c x + memLen x)) :
    exec (.hdrSt x) s = .next (s.memChecked x p c 6) := by
  have hbad' : 255 < memAddr c x ∨ Packet.len { p with ctx := some (s.memCtx c) } < memAddr c x + memLen x ∨
      (c.edits.any fun e => decide (memAddr c x < e.off + e.bytes.length ∧ e.off < memAddr c x + memLen x)) = true ∨ 16 ≤ c.edits.length := by
    simp only [List.any_eq_true, decide_eq_true_eq]
    exact hbad.imp_right (Or.imp_right Or.symm)
  show execHdrSt x s = _
  rw [execHdrSt, State.memSlot_of_memRuns hruns]
  simp only [State.memCtx_operands, State.memCtx_frame, hbad', if_true]
  rfl

/-! ### Descriptor fields and the key buffer -/

theorem exec_descSt_sets (hruns : s.MemRuns 4 x p c) (hfield : memField x ≤ 4) :
    exec (.descSt x) s = .next ((s.memBegun x p c).setCtx x.ctx { s.memCtx c with
      desc := Tab.insert c.desc (memField x) (memData c x).toNat }) := by
  show execDescSt x s = _
  rw [execDescSt, State.memSlot_of_memRuns hruns]
  simp only [State.memCtx_operands, State.memCtx_frame, Nat.not_lt.2 hfield, if_false]

theorem exec_descSt_refused (hruns : s.MemRuns 4 x p c) (hfield : 4 < memField x) : exec (.descSt x) s = .next (s.memChecked x p c 6) := by
  show execDescSt x s = _
  rw [execDescSt, State.memSlot_of_memRuns hruns, if_pos hfield]
  rfl

theorem exec_keySt_sets (hruns : s.MemRuns 5 x p c) (hoff : memAddr c x ≤ 32) :
    exec (.keySt x) s = .next ((s.memBegun x p c).setCtx x.ctx { s.memCtx c with
      key := patch c.key (memAddr c x) (natLe 8 (memData c x).toNat) }) := by
  show execKeySt x s = _
  rw [execKeySt, State.memSlot_of_memRuns hruns]
  simp only [State.memCtx_operands, State.memCtx_frame, Nat.not_lt.2 hoff, if_false]

theorem exec_keySt_refused (hruns : s.MemRuns 5 x p c) (hoff : 32 < memAddr c x) : exec (.keySt x) s = .next (s.memChecked x p c 6) := by
  show execKeySt x s = _
  rw [execKeySt, State.memSlot_of_memRuns hruns]
  simp only [State.memCtx_operands, hoff, if_true]
  rfl

/-! ### Writes that join the bale -/

/-- A write joins the bale, or meets cause 5 where the bale then has more than 256 bytes or four records (R178, R196). -/
theorem State.stageWrite_memCtx (w : Staged) : (s.memBegun x p c).stageWrite x (s.memCtx c) w =
    let d : Context := { s.memCtx c with staged := c.staged ++ [w] }
    if 256 < d.baleBytes ∨ 4 < d.records then s.memChecked x p c 5 else (s.memBegun x p c).setCtx x.ctx d := by
  have hstaged : (s.memCtx c).staged = c.staged := by simp only [memCtx_frame]
  rw [stageWrite, hstaged]
  rfl

theorem State.stageWrite_of_mayStage {w : Staged} (hmay : s.mayStage x p c w) :
    (s.memBegun x p c).stageWrite x (s.memCtx c) w =
      (s.memBegun x p c).setCtx x.ctx { s.memCtx c with staged := c.staged ++ [w] } := by
  obtain ⟨-, hbytes, hrecords⟩ := hmay
  rw [stageWrite_memCtx]
  exact if_neg (not_or.2 ⟨Nat.not_lt.2 hbytes, Nat.not_lt.2 hrecords⟩)

theorem State.stageWrite_of_not_mayStage {w : Staged} (hwritable : s.memWritable x p c = true) (hmay : ¬ s.mayStage x p c w) :
    (s.memBegun x p c).stageWrite x (s.memCtx c) w = s.memChecked x p c 5 := by
  simp only [mayStage, hwritable, true_and, not_and_or, Nat.not_le] at hmay
  rw [stageWrite_memCtx]
  exact if_pos hmay

/-- A record store is refused, or staged (R188, R196). -/
theorem exec_recSt (hruns : s.MemRuns 8 x p c) : exec (.recSt x) s = .next (
    if s.memWritable x p c = false ∨ recHandle x = 0 ∧ c.hold = false then s.memChecked x p c 6
    else (s.memBegun x p c).stageWrite x (s.memCtx c) (.store (recHandle x) (recOffset x) (natLe (memLen x) (memData c x).toNat))) := by
  show execRecSt x s = _
  rw [execRecSt, State.memSlot_of_memRuns hruns]
  simp only [State.memCtx_frame, dataBytes, State.memCtx_operands, Bool.not_eq_true']
  rfl

/-- A merge is refused, or staged (R188, R189, R196). -/
theorem State.mergeSlot_of_memRuns {code : Nat} {op : Merge} (hruns : s.MemRuns code x p c) : s.mergeSlot code x op = .next (
    if s.memWritable x p c = false ∨ (memLen x ≠ 4 ∧ memLen x ≠ 8) then s.memChecked x p c 6
    else (s.memBegun x p c).stageWrite x (s.memCtx c)
      (.merge (recHandle x) op (recOffset x) (memLen x) ((memData c x).toNat % 2 ^ (8 * memLen x)))) := by
  rw [mergeSlot, memSlot_of_memRuns hruns]
  simp only [memCtx_operands, Bool.not_eq_true']
  rfl

theorem State.mergeSlot_stages {code : Nat} {op : Merge} {w : Staged} (hruns : s.MemRuns code x p c) (hsize : memLen x = 4 ∨ memLen x = 8)
    (hw : w = .merge (recHandle x) op (recOffset x) (memLen x) ((memData c x).toNat % 2 ^ (8 * memLen x))) (hmay : s.mayStage x p c w) :
    s.mergeSlot code x op = .next ((s.memBegun x p c).setCtx x.ctx { s.memCtx c with staged := c.staged ++ [w] }) := by
  subst hw
  have hgood : ¬(s.memWritable x p c = false ∨ (memLen x ≠ 4 ∧ memLen x ≠ 8)) :=
    not_or.2 ⟨ne_false_of_eq_true hmay.1, by omega⟩
  rw [mergeSlot_of_memRuns hruns, if_neg hgood, stageWrite_of_mayStage hmay]

theorem State.mergeSlot_refused {code : Nat} {op : Merge} (hruns : s.MemRuns code x p c)
    (hbad : s.memWritable x p c = false ∨ (memLen x ≠ 4 ∧ memLen x ≠ 8)) : s.mergeSlot code x op = .next (s.memChecked x p c 6) := by
  rw [mergeSlot_of_memRuns hruns, if_pos hbad]

theorem State.mergeSlot_beyond_room {code : Nat} {op : Merge} (hruns : s.MemRuns code x p c) (hwritable : s.memWritable x p c = true)
    (hsize : memLen x = 4 ∨ memLen x = 8)
    (hmay : ¬ s.mayStage x p c (.merge (recHandle x) op (recOffset x) (memLen x) ((memData c x).toNat % 2 ^ (8 * memLen x)))) :
    s.mergeSlot code x op = .next (s.memChecked x p c 5) := by
  have hgood : ¬(s.memWritable x p c = false ∨ (memLen x ≠ 4 ∧ memLen x ≠ 8)) :=
    not_or.2 ⟨ne_false_of_eq_true hwritable, by omega⟩
  rw [mergeSlot_of_memRuns hruns, if_neg hgood, stageWrite_of_not_mayStage hwritable hmay]

theorem exec_recSt_stages (hruns : s.MemRuns 8 x p c)
    (hmay : s.mayStage x p c (.store (recHandle x) (recOffset x) (natLe (memLen x) (memData c x).toNat)))
    (hhold : recHandle x = 0 → c.hold = true) :
    exec (.recSt x) s = .next ((s.memBegun x p c).setCtx x.ctx { s.memCtx c with
      staged := c.staged ++ [.store (recHandle x) (recOffset x) (natLe (memLen x) (memData c x).toNat)] }) := by
  have hgood : ¬(s.memWritable x p c = false ∨ recHandle x = 0 ∧ c.hold = false) :=
    not_or.2 ⟨ne_false_of_eq_true hmay.1, fun ⟨hown, hoff⟩ => ne_false_of_eq_true (hhold hown) hoff⟩
  rw [exec_recSt hruns, if_neg hgood, State.stageWrite_of_mayStage hmay]

theorem exec_recSt_beyond_room (hruns : s.MemRuns 8 x p c) (hwritable : s.memWritable x p c = true)
    (hhold : recHandle x = 0 → c.hold = true)
    (hmay : ¬ s.mayStage x p c (.store (recHandle x) (recOffset x) (natLe (memLen x) (memData c x).toNat))) :
    exec (.recSt x) s = .next (s.memChecked x p c 5) := by
  have hgood : ¬(s.memWritable x p c = false ∨ recHandle x = 0 ∧ c.hold = false) :=
    not_or.2 ⟨ne_false_of_eq_true hwritable, fun ⟨hown, hoff⟩ => ne_false_of_eq_true (hhold hown) hoff⟩
  rw [exec_recSt hruns, if_neg hgood, State.stageWrite_of_not_mayStage hwritable hmay]

theorem exec_cntAdd (hruns : s.MemRuns 15 x p c) :
    exec (.cntAdd x) s = .next ((s.memBegun x p c).setCtx x.ctx { s.memCtx c with
      staged := c.staged ++ [.count (bits x.moff.toNat 13 0) (memData c x).toNat] }) := by
  show execCntAdd x s = _
  rw [execCntAdd, State.memSlot_of_memRuns hruns]
  simp only [State.memCtx_operands, State.memCtx_frame]

theorem exec_evt (hruns : s.MemRuns 16 x p c) :
    exec (.evt x) s = .next ((s.memBegun x p c).setCtx x.ctx { s.memCtx c with staged := c.staged ++ [.event (memData c x).toNat] }) := by
  show execEvt x s = _
  rw [execEvt, State.memSlot_of_memRuns hruns]
  simp only [State.memCtx_operands, State.memCtx_frame]

/-! ### Locks -/

theorem exec_recLock_refused (hruns : s.MemRuns 6 x p c) (hlow : lockHandle x < 2) : exec (.recLock x) s = .next (s.memChecked x p c 6) := by
  show execRecLock x s = _
  rw [execRecLock, State.memSlot_of_memRuns hruns, if_pos hlow]
  rfl

/-- The lock of handle 2 or 3 joins the sequencer; it waits behind an earlier operation on the key, or begins its lookup (R179, R183). -/
theorem exec_recLock {u : State} {q : Packet} {e : Context} (hruns : s.MemRuns 6 x p c) (hhandle : 2 ≤ lockHandle x)
    (hq : q = { p with ctx := some (s.memCtx c) })
    (he : e = { s.memCtx c with waiting := some (.lock (lockHandle x) (lockCreates x)), tried := [] })
    (hu : u = (if (s.memBegun x p c).flow.ops.any (fun o => o.pkt == x.ctx && o.key == c.key) then s.memBegun x p c
      else (s.memBegun x p c).issueOp x.ctx q c.key).setPkt x.ctx { q with ctx := some e }) :
    exec (.recLock x) s = .next (if u.seqBlocked x.ctx q c.key then u.pmuPkt x.ctx 6
      else u.lockStart x.ctx { q with ctx := some e } e (lockHandle x) (lockCreates x)) := by
  subst hq he hu
  show execRecLock x s = _
  rw [execRecLock, State.memSlot_of_memRuns hruns, if_neg (Nat.not_lt.2 hhandle)]
  simp only [State.memCtx_frame]

end

/-- Settles O37, one lemma for each way in which a store, a merge or a lock can end. -/
theorem memoryStores : Obligations.MemoryStores := by
  unfold Obligations.MemoryStores
  refine ⟨fun s x p c => exec_hdrSt_edits, fun s x p c => exec_descSt_sets, fun s x p c => exec_keySt_sets, fun s x p c => exec_recSt_stages,
    ?merges, ?lock, fun s x p c => exec_cntAdd, fun s x p c => exec_evt, ?refused⟩
  case merges =>
    simp only [List.forall_mem_cons, List.not_mem_nil, false_imp_iff, implies_true, and_true]
    and_intros
    all_goals exact fun s x p c w => State.mergeSlot_stages
  case lock =>
    intro s t u x p q c e ht hq he hu hruns hhandle
    subst ht
    rw [exec_recLock hruns hhandle hq he hu]
    exact ⟨fun hblocked => by rw [hblocked, if_pos rfl], fun hfree => by rw [hfree, if_neg Bool.false_ne_true]⟩
  case refused =>
    intro s x p c
    refine ⟨exec_hdrSt_refused, exec_descSt_refused, exec_keySt_refused, exec_recLock_refused, fun hruns hbad => ?_,
      exec_recSt_beyond_room, ?merges⟩
    · rw [exec_recSt hruns, if_pos hbad]
    case merges =>
      simp only [List.forall_mem_cons, List.not_mem_nil, false_imp_iff, implies_true, and_true]
      refine ⟨?_, ?_, ?_, ?_, ?_⟩
      all_goals exact ⟨State.mergeSlot_refused, State.mergeSlot_beyond_room⟩

end Sys2Proof.Machine
end

section
/-! The commands of bales: open, commit, abort and status (R163, R164, R167 to R169, R173, R174, Table 7-4). -/

namespace Sys2Proof.Machine

/-! ### What the checks of a request leave to the bales -/

section
variable (s : State) (op : Nat) (r : Request) (key : Option Nat)

theorem State.admitted_sn (id idx i : Nat) : (s.admitted op r key).sn id idx i = s.sn id idx i := by
  rw [admitted_eq_with_host]
  rfl

theorem State.admitted_balesHeld (m : Nat) : (s.admitted op r key).balesHeld m = s.balesHeld m := by
  rw [admitted_eq_with_host]
  rfl

theorem State.admitted_idsSpent : (s.admitted op r key).idsSpent = s.idsSpent := by
  rw [admitted_eq_with_host]
  rfl

theorem State.admitted_freshBale (mb : Nat) (single : Bool) : (s.admitted op r key).freshBale mb single = s.freshBale mb single := by
  rw [admitted_eq_with_host]
  rfl

end

/-- A commit that states no time looks at its bale's checks again, and arms it or refuses it (R168, R173, R174). -/
theorem State.commitBale_untimed {s : State} {r : Request} {b : Bale} (hnamed : s.namedBale (leAt r.payload 0 4) (masterOf r.mb) = some b)
    (hopen : b.st = .opened) (hlen : r.payload.length = 16) (huntimed : leAt r.payload 4 1 = 0) (hlate : leAt r.payload 5 1 < 2) :
    s.commitBale r = (s.recheck b).elim ({ later := [(0, b.id)] }, s.arm b none) (fun bad => s.refuseBale b bad.1 bad.2) := by
  have hfound : (s.namedBale (leAt r.payload 0 4) (masterOf r.mb)).filter (fun b => b.st == .opened) = some b := by
    simp [hnamed, Option.filter, hopen]
  have hwhole : ¬(16 ≠ 16 ∨ 2 ≤ 0 ∨ 2 ≤ leAt r.payload 5 1) := by omega
  simp only [commitBale, hlen, huntimed, hwhole, hfound, if_false, Nat.reduceBEq, Bool.false_eq_true, false_and]
  cases s.recheck b <;> rfl

section
variable {s : State} {r : Request} {key : Option Nat} (hbale : r.bale = 0)
include hbale

/-! ### Opening -/

section
variable (hadmits : s.Admits 0x0701 1 false r key) (hnil : r.payload = [])
include hadmits hnil

theorem exec_baleOpen_full (hfull : s.sn 0x0701 ≤ s.balesHeld (masterOf r.mb) ∨ s.idsSpent = true) :
    exec (.baleOpen r) s = .next ((s.admitted 0x0701 r key).answer r.mb r.seq 0x0702 0 [] 0) := by
  refine State.directReq_answers (a := { status := 0x0702 }) hadmits hbale ?_ rfl
  simp only [hnil, List.isEmpty_nil, Bool.not_true, Bool.false_eq_true, State.admitted_sn, State.admitted_balesHeld,
    State.admitted_idsSpent, hfull, if_false, if_true]

theorem exec_baleOpen_room (hroom : s.balesHeld (masterOf r.mb) < s.sn 0x0701) (hids : s.idsSpent = false) :
    exec (.baleOpen r) s = .next
      (((s.admitted 0x0701 r key).joinBale (s.freshBale r.mb false)).answer r.mb r.seq 0 0 (natLe 4 s.bales.next) 0) := by
  refine State.directReq_answers (a := { resp := _ }) hadmits hbale ?_ rfl
  simp only [hnil, List.isEmpty_nil, Bool.not_true, Bool.false_eq_true, State.admitted_sn, State.admitted_balesHeld,
    State.admitted_idsSpent, State.admitted_freshBale, Nat.not_le.2 hroom, hids, or_self, if_false]
  rfl

end

/-! ### Commits -/

/-- A commit in whose header its bale's class stands is carried out (R386). -/
theorem exec_baleCommit_of_admits {cls : Nat}
    (hcls : ((s.namedBale (leAt r.payload 0 4) (masterOf r.mb)).map (·.cls)).getD 1 = cls) (hadmits : s.Admits 0x0702 cls false r key) :
    exec (.baleCommit r) s =
      .next (((s.admitted 0x0702 r key).commitBale r).2.conclude 0x0702 r ((s.admitted 0x0702 r key).commitBale r).1) := by
  subst hcls
  show execBaleCommit r s = _
  simp only [execBaleCommit, State.directReq_of_admits hadmits hbale, done]

section
variable {b : Bale} (hnamed : s.namedBale (leAt r.payload 0 4) (masterOf r.mb) = some b)
include hnamed

section
variable (hopen : b.st = .opened) (hadmits : s.Admits 0x0702 b.cls false r key) (hlen : r.payload.length = 16)
  (huntimed : leAt r.payload 4 1 = 0) (hlate : leAt r.payload 5 1 < 2)
include hopen hadmits hlen huntimed hlate

theorem exec_baleCommit_arms (hchecks : (s.admitted 0x0702 r key).recheck b = none) : exec (.baleCommit r) s = .next (
    let t := (s.admitted 0x0702 r key).arm b none
    { t with host := { t.host with longs := t.host.longs ++ [{
      mb := r.mb.val, seq := r.seq, opcode := reqCode r 0x0702, kind := 0, idx := b.id, at_ := s.now }] } }) := by
  have hnow : ((s.admitted 0x0702 r key).arm b none).now = s.now := (State.admitted_frame s 0x0702 r key).1
  rw [exec_baleCommit_of_admits hbale (by rw [hnamed]; rfl) hadmits,
    State.commitBale_untimed ((State.admitted_namedBale ..).trans hnamed) hopen hlen huntimed hlate, hchecks]
  refine congrArg Host.Outcome.next ((State.conclude_later _ _ _ _ (0, b.id) rfl).trans ?_)
  rw [← hnow]
  rfl

theorem exec_baleCommit_refused {st i : Nat} (hchecks : (s.admitted 0x0702 r key).recheck b = some (st, i)) :
    exec (.baleCommit r) s = .next (((s.admitted 0x0702 r key).endBale b .refused st i 0).answer r.mb r.seq st i [] 0) := by
  rw [exec_baleCommit_of_admits hbale (by rw [hnamed]; rfl) hadmits,
    State.commitBale_untimed ((State.admitted_namedBale ..).trans hnamed) hopen hlen huntimed hlate, hchecks]
  exact congrArg Host.Outcome.next (State.conclude_now _ _ _ _ rfl)

end
end

theorem exec_baleCommit_unknown (hadmits : s.Admits 0x0702 1 false r key) (hlen : r.payload.length = 16) (hform : leAt r.payload 4 1 < 2)
    (hlate : leAt r.payload 5 1 < 2) (hnamed : s.namedBale (leAt r.payload 0 4) (masterOf r.mb) = none) :
    exec (.baleCommit r) s = .next ((s.admitted 0x0702 r key).answer r.mb r.seq 0x0701 0 [] 0) := by
  have hwhole : ¬(16 ≠ 16 ∨ 2 ≤ leAt r.payload 4 1 ∨ 2 ≤ leAt r.payload 5 1) := by omega
  rw [exec_baleCommit_of_admits hbale (by rw [hnamed]; rfl) hadmits]
  simp only [State.commitBale, hlen, hwhole, State.admitted_namedBale, hnamed, Option.filter_none, if_false]
  rw [State.conclude_now _ _ _ _ rfl]

/-! ### Aborts -/

section
variable {b : Bale} (hadmits : s.Admits 0x0703 1 false r key) (hlen : r.payload.length = 4)
  (hnamed : s.namedBale (leAt r.payload 0 4) (masterOf r.mb) = some b)
include hadmits hlen hnamed

/-- An abort of a live bale ends it, unless its tick is too near (R167, Table 7-4). -/
theorem exec_baleAbort_of_live (hlive : b.live = true)
    (hfree : ¬(b.st = .pending ∧ b.armedAt ≠ s.now ∧ (s.admitted 0x0703 r key).tooLate b = true)) :
    exec (.baleAbort r) s = .next ((((s.admitted 0x0703 r key).endBale b .aborted 0 0 0).endLong 0 b.id 0x0701 0 [] 0).answer
      r.mb r.seq 0 0 [] 0) := by
  refine State.directReq_answers (a := {}) hadmits hbale ?_ rfl
  simp only [hlen, ne_eq, not_true_eq_false, if_false, State.admitted_namedBale, hnamed, Option.filter, hlive, if_true, State.admitted_frame]
  exact if_neg hfree

theorem exec_baleAbort_opened (hopen : b.st = .opened) :
    exec (.baleAbort r) s = .next ((((s.admitted 0x0703 r key).endBale b .aborted 0 0 0).endLong 0 b.id 0x0701 0 [] 0).answer
      r.mb r.seq 0 0 [] 0) :=
  exec_baleAbort_of_live hbale hadmits hlen hnamed (by rw [Bale.live, hopen]; rfl) fun ⟨hpending, _⟩ => by
    rw [hopen] at hpending
    exact absurd hpending (by decide)

theorem exec_baleAbort_same_clock (hpending : b.st = .pending) (harmed : b.armedAt = s.now) :
    exec (.baleAbort r) s = .next ((((s.admitted 0x0703 r key).endBale b .aborted 0 0 0).endLong 0 b.id 0x0701 0 [] 0).answer
      r.mb r.seq 0 0 [] 0) :=
  exec_baleAbort_of_live hbale hadmits hlen hnamed (by rw [Bale.live, hpending]; rfl) fun ⟨_, hlater, _⟩ => hlater harmed

theorem exec_baleAbort_too_late (hpending : b.st = .pending) (harmed : b.armedAt ≠ s.now) (huntimed : b.due = none) :
    exec (.baleAbort r) s = .next ((s.admitted 0x0703 r key).answer r.mb r.seq 0x0709 0 [] 0) := by
  have hlive : b.live = true := by rw [Bale.live, hpending]; rfl
  refine State.directReq_answers (a := { status := 0x0709 }) hadmits hbale ?_ rfl
  simp only [hlen, ne_eq, not_true_eq_false, if_false, State.admitted_namedBale, hnamed, Option.filter, hlive, if_true, State.admitted_frame,
    hpending, harmed, State.tooLate, huntimed, not_false_eq_true, and_self]

end

/-! ### Status -/

theorem exec_baleStatus_known {b : Bale} (hadmits : s.Admits 0x0704 0 true r key) (hlen : r.payload.length = 4)
    (hfound : s.bales.list.find? (fun b => b.id == leAt r.payload 0 4 && !b.single) = some b) :
    exec (.baleStatus r) s = .next (
      let t := s.admitted 0x0704 r key
      (if b.st = .opened then t.putBale { b with touched := s.now } else t).answer r.mb r.seq 0 0
        (natLe 1 b.st.code ++ [0] ++ natLe 2 b.actions.length ++ natLe 4 b.firstBad ++ natLe 2 b.status) s.bales.lastTick) := by
  refine State.request_answers (a := { resp := _, tick := s.bales.lastTick }) hadmits ?_ rfl
  simp only [hbale, hlen, ne_eq, not_true_eq_false, if_false, State.admitted_frame, hfound]

end

/-- Settles O39, one lemma for each way in which a command can end. -/
theorem baleCommands : Obligations.BaleCommands := by
  unfold Obligations.BaleCommands
  exact ⟨fun s r key hadmits hbale => exec_baleOpen_full hbale hadmits, fun s r key hadmits hbale => exec_baleOpen_room hbale hadmits,
    fun s r key b hnamed hopen hadmits hbale hlen huntimed hlate =>
      ⟨exec_baleCommit_arms hbale hnamed hopen hadmits hlen huntimed hlate,
        fun st i => exec_baleCommit_refused hbale hnamed hopen hadmits hlen huntimed hlate⟩,
    fun s r key hadmits hbale => exec_baleCommit_unknown hbale hadmits,
    fun s r key b hadmits hbale hlen hnamed => ⟨exec_baleAbort_opened hbale hadmits hlen hnamed,
      exec_baleAbort_same_clock hbale hadmits hlen hnamed, exec_baleAbort_too_late hbale hadmits hlen hnamed⟩,
    fun s r key b hadmits hbale => exec_baleStatus_known hbale hadmits⟩

end Sys2Proof.Machine
end

section
/-! Commit ticks, the order of a tick's bales, expiry and draining (R163, R167, R169, R170, R175, R176, Table 7-3). -/

namespace Sys2Proof.Machine

/-! ### A tick -/

/-- The state in which a tick looks for its bales: what drained epochs leave is reclaimed, and the tick is noted (R170, R176). -/
def State.tickNoted (s : State) : State :=
  { s.reclaimDrained with bales := { s.reclaimDrained.bales with
      tickAt := if s.onGrid then s.now - (s.now - s.bales.tickAt) % us 1 else s.bales.tickAt, lastTick := s.angle } }

theorem exec_commitTick_idle {s : State} (hgrid : s.onGrid = false) (hinserted : s.insertedTick = false) : exec .commitTick s = .next s := by
  show execCommitTick s = _
  simp only [execCommitTick, hgrid, hinserted, Bool.not_false, and_self, if_true, done]

/-- A tick defers the bales whose rewrite has not ended, and runs the rest of its bales (R170, log entry 226). -/
theorem exec_commitTick {s : State} (hdue : s.onGrid = true ∨ s.insertedTick = true) : exec .commitTick s = .next (
    let t := s.tickNoted
    let late := (t.rewriteLate t.tickBales).1
    let u := (t.rewriteLate t.tickBales).2.deferBales late
    let tick := t.tickBales.filter (fun b => !late.any (fun x => x.id == b.id))
    if tick = [] then u else u.runTick u.tickRoom tick) := by
  have hticks : ¬((!s.onGrid) = true ∧ (!s.insertedTick) = true) := by
    rw [Bool.not_eq_true', Bool.not_eq_true']
    rintro ⟨hgrid, hinserted⟩
    exact hdue.elim (ne_false_of_eq_true · hgrid) (ne_false_of_eq_true · hinserted)
  show execCommitTick s = _
  simp only [execCommitTick, hticks, if_false, List.isEmpty_iff, done]
  rfl

/-- One bale of a tick that a retirement still rewrites: a free value tells whether it is late (log entry 226). -/
def drawLate (x : List Bale × State) (b : Bale) : List Bale × State :=
  (if (Config.freeWord x.2.fresh).getLsbD 0 then x.1 ++ [b] else x.1, { x.2 with fresh := x.2.fresh + 1 })

theorem State.rewriteLate_eq (s : State) (tick : List Bale) :
    s.rewriteLate tick = (tick.filter (fun b => b.rewriting)).foldl drawLate ([], s) := rfl

theorem foldl_drawLate (bs late : List Bale) (s : State) : ∃ (more : List Bale) (n : Nat), more.Sublist bs ∧
    bs.foldl drawLate (late, s) = (late ++ more, { s with fresh := n }) := by
  induction bs generalizing late s with
  | nil => exact ⟨[], s.fresh, .slnil, by rw [List.append_nil]; rfl⟩
  | cons b bs ih =>
    rw [List.foldl_cons, drawLate]
    split
    case isTrue =>
      obtain ⟨more, n, hsub, heq⟩ := ih (late ++ [b]) { s with fresh := s.fresh + 1 }
      exact ⟨b :: more, n, hsub.cons_cons b, by rw [heq, List.append_assoc]; rfl⟩
    case isFalse =>
      obtain ⟨more, n, hsub, heq⟩ := ih late { s with fresh := s.fresh + 1 }
      exact ⟨more, n, hsub.cons b, heq⟩

/-- The bales that a tick defers are some of those that a retirement still rewrites, and only free values are drawn (log entry 226). -/
theorem State.rewriteLate_sublist (s : State) (tick : List Bale) : ∃ (late : List Bale) (n : Nat),
    late.Sublist (tick.filter (fun b => b.rewriting)) ∧ s.rewriteLate tick = (late, { s with fresh := n }) :=
  foldl_drawLate (tick.filter (fun b => b.rewriting)) [] s

theorem State.rewriteLate_none {s : State} {tick : List Bale} (hnone : ∀ b ∈ tick, b.rewriting = false) : s.rewriteLate tick = ([], s) := by
  have hfilter : tick.filter (fun b => b.rewriting) = [] := by
    rw [List.filter_eq_nil_iff]
    exact fun b hb => ne_true_of_eq_false (hnone b hb)
  rw [rewriteLate_eq, hfilter, List.foldl_nil]

theorem exec_commitTick_no_rewriting {s t : State} (hdue : s.onGrid = true ∨ s.insertedTick = true) (ht : t = s.tickNoted)
    (hnone : ∀ b ∈ t.tickBales, b.rewriting = false) :
    exec .commitTick s = .next (if t.tickBales = [] then t else t.runTick t.tickRoom t.tickBales) := by
  subst ht
  have hall : s.tickNoted.tickBales.filter (fun b => !([] : List Bale).any (fun x => x.id == b.id)) = s.tickNoted.tickBales :=
    List.filter_eq_self.2 fun _ _ => rfl
  rw [exec_commitTick hdue]
  simp only [State.rewriteLate_none hnone, hall]
  rfl

theorem exec_commitTick_defers {s t : State} (hdue : s.onGrid = true ∨ s.insertedTick = true) (ht : t = s.tickNoted) :
    ∃ (late : List Bale) (n : Nat), late.Sublist (t.tickBales.filter (fun b => b.rewriting)) ∧ exec .commitTick s = .next (
      let u := State.deferBales { t with fresh := n } late
      let tick := t.tickBales.filter (fun b => !late.any (fun x => x.id == b.id))
      if tick = [] then u else u.runTick u.tickRoom tick) := by
  subst ht
  obtain ⟨late, n, hsub, hlate⟩ := s.tickNoted.rewriteLate_sublist s.tickNoted.tickBales
  refine ⟨late, n, hsub, ?_⟩
  rw [exec_commitTick hdue]
  simp only [hlate]

/-! ### The turn of a bale -/

section
variable {e room : Nat} {b : Bale} {rest : List Bale} {t : Tick}

/-- A bale without a reopen is refused by an earlier bale that shares an object or by its own checks, or else waits or is applied (R175). -/
theorem Tick.run_cons_of_not_reopens (hno : b.reopens = false) : Tick.run e room (b :: rest) t = Tick.run e room rest (
    match t.applied.find? (fun x => bothTouch x b), t.st.recheck b with
    | some w, _ => { t with outs := t.outs ++ [{ bale := b, status := 0x0707, winner := some w }] }
    | none, some (st, i) => if st = 0 then
        (if room ≤ t.applied.length then { t with later := t.later ++ [b] }
         else { t with st := t.st.applyBale e b, applied := t.applied ++ [b], outs := t.outs ++ [{ bale := b, first := i }] })
      else { t with outs := t.outs ++ [{ bale := b, status := st, first := i }] }
    | none, none => if room ≤ t.applied.length then { t with later := t.later ++ [b] }
      else { t with st := t.st.applyBale e b, applied := t.applied ++ [b], outs := t.outs ++ [{ bale := b }] }) := by
  have hjudge : t.judge none b = match t.applied.find? (fun x => bothTouch x b) with
      | some w => { bale := b, status := 0x0707, winner := some w }
      | none => match t.st.recheck b with
        | some (st, i) => { bale := b, status := st, first := i }
        | none => { bale := b } := by
    simp only [Tick.judge, hno, Bool.false_eq_true, false_and, if_false]
    rfl
  rw [Tick.run, hno, if_neg Bool.false_ne_true, Tick.turn, hjudge]
  congr 1
  cases hwinner : t.applied.find? (fun x => bothTouch x b) with
  | some w => rfl
  | none =>
    cases hchecks : t.st.recheck b with
    | none => rfl
    | some bad =>
      obtain ⟨st, i⟩ := bad
      by_cases hst : st = 0
      · subst hst
        rfl
      · simp only [hst, ne_eq, not_false_eq_true, if_true, if_false]

theorem Tick.run_cons_of_pin (hreopens : b.reopens = true) (hpin : t.st.gate.pin = true) :
    Tick.run e room (b :: rest) t = Tick.run e room rest { t with outs := t.outs ++ [{ bale := b, status := 0x0602 }] } := by
  rw [Tick.run]
  congr 1
  simp only [Tick.turn, Tick.judge, hreopens, hpin, and_self, if_true]
  rfl

/-- A reopen falls to a shut that the tick would apply without it (R175, log entry 121). -/
theorem Tick.run_cons_of_shut {w : Bale} (hreopens : b.reopens = true) (hpin : t.st.gate.pin = false)
    (hshut : (Tick.run e room rest t).applied.find? (fun x => x.shuts) = some w) :
    Tick.run e room (b :: rest) t =
      Tick.run e room rest { t with outs := t.outs ++ [{ bale := b, status := 0x0707, winner := some w }] } := by
  have hfirst : (Tick.run e room rest t).applied.find? Bale.shuts = some w := hshut
  rw [Tick.run]
  congr 1
  simp only [Tick.turn, Tick.judge, hreopens, hpin, hfirst, Bool.false_eq_true, and_false, if_true, if_false]
  rfl

end

/-! ### The end of a tick's bales, and expiry -/

theorem State.runTick_eq (s : State) (room : Nat) (tick : List Bale) : s.runTick room tick = (
    let t := Tick.run (s.bales.epoch + 1) room (s.tickOrder tick) { st := { s with bales := { s.bales with epoch := s.bales.epoch + 1 } } }
    t.outs.foldl (fun u o => u.closeBale s.angle o) ((if t.applied = [] then s else t.st).deferBales t.later)) := by
  simp only [runTick, List.isEmpty_iff]

theorem State.deferBales_deferrals (s : State) (bs : List Bale) : (s.deferBales bs).bales.deferrals = s.bales.deferrals + bs.length := by
  have hfold : (bs.foldl (fun (s : State) (b : Bale) => s.putBale { b with due := none, rewriting := false }) s).bales.deferrals =
      s.bales.deferrals := by
    induction bs generalizing s with
    | nil => rfl
    | cons b bs ih => exact ih _
  exact congrArg (· + bs.length) hfold

theorem State.closeBale_eq (s : State) (stamp : Nat) (o : Outcome) : s.closeBale stamp o = (
    let tick := if o.status = 0 then stamp else 0
    ((s.endBale o.bale (if o.status = 0 then .committed else .refused) o.status o.first tick).raise 0x0702 srcDevice (o.body stamp)).endLong
      0 o.bale.id o.status o.first [] tick) := by
  simp only [closeBale, beq_iff_eq]

section
variable {s : State} {bale : Nat} {b : Bale} (hfound : s.bales.list.find? (fun b => b.id == bale && b.st == .opened) = some b)
include hfound

theorem exec_baleIdleTimeout_over (hover : b.touched + ns (s.sn 0x0702) < s.now) :
    exec (.baleIdleTimeout bale) s = .next ((s.endBale b .aborted 0 0 0).raise 0x0701 srcDevice (natLe 4 b.id)) := by
  show execBaleIdleTimeout bale s = _
  simp only [execBaleIdleTimeout, hfound, Nat.not_le.2 hover, if_false, done]

theorem exec_baleIdleTimeout_early (hearly : s.now ≤ b.touched + ns (s.sn 0x0702)) : exec (.baleIdleTimeout bale) s = .next s := by
  show execBaleIdleTimeout bale s = _
  simp only [execBaleIdleTimeout, hfound, hearly, if_true, done]

end

theorem exec_epochDrained (s : State) : exec .epochDrained s = .next (if s.oldestEpoch ≤ s.bales.drainedTo then s
    else { s with bales := { s.bales with drainedTo := s.oldestEpoch } }) := by
  show execEpochDrained s = _
  simp only [execEpochDrained, done]
  split <;> rfl

/-- Settles O40, by a tick, the turn of each of its bales, their ends, and what drains. -/
theorem baleTicks : Obligations.BaleTicks := by
  unfold Obligations.BaleTicks
  refine ⟨fun s => exec_commitTick_idle, fun s t hdue ht => ⟨fun hnil => ?_, fun hsome hnone => ?_, exec_commitTick_defers hdue ht⟩,
    fun s => rfl, State.runTick_eq, fun e room b rest t => Tick.run_cons_of_not_reopens,
    fun e room b rest t hreopens => ⟨Tick.run_cons_of_pin hreopens, fun hpin w => Tick.run_cons_of_shut hreopens hpin⟩,
    State.deferBales_deferrals, State.closeBale_eq,
    fun s bale b hfound => ⟨exec_baleIdleTimeout_over hfound, exec_baleIdleTimeout_early hfound⟩, exec_epochDrained⟩
  · rw [exec_commitTick_no_rewriting hdue ht (by simp [hnil]), if_pos hnil]
  · rw [exec_commitTick_no_rewriting hdue ht hnone, if_neg hsome]

end Sys2Proof.Machine
end

section
/-! Packet bales, and the known-answer routines of the engines (R178, R200, R202, R210, R225). -/

namespace Sys2Proof.Machine

section
variable {s : State} {k : SliceId} {e : SliceEngine}

theorem exec_knownAnswer_retired (res : KnownAnswer) (hretired : s.engineState (engineIndex k e) = 2) :
    exec (.knownAnswerRoutine k e res) s = .next s := by
  show execKnownAnswerRoutine k e res s = _
  simp only [execKnownAnswerRoutine, hretired, if_true, done]

theorem exec_knownAnswer_checked (f : LarzenuFault) (hkept : s.engineState (engineIndex k e) ≠ 2) :
    exec (.knownAnswerRoutine k e (.checked f)) s = .next (
      let t := s.larzenuCheck k e f
      if t.engineState (engineIndex k e) = 0 then t.setEngine (engineIndex k e) 1 else t) := by
  show execKnownAnswerRoutine k e (.checked f) s = _
  simp only [execKnownAnswerRoutine, hkept, if_false, done]

theorem exec_knownAnswer_passed_fenced (hfenced : s.engineState (engineIndex k e) = 1) :
    exec (.knownAnswerRoutine k e .passed) s =
      .next (((s.setEngine (engineIndex k e) 0).settle (engineUnit k e)).faultReport (unitClass (engineUnit k e)) 3 1 0 (engineNumber e)
        (srcEngine (engineIndex k e)) 0) := by
  show execKnownAnswerRoutine k e .passed s = _
  simp only [execKnownAnswerRoutine, hfenced, OfNat.one_ne_ofNat, if_false, if_true, done]

theorem exec_knownAnswer_passed (hunfenced : s.engineState (engineIndex k e) ≠ 1) : exec (.knownAnswerRoutine k e .passed) s = .next s := by
  show execKnownAnswerRoutine k e .passed s = _
  simp only [execKnownAnswerRoutine, hunfenced, if_false, ite_self, done]

theorem exec_knownAnswer_failed (hkept : s.engineState (engineIndex k e) ≠ 2) : exec (.knownAnswerRoutine k e .failed) s = .next (
    let i := engineIndex k e
    let out := ((((s.engineResidents k e).foldl (fun s m => s.rerun m) s).setEngine i 2).raise 0x0103 (srcEngine i) []).noteRetire
    if s.engineState i = 1 then (out.settle (engineUnit k e)).faultReport (unitClass (engineUnit k e)) 4 1 3 (engineNumber e) (srcEngine i) 0
    else
      let opened := out.openFault (engineUnit k e) 3 (engineNumber e) (srcEngine i) (fun r => if r = 2 then 7 else 4)
      if opened.1 = 2 then opened.2.orderDrain k (unitClass (engineUnit k e)) else opened.2.settle (engineUnit k e)) := by
  show execKnownAnswerRoutine k e .failed s = _
  simp only [execKnownAnswerRoutine, hkept, if_false]
  split <;> rfl

end

/-- Settles O51, by the routine of a packet's bale and one lemma for each end of a known-answer routine. -/
theorem packetBales : Obligations.PacketBales := by
  unfold Obligations.PacketBales
  refine ⟨?apply, ?duplicate, fun s k e res => exec_knownAnswer_retired res, fun s k e f => exec_knownAnswer_checked f,
    fun s k e => exec_knownAnswer_passed_fenced, fun s k e => exec_knownAnswer_passed, fun s k e => exec_knownAnswer_failed⟩
  case apply =>
    intro s n
    show execPacketBaleApply n s = _
    unfold execPacketBaleApply
    cases hpkt : s.pkt? n with
    | none => rfl
    | some p =>
      cases hctx : p.ctx with
      | none => simp only [hctx, done]
      | some c =>
        simp only [hctx]
        split <;> rfl
  case duplicate =>
    intro w
    cases w <;> rfl

end Sys2Proof.Machine
end

section
/-! The ALU slot of a word: when it executes, its results and its flags (R190, R192, R193, Tables 8-4 and 8-5). -/

namespace Sys2Proof.Machine

/-! ### Bytes of a number -/

theorem length_natLe (k n : Nat) : (natLe k n).length = k := by
  induction k generalizing n with
  | zero => rfl
  | succ k ih => rw [natLe, List.length_cons, ih]

theorem leNat_lt (bs : Bytes) : leNat bs < 2 ^ (8 * bs.length) := by
  induction bs with
  | nil => exact Nat.one_pos
  | cons b bs ih =>
    have hb := b.isLt
    rw [leNat, List.length_cons, Nat.mul_succ, Nat.pow_add]
    omega

theorem natLe_leNat (bs : Bytes) : natLe bs.length (leNat bs) = bs := by
  induction bs with
  | nil => rfl
  | cons b bs ih =>
    have hb := b.isLt
    have hlow : BitVec.ofNat 8 (b.toNat + 256 * leNat bs) = b := BitVec.eq_of_toNat_eq (by rw [BitVec.toNat_ofNat]; omega)
    have hhigh : (b.toNat + 256 * leNat bs) / 256 = leNat bs := by omega
    rw [leNat, List.length_cons, natLe, hlow, hhigh, ih]

/-! ### Results (Table 8-5) -/

section
variable (a b : W64) (k pos w : Nat)

theorem eq_ofNat_of_toNat_eq {r : W64} {n : Nat} (h : r.toNat = n) : r = BitVec.ofNat 64 n :=
  (BitVec.toNat_eq_nat.1 h).2

theorem sub_eq_ofInt : a - b = BitVec.ofInt 64 ((a.toNat : Int) - b.toNat) := by
  have hb := b.isLt
  refine BitVec.eq_of_toNat_eq ?_
  rw [BitVec.toNat_sub, BitVec.toNat_ofInt]
  omega

theorem shiftLeft_eq_ofNat : a <<< k = BitVec.ofNat 64 (a.toNat * 2 ^ k) :=
  BitVec.eq_of_toNat_eq (by rw [BitVec.toNat_shiftLeft, BitVec.toNat_ofNat, Nat.shiftLeft_eq])

theorem ushiftRight_eq_ofNat : a >>> k = BitVec.ofNat 64 (a.toNat / 2 ^ k) :=
  eq_ofNat_of_toNat_eq (by rw [BitVec.toNat_ushiftRight, Nat.shiftRight_eq_div_pow])

theorem sshiftRight_eq_ofInt : a.sshiftRight k = BitVec.ofInt 64 (a.toInt / 2 ^ k) := by
  rw [BitVec.sshiftRight, Int.shiftRight_eq_div_pow]
  norm_cast

/-- The bits that a rotation takes round fall below those that it moves up, so that their union is a sum. -/
theorem rotateLeft_eq_ofNat (hk : k < 64) : a.rotateLeft k = BitVec.ofNat 64 (a.toNat * 2 ^ k + a.toNat / 2 ^ (64 - k)) := by
  have hsplit : 2 ^ 64 = 2 ^ (64 - k) * 2 ^ k := by rw [← Nat.pow_add, Nat.sub_add_cancel hk.le]
  have hround : a.toNat / 2 ^ (64 - k) < 2 ^ k := Nat.div_lt_of_lt_mul (hsplit ▸ a.isLt)
  have hup : a.toNat * 2 ^ k % 2 ^ 64 = a.toNat % 2 ^ (64 - k) * 2 ^ k := by rw [hsplit, Nat.mul_mod_mul_right]
  have hsum : a.toNat % 2 ^ (64 - k) * 2 ^ k + a.toNat / 2 ^ (64 - k) < 2 ^ 64 :=
    calc _ < a.toNat % 2 ^ (64 - k) * 2 ^ k + 2 ^ k := Nat.add_lt_add_left hround _
      _ = (a.toNat % 2 ^ (64 - k) + 1) * 2 ^ k := (Nat.succ_mul ..).symm
      _ ≤ 2 ^ (64 - k) * 2 ^ k := Nat.mul_le_mul_right _ (Nat.mod_lt _ (Nat.two_pow_pos _))
      _ = 2 ^ 64 := hsplit.symm
  refine BitVec.eq_of_toNat_eq ?_
  rw [BitVec.toNat_rotateLeft, BitVec.toNat_ofNat, Nat.mod_eq_of_lt hk, Nat.shiftLeft_eq, Nat.shiftRight_eq_div_pow, ← Nat.mod_add_mod, hup,
    Nat.mod_eq_of_lt hsum, ← Nat.shiftLeft_eq, Nat.shiftLeft_add_eq_or_of_lt hround]

theorem minu_eq_ofNat : (if a.toNat ≤ b.toNat then a else b) = BitVec.ofNat 64 (min a.toNat b.toNat) :=
  eq_ofNat_of_toNat_eq (by rw [apply_ite BitVec.toNat, Nat.min_def])

theorem maxu_eq_ofNat : (if b.toNat ≤ a.toNat then a else b) = BitVec.ofNat 64 (max a.toNat b.toNat) :=
  eq_ofNat_of_toNat_eq (by rw [apply_ite BitVec.toNat, Nat.max_comm, Nat.max_def])

theorem ext_eq_ofNat (hw : w < 64) : (a >>> pos) &&& fieldMask 0 w = BitVec.ofNat 64 (a.toNat / 2 ^ pos % 2 ^ w) := by
  have hmask : 2 ^ w - 1 < 2 ^ 64 := Nat.lt_of_le_of_lt (Nat.sub_le ..) (Nat.pow_lt_pow_right (by decide) hw)
  refine eq_ofNat_of_toNat_eq ?_
  rw [BitVec.toNat_and, BitVec.toNat_ushiftRight, Nat.shiftRight_eq_div_pow, fieldMask, BitVec.toNat_ofNat, Nat.pow_zero, Nat.mul_one,
    Nat.mod_eq_of_lt hmask, Nat.and_two_pow_sub_one_eq_mod]

theorem getLsbD_fieldMask {i : Nat} (hi : i < 64) : (fieldMask pos w).getLsbD i = decide (pos ≤ i ∧ i < pos + w) := by
  rw [fieldMask, BitVec.getLsbD_ofNat, Nat.testBit_mul_two_pow, Nat.testBit_two_pow_sub_one]
  grind

/-- The field takes its bits from b, and every other bit is that of a. -/
theorem getLsbD_ins {i : Nat} (hi : i < 64) :
    ((a &&& ~~~fieldMask pos w) ||| ((b <<< pos) &&& fieldMask pos w)).getLsbD i =
      if pos ≤ i ∧ i < pos + w then b.getLsbD (i - pos) else a.getLsbD i := by
  simp only [BitVec.getLsbD_or, BitVec.getLsbD_and, BitVec.getLsbD_not, BitVec.getLsbD_shiftLeft, getLsbD_fieldMask pos w hi, hi,
    decide_true, Bool.true_and]
  split <;> simp [*]

theorem natLe_bswapLow (hk : k ≤ 8) :
    natLe 8 (bswapLow k a).toNat = ((natLe 8 a.toNat).take k).reverse ++ (natLe 8 a.toNat).drop k := by
  rw [bswapLow]
  generalize hbytes : ((natLe 8 a.toNat).take k).reverse ++ (natLe 8 a.toNat).drop k = bs
  have hlen : bs.length = 8 := by
    rw [← hbytes, List.length_append, List.length_reverse, List.length_take, List.length_drop, length_natLe]
    omega
  have hlt := leNat_lt bs
  rw [hlen] at hlt
  rw [BitVec.toNat_ofNat, Nat.mod_eq_of_lt hlt, ← hlen, natLe_leNat]

/-- bswap reverses as many bytes as b mod 4 tells, and where that is 0 its result is free (log entry 31). -/
theorem aluBswapOp_eq (s : State) :
    aluBswapOp a b s = if b.toNat % 4 = 0 then s.draw else (bswapLow (2 ^ (b.toNat % 4)) a, s) := by
  have hlt := Nat.mod_lt b.toNat (by decide : 0 < 4)
  unfold aluBswapOp
  interval_cases b.toNat % 4 <;> rfl

/-! ### Flags (R193) -/

/-- The signs of the operands and of the sum differ as they do exactly where the signed sum does not fit. -/
theorem overflowAdd_eq : overflowAdd a b = decide ((a + b).toInt ≠ a.toInt + b.toInt) := by
  have hsign : overflowAdd a b = a.saddOverflow b := (BitVec.saddOverflow_eq a b).symm
  have hlt := BitVec.toInt_lt (x := a + b)
  have hge := BitVec.le_toInt (a + b)
  rw [hsign]
  cases hover : a.saddOverflow b with
  | false => simp [BitVec.toInt_add_of_not_saddOverflow (Bool.eq_false_iff.1 hover)]
  | true =>
    simp only [BitVec.saddOverflow, Bool.or_eq_true, decide_eq_true_eq] at hover
    exact (decide_eq_true (by omega)).symm

theorem overflowSub_eq : overflowSub a b = decide ((a - b).toInt ≠ a.toInt - b.toInt) := by
  have hsign : overflowSub a b = a.ssubOverflow b := by
    rw [BitVec.ssubOverflow_eq, overflowSub]
    cases a.msb <;> cases b.msb <;> simp
  have hlt := BitVec.toInt_lt (x := a - b)
  have hge := BitVec.le_toInt (a - b)
  rw [hsign]
  cases hover : a.ssubOverflow b with
  | false => simp [BitVec.toInt_sub_of_not_ssubOverflow (Bool.eq_false_iff.1 hover)]
  | true =>
    simp only [BitVec.ssubOverflow, Bool.or_eq_true, decide_eq_true_eq] at hover
    exact (decide_eq_true (by omega)).symm

theorem flagsAdd_eq : flagsAdd a b =
    { z := decide (a + b = 0), c := decide (2 ^ 64 ≤ a.toNat + b.toNat), n := decide (2 ^ 63 ≤ (a + b).toNat)
      v := decide ((a + b).toInt ≠ a.toInt + b.toInt) } := by
  rw [flagsAdd, overflowAdd_eq, flagN, BitVec.msb_eq_decide]
  rfl

theorem flagsSub_eq : flagsSub a b =
    { z := decide (a = b), c := decide (a.toNat < b.toNat), n := decide (2 ^ 63 ≤ (a - b).toNat)
      v := decide ((a - b).toInt ≠ a.toInt - b.toInt) } := by
  have hzero : flagZ (a - b) = decide (a = b) := decide_eq_decide.2 sub_eq_zero
  rw [flagsSub, overflowSub_eq, hzero, flagN, BitVec.msb_eq_decide]
  rfl

/-- Elsewhere Z and N tell of the result, and C and V are free (log entry 30). -/
theorem State.exists_flagsOther_eq (s : State) (r : W64) : ∃ fc fv : Bool, s.flagsOther r =
    ({ z := decide (r = 0), c := fc, n := decide (2 ^ 63 ≤ r.toNat), v := fv }, { s with fresh := s.fresh + 1 }) :=
  ⟨_, _, by rw [flagsOther, flagN, BitVec.msb_eq_decide]; rfl⟩

end

section
variable {s : State} {op : Nat} {x : AluSlot} {p : Packet} {c : Context}

/-! ### When it executes -/

/-- An ALU slot that executes marks itself done and notes when its word was issued, and leaves the rest of its context. -/
theorem State.aluCtx_eq (s : State) (c : Context) : s.aluCtx c = { c with issuedAt := (s.issued c).issuedAt, aluDone := true } := by
  unfold aluCtx issued
  split <;> rfl

@[simp] theorem State.aluCtx_operands (s : State) (c : Context) (x : AluSlot) :
    aluA (s.aluCtx c) x = aluA c x ∧ aluB (s.aluCtx c) x = aluB c x ∧ (s.aluCtx c).holds x.cond = c.holds x.cond := by
  rw [aluCtx_eq]
  exact ⟨rfl, rfl, rfl⟩

/-- An ALU slot that executes has its effect on the state in which its word is issued (R190, R192). -/
theorem State.aluStart_of_aluRuns {f : Context → State → State} (hruns : s.AluRuns op x p c) :
    s.aluStart op x f = .next (f (s.aluCtx c) (s.noteWord (sliceOf p.port) c)) := by
  obtain ⟨hctx, hfault, hfirst, hword⟩ := hruns
  simp only [aluStart, hctx, hfault, hfirst, hword, ne_eq, not_true_eq_false, Bool.false_eq_true, or_self, if_false]
  rfl

section
variable {f : W64 → W64 → State → W64 × State} {fl : Option (W64 → W64 → Flags)}

/-- One that a hardware fault strikes takes that machine check (R197). -/
theorem State.aluSlot_of_fault {h : HwCause} (hctx : s.runningCtx x.ctx = some (p, c)) (hfault : x.fault = some h) :
    s.aluSlot op x f fl = .next (s.hwCheck x.ctx (sliceOf p.port) c.engine c.bank c.pc h) := by
  simp only [aluSlot, aluStart, hctx, hfault, done]

/-- One that the word does not spell, or that has executed, changes nothing (log entry 204). -/
theorem State.aluSlot_of_spent (hctx : s.runningCtx x.ctx = some (p, c)) (hfault : x.fault = none)
    (hspent : c.aluDone = true ∨ wordAlu (s.wordOf c) ≠ aluSpelling op x) : s.aluSlot op x f fl = .next s := by
  simp only [aluSlot, aluStart, hctx, hfault, hspent, if_true, done]

section
variable (hruns : s.AluRuns op x p c)
include hruns

/-- One whose condition is not met only executes (R192, Table 8-4). -/
theorem State.aluSlot_of_not_holds (hcond : c.holds x.cond = false) :
    s.aluSlot op x f fl = .next ((s.noteWord (sliceOf p.port) c).setCtx x.ctx (s.aluCtx c)) := by
  simp only [aluSlot, aluStart_of_aluRuns hruns, aluCtx_operands, hcond, Bool.not_false, if_true]

variable {r : W64} {t : State} (hcond : c.holds x.cond = true)
  (hresult : f (aluA c x) (aluB c x) (s.noteWord (sliceOf p.port) c) = (r, t))
include hcond hresult

/-- Without setf it writes its result alone (R193). -/
theorem State.aluSlot_result (hsetf : x.setf = false) :
    s.aluSlot op x f fl = .next (t.setCtx x.ctx ((s.aluCtx c).setReg x.dst r)) := by
  simp only [aluSlot, aluStart_of_aluRuns hruns, aluCtx_operands, hcond, hresult, hsetf, Bool.not_true, Bool.not_false, Bool.false_eq_true,
    if_false, if_true]

/-- With setf an addition or a subtraction sets all four flags (R193). -/
theorem State.aluSlot_flags {q : W64 → W64 → Flags} (hsetf : x.setf = true) :
    s.aluSlot op x f (some q) = .next (
      let e := (s.aluCtx c).setReg x.dst r
      t.setCtx x.ctx { e with regs := { e.regs with f := q (aluA c x) (aluB c x) } }) := by
  simp only [aluSlot, aluStart_of_aluRuns hruns, aluCtx_operands, hcond, hresult, hsetf, Bool.not_true, Bool.false_eq_true, if_false]

/-- With setf any other operation sets Z and N, and leaves C and V free (R193, log entry 30). -/
theorem State.aluSlot_flagsOther (hsetf : x.setf = true) : ∃ fc fv : Bool,
    s.aluSlot op x f none = .next (
      let e := (s.aluCtx c).setReg x.dst r
      State.setCtx { t with fresh := t.fresh + 1 } x.ctx { e with regs := { e.regs with
        f := { z := decide (r = 0), c := fc, n := decide (2 ^ 63 ≤ r.toNat), v := fv } } }) := by
  obtain ⟨fc, fv, hflags⟩ := t.exists_flagsOther_eq r
  refine ⟨fc, fv, ?_⟩
  simp only [aluSlot, aluStart_of_aluRuns hruns, aluCtx_operands, hcond, hresult, hflags, hsetf, Bool.not_true, Bool.false_eq_true, if_false]

end
end

/-! ### The operations -/

theorem State.aluSlot_pure2_congr {g h : W64 → W64 → W64} {fl : Option (W64 → W64 → Flags)} (hgh : ∀ a b, g a b = h a b) :
    s.aluSlot op x (pure2 g) fl = s.aluSlot op x (pure2 h) fl := by
  rw [funext₂ hgh]

theorem exec_aluAdd : exec (.aluAdd x) s = s.aluSlot 1 x (pure2 (· + ·)) (some flagsAdd) := by
  show execAluAdd x s = _
  rfl

theorem exec_aluSub : exec (.aluSub x) s = s.aluSlot 2 x (pure2 (· - ·)) (some flagsSub) := by
  show execAluSub x s = _
  rfl

theorem exec_aluBswap : exec (.aluBswap x) s = s.aluSlot 15 x aluBswapOp none := by
  show execAluBswap x s = _
  rfl

theorem exec_aluNop (hruns : s.AluRuns 0 x p c) :
    exec (.aluNop x) s = .next ((s.noteWord (sliceOf p.port) c).setCtx x.ctx (s.aluCtx c)) := by
  show execAluNop x s = _
  rw [execAluNop, State.aluStart_of_aluRuns hruns]

/-- ins is the ALU slot of a result that takes the field from b and the rest from a (Table 8-5). -/
theorem exec_aluIns (s : State) (c : Context) (x : AluSlot) : ∃ g : W64 → W64 → W64,
    exec (.aluIns x) s = s.aluSlot 17 x (pure2 g) none ∧ InsResult c x (g (aluA c x) (aluB c x)) := by
  refine ⟨_, (show execAluIns x s = _ from rfl), fun _ hi => ?_⟩
  exact getLsbD_ins (aluA c x) (aluB c x) (fieldPos x) (fieldWidth x) hi

/-- An operation of the list is the ALU slot of its result; beyond the addition and the subtraction it gives C and V no value. -/
theorem exec_of_mem_aluResults (hctx : s.runningCtx x.ctx = some (p, c)) : ∀ o ∈ aluResults c x,
    ∃ fl, exec (o.2.1 x) s = s.aluSlot o.1 x (pure2 o.2.2) fl ∧ (2 < o.1 → fl = none) := by
  have hwidth : fieldWidth x < 64 := Nat.mod_lt _ (by decide)
  simp only [aluResults, List.forall_mem_cons, List.not_mem_nil, false_implies, implies_true, and_true]
  refine ⟨⟨some flagsAdd, ?add, by decide⟩, ⟨some flagsSub, ?sub, by decide⟩, ⟨none, ?mul, fun _ => rfl⟩, ⟨none, ?csum, fun _ => rfl⟩,
    ⟨none, ?and, fun _ => rfl⟩, ⟨none, ?or, fun _ => rfl⟩, ⟨none, ?xor, fun _ => rfl⟩, ⟨none, ?shl, fun _ => rfl⟩,
    ⟨none, ?shr, fun _ => rfl⟩, ⟨none, ?sar, fun _ => rfl⟩, ⟨none, ?rol, fun _ => rfl⟩, ⟨none, ?mov, fun _ => rfl⟩,
    ⟨none, ?minu, fun _ => rfl⟩, ⟨none, ?maxu, fun _ => rfl⟩, ⟨none, ?ext, fun _ => rfl⟩, ⟨none, ?sel, fun _ => rfl⟩,
    ⟨none, ?crc, fun _ => rfl⟩⟩
  case add => exact exec_aluAdd.trans (State.aluSlot_pure2_congr BitVec.add_def)
  case sub => exact exec_aluSub.trans (State.aluSlot_pure2_congr sub_eq_ofInt)
  case mul => show execAluMul x s = _; rfl
  case csum => show execAluCsum x s = _; rfl
  case and =>
    show execAluAnd x s = _
    exact State.aluSlot_pure2_congr fun a b => eq_ofNat_of_toNat_eq (BitVec.toNat_and a b)
  case or =>
    show execAluOr x s = _
    exact State.aluSlot_pure2_congr fun a b => eq_ofNat_of_toNat_eq (BitVec.toNat_or a b)
  case xor =>
    show execAluXor x s = _
    exact State.aluSlot_pure2_congr fun a b => eq_ofNat_of_toNat_eq (BitVec.toNat_xor a b)
  case shl =>
    show execAluShl x s = _
    exact State.aluSlot_pure2_congr fun a b => shiftLeft_eq_ofNat a _
  case shr =>
    show execAluShr x s = _
    exact State.aluSlot_pure2_congr fun a b => ushiftRight_eq_ofNat a _
  case sar =>
    show execAluSar x s = _
    exact State.aluSlot_pure2_congr fun a b => sshiftRight_eq_ofInt a _
  case rol =>
    show execAluRol x s = _
    exact State.aluSlot_pure2_congr fun a b => rotateLeft_eq_ofNat a _ (Nat.mod_lt _ (by decide))
  case mov => show execAluMov x s = _; rfl
  case minu =>
    show execAluMinu x s = _
    exact State.aluSlot_pure2_congr minu_eq_ofNat
  case maxu =>
    show execAluMaxu x s = _
    exact State.aluSlot_pure2_congr maxu_eq_ofNat
  case ext =>
    show execAluExt x s = _
    exact State.aluSlot_pure2_congr fun a _ => ext_eq_ofNat a _ _ hwidth
  case sel =>
    show execAluSel x s = _
    simp only [execAluSel, hctx]
  case crc => show execAluCrc x s = _; rfl

/-- The result of bswap over some bytes, which leaves the state as it is (Table 8-5). -/
theorem exists_swapResult (t : State) (hbytes : (aluB c x).toNat % 4 ≠ 0) :
    ∃ r, aluBswapOp (aluA c x) (aluB c x) t = (r, t) ∧ SwapResult c x r := by
  have hlt := Nat.mod_lt (aluB c x).toNat (by decide : 0 < 4)
  have hk : 2 ^ ((aluB c x).toNat % 4) ≤ 8 := Nat.pow_le_pow_right (n := 2) (j := 3) (by decide) (by omega)
  exact ⟨_, (aluBswapOp_eq ..).trans (if_neg hbytes), natLe_bswapLow _ _ hk⟩

end

/-- Settles O34: each operation is the ALU slot of its result, which executes, or changes nothing. -/
theorem aluResults_hold : Obligations.AluResults := by
  unfold Obligations.AluResults
  refine ⟨?result, fun s x p c => exec_aluNop, ?spent⟩
  case result =>
    rintro s t x p c d hcond hsetf rfl rfl
    refine ⟨fun o ho hruns => ?_, fun hruns => ?_, fun hruns hbytes => ?_, fun hruns hfree => ?_, rfl⟩
    · obtain ⟨fl, hslot, -⟩ := exec_of_mem_aluResults hruns.1 o ho
      exact hslot.trans (State.aluSlot_result hruns hcond rfl hsetf)
    · obtain ⟨g, hslot, hins⟩ := exec_aluIns s c x
      exact ⟨_, hins, hslot.trans (State.aluSlot_result hruns hcond rfl hsetf)⟩
    · obtain ⟨r, hresult, hswap⟩ := exists_swapResult (s.noteWord (sliceOf p.port) c) hbytes
      exact ⟨r, hswap, exec_aluBswap.trans (State.aluSlot_result hruns hcond hresult hsetf)⟩
    · exact ⟨_, exec_aluBswap.trans (State.aluSlot_result hruns hcond ((aluBswapOp_eq ..).trans (if_pos hfree)) hsetf)⟩
  case spent =>
    intro s x p c hctx hfault o ho hspent
    obtain ⟨fl, hslot, -⟩ := exec_of_mem_aluResults hctx o ho
    exact hslot.trans (State.aluSlot_of_spent hctx hfault hspent)

/-- Settles O35: each operation is the ALU slot of its result, and the flags are those of that result. -/
theorem aluFlags : Obligations.AluFlags := by
  unfold Obligations.AluFlags
  refine ⟨?flags, ?other⟩
  case flags =>
    rintro s t x p c d hcond hsetf rfl rfl
    refine ⟨fun hruns => ?_, fun hruns => ?_, fun o ho hother hruns => ?_, fun hruns => ?_, fun hruns hbytes => ?_⟩
    · refine (exec_aluAdd.trans (State.aluSlot_flags hruns hcond rfl hsetf)).trans ?_
      rw [flagsAdd_eq]
    · refine (exec_aluSub.trans (State.aluSlot_flags hruns hcond rfl hsetf)).trans ?_
      rw [flagsSub_eq]
    · obtain ⟨fl, hslot, hnone⟩ := exec_of_mem_aluResults hruns.1 o ho
      rw [hslot, hnone hother]
      exact State.aluSlot_flagsOther hruns hcond rfl hsetf
    · obtain ⟨g, hslot, hins⟩ := exec_aluIns s c x
      obtain ⟨fc, fv, hflags⟩ := State.aluSlot_flagsOther (f := pure2 g) hruns hcond rfl hsetf
      exact ⟨_, fc, fv, hins, hslot.trans hflags⟩
    · obtain ⟨r, hresult, hswap⟩ := exists_swapResult (s.noteWord (sliceOf p.port) c) hbytes
      obtain ⟨fc, fv, hflags⟩ := State.aluSlot_flagsOther hruns hcond hresult hsetf
      exact ⟨r, fc, fv, hswap, exec_aluBswap.trans hflags⟩
  case other =>
    intro s x p c hctx o ho
    obtain ⟨f, fl, hslot⟩ : ∃ f fl, exec (o.2 x) s = s.aluSlot o.1 x f fl := by
      rcases List.mem_append.1 ho with hfixed | hlist
      · obtain rfl | rfl := List.mem_pair.1 hfixed
        · exact ⟨_, _, exec_aluBswap⟩
        · obtain ⟨g, hslot, -⟩ := exec_aluIns s c x
          exact ⟨_, _, hslot⟩
      · obtain ⟨o', ho', rfl⟩ := List.mem_map.1 hlist
        obtain ⟨fl, hslot, -⟩ := exec_of_mem_aluResults hctx o' ho'
        exact ⟨_, fl, hslot⟩
    exact ⟨fun h hfault => hslot.trans (State.aluSlot_of_fault hctx hfault),
      fun hruns hcond => hslot.trans (State.aluSlot_of_not_holds hruns hcond)⟩

end Sys2Proof.Machine
end

section
/-! The end of a word whose memory slot has met a program cause (R192, R199, Tables 8-7 and 8-8). -/

namespace Sys2Proof.Machine

/-- A context at the first customer word, whose memory slot has met cause 6. -/
def checkedCtx : Context := { engine := 0, bank := 0, pc := 0x3000, check := some 6 }

/-- A packet whose routine runs in that context. -/
def checkedPkt : Packet := { port := 0, bytes := [], stamp := {}, at_ := 0, epoch := 0, stage := .running, ctx := some checkedCtx }

/-- The word that follows within the region and its first 256 begins without the cause that a slot of the last one met. -/
theorem State.goTo_of_customer {s : State} {n w : Nat} {p : Packet} {c : Context} (hlow : 0x3000 ≤ w) (hhigh : w < 0x4000)
    (hwords : c.words + 1 < 256) : s.goTo n p c w = s.setCtx n (c.endWord w) := by
  simp only [goTo, customerWord, hlow, hhigh, and_self, decide_true, Bool.not_true, Bool.false_eq_true, if_false, Nat.not_le.2 hwords]

/-- Refutes O38 by its clause (b), which keeps the cause that the memory slot of the last word met, while the next word begins without one
(`State.goTo_of_customer`). The two agree where no cause stands, as wherever a branch slot goes on, but the statement is about every context,
and in `checkedCtx` they differ. -/
theorem not_branchesAndDispatch : ¬ Obligations.BranchesAndDispatch := by
  unfold Obligations.BranchesAndDispatch
  rintro ⟨-, -, -, nextWord, -⟩
  have stated := nextWord (State.reset.setPkt 0 checkedPkt) 0 checkedPkt checkedCtx 0x3001
  rw [State.goTo_of_customer (by decide) (by decide) (by decide)] at stated
  have same := congrArg (fun u : State => ((u.pkt? 0).bind (·.ctx)).bind (·.check)) stated
  revert same
  decide +kernel

end Sys2Proof.Machine
end

section
/-! The loads of pattern sets, microcode and firmware, and the first step of a switchover (R203, R250, R254, R410, R411, R418, R419). -/

namespace Sys2Proof.Machine

section
variable {s : State} {r : Request} {key : Option Nat}

/-! ### What the checks of a request leave to the images -/

@[simp] theorem State.admitted_parts (s : State) (op : Nat) (r : Request) (key : Option Nat) :
    (s.admitted op r key).eng = s.eng ∧ (s.admitted op r key).awn = s.awn ∧ (s.admitted op r key).trust = s.trust ∧
      (s.admitted op r key).fault = s.fault := by
  rw [admitted_eq_with_host]
  exact ⟨rfl, rfl, rfl, rfl⟩

@[simp] theorem State.admitted_imgFault (s : State) (op : Nat) (r : Request) (key : Option Nat) (kind : Nat) (b : Bytes) :
    (s.admitted op r key).imgFault kind b = s.imgFault kind b := by
  rw [admitted_eq_with_host]
  rfl

@[simp] theorem State.admitted_shadowBusy (s : State) (op : Nat) (r : Request) (key : Option Nat) :
    (s.admitted op r key).shadowBusy = s.shadowBusy := by
  rw [admitted_eq_with_host]
  rfl

@[simp] theorem State.admitted_longs (s : State) (op : Nat) (r : Request) (key : Option Nat) :
    (s.admitted op r key).host.longs = s.host.longs := by
  cases key <;> rfl

theorem State.slotHeader_now (s : State) (slot : Nat) : (s.slotHeader slot).2.now = s.now := by
  unfold slotHeader
  extract_lets x
  split <;> rfl

variable (hbale : r.bale = 0)
include hbale

/-! ### Pattern sets (R250, R254) -/

section
variable (hadmits : s.Admits 0x0507 1 false r key)
include hadmits

theorem exec_patternLoad_refused {e : Nat × Nat} (hfault : s.imgFault 4 r.payload = some e) :
    exec (.patternLoad r) s = .next ((s.admitted 0x0507 r key).answer r.mb r.seq e.1 e.2 [] 0) := by
  refine State.directReq_answers (a := { status := e.1, detail := e.2 }) hadmits hbale ?_ rfl
  simp only [State.admitted_imgFault, hfault]

variable (hpasses : s.imgFault 4 r.payload = none)
include hpasses

theorem exec_patternLoad_illegal {i : Nat} (hbad : Config.dfaBad (imgPayload r.payload) = some i) :
    exec (.patternLoad r) s = .next ((s.admitted 0x0507 r key).answer r.mb r.seq 0x0B04 i [] 0) := by
  refine State.directReq_answers (a := { status := 0x0B04, detail := i }) hadmits hbale ?_ rfl
  simp only [State.admitted_imgFault, hpasses, hbad]

variable (hlegal : Config.dfaBad (imgPayload r.payload) = none)
include hlegal

theorem exec_patternLoad_placed {base : Nat} (hroom : patternBase s.awn.sets (imgPayload r.payload) = some base) :
    exec (.patternLoad r) s = .next ((State.measure { s.admitted 0x0507 r key with
        eng := { s.eng with nextLoad := s.eng.nextLoad + 1 }
        awn := { s.awn with sets := s.awn.sets ++ [{
          handle := s.eng.nextLoad, image := imgPayload r.payload, base := base, size := Config.dfaStates (imgPayload r.payload) }] } }
      5 (imgDigest r.payload) 0xFF (imgSv r.payload) 0 (imgBuild r.payload)).answer r.mb r.seq 0 0 (natLe 4 s.eng.nextLoad) 0) := by
  refine State.directReq_answers (a := { resp := natLe 4 s.eng.nextLoad }) hadmits hbale ?_ rfl
  simp only [State.admitted_imgFault, State.admitted_parts, hpasses, hlegal, hroom, State.placePattern]

/-- Room that only sets that are leaving take is to be had later (R254). -/
theorem exec_patternLoad_full (hfull : patternBase s.awn.sets (imgPayload r.payload) = none) :
    exec (.patternLoad r) s = .next ((s.admitted 0x0507 r key).answer r.mb r.seq
      (if (patternBase (s.awn.sets.filter (fun x => x.till.isNone)) (imgPayload r.payload)).isSome = true then 0x0705 else 0x0503) 0 [] 0) := by
  refine State.directReq_answers (a := { status :=
    if (patternBase (s.awn.sets.filter (fun x => x.till.isNone)) (imgPayload r.payload)).isSome = true then 0x0705 else 0x0503 })
    hadmits hbale ?_ rfl
  simp only [State.admitted_imgFault, State.admitted_parts, hpasses, hlegal, hfull]

end

/-! ### Microcode (R203, R411, R418) -/

section
variable {kind : Nat} (hadmits : s.Admits 0x0B02 1 false r key) (hkind : kind = if leAt r.payload 4 1 = 2 then 2 else 3)
include hadmits

theorem exec_microcodeLoad_busy (hbusy : s.shadowBusy = true) :
    exec (.microcodeLoad r) s = .next ((s.admitted 0x0B02 r key).answer r.mb r.seq 0x0B01 0 [] 0) := by
  refine State.directReq_answers (a := { status := 0x0B01 }) hadmits hbale ?_ rfl
  simp only [State.admitted_shadowBusy, hbusy, if_true]

variable (hidle : s.shadowBusy = false)
include hkind hidle

theorem exec_microcodeLoad_refused {e : Nat × Nat} (hfault : s.imgFault kind r.payload = some e) :
    exec (.microcodeLoad r) s = .next ((s.admitted 0x0B02 r key).answer r.mb r.seq e.1 e.2 [] 0) := by
  refine State.directReq_answers (a := { status := e.1, detail := e.2 }) hadmits hbale ?_ rfl
  simp only [State.admitted_shadowBusy, State.admitted_imgFault, hidle, ← hkind, hfault, Bool.false_eq_true, if_false]

variable (hpasses : s.imgFault kind r.payload = none)
include hpasses

theorem exec_microcodeLoad_offends {i : Nat} (hcustomer : kind = 3)
    (hword : (microWords (imgPayload r.payload)).findIdx? (fun w => !microWordOk w) = some i) :
    exec (.microcodeLoad r) s = .next ((s.admitted 0x0B02 r key).answer r.mb r.seq 0x0B04 i [] 0) := by
  refine State.directReq_answers (a := { status := 0x0B04, detail := i }) hadmits hbale ?_ rfl
  simp only [State.admitted_shadowBusy, State.admitted_imgFault, hidle, ← hkind, hpasses, Bool.false_eq_true, if_false, if_pos hcustomer, hword]

theorem exec_microcodeLoad_loaded
    (hwords : kind = 3 → (microWords (imgPayload r.payload)).findIdx? (fun w => !microWordOk w) = none) :
    exec (.microcodeLoad r) s = .next (((s.admitted 0x0B02 r key).microLoaded kind r.payload).2.answer r.mb r.seq 0 0
      (natLe 4 (s.admitted 0x0B02 r key).eng.nextLoad) 0) := by
  have hnone : (if kind = 3 then (microWords (imgPayload r.payload)).findIdx? (fun w => !microWordOk w) else none) = none :=
    ite_eq_right_iff.2 hwords
  refine State.directReq_answers (a := { resp := _ }) hadmits hbale ?_ rfl
  simp only [State.admitted_shadowBusy, State.admitted_imgFault, hidle, ← hkind, hpasses, Bool.false_eq_true, if_false, hnone]
  rfl

end

/-! ### Firmware (R418, R419) -/

section
variable (hadmits : s.Admits 0x0B05 1 false r key) (hsteady : s.trust.switchover = none)
include hadmits hsteady

theorem exec_firmwareLoad_refused {e : Nat × Nat}
    (hfault : (s.imgFault 1 (r.payload.take (192 + imgLength r.payload)) <|> s.imgFault 2 (r.payload.drop (192 + imgLength r.payload))) = some e) :
    exec (.firmwareLoad r) s = .next ((s.admitted 0x0B05 r key).answer r.mb r.seq e.1 e.2 [] 0) := by
  obtain ⟨⟨-, -, -, hstarted, -⟩, -⟩ := id hadmits
  show execFirmwareLoad r s = _
  simp only [execFirmwareLoad, beq_eq_false_iff_ne.2 hstarted, Bool.false_eq_true, false_and, if_false]
  refine State.directReq_answers (a := { status := e.1, detail := e.2 }) hadmits hbale ?_ rfl
  simp only [State.admitted_parts, State.admitted_imgFault, hsteady, hfault, Option.any_none, Bool.false_eq_true, if_false]

theorem exec_firmwareLoad_written (himage : s.imgFault 1 (r.payload.take (192 + imgLength r.payload)) = none)
    (hpatch : s.imgFault 2 (r.payload.drop (192 + imgLength r.payload)) = none) :
    exec (.firmwareLoad r) s = .next (((s.admitted 0x0B05 r key).writeSlot (1 - s.trust.running)
      (r.payload.take (192 + imgLength r.payload)) (r.payload.drop (192 + imgLength r.payload))).answer r.mb r.seq 0 0 [] 0) := by
  obtain ⟨⟨-, -, -, hstarted, -⟩, -⟩ := id hadmits
  show execFirmwareLoad r s = _
  simp only [execFirmwareLoad, beq_eq_false_iff_ne.2 hstarted, Bool.false_eq_true, false_and, if_false]
  refine State.directReq_answers (a := {}) hadmits hbale ?_ rfl
  simp only [State.admitted_parts, State.admitted_imgFault, hsteady, himage, hpatch, Option.any_none, Bool.false_eq_true, if_false,
    Option.orElse_eq_orElse, Option.orElse_none]

end

section
variable (hadmits : s.Admits 0x0B06 3 false r key) (hlen : r.payload.length = 1) (hslot : leAt r.payload 0 1 < 2)
include hadmits hlen hslot

/-- The switchover is staged, and its request waits for its end (R419). -/
theorem exec_firmwareSwitch_staged (hlongs : s.host.longs.all (fun x => x.kind == 0 || x.kind == 4) = true) (hdrain : s.fault.drain = none) :
    exec (.firmwareSwitch r) s = .next (
      let x := (s.admitted 0x0B06 r key).slotHeader (leAt r.payload 0 1)
      let u := State.raise { x.2 with trust := { x.2.trust with switchover := some { slot := leAt r.payload 0 1, header := x.1 } } }
        0x0B01 srcDevice (switchBody (leAt r.payload 0 1) x.1)
      { u with host := { u.host with longs := u.host.longs ++ [{
        mb := r.mb.val, seq := r.seq, opcode := reqCode r 0x0B06, kind := 3, idx := 0, at_ := s.now }] } }) := by
  have hfree : s.host.longs.any (fun x => x.kind == 1 || x.kind == 2 || x.kind == 3) = false := by
    rw [List.any_eq_false]
    intro x hx
    have hkind := List.all_eq_true.1 hlongs x hx
    simp only [Bool.or_eq_true, beq_iff_eq] at hkind ⊢
    omega
  show execFirmwareSwitch r s = _
  simp only [execFirmwareSwitch, State.directReq_of_admits hadmits hbale, done, hlen, Nat.not_le.2 hslot, State.admitted_longs,
    State.admitted_parts, hfree, hdrain, Option.isSome_none, Bool.false_eq_true, or_self, ne_eq, not_true_eq_false, if_false,
    State.conclude_later _ _ _ _ (3, 0), State.raise_frame, State.slotHeader_now, State.admitted_frame]

theorem exec_firmwareSwitch_refused
    (hbusy : s.host.longs.any (fun x => x.kind == 1 || x.kind == 2 || x.kind == 3) = true ∨ s.fault.drain.isSome = true) :
    exec (.firmwareSwitch r) s = .next ((s.admitted 0x0B06 r key).answer r.mb r.seq 0x0304 0 [] 0) := by
  refine State.directReq_answers (a := { status := 0x0304 }) hadmits hbale ?_ rfl
  simp only [hlen, Nat.not_le.2 hslot, State.admitted_longs, State.admitted_parts, hbusy, ne_eq, not_true_eq_false, if_false, if_true]

end
end

/-- Settles O48, one lemma for each way in which a load or the switchover's first step can end. -/
theorem imageLoads : Obligations.ImageLoads := by
  unfold Obligations.ImageLoads
  refine ⟨?pattern, fun s r key e hadmits hbale => exec_patternLoad_refused hbale hadmits, ?microcode, ?firmware,
    fun s r key hadmits hbale => exec_firmwareSwitch_staged hbale hadmits,
    fun s r key hadmits hbale => exec_firmwareSwitch_refused hbale hadmits⟩
  case pattern =>
    rintro s t r key hadmits hbale rfl hpasses
    split
    next hlegal hroom => exact exec_patternLoad_placed hbale hadmits hpasses hlegal hroom
    next hbad => exact exec_patternLoad_illegal hbale hadmits hpasses hbad
    next hlegal hfull => exact exec_patternLoad_full hbale hadmits hpasses hlegal hfull
  case microcode =>
    rintro s t r key kind hadmits hbale hkind rfl
    exact ⟨exec_microcodeLoad_busy hbale hadmits, fun e hidle => exec_microcodeLoad_refused hbale hadmits hkind hidle,
      fun i hidle hpasses => exec_microcodeLoad_offends hbale hadmits hkind hidle hpasses, exec_microcodeLoad_loaded hbale hadmits hkind⟩
  case firmware =>
    rintro s t r key image patch hadmits hbale hsteady rfl rfl rfl
    split
    next himage hpatch => exact exec_firmwareLoad_written hbale hadmits hsteady himage hpatch
    next e _ himage => exact exec_firmwareLoad_refused hbale hadmits hsteady (by rw [himage]; rfl)
    next e himage hpatch => exact exec_firmwareLoad_refused hbale hadmits hsteady (by rw [himage, hpatch]; rfl)

end Sys2Proof.Machine
end

section
/-! Export messages and templates on their way out: what leaves, and what the export unit notes of it (R231, R235). -/

namespace Sys2Proof.Machine

/-- Over UDP a message leaves for every collector, whatever the ring's room (R231). -/
theorem State.sendExport_of_collectors {s : State} (m : Bytes) (hudp : s.toRing = false) :
    s.sendExport m = some ((List.range s.collectors).foldl (fun s c => s.toCollector c m) s) := by
  simp only [sendExport, hudp, Bool.false_eq_true, if_false]

section
variable {z t : State} {x bs : Bytes} {q rest : List Bytes} {n : Nat}

/-- A message is sent from the records left once the lost ones are passed over; `n` of them fit into it (R231). -/
theorem exec_exportMessageSend_of_sent (hstaged : z.skipLost.svc.staging = x :: q)
    (htaken : takeStaged (beAt x 0 2) (z.skipLost.sn 0x090B 0 0 - 20) (x :: q) = (bs, n, rest)) (hfits : n ≠ 0)
    (hdest : z.skipLost.toRing = true ∨ z.skipLost.collectors ≠ 0) (hlevel : z.skipLost.power.level = 0)
    (hsent : z.skipLost.sendExport (z.skipLost.ipfixMessage (ipfixSet (beAt x 0 2) bs)) = some t) :
    exec .exportMessageSend z = .next { t with svc := { t.svc with
      staging := rest, exportSeq := t.svc.exportSeq + n, exportMsgs := t.svc.exportMsgs + 1 } } := by
  have hgoes : ¬(n = 0 ∨ (!z.skipLost.toRing && z.skipLost.collectors == 0) = true ∨ 1 ≤ z.skipLost.power.level) := by
    rintro (hnone | hnowhere | hshed)
    · exact hfits hnone
    · rcases hdest with hring | hcollectors
      · simp [hring] at hnowhere
      · simp [hcollectors] at hnowhere
    · omega
  show execExportMessageSend z = _
  simp only [execExportMessageSend, hstaged, htaken, if_neg hgoes, hsent, done]

end

/-- Templates that are due leave over UDP, and the period starts again (R231). -/
theorem exec_templateResend_of_due {s t : State} (hlevel : s.power.level = 0) (hudp : s.toRing = false)
    (hdue : s.svc.templateDue = true ∨ s.svc.templateAt + ns (s.sn 0x090B 0 1) ≤ s.now)
    (hsent : s.sendExport (s.ipfixMessage (ipfixSet 2 templates)) = some t) :
    exec .templateResend s = .next { t with svc := { t.svc with
      templateDue := false, templateAt := s.now, exportMsgs := t.svc.exportMsgs + 1 } } := by
  have hserved : ¬1 ≤ s.power.level := by omega
  have hgoes : s.svc.templateDue = true ∨ (!s.toRing) = true ∧ s.svc.templateAt + ns (s.sn 0x090B 0 1) ≤ s.now :=
    hdue.imp_right fun hperiod => ⟨by rw [hudp, Bool.not_false], hperiod⟩
  show execTemplateResend s = _
  simp only [execTemplateResend, if_neg hserved, if_pos hgoes, hsent, done]

/-- From sag level 1 on no templates are sent (R235). -/
theorem exec_templateResend_of_shed {s : State} (hshed : 1 ≤ s.power.level) : exec .templateResend s = .next s :=
  if_pos hshed

/-- Settles O13, by what a message that is sent leaves behind, and the message that goes to each collector. -/
theorem exportMessages : Obligations.ExportMessages := by
  unfold Obligations.ExportMessages
  refine ⟨?message, fun s m hudp => State.sendExport_of_collectors m hudp, ?templates, fun s => exec_templateResend_of_shed⟩
  case message =>
    rintro _ _ t x q n bs rest rfl hstaged htaken hfits hdest hlevel hsent
    exact exec_exportMessageSend_of_sent hstaged (hstaged ▸ htaken) hfits hdest hlevel hsent
  case templates =>
    intro s hlevel hudp hdue
    exact exec_templateResend_of_due hlevel hudp hdue (State.sendExport_of_collectors _ hudp)

end Sys2Proof.Machine
end

section
/-! Replay windows: what passes, and what a window holds once it has taken a sequence (R269). -/

namespace Sys2Proof.Machine

section
variable {w : Window64} {p q : Nat}

theorem Window64.passes_iff : w.passes q = true ↔
    w.high < q ∨ (q < w.high ∧ w.high ≤ q + 64 ∧ w.bitmap.testBit (w.high - q - 1) = false) := by
  simp [passes, and_assoc]

/-- A sequence that does not pass is the highest, or below the window, or its bit is set. -/
theorem Window64.passes_eq_false_iff : w.passes q = false ↔
    q ≤ w.high ∧ (q < w.high → w.high ≤ q + 64 → w.bitmap.testBit (w.high - q - 1) = true) := by
  rw [← Bool.not_eq_true, passes_iff]
  simp

theorem Window64.high_take_of_above (habove : w.high < q) : (w.take q).high = q := by
  simp only [take, if_pos habove]

theorem Window64.take_of_below (hbelow : q < w.high) :
    w.take q = { w with bitmap := w.bitmap ||| 1 <<< (w.high - q - 1) } := if_neg hbelow.not_gt

/-- The shift of the bitmap to a new highest sequence, within 64 of the old one and beyond (R269). -/
theorem Window64.bitmap_take_of_above (habove : w.high < q) : (w.take q).bitmap =
    if q - w.high ≤ 64 then (w.bitmap <<< (q - w.high)) % 2 ^ 64 ||| 1 <<< (q - w.high - 1) else 0 := by
  simp only [take, if_pos habove]
  split <;> rfl

theorem Window64.testBit_take_of_above (habove : w.high < q) {i : Nat} (hi : i < 64) : (w.take q).bitmap.testBit i =
    ((decide (q - w.high ≤ i) && w.bitmap.testBit (i - (q - w.high))) || decide (i = q - w.high - 1)) := by
  rw [bitmap_take_of_above habove]
  split
  case isTrue =>
    rw [Nat.testBit_or, Nat.testBit_mod_two_pow, Nat.testBit_shiftLeft, Nat.one_shiftLeft, Nat.testBit_two_pow]
    simp [hi, eq_comm]
  case isFalse hfar =>
    have hclear : ¬ q - w.high ≤ i := by omega
    have hnew : i ≠ q - w.high - 1 := by omega
    simp [hclear, hnew]

theorem Window64.testBit_take_of_below (hbelow : q < w.high) (i : Nat) :
    (w.take q).bitmap.testBit i = (w.bitmap.testBit i || decide (i = w.high - q - 1)) := by
  rw [take_of_below hbelow]
  simp [Nat.testBit_or, Nat.one_shiftLeft, Nat.testBit_two_pow, eq_comm]

/-- Bits of 64 and above are never set. -/
theorem Window64.bitmap_take_lt (hbits : w.bitmap < 2 ^ 64) (hpasses : w.passes q = true) : (w.take q).bitmap < 2 ^ 64 := by
  have hone {k : Nat} (hk : k < 64) : 1 <<< k < 2 ^ 64 := by
    rw [Nat.one_shiftLeft]
    exact Nat.pow_lt_pow_right (by decide) hk
  obtain habove | ⟨hbelow, hnear, -⟩ := passes_iff.1 hpasses
  · rw [bitmap_take_of_above habove]
    split
    · exact Nat.or_lt_two_pow (Nat.mod_lt _ (by decide)) (hone (by omega))
    · decide
  · rw [take_of_below hbelow]
    exact Nat.or_lt_two_pow hbits (hone (by omega))

/-- What a window has taken does not pass again, and what did not pass never does (R269). -/
theorem Window64.passes_take_eq_false (hpasses : w.passes q = true) (hspent : p = q ∨ w.passes p = false) :
    (w.take q).passes p = false := by
  rw [passes_eq_false_iff] at hspent ⊢
  obtain habove | ⟨hbelow, -, -⟩ := passes_iff.1 hpasses
  · rw [high_take_of_above habove]
    refine ⟨by omega, fun hlow hnear => ?_⟩
    rw [testBit_take_of_above habove (by omega)]
    obtain rfl | ⟨hle, hbit⟩ := hspent
    · omega
    · rcases hle.eq_or_lt with rfl | hlt
      · simp
      · have hshift : q - p - 1 - (q - w.high) = w.high - p - 1 := by omega
        have hkept : q - w.high ≤ q - p - 1 := by omega
        simp [hshift, hkept, hbit hlt (by omega)]
  · have hhigh : (w.take q).high = w.high := by rw [take_of_below hbelow]
    rw [hhigh]
    refine ⟨by omega, fun hlow hnear => ?_⟩
    rw [testBit_take_of_below hbelow]
    obtain rfl | ⟨-, hbit⟩ := hspent
    · simp
    · simp [hbit hlow hnear]

end

/-- Only the window of the key takes the sequence (R269). -/
theorem State.windowOf_takeSeq {s : State} (hrises : Tab.risesFrom none s.gate.windows = true) (key q j : Nat) :
    (s.takeSeq key q).windowOf j = if j = key then (s.windowOf key).take q else s.windowOf j := by
  simp only [windowOf, takeSeq, Tab.get_put _ _ _ _ _ hrises, eq_comm]

/-- Settles O58, by the bits of a window that has taken a sequence above the highest, or below it. -/
theorem replayWindow : Obligations.ReplayWindow := by
  unfold Obligations.ReplayWindow
  refine ⟨fun _ _ => Window64.passes_iff, ?taken, ?own, fun _ => rfl, fun _ _ _ _ => Window64.passes_take_eq_false⟩
  case taken =>
    intro w q hbits hpasses
    exact ⟨Window64.bitmap_take_lt hbits hpasses,
      fun habove => ⟨Window64.high_take_of_above habove, fun _ => Window64.testBit_take_of_above habove⟩,
      fun hbelow => ⟨by rw [Window64.take_of_below hbelow], Window64.testBit_take_of_below hbelow⟩⟩
  case own =>
    exact fun s key q hrises => ⟨State.windowOf_takeSeq hrises key q, rfl⟩

end Sys2Proof.Machine
end

section
/-! The judgement of a command at the gate, the hold limit, and the GATE_SHUT pin (R276, R277, R279, R281, R282). -/

namespace Sys2Proof.Machine

/-- The packet holds the grants of its PDUs, and each permit's use is taken (R276). -/
def State.takeGrants (s : State) (n : Nat) (p : Packet) (gs : List Grant) : State :=
  gs.foldl (fun s g => s.takeGrant n g) (s.setPkt n { p with
    pdus := (p.pdus.zip gs).map (fun (x : Pdu × Grant) => { x.1 with used := some (x.2.key, x.2.seq, x.2.left, x.2.flags) })
    holdAt := some (p.holdAt.getD s.now) })

section
variable {s : State} {n : Nat} {p : Packet}

/-! ### The lookup -/

section
variable (hpkt : s.pkt? n = some p)
include hpkt

/-- While the gate is shut every command is discarded with its cause (R281). -/
theorem State.lookupCmd_of_shut (hshut : s.gate.isShut = true) : s.lookupCmd n = s.discardCmd n vShut s.gate.cause := by
  simp only [lookupCmd, hpkt, hshut, if_true]

/-- With permits for every PDU, and no consumption to wait for, each use is taken and the command passes (R276). -/
theorem State.lookupCmd_of_grants {gs : List Grant} (hopen : s.gate.isShut = false) (hroom : s.verdictRoom p = true)
    (hacked : p.acked = false) (hgrants : s.grants (s.cmdProfile p) p.pdus [] = some gs)
    (hfree : (s.takeGrants n p gs).isConsuming n = false) : s.lookupCmd n = (s.takeGrants n p gs).passCmd n := by
  rw [lookupCmd, hpkt]
  refine (if_neg ?isOpen).trans ((if_neg ?hasRoom).trans ((if_neg ?unacked).trans ?granted))
  case isOpen => rw [hopen]; exact Bool.false_ne_true
  case hasRoom => rw [hroom]; exact Bool.false_ne_true
  case unacked => rw [hacked]; exact Bool.false_ne_true
  case granted =>
    rw [hgrants]
    exact if_neg (hfree ▸ Bool.false_ne_true)

/-- A command at step C3 in its flow's order, which repeats no recent discard and waits for no read, goes behind or is looked up (R276 to R278). -/
theorem exec_permitTableLookup (hstage : p.stage = .judge) (horder : s.earlierOnPath n p = false) (hfirst : s.earlierCommand n p = false)
    (hreads : s.mem.reads = []) (hnew : s.recentOf p = none) :
    exec (.permitTableLookup n) s = .next (if s.flowHeld p.key ∧ s.gate.isShut = false then s.goBehind n p else s.lookupCmd n) := by
  show execPermitTableLookup n s = _
  simp only [execPermitTableLookup, hpkt, hstage, horder, hfirst, hreads, hnew, List.any_nil, done, ne_eq, not_true_eq_false,
    Bool.false_eq_true, or_self, if_false, Bool.not_eq_true']
  split <;> rfl

/-- A held command past its limit, which waits for no consumption, gets the verdict of its reasons, and its flow is released (R279). -/
theorem exec_holdLimitExpiry (hheld : p.stage = .held) (hover : s.holdOver p = true) (hfree : s.isConsuming n = false) :
    exec (.holdLimitExpiry n) s = .next ((s.discardCmd n (finalVerdict p.reasons).1 (finalVerdict p.reasons).2).releaseFlow p.key) := by
  have hdue : p.stage = .held ∧ s.holdOver p = true ∧ (!s.isConsuming n) = true := ⟨hheld, hover, by rw [hfree, Bool.not_false]⟩
  show execHoldLimitExpiry n s = _
  simp only [execHoldLimitExpiry, hpkt, if_pos hdue, done]

end

/-! ### The gate and its pin -/

/-- The pin is noted: it shuts an open gate, or counts a toggle, and while it stands it does nothing more (R281, R282). -/
theorem exec_gateShutAssert (s : State) : exec .gateShutAssert s = .next (if s.gate.pin then s
    else if s.gate.isShut then
      { s with gate := { s.gate with pin := true, releasedAt := none, toggles := s.gate.toggles + 1 } }
    else s.passedNow.foldl (fun s n => s.discardCmd n vShut 10)
      (({ s with gate := { s.gate with pin := true, releasedAt := none } }).shutGate 10 0xFFFF 0xFFFF)) := by
  show execGateShutAssert s = _
  simp only [execGateShutAssert, State.pinShut, done]
  split <;> rfl

/-- A shutting gate that keeps its permits drops what it holds (R281). -/
theorem State.shutGate_of_kept (hkeep : s.son 0x0B08 = false) (cause source key : Nat) : s.shutGate cause source key =
    ((({ s with gate := { s.gate with isShut := true, cause := cause } }).gateState true cause source key 0).dropHeld cause).noteStatus := by
  simp only [shutGate, hkeep, Bool.false_eq_true, if_false]

/-- In level mode the gate that the pin shut opens after the release time, where nothing else keeps it shut (R282). -/
theorem exec_gateShutRelease {t : Nat} (hlevel : s.sn 0x0B09 0 0 = 1) (hpin : s.gate.pin = false) (hshut : s.gate.isShut = true)
    (hcause : s.gate.cause = 10) (hreleased : s.gate.releasedAt = some t) (hdue : t + ns (s.sn 0x0B09 0 2) ≤ s.now)
    (hstays : s.staysShut = false) :
    exec .gateShutRelease s = .next (s.openGate 0xFFFF 0xFFFF) := by
  refine if_pos ⟨hlevel, ?_, hshut, hcause, ?_, ?_⟩
  · rw [hpin, Bool.not_false]
  · rw [hstays, Bool.not_false]
  · rw [hreleased, Option.any_some, decide_eq_true hdue]

end

/-- Settles O15, one lemma for each way in which a command is judged, and for each command of the pin; a gate that opens is the model's own by
its definition. -/
theorem gatePassage : Obligations.GatePassage := by
  unfold Obligations.GatePassage
  refine ⟨fun _ _ _ => State.lookupCmd_of_shut, fun _ _ _ => exec_permitTableLookup, ?granted, fun _ _ _ => exec_holdLimitExpiry,
    exec_gateShutAssert, fun _ cause source key hkeep => State.shutGate_of_kept hkeep cause source key, fun _ => rfl,
    fun _ _ => exec_gateShutRelease⟩
  case granted =>
    rintro s _ n p gs hpkt hopen hroom hacked hgrants rfl hfree
    exact State.lookupCmd_of_grants hpkt hopen hroom hacked hgrants hfree

end Sys2Proof.Machine
end

section
/-! The ledger writer, seals, and the records of aggregated refusals (R267, R286 to R289). -/

namespace Sys2Proof.Machine

/-! ### The ledger writer -/

section
variable {s : State} {r : Bytes} {rest : List Bytes} (hqueue : s.ledger.queue = r :: rest)
include hqueue

/-- A record without room in the ring, or that no mirror takes, stays, and an open gate shuts with cause 12 (R289). -/
theorem exec_ledgerRecordWrite_blocked (hblocked : s.ledger.mark + s.ledgerRing ≤ leAt r 0 8 ∨ s.ledgerTakes (leAt r 0 8 % 8) = false) :
    exec .ledgerRecordWrite s = .next (if s.gate.isShut then s else s.shutGate 12 0xFFFF 0xFFFF) := by
  show execLedgerRecordWrite s = _
  simp only [execLedgerRecordWrite, hqueue, stripeOf, Bool.not_eq_true', if_pos hblocked, done]

/-- A record with room, which a mirror takes, is written, and what waited for room is looked at again (R288). -/
theorem exec_ledgerRecordWrite_written (hroom : leAt r 0 8 < s.ledger.mark + s.ledgerRing) (htakes : s.ledgerTakes (leAt r 0 8 % 8) = true) :
    exec .ledgerRecordWrite s = .next (
      let t := ((s.writeRecord r rest).relookup (fun p => p.noRoom)).advanceIntake
      if t.ringFull ∧ t.gate.isShut = false then t.shutGate 12 0xFFFF 0xFFFF else t) := by
  have htaken : ¬(s.ledger.mark + s.ledgerRing ≤ leAt r 0 8 ∨ s.ledgerTakes (leAt r 0 8 % 8) = false) := by
    rw [htakes]
    simpa using hroom
  show execLedgerRecordWrite s = _
  simp only [execLedgerRecordWrite, hqueue, stripeOf, Bool.not_eq_true', if_neg htaken, done]

end

/-! ### Seals -/

/-- A seal falls due by its interval, or by its count (R287). -/
theorem exec_ledgerSeal_of_due {s : State} (howned : s.owned = true) (hroom : s.ledger.queue.length < 8192) (hstarted : s.ledger.started = true)
    (hdue : s.ledger.sealAt + ns (s.sn 0x0B0B 0 0) ≤ s.now ∨ s.sn 0x0B0B 0 1 ≤ s.ledger.sinceSeal) :
    exec .ledgerSeal s = .next (s.recordSigned { type := 8, detailA := s.ledger.sinceSeal }) := by
  refine if_pos ⟨howned, ?due, ?room⟩
  case due => simpa [State.sealDue, hstarted] using hdue
  case room => simpa [State.ledgerFull] using hroom

/-! ### Aggregated refusals -/

/-- The record of an aggregate (R267). -/
def State.recordAggregate (s : State) (a : Aggregate) : State :=
  s.record { type := 4, cause := a.cause, source := a.source, detailA := a.count }

/-- The device with these refusals yet to be written (R267). -/
def State.withAggregates (s : State) (as : List Aggregate) : State := { s with gate := { s.gate with aggregates := as } }

@[simp] theorem State.recordAggregate_frame (s : State) (a : Aggregate) :
    (s.recordAggregate a).gate = s.gate ∧ (s.recordAggregate a).owned = s.owned := by
  simp [recordAggregate, owned]

/-- What a record writes does not rest on the aggregates. -/
theorem State.recordAggregate_withAggregates (s : State) (as : List Aggregate) (a : Aggregate) :
    (s.withAggregates as).recordAggregate a = (s.recordAggregate a).withAggregates as := by
  unfold recordAggregate record makeRecord
  rw [apply_ite (State.withAggregates · as), apply_ite (State.withAggregates · as)]
  rfl

theorem State.recordAggregate_eq_with_ledger (s : State) (a : Aggregate) :
    s.recordAggregate a = { s with ledger := (s.recordAggregate a).ledger } := by
  unfold recordAggregate record makeRecord
  (repeat' split) <;> rfl

/-- A record lengthens the queue by one at most (R288). -/
theorem State.length_queue_recordAggregate (s : State) (a : Aggregate) :
    (s.recordAggregate a).ledger.queue.length ≤ s.ledger.queue.length + 1 := by
  unfold recordAggregate record makeRecord
  (repeat' split)
  · exact Nat.le_succ _
  · exact Nat.le_succ _
  · exact (List.length_append ..).le

theorem State.foldl_recordAggregate_withAggregates (l : List Aggregate) (s : State) (as : List Aggregate) :
    l.foldl State.recordAggregate (s.withAggregates as) = (l.foldl State.recordAggregate s).withAggregates as := by
  induction l generalizing s with
  | nil => rfl
  | cons a l ih => rw [List.foldl_cons, List.foldl_cons, recordAggregate_withAggregates, ih]

theorem State.foldl_recordAggregate_eq_with_ledger (l : List Aggregate) (s : State) :
    l.foldl State.recordAggregate s = { s with ledger := (l.foldl State.recordAggregate s).ledger } := by
  induction l generalizing s with
  | nil => rfl
  | cons a l ih =>
    rw [List.foldl_cons, recordAggregate_eq_with_ledger]
    exact ih _

/-- With room in the queue, or on an unowned device, an aggregate leaves for its record (R267). -/
theorem State.writeAggregate_of_room {s : State} {a : Aggregate} (hroom : s.owned = true → s.ledger.queue.length < 8192) :
    s.writeAggregate a = (s.recordAggregate a).withAggregates (s.gate.aggregates.erase a) := by
  have hwritten : ¬(s.owned = true ∧ s.ledgerFull = true) := by
    simpa [ledgerFull] using hroom
  rw [← (s.recordAggregate_frame a).1]
  exact if_neg hwritten

/-- With room for them all, aggregates leave for their records, in order (R267). -/
theorem State.foldl_writeAggregate {l : List Aggregate} {s : State} (hroom : s.owned = true → s.ledger.queue.length + l.length ≤ 8192) :
    l.foldl State.writeAggregate s = (l.foldl State.recordAggregate s).withAggregates (s.gate.aggregates.diff l) := by
  induction l generalizing s with
  | nil => rfl
  | cons a l ih =>
    simp only [List.length_cons] at hroom
    have hrest : (s.recordAggregate a).owned = true → (s.recordAggregate a).ledger.queue.length + l.length ≤ 8192 := fun howned => by
      have hbefore := hroom ((s.recordAggregate_frame a).2 ▸ howned)
      have hone := s.length_queue_recordAggregate a
      omega
    calc (a :: l).foldl State.writeAggregate s
        = l.foldl State.writeAggregate ((s.recordAggregate a).withAggregates (s.gate.aggregates.erase a)) := by
          rw [List.foldl_cons, writeAggregate_of_room fun howned => by have := hroom howned; omega]
      _ = (l.foldl State.recordAggregate ((s.recordAggregate a).withAggregates (s.gate.aggregates.erase a))).withAggregates
            ((s.gate.aggregates.erase a).diff l) := ih hrest
      _ = _ := by
          rw [foldl_recordAggregate_withAggregates, List.foldl_cons, List.diff_cons]
          rfl

/-- A list without those of its elements that a test names is the others. -/
theorem diff_filter_self {α : Type} [DecidableEq α] (p : α → Bool) (l : List α) : l.diff (l.filter p) = l.filter (fun a => !p a) := by
  induction l with
  | nil => rfl
  | cons a l ih =>
    cases hp : p a with
    | true => simp [hp, List.diff_cons, ih]
    | false =>
      have hkept : a ∉ l.filter p := by simp [hp]
      simp [hp, List.cons_diff_of_not_mem hkept, ih]

/-- With room for their records the aggregates of ended seconds leave, and those of the second in progress stay (R267). -/
theorem exec_aggregateRefusalRecord {s : State}
    (hroom : s.owned = true →
      s.ledger.queue.length + (s.gate.aggregates.filter (fun a => decide (a.sec < s.now / sec 1))).length ≤ 8192) :
    exec .aggregateRefusalRecord s = .next (State.withAggregates
      { s with ledger := ((s.gate.aggregates.filter (fun a => decide (a.sec < s.now / sec 1))).foldl State.recordAggregate s).ledger }
      (s.gate.aggregates.filter (fun a => !decide (a.sec < s.now / sec 1)))) := by
  show done (List.foldl State.writeAggregate s _) = _
  rw [done, State.foldl_writeAggregate hroom, diff_filter_self, ← State.foldl_recordAggregate_eq_with_ledger]

/-- Settles O16, one lemma for each command; what a written record leaves is the model's own by its definition. -/
theorem ledgerAndRefusals : Obligations.LedgerAndRefusals := by
  unfold Obligations.LedgerAndRefusals
  exact ⟨fun _ _ _ => exec_ledgerRecordWrite_blocked, fun _ _ _ => exec_ledgerRecordWrite_written, fun _ _ _ => rfl,
    fun _ => exec_ledgerSeal_of_due, fun _ hroom => ⟨_, exec_aggregateRefusalRecord hroom, rfl, rfl, rfl⟩,
    fun _ _ howned hfull => if_pos ⟨howned, hfull⟩⟩

end Sys2Proof.Machine
end

section
/-! Owner keys and rollback counters (R266, R408, R415, R417, R421). -/

namespace Sys2Proof.Machine

/-! ### What the checks of a request leave to OTP -/

theorem State.admitted_ownerKey (s : State) (op : Nat) (r : Request) (key : Option Nat) (i : Nat) :
    (s.admitted op r key).ownerKey i = s.ownerKey i := by
  simp only [ownerKey, admitted_parts]

theorem State.admitted_keyOf (s : State) (op : Nat) (r : Request) (key : Option Nat) (id : Nat) :
    (s.admitted op r key).keyOf id = s.keyOf id := by
  simp only [keyOf, admitted_ownerKey, admitted_frame]

theorem State.admitted_rollback (s : State) (op : Nat) (r : Request) (key : Option Nat) (k : Nat) :
    (s.admitted op r key).rollback k = s.rollback k := by
  simp only [rollback, admitted_parts]

theorem State.admitted_rollbackLimit (s : State) (op : Nat) (r : Request) (key : Option Nat) (k : Nat) :
    (s.admitted op r key).rollbackLimit k = s.rollbackLimit k := by
  simp only [rollbackLimit, admitted_parts]

section
variable {s : State} {r : Request} {key : Option Nat} (hbale : r.bale = 0)
include hbale

/-! ### Owner keys (R415) -/

section
variable {present : List Nat} (hadmits : s.Admits 0x0B0A 3 false r key) (hlen : r.payload.length = 40)
  (hzero : leNat (slice r.payload 1 7) = 0) (hslot : leAt r.payload 0 1 < 4)
  (hpresent : present = (List.range 4).filter (fun i => (s.ownerKey i).isSome))
include hadmits hlen hzero hslot hpresent

theorem exec_ownerKeySet_absent (hremoves : leNat (slice r.payload 8 32) = 0) (habsent : leAt r.payload 0 1 ∉ present) :
    exec (.ownerKeySet r) s = .next ((s.admitted 0x0B0A r key).answer r.mb r.seq 0x0301 0 [] 0) := by
  refine State.directReq_answers (a := { status := 0x0301 }) hadmits hbale ?_ rfl
  simp [State.admitted_ownerKey, ← hpresent, hlen, hzero, Nat.not_le.2 hslot, hremoves, habsent]

theorem exec_ownerKeySet_last (hremoves : leNat (slice r.payload 8 32) = 0) (hlast : present = [leAt r.payload 0 1]) :
    exec (.ownerKeySet r) s = .next ((s.admitted 0x0B0A r key).answer r.mb r.seq 0x0304 0 [] 0) := by
  refine State.directReq_answers (a := { status := 0x0304 }) hadmits hbale ?_ rfl
  simp [State.admitted_ownerKey, ← hpresent, hlen, hzero, Nat.not_le.2 hslot, hremoves, hlast]

variable (hthere : ¬(leNat (slice r.payload 8 32) = 0 ∧ leAt r.payload 0 1 ∉ present))
include hthere

/-- Where two keys or more stand, none sets its own slot. -/
theorem exec_ownerKeySet_own (htwo : 2 ≤ present.length) (hown : key.getD 0xFFFF - 0xFF00 = leAt r.payload 0 1) :
    exec (.ownerKeySet r) s = .next ((s.admitted 0x0B0A r key).answer r.mb r.seq 0x0204 0 [] 0) := by
  have hnotlast : present ≠ [leAt r.payload 0 1] := by
    rintro rfl
    exact absurd htwo (by simp)
  refine State.directReq_answers (a := { status := 0x0204 }) hadmits hbale ?_ rfl
  simp [State.admitted_ownerKey, ← hpresent, hlen, hzero, Nat.not_le.2 hslot, hthere, htwo, hown, hnotlast]

variable (hnotlast : ¬(leNat (slice r.payload 8 32) = 0 ∧ present = [leAt r.payload 0 1]))
  (hother : ¬(2 ≤ present.length ∧ key.getD 0xFFFF - 0xFF00 = leAt r.payload 0 1))
include hnotlast hother

theorem exec_ownerKeySet_full (hfull : s.rollback 2 = 255 ∨ 260 ≤ s.trust.otp.rows.length) :
    exec (.ownerKeySet r) s = .next ((s.admitted 0x0B0A r key).answer r.mb r.seq 0x0B03 0 [] 0) := by
  refine State.directReq_answers (a := { status := 0x0B03 }) hadmits hbale ?_ rfl
  simp [State.admitted_ownerKey, State.admitted_rollback, ← hpresent, hlen, hzero, Nat.not_le.2 hslot, hthere, hnotlast, hother, hfull]

/-- A change that another slot's key signs, or a lone key, with room for its row and its epoch, is made, recorded and measured. -/
theorem exec_ownerKeySet_changed (hepoch : s.rollback 2 < 255) (hrows : s.trust.otp.rows.length < 260) :
    exec (.ownerKeySet r) s = .next (
      let t := s.admitted 0x0B0A r key
      let slot := leAt r.payload 0 1
      let k := if leNat (slice r.payload 8 32) = 0 then none else some (slice r.payload 8 32)
      let w := (t.writeRows [(slot, k)]).setRollback 2 (s.rollback 2 + 1)
      let u := w.rekeyPermits (0xFF00 + slot) (s.keyOf (0xFF00 + slot)) (w.keyOf (0xFF00 + slot))
      ((u.record { type := 7, source := 0x0100 + r.mb.val, key := key.getD 0xFFFF, digest := u.ownerDigest.take 32 }).measure 7 u.ownerDigest).answer
        r.mb r.seq 0 0 [] 0) := by
  have hroom : ¬(s.rollback 2 = 255 ∨ 260 ≤ s.trust.otp.rows.length) := by omega
  refine State.directReq_answers (a := {}) hadmits hbale ?_ rfl
  simp [State.admitted_ownerKey, State.admitted_rollback, State.admitted_keyOf, ← hpresent, hlen, hzero, Nat.not_le.2 hslot, hthere, hnotlast,
    hother, hroom]

end

/-! ### Rollback counters (R417) -/

section
variable (hadmits : s.Admits 0x0B09 3 false r key) (hlen : r.payload.length = 2) (hcounter : leAt r.payload 0 1 < 4)
include hadmits hlen hcounter

theorem exec_rollbackAdvance_advanced (habove : s.rollback (leAt r.payload 0 1) < leAt r.payload 1 1)
    (hwithin : leAt r.payload 1 1 ≤ s.rollbackLimit (leAt r.payload 0 1)) :
    exec (.rollbackAdvance r) s = .next (
      let t := (s.admitted 0x0B09 r key).setRollback (leAt r.payload 0 1) (leAt r.payload 1 1)
      (t.measure 6 (sha512 t.rollbackBytes)).answer r.mb r.seq 0 0 [] 0) := by
  refine State.directReq_answers (a := {}) hadmits hbale ?_ rfl
  simp [State.admitted_rollback, State.admitted_rollbackLimit, hlen, Nat.not_le.2 hcounter, Nat.not_le.2 habove, Nat.not_lt.2 hwithin]

theorem exec_rollbackAdvance_refused (hbad : leAt r.payload 1 1 ≤ s.rollback (leAt r.payload 0 1) ∨
    s.rollbackLimit (leAt r.payload 0 1) < leAt r.payload 1 1) :
    exec (.rollbackAdvance r) s = .next ((s.admitted 0x0B09 r key).answer r.mb r.seq 0x0B03 0 [] 0) := by
  refine State.directReq_answers (a := { status := 0x0B03 }) hadmits hbale ?_ rfl
  simp [State.admitted_rollback, State.admitted_rollbackLimit, hlen, Nat.not_le.2 hcounter, hbad]

end

end

/-- Settles O49, one lemma for each way in which a command can end. -/
theorem ownerKeysAndCounters : Obligations.OwnerKeysAndCounters := by
  unfold Obligations.OwnerKeysAndCounters
  refine ⟨?changed, ?refused, ?advanced, ?unadvanced⟩
  case changed =>
    rintro s r key _ present hadmits hbale hlen hzero rfl hslot hpresent hremoval hother hepoch hrows
    exact exec_ownerKeySet_changed hbale hadmits hlen hzero hslot hpresent (fun ⟨hremoves, habsent⟩ => habsent (hremoval hremoves).1)
      (fun ⟨hremoves, hlast⟩ => (hremoval hremoves).2 hlast) (fun ⟨htwo, hown⟩ => hother htwo hown) hepoch hrows
  case refused =>
    rintro s r key _ present hadmits hbale hlen hzero rfl hslot hpresent _ rfl
    refine ⟨exec_ownerKeySet_absent hbale hadmits hlen hzero hslot hpresent, exec_ownerKeySet_last hbale hadmits hlen hzero hslot hpresent,
      fun hset => exec_ownerKeySet_own hbale hadmits hlen hzero hslot hpresent fun ⟨hremoves, habsent⟩ => habsent (hset hremoves),
      fun hadds hother => exec_ownerKeySet_full hbale hadmits hlen hzero hslot hpresent (fun ⟨hremoves, _⟩ => hadds hremoves)
        (fun ⟨hremoves, _⟩ => hadds hremoves) (fun ⟨htwo, hown⟩ => hother htwo hown)⟩
  case advanced =>
    rintro s r key _ _ hadmits hbale hlen rfl hcounter rfl habove hwithin
    exact exec_rollbackAdvance_advanced hbale hadmits hlen hcounter habove hwithin
  case unadvanced =>
    rintro s r key _ _ hadmits hbale hlen rfl hcounter rfl hbad
    exact exec_rollbackAdvance_refused hbale hadmits hlen hcounter hbad

end Sys2Proof.Machine
end

section
/-! Back-pressure that stands, and the counters' snapshots, periods and captures (R305, R454, R455, R457). -/

namespace Sys2Proof.Machine

/-! ### XOFF -/

section
variable {s : State} {p : PortId} {c : ClassId} {t : Nat}

theorem State.xoffOver_iff {p c : Nat} (hsince : (s.xoffOf p c).since = some t) :
    s.xoffOver p c = true ↔ t + ns (s.sn 0x0C10 p 0) ≤ s.now := by
  simp only [xoffOver, hsince, Option.any_some, decide_eq_true_eq]

theorem exec_xoffRefresh_of_due (hsince : (s.xoffOf p c).since = some t) (hsent : (s.xoffOf p c).sentAt + us 80 ≤ s.now)
    (hshort : s.now < t + ns (s.sn 0x0C10 p 0)) :
    exec (.xoffRefresh p c) s = .next ((s.setXoff p c { s.xoffOf p c with sentAt := s.now }).sendXoff p c) := by
  have hstands : (s.xoffOf p c).since.isSome = true := Option.isSome_of_eq_some hsince
  have hwithin : s.xoffOver p c = false := Bool.eq_false_iff.2 fun hover => Nat.not_le.2 hshort ((State.xoffOver_iff hsince).1 hover)
  exact if_pos ⟨hstands, hsent, by rw [hwithin]; rfl⟩

/-- Each class whose XOFF ends at the limit takes the back-off time (R305, log entry 253). -/
theorem exec_xoffLimitExpiry_of_over (hsince : (s.xoffOf p c).since = some t) (hover : t + ns (s.sn 0x0C10 p 0) ≤ s.now) :
    exec (.xoffLimitExpiry p c) s = .next (((((List.range 8).filter
      (fun d => d == c.val || (s.sn 0x0C0E p 0 == 1 && (s.xoffOf p d).since.isSome))).foldl (fun s d => s.backOff p d) s).sendPause p c 0).raise
        0x020C (src 1 p) (natLe 1 c)) :=
  if_pos ((State.xoffOver_iff hsince).2 hover)

theorem exec_pauseBackoffEnd_of_over (hbackoff : (s.xoffOf p c).backoff = some t) (hover : t ≤ s.now) :
    exec (.pauseBackoffEnd p c) s = .next (s.setXoff p c { s.xoffOf p c with backoff := none }).xoffCheck := by
  show execPauseBackoffEnd p c s = _
  simp only [execPauseBackoffEnd, hbackoff, if_pos hover, done]

end

/-! ### Counters -/

section
variable {s : State}

/-- An armed snapshot waits for the clock after its arming, and for its angle stamp where it has one (R457). -/
theorem exec_counterSnapshotTake_of_reached {due : Option Nat} (harmed : s.cnt.armed = some due) (hlater : s.cnt.armedAt < s.now)
    (hreached : ∀ d, due = some d → d ≤ s.angle) :
    exec .counterSnapshotTake s = .next (State.raise
      { s with cnt := { s.cnt with snap := s.cnt.start, snapStamp := some s.stamp, armed := none } } 0x0A03 srcDevice (natLe 8 s.angle)) := by
  have hall : due.all (fun d => decide (d ≤ s.angle)) = true :=
    (Option.all_eq_true ..).2 fun d hdue => decide_eq_true (hreached d hdue)
  show execCounterSnapshotTake s = _
  simp only [execCounterSnapshotTake, harmed, if_pos (And.intro hlater hall), done]

section
variable {k : SliceId} {n : Fin 8} {x : Nat × Nat} {rest : List (Nat × Nat)}
  (hexpired : Tab.get [] s.cnt.expired (8 * k.val + n.val) = x :: rest)
include hexpired

theorem exec_counterPeriodExpiry_reports (hbelow : (s.letGo k).length < s.sn 0x1403) (hlevel : s.power.level = 0)
    (hsampling : s.son 0x1404 = true) :
    exec (.counterPeriodExpiry k n) s = .next { s with cnt := { s.cnt with
      expired := Tab.put [] s.cnt.expired (8 * k.val + n.val) rest
      raised := Tab.put [] s.cnt.raised k (s.letGo k ++ [s.now])
      capture := Tab.insert s.cnt.capture (8 * k.val + n.val) x } } := by
  show execCounterPeriodExpiry k n s = _
  simp only [execCounterPeriodExpiry, hexpired, if_pos (And.intro hlevel (And.intro hsampling hbelow)), done]

theorem exec_counterPeriodExpiry_suppressed (hlimit : s.sn 0x1403 ≤ (s.letGo k).length) :
    exec (.counterPeriodExpiry k n) s = .next
      (State.suppress { s with cnt := { s.cnt with expired := Tab.put [] s.cnt.expired (8 * k.val + n.val) rest } } k) := by
  have hkept : ¬(s.power.level = 0 ∧ s.son 0x1404 = true ∧ (s.letGo k).length < s.sn 0x1403) :=
    fun ⟨_, _, hbelow⟩ => Nat.not_le.2 hbelow hlimit
  show execCounterPeriodExpiry k n s = _
  simp only [execCounterPeriodExpiry, hexpired, if_neg hkept, done]

end

/-- A capture that no packet met within 64 core clocks of its expiry leaves without one (R454). -/
theorem exec_counterCaptureTimeout_of_over {k : SliceId} {n : Fin 8} {t a : Nat}
    (hcapture : Tab.find? s.cnt.capture (8 * k.val + n.val) = some (t, a)) (hover : t + 64 * clk ≤ s.now) :
    exec (.counterCaptureTimeout k n) s = .next (s.raiseOverflow k n 0 none a) := by
  show execCounterCaptureTimeout k n s = _
  simp only [execCounterCaptureTimeout, hcapture, if_pos hover, done]

end

/-- Settles O19, one lemma for each outcome of a command; the reports of the last second and a class's back-off are the model's own by their
definitions. -/
theorem pauseAndCounters : Obligations.PauseAndCounters := by
  unfold Obligations.PauseAndCounters
  exact ⟨fun _ _ _ _ => exec_xoffRefresh_of_due, fun _ _ _ _ => exec_xoffLimitExpiry_of_over, fun _ _ _ _ => exec_pauseBackoffEnd_of_over,
    fun _ _ => exec_counterSnapshotTake_of_reached, fun _ _ _ _ _ => exec_counterPeriodExpiry_reports,
    fun _ _ _ _ _ => exec_counterPeriodExpiry_suppressed, fun _ _ _ _ _ => exec_counterCaptureTimeout_of_over⟩

end Sys2Proof.Machine
end

section
/-! A step of any state: it answers, takes one command from the queue, and makes of OTP what Table 18-1 lets it (R369, R370, R408). -/

namespace Sys2Proof.Machine

/-! ### Every command answers -/

theorem State.aluStart_answers (s : State) (op : Nat) (x : AluSlot) (f : Context → State → State) :
    ∃ t, s.aluStart op x f = .next t := by
  unfold State.aluStart
  (repeat' split) <;> exact ⟨_, rfl⟩

theorem State.memSlot_answers (s : State) (op : Nat) (x : MemSlot) (f : Packet → Context → State → State) :
    ∃ t, s.memSlot op x f = .next t := by
  unfold State.memSlot
  dsimp only [done]
  (repeat' split) <;> exact ⟨_, rfl⟩

theorem State.brSlot_answers (s : State) (op : Nat) (x : BrSlot) (taken : Packet → Context → State → State) :
    ∃ t, s.brSlot op x taken = .next t := by
  unfold State.brSlot
  dsimp only [done]
  (repeat' split) <;> exact ⟨_, rfl⟩

/-- A choice between two outcomes that answer answers. -/
theorem answers_ite {c : Prop} [Decidable c] {a b : Res} (ha : ∃ t, a = .next t) (hb : ∃ t, b = .next t) :
    ∃ t, (if c then a else b) = .next t := by
  split <;> assumption

theorem execFrameReceiveComplete_answers (n : Nat) (codeError : Bool) (s : State) : ∃ t, execFrameReceiveComplete n codeError s = .next t := by
  unfold execFrameReceiveComplete
  split
  · exact ⟨_, rfl⟩
  · exact answers_ite ⟨_, rfl⟩ (answers_ite ⟨_, rfl⟩ (answers_ite ⟨_, rfl⟩ ⟨_, rfl⟩))

theorem execEgressQueueAdmission_answers (n : Nat) (s : State) : ∃ t, execEgressQueueAdmission n s = .next t := by
  unfold execEgressQueueAdmission
  split
  · exact ⟨_, rfl⟩
  · exact answers_ite ⟨_, rfl⟩ (answers_ite ⟨_, rfl⟩ (answers_ite ⟨_, rfl⟩ (answers_ite ⟨_, rfl⟩ ⟨_, rfl⟩)))

theorem execMacAgeingSweepVisit_answers (k : SliceId) (loc : MacLoc) (s : State) : ∃ t, execMacAgeingSweepVisit k loc s = .next t :=
  answers_ite ⟨_, rfl⟩ ⟨_, rfl⟩

theorem execSuperframeReceive_answers (n : LinkId) (x : Superframe) (s : State) : ∃ t, execSuperframeReceive n x s = .next t :=
  answers_ite ⟨_, rfl⟩ (answers_ite (answers_ite ⟨_, rfl⟩ ⟨_, rfl⟩)
    (answers_ite (answers_ite ⟨_, rfl⟩ (answers_ite ⟨_, rfl⟩ ⟨_, rfl⟩)) (answers_ite ⟨_, rfl⟩ ⟨_, rfl⟩)))

theorem execMessageResendTimeout_answers (msg : Nat) (s : State) : ∃ t, execMessageResendTimeout msg s = .next t := by
  unfold execMessageResendTimeout
  split
  · exact ⟨_, rfl⟩
  · split <;> exact ⟨_, rfl⟩

theorem execSuccessionImport_answers (r : Request) (s : State) : ∃ t, execSuccessionImport r s = .next t :=
  answers_ite ⟨_, rfl⟩ ⟨_, rfl⟩

/-- Every command answers a next state: no meaning of the model ends in a fault or a refusal. The slots of a microcode word answer as their
kind does, most commands answer one state that they compute, and the others choose between such. -/
theorem exec_answers (c : Instr) (s : State) : ∃ t, exec c s = .next t := by
  cases c with
  | aluNop | aluAdd | aluSub | aluMul | aluCsum | aluAnd | aluOr | aluXor | aluShl | aluShr | aluSar | aluRol | aluMov | aluMinu | aluMaxu |
    aluBswap | aluExt | aluIns | aluSel | aluCrc =>
    delta exec
    dsimp only
    delta execAluNop execAluAdd execAluSub execAluMul execAluCsum execAluAnd execAluOr execAluXor execAluShl execAluShr execAluSar
      execAluRol execAluMov execAluMinu execAluMaxu execAluBswap execAluExt execAluIns execAluSel execAluCrc State.aluSlot
    exact State.aluStart_answers _ _ _ _
  | memNone | hdrLd | hdrSt | metaLd | descSt | keySt | recLock | recLd | recSt | objLd | cntAdd | evt | mrgAdd | mrgOr | mrgMax | mrgMin |
    mrgAvg =>
    delta exec
    dsimp only
    delta execMemNone execHdrLd execHdrSt execMetaLd execDescSt execKeySt execRecLock execRecLd execRecSt execObjLd execCntAdd execEvt
      execMrgAdd execMrgOr execMrgMax execMrgMin execMrgAvg State.mergeSlot
    exact State.memSlot_answers _ _ _ _
  | brNext | brJump | brCall | brReturn | brEnd =>
    delta exec
    dsimp only
    delta execBrNext execBrJump execBrCall execBrReturn execBrEnd
    exact State.brSlot_answers _ _ _ _
  | egressQueueAdmission n => exact execEgressQueueAdmission_answers n s
  | macAgeingSweepVisit k loc => exact execMacAgeingSweepVisit_answers k loc s
  | frameReceiveComplete n codeError => exact execFrameReceiveComplete_answers n codeError s
  | superframeReceive n x => exact execSuperframeReceive_answers n x s
  | messageResendTimeout msg => exact execMessageResendTimeout_answers msg s
  | successionImport r => exact execSuccessionImport_answers r s
  | frameArrival | flowSequencerRelease | memoryReadComplete | flowRecordWaitTimeout | routineDispatch | recLockReply | objLdReply |
    packetBaleApply | schedulerSelect | transmitDone | residueTimerExpiry | bufferAudit | xoffRefresh | xoffLimitExpiry | pauseBackoffEnd |
    pauseFrameReceive | pauseWatchdogTrip | pauseWatchdogRecoveryEnd | chaffSampleWrite | cycRefEdge | tillerStuck | tillerLapse |
    holdoverExpired | tillerLocked | ppsOutRise | ppsOutFall | ppsInEdge | ptpMessageReceive | commitTick | epochDrained | gateBankRelease |
    baleIdleTimeout | trainingAttemptStart | retryWaitExpiry | suspensionIntervalExpiry | negotiationComplete | negotiationTimeout |
    trainingTimeout | partnerCoefficientRequest | coefficientResponse | nextPageReceive | trainingComplete | signalAppears |
    dampingEvaluation | lanePowerExitDone | recalibrationPassStart | laneTemperatureStep | laneRecalibrationDone | otu4FrameReceive |
    otu4FrameTransmit | otnPersistenceExpiry | dlosClearTimeout | learnRequestApply | moveWindowClose | macThaw | macFlushOnPortDown |
    macStaticRestore | routeEntryRefresh | lagMemberJoin | lagSlotDrained | flowSweepVisit | flowSweepPassEnd | overflowRelocationMove |
    blockHoldExpiry | exportMessageSend | templateResend | matchRelocationStep | matchRowScrub | segmentScanStart | segmentScanComplete |
    profiledWorkDeadlineExpiry | awnKnownAnswerScan | commandDigestComplete | permitTableLookup | holdLimitExpiry | permitFrameReceive |
    sealVerdict | permitEntryWrite | permitNotBeforeReached | permitWindowOpen | permitExpiryRemoval | gateShutAssert | gateShutRelease |
    ledgerRecordWrite | ledgerSeal | hashKnownAnswerTest | sealPairKnownAnswerTest | knownAnswerRoutine | controlStoreScrub |
    onDieSramScrub | serviceRoutineResume | memoryRequestIssue | refreshIssue | rowActivation | activationTableClear | patrolScrubRead |
    retrainStart | retrainComplete | retrainRetry | ledgerMirrorRebuildDone | memoryTrainingDone | sheafTrainingFrame | sheafTrainingRetry |
    superframeSend | sheafLaneLossOfSignal | twinHeartbeatTimeout | heartbeat | pairing | delayExchange | delayExchangeSend |
    checkpointSend | reqProdDoorbell | registerWrite | eventDelivery | mgmtFrameReceive | mgmtReassemblyTimeout | mgmtGapTimeout |
    jtagMb14Data | mcLockstepMismatch | mcPairSelfTestDone | sliceDrainComplete | sliceReturn | sliceReturnTimeout | sysclkLoss |
    bootStart | switchoverHandoverDone | switchoverTimeout | railMonitorTrigger | shedRankTimer | ledgerCloseDone | sagReleaseHoldExpiry |
    level5ReleaseReset | vcoreAdaptStep | counterSnapshotTake | counterPeriodExpiry | counterCaptureTimeout | vkeepReturn |
    sheafSymbolLockGain | pauseQuantaExpiry | lacpTimeout | switchoverImageStaged | longRequestProgress =>
    delta exec
    dsimp only
    delta execFrameArrival execFlowSequencerRelease execMemoryReadComplete execFlowRecordWaitTimeout execRoutineDispatch execRecLockReply
      execObjLdReply execPacketBaleApply execSchedulerSelect execTransmitDone execResidueTimerExpiry execBufferAudit execXoffRefresh
      execXoffLimitExpiry execPauseBackoffEnd execPauseFrameReceive execPauseWatchdogTrip execPauseWatchdogRecoveryEnd execChaffSampleWrite
      execCycRefEdge execTillerStuck execTillerLapse execHoldoverExpired execTillerLocked execPpsOutRise execPpsOutFall execPpsInEdge
      execPtpMessageReceive execCommitTick execEpochDrained execGateBankRelease execBaleIdleTimeout execTrainingAttemptStart
      execRetryWaitExpiry execSuspensionIntervalExpiry execNegotiationComplete execNegotiationTimeout execTrainingTimeout
      execPartnerCoefficientRequest execCoefficientResponse execNextPageReceive execTrainingComplete execSignalAppears execDampingEvaluation
      execLanePowerExitDone execRecalibrationPassStart execLaneTemperatureStep execLaneRecalibrationDone execOtu4FrameReceive
      execOtu4FrameTransmit execOtnPersistenceExpiry execDlosClearTimeout execLearnRequestApply execMoveWindowClose execMacThaw
      execMacFlushOnPortDown execMacStaticRestore execRouteEntryRefresh execLagMemberJoin execLagSlotDrained execFlowSweepVisit
      execFlowSweepPassEnd execOverflowRelocationMove execBlockHoldExpiry execExportMessageSend execTemplateResend execMatchRelocationStep
      execMatchRowScrub execSegmentScanStart execSegmentScanComplete execProfiledWorkDeadlineExpiry execAwnKnownAnswerScan
      execCommandDigestComplete execPermitTableLookup execHoldLimitExpiry execPermitFrameReceive execSealVerdict execPermitEntryWrite
      execPermitNotBeforeReached execPermitWindowOpen execPermitExpiryRemoval execGateShutAssert execGateShutRelease execLedgerRecordWrite
      execLedgerSeal execHashKnownAnswerTest execSealPairKnownAnswerTest execKnownAnswerRoutine execControlStoreScrub execOnDieSramScrub
      execServiceRoutineResume execMemoryRequestIssue execRefreshIssue execRowActivation execActivationTableClear execPatrolScrubRead
      execRetrainStart execRetrainComplete execRetrainRetry execLedgerMirrorRebuildDone execMemoryTrainingDone execSheafTrainingFrame
      execSheafTrainingRetry execSuperframeSend execSheafLaneLossOfSignal execTwinHeartbeatTimeout execHeartbeat execPairing
      execDelayExchange execDelayExchangeSend execCheckpointSend execReqProdDoorbell execRegisterWrite execEventDelivery
      execMgmtFrameReceive execMgmtReassemblyTimeout execMgmtGapTimeout execJtagMb14Data execMcLockstepMismatch execMcPairSelfTestDone
      execSliceDrainComplete execSliceReturn execSliceReturnTimeout execSysclkLoss execBootStart execSwitchoverHandoverDone
      execSwitchoverTimeout execRailMonitorTrigger execShedRankTimer execLedgerCloseDone execSagReleaseHoldExpiry execLevel5ReleaseReset
      execVcoreAdaptStep execCounterSnapshotTake execCounterPeriodExpiry execCounterCaptureTimeout execVkeepReturn execSheafSymbolLockGain
      execPauseQuantaExpiry execLacpTimeout execSwitchoverImageStaged execLongRequestProgress
    dsimp only [done]
    (repeat' split) <;> exact ⟨_, rfl⟩
  | _ => exact ⟨_, rfl⟩

/-! ### What a command keeps of the queue and OTP -/

/-- The commands that can write OTP: the start, a switch's completion, an Owner key set, a Rollback advance, the claim, and the two of a
succession (R408, R415, R417, R420, R425, R426, R433). -/
def writesOtp : Instr → Bool
  | .bootStart _ | .switchoverHandoverDone | .claim _ | .rollbackAdvance _ | .ownerKeySet _ | .successionExport _ | .successionImport _ => true
  | _ => false

/-- Every other command leaves the queue and OTP as they are. -/
theorem exec_keeps {c : Instr} {s s' : State} (hplain : writesOtp c = false) (hexec : exec c s = .next s') :
    s'.pending = s.pending ∧ s'.trust.otp = s.trust.otp := by
  cases c with
  | frameArrival p bytes e => exact execFrameArrival_keeps p bytes e s s' hexec
  | frameReceiveComplete pkt codeError => exact execFrameReceiveComplete_keeps pkt codeError s s' hexec
  | flowSequencerRelease pkt => exact execFlowSequencerRelease_keeps pkt s s' hexec
  | memoryReadComplete rd res => exact execMemoryReadComplete_keeps rd res s s' hexec
  | flowRecordWaitTimeout pkt => exact execFlowRecordWaitTimeout_keeps pkt s s' hexec
  | routineDispatch pkt fault => exact execRoutineDispatch_keeps pkt fault s s' hexec
  | aluNop x => exact execAluNop_keeps x s s' hexec
  | aluAdd x => exact execAluAdd_keeps x s s' hexec
  | aluSub x => exact execAluSub_keeps x s s' hexec
  | aluMul x => exact execAluMul_keeps x s s' hexec
  | aluCsum x => exact execAluCsum_keeps x s s' hexec
  | aluAnd x => exact execAluAnd_keeps x s s' hexec
  | aluOr x => exact execAluOr_keeps x s s' hexec
  | aluXor x => exact execAluXor_keeps x s s' hexec
  | aluShl x => exact execAluShl_keeps x s s' hexec
  | aluShr x => exact execAluShr_keeps x s s' hexec
  | aluSar x => exact execAluSar_keeps x s s' hexec
  | aluRol x => exact execAluRol_keeps x s s' hexec
  | aluMov x => exact execAluMov_keeps x s s' hexec
  | aluMinu x => exact execAluMinu_keeps x s s' hexec
  | aluMaxu x => exact execAluMaxu_keeps x s s' hexec
  | aluBswap x => exact execAluBswap_keeps x s s' hexec
  | aluExt x => exact execAluExt_keeps x s s' hexec
  | aluIns x => exact execAluIns_keeps x s s' hexec
  | aluSel x => exact execAluSel_keeps x s s' hexec
  | aluCrc x => exact execAluCrc_keeps x s s' hexec
  | memNone x => exact execMemNone_keeps x s s' hexec
  | hdrLd x => exact execHdrLd_keeps x s s' hexec
  | hdrSt x => exact execHdrSt_keeps x s s' hexec
  | metaLd x => exact execMetaLd_keeps x s s' hexec
  | descSt x => exact execDescSt_keeps x s s' hexec
  | keySt x => exact execKeySt_keeps x s s' hexec
  | recLock x => exact execRecLock_keeps x s s' hexec
  | recLockReply ctx res => exact execRecLockReply_keeps ctx res s s' hexec
  | recLd x => exact execRecLd_keeps x s s' hexec
  | recSt x => exact execRecSt_keeps x s s' hexec
  | mrgAdd x => exact execMrgAdd_keeps x s s' hexec
  | mrgOr x => exact execMrgOr_keeps x s s' hexec
  | mrgMax x => exact execMrgMax_keeps x s s' hexec
  | mrgMin x => exact execMrgMin_keeps x s s' hexec
  | mrgAvg x => exact execMrgAvg_keeps x s s' hexec
  | objLd x => exact execObjLd_keeps x s s' hexec
  | objLdReply ctx res => exact execObjLdReply_keeps ctx res s s' hexec
  | cntAdd x => exact execCntAdd_keeps x s s' hexec
  | evt x => exact execEvt_keeps x s s' hexec
  | brNext x => exact execBrNext_keeps x s s' hexec
  | brJump x => exact execBrJump_keeps x s s' hexec
  | brCall x => exact execBrCall_keeps x s s' hexec
  | brReturn x => exact execBrReturn_keeps x s s' hexec
  | brEnd x => exact execBrEnd_keeps x s s' hexec
  | packetBaleApply pkt => exact execPacketBaleApply_keeps pkt s s' hexec
  | egressQueueAdmission pkt => exact execEgressQueueAdmission_keeps pkt s s' hexec
  | schedulerSelect p => exact execSchedulerSelect_keeps p s s' hexec
  | transmitDone p corrupt => exact execTransmitDone_keeps p corrupt s s' hexec
  | residueTimerExpiry pkt => exact execResidueTimerExpiry_keeps pkt s s' hexec
  | bufferAudit => exact execBufferAudit_keeps s s' hexec
  | xoffRefresh p c => exact execXoffRefresh_keeps p c s s' hexec
  | xoffLimitExpiry p c => exact execXoffLimitExpiry_keeps p c s s' hexec
  | pauseBackoffEnd p c => exact execPauseBackoffEnd_keeps p c s s' hexec
  | pauseFrameReceive p f => exact execPauseFrameReceive_keeps p f s s' hexec
  | pauseWatchdogTrip p c => exact execPauseWatchdogTrip_keeps p c s s' hexec
  | pauseWatchdogRecoveryEnd p c => exact execPauseWatchdogRecoveryEnd_keeps p c s s' hexec
  | chaffSampleWrite => exact execChaffSampleWrite_keeps s s' hexec
  | cycRefEdge rising t => exact execCycRefEdge_keeps rising t s s' hexec
  | tillerStuck => exact execTillerStuck_keeps s s' hexec
  | tillerLapse => exact execTillerLapse_keeps s s' hexec
  | holdoverExpired => exact execHoldoverExpired_keeps s s' hexec
  | tillerLocked => exact execTillerLocked_keeps s s' hexec
  | cycOutToggle => exact execCycOutToggle_keeps s s' hexec
  | taiSecondBoundary => exact execTaiSecondBoundary_keeps s s' hexec
  | ppsOutRise => exact execPpsOutRise_keeps s s' hexec
  | ppsOutFall => exact execPpsOutFall_keeps s s' hexec
  | ppsInEdge t => exact execPpsInEdge_keeps t s s' hexec
  | ptpMessageReceive p m => exact execPtpMessageReceive_keeps p m s s' hexec
  | commitTick => exact execCommitTick_keeps s s' hexec
  | epochDrained => exact execEpochDrained_keeps s s' hexec
  | gateBankRelease p => exact execGateBankRelease_keeps p s s' hexec
  | baleIdleTimeout bale => exact execBaleIdleTimeout_keeps bale s s' hexec
  | trainingAttemptStart p => exact execTrainingAttemptStart_keeps p s s' hexec
  | retryWaitExpiry p => exact execRetryWaitExpiry_keeps p s s' hexec
  | suspensionIntervalExpiry p => exact execSuspensionIntervalExpiry_keeps p s s' hexec
  | negotiationComplete p partner => exact execNegotiationComplete_keeps p partner s s' hexec
  | negotiationTimeout p => exact execNegotiationTimeout_keeps p s s' hexec
  | trainingTimeout p => exact execTrainingTimeout_keeps p s s' hexec
  | partnerCoefficientRequest l q => exact execPartnerCoefficientRequest_keeps l q s s' hexec
  | coefficientResponse l => exact execCoefficientResponse_keeps l s s' hexec
  | nextPageReceive p => exact execNextPageReceive_keeps p s s' hexec
  | trainingComplete p => exact execTrainingComplete_keeps p s s' hexec
  | signalAppears l => exact execSignalAppears_keeps l s s' hexec
  | lossOfSignal l => exact execLossOfSignal_keeps l s s' hexec
  | refclkLineLoss n => exact execRefclkLineLoss_keeps n s s' hexec
  | dampingEvaluation => exact execDampingEvaluation_keeps s s' hexec
  | lanePowerExitDone l => exact execLanePowerExitDone_keeps l s s' hexec
  | recalibrationPassStart => exact execRecalibrationPassStart_keeps s s' hexec
  | laneTemperatureStep l temp => exact execLaneTemperatureStep_keeps l temp s s' hexec
  | laneRecalibrationDone l better => exact execLaneRecalibrationDone_keeps l better s s' hexec
  | fullLaneRecalibration r => exact execFullLaneRecalibration_keeps r s s' hexec
  | otu4FrameReceive p f => exact execOtu4FrameReceive_keeps p f s s' hexec
  | otu4FrameTransmit p => exact execOtu4FrameTransmit_keeps p s s' hexec
  | otnPersistenceExpiry p => exact execOtnPersistenceExpiry_keeps p s s' hexec
  | dlosClearTimeout p => exact execDlosClearTimeout_keeps p s s' hexec
  | otnSecondEnd => exact execOtnSecondEnd_keeps s s' hexec
  | learnRequestApply k => exact execLearnRequestApply_keeps k s s' hexec
  | moveWindowClose k loc => exact execMoveWindowClose_keeps k loc s s' hexec
  | macThaw k loc => exact execMacThaw_keeps k loc s s' hexec
  | macFlushOnPortDown p => exact execMacFlushOnPortDown_keeps p s s' hexec
  | macAgeingSweepVisit k loc => exact execMacAgeingSweepVisit_keeps k loc s s' hexec
  | macStaticRestore k vid mac => exact execMacStaticRestore_keeps k vid mac s s' hexec
  | routeEntryRefresh k t id => exact execRouteEntryRefresh_keeps k t id s s' hexec
  | lacpFrameReceive p x => exact execLacpFrameReceive_keeps p x s s' hexec
  | lagMemberJoin p => exact execLagMemberJoin_keeps p s s' hexec
  | lagSlotDrained g slot => exact execLagSlotDrained_keeps g slot s s' hexec
  | lagMoveLimitExpiry g => exact execLagMoveLimitExpiry_keeps g s s' hexec
  | flowSweepVisit loc => exact execFlowSweepVisit_keeps loc s s' hexec
  | flowSweepPassEnd => exact execFlowSweepPassEnd_keeps s s' hexec
  | overflowRelocationMove idx => exact execOverflowRelocationMove_keeps idx s s' hexec
  | blockHoldExpiry pool block => exact execBlockHoldExpiry_keeps pool block s s' hexec
  | exportMessageSend => exact execExportMessageSend_keeps s s' hexec
  | templateResend => exact execTemplateResend_keeps s s' hexec
  | matchRelocationStep src dst => exact execMatchRelocationStep_keeps src dst s s' hexec
  | matchRowRewrite k idx => exact execMatchRowRewrite_keeps k idx s s' hexec
  | matchRowScrub k idx differs => exact execMatchRowScrub_keeps k idx differs s s' hexec
  | segmentScanStart => exact execSegmentScanStart_keeps s s' hexec
  | segmentScanComplete a lane fault => exact execSegmentScanComplete_keeps a lane fault s s' hexec
  | profiledWorkDeadlineExpiry pkt => exact execProfiledWorkDeadlineExpiry_keeps pkt s s' hexec
  | automataEntryRewrite entry => exact execAutomataEntryRewrite_keeps entry s s' hexec
  | awnKnownAnswerScan a pass => exact execAwnKnownAnswerScan_keeps a pass s s' hexec
  | commandDigestComplete pkt wrong => exact execCommandDigestComplete_keeps pkt wrong s s' hexec
  | permitTableLookup pkt => exact execPermitTableLookup_keeps pkt s s' hexec
  | holdLimitExpiry pkt => exact execHoldLimitExpiry_keeps pkt s s' hexec
  | permitFrameReceive p body => exact execPermitFrameReceive_keeps p body s s' hexec
  | aggregateRefusalRecord => exact execAggregateRefusalRecord_keeps s s' hexec
  | sealVerdict sp err0 err1 => exact execSealVerdict_keeps sp err0 err1 s s' hexec
  | permitEntryWrite key seq => exact execPermitEntryWrite_keeps key seq s s' hexec
  | permitNotBeforeReached loc => exact execPermitNotBeforeReached_keeps loc s s' hexec
  | permitWindowOpen loc => exact execPermitWindowOpen_keeps loc s s' hexec
  | permitExpiryRemoval loc => exact execPermitExpiryRemoval_keeps loc s s' hexec
  | gateShutAssert => exact execGateShutAssert_keeps s s' hexec
  | gateShutDeassert => exact execGateShutDeassert_keeps s s' hexec
  | gateShutRelease => exact execGateShutRelease_keeps s s' hexec
  | ledgerRecordWrite => exact execLedgerRecordWrite_keeps s s' hexec
  | ledgerSeal => exact execLedgerSeal_keeps s s' hexec
  | hashKnownAnswerTest h pass => exact execHashKnownAnswerTest_keeps h pass s s' hexec
  | sealPairKnownAnswerTest sp pass => exact execSealPairKnownAnswerTest_keeps sp pass s s' hexec
  | knownAnswerRoutine k e res => exact execKnownAnswerRoutine_keeps k e res s s' hexec
  | controlStoreScrub k bank word bad => exact execControlStoreScrub_keeps k bank word bad s s' hexec
  | controlStoreRewriteDone k bank word => exact execControlStoreRewriteDone_keeps k bank word s s' hexec
  | onDieSramScrub e => exact execOnDieSramScrub_keeps e s s' hexec
  | serviceEngineInterrupt k v why => exact execServiceEngineInterrupt_keeps k v why s s' hexec
  | serviceRoutineResume k v => exact execServiceRoutineResume_keeps k v s s' hexec
  | memoryRequestIssue u => exact execMemoryRequestIssue_keeps u s s' hexec
  | refreshIssue u bank => exact execRefreshIssue_keeps u bank s s' hexec
  | rowActivation u bank row => exact execRowActivation_keeps u bank row s s' hexec
  | activationTableClear u => exact execActivationTableClear_keeps u s s' hexec
  | patrolScrubRead u addr res => exact execPatrolScrubRead_keeps u addr res s s' hexec
  | retrainStart u => exact execRetrainStart_keeps u s s' hexec
  | retrainComplete u res => exact execRetrainComplete_keeps u res s s' hexec
  | retrainRetry u => exact execRetrainRetry_keeps u s s' hexec
  | policyMirrorCopyDone pc => exact execPolicyMirrorCopyDone_keeps pc s s' hexec
  | ledgerMirrorRebuildDone d => exact execLedgerMirrorRebuildDone_keeps d s s' hexec
  | memoryTrainingDone failed => exact execMemoryTrainingDone_keeps failed s s' hexec
  | sheafSymbolLockLoss l => exact execSheafSymbolLockLoss_keeps l s s' hexec
  | sheafTrainingFrame l q converged => exact execSheafTrainingFrame_keeps l q converged s s' hexec
  | sheafTrainingRetry n => exact execSheafTrainingRetry_keeps n s s' hexec
  | superframeReceive n x => exact execSuperframeReceive_keeps n x s s' hexec
  | superframeSend n => exact execSuperframeSend_keeps n s s' hexec
  | sheafLaneLossOfSignal l => exact execSheafLaneLossOfSignal_keeps l s s' hexec
  | sheafHeartbeatTimeout n => exact execSheafHeartbeatTimeout_keeps n s s' hexec
  | twinHeartbeatTimeout => exact execTwinHeartbeatTimeout_keeps s s' hexec
  | refclkSheafLoss => exact execRefclkSheafLoss_keeps s s' hexec
  | heartbeatSend => exact execHeartbeatSend_keeps s s' hexec
  | heartbeat n x => exact execHeartbeat_keeps n x s s' hexec
  | pairing n x => exact execPairing_keeps n x s s' hexec
  | reservation msg key seq => exact execReservation_keeps msg key seq s s' hexec
  | reservationResult msg key seq granted => exact execReservationResult_keeps msg key seq granted s s' hexec
  | permitCopy msg body st => exact execPermitCopy_keeps msg body st s s' hexec
  | consumption msg key seq uses => exact execConsumption_keeps msg key seq uses s s' hexec
  | consumptionAcknowledge msg key seq => exact execConsumptionAcknowledge_keeps msg key seq s s' hexec
  | windowMerge msg ws => exact execWindowMerge_keeps msg ws s s' hexec
  | delayExchange n x => exact execDelayExchange_keeps n x s s' hexec
  | delayExchangeSend n => exact execDelayExchangeSend_keeps n s s' hexec
  | translationCheckpoint msg x => exact execTranslationCheckpoint_keeps msg x s s' hexec
  | checkpointSend => exact execCheckpointSend_keeps s s' hexec
  | sheafGuoloMessage msg m => exact execSheafGuoloMessage_keeps msg m s s' hexec
  | resyncDone msg count => exact execResyncDone_keeps msg count s s' hexec
  | messageResendTimeout msg => exact execMessageResendTimeout_keeps msg s s' hexec
  | reqProdDoorbell mb v => exact execReqProdDoorbell_keeps mb v s s' hexec
  | cplConsWrite mb v => exact execCplConsWrite_keeps mb v s s' hexec
  | ringConsWrite g v => exact execRingConsWrite_keeps g v s s' hexec
  | ringCtrlWrite g v => exact execRingCtrlWrite_keeps g v s s' hexec
  | intCauseWrite v => exact execIntCauseWrite_keeps v s s' hexec
  | intSetWrite v => exact execIntSetWrite_keeps v s s' hexec
  | intMaskWrite v => exact execIntMaskWrite_keeps v s s' hexec
  | eventLostRead => exact execEventLostRead_keeps s s' hexec
  | registerWrite addr v => exact execRegisterWrite_keeps addr v s s' hexec
  | pcieFunctionReset => exact execPcieFunctionReset_keeps s s' hexec
  | eventDelivery m => exact execEventDelivery_keeps m s s' hexec
  | mgmtFrameReceive src payload => exact execMgmtFrameReceive_keeps src payload s s' hexec
  | mgmtReassemblyTimeout mb => exact execMgmtReassemblyTimeout_keeps mb s s' hexec
  | mgmtGapTimeout mb => exact execMgmtGapTimeout_keeps mb s s' hexec
  | jtagMb14Data w => exact execJtagMb14Data_keeps w s s' hexec
  | jtagBypass b => exact execJtagBypass_keeps b s s' hexec
  | mcLockstepMismatch q => exact execMcLockstepMismatch_keeps q s s' hexec
  | mcPairSelfTestDone q pass => exact execMcPairSelfTestDone_keeps q pass s s' hexec
  | settleTimeExpiry u => exact execSettleTimeExpiry_keeps u s s' hexec
  | sliceDrainComplete k => exact execSliceDrainComplete_keeps k s s' hexec
  | sliceReturn k => exact execSliceReturn_keeps k s s' hexec
  | sliceReturnTimeout k => exact execSliceReturnTimeout_keeps k s s' hexec
  | sysclkLoss => exact execSysclkLoss_keeps s s' hexec
  | sysclkPeriodGlitch => exact execSysclkPeriodGlitch_keeps s s' hexec
  | vcoreGlitch => exact execVcoreGlitch_keeps s s' hexec
  | vkeepLoss => exact execVkeepLoss_keeps s s' hexec
  | resetNAssert => exact execResetNAssert_keeps s s' hexec
  | switchoverTimeout => exact execSwitchoverTimeout_keeps s s' hexec
  | sagWarnInput v => exact execSagWarnInput_keeps v s s' hexec
  | railMonitorTrigger m lvl => exact execRailMonitorTrigger_keeps m lvl s s' hexec
  | shedRankTimer rank => exact execShedRankTimer_keeps rank s s' hexec
  | ledgerCloseDone => exact execLedgerCloseDone_keeps s s' hexec
  | sagReleaseHoldExpiry => exact execSagReleaseHoldExpiry_keeps s s' hexec
  | level5ReleaseReset => exact execLevel5ReleaseReset_keeps s s' hexec
  | vcoreAdaptStep x => exact execVcoreAdaptStep_keeps x s s' hexec
  | thermalThresholdCrossing temp => exact execThermalThresholdCrossing_keeps temp s s' hexec
  | counterSnapshotTake => exact execCounterSnapshotTake_keeps s s' hexec
  | counterPeriodExpiry k n => exact execCounterPeriodExpiry_keeps k n s s' hexec
  | counterCaptureTimeout k n => exact execCounterCaptureTimeout_keeps k n s s' hexec
  | deviceStatus r => exact execDeviceStatus_keeps r s s' hexec
  | eventSubscribe r => exact execEventSubscribe_keeps r s s' hexec
  | eventSubscribeRead r => exact execEventSubscribeRead_keeps r s s' hexec
  | managementPortSet r => exact execManagementPortSet_keeps r s s' hexec
  | managementPortSetRead r => exact execManagementPortSetRead_keeps r s s' hexec
  | engineSet r => exact execEngineSet_keeps r s s' hexec
  | engineSetRead r => exact execEngineSetRead_keeps r s s' hexec
  | engineFenceOrReturn r => exact execEngineFenceOrReturn_keeps r s s' hexec
  | faultStatus r => exact execFaultStatus_keeps r s s' hexec
  | faultPolicySet r => exact execFaultPolicySet_keeps r s s' hexec
  | faultPolicySetRead r => exact execFaultPolicySetRead_keeps r s s' hexec
  | sliceDrainAndReset r => exact execSliceDrainAndReset_keeps r s s' hexec
  | clearSafeState r => exact execClearSafeState_keeps r s s' hexec
  | portModeSet r => exact execPortModeSet_keeps r s s' hexec
  | portModeSetRead r => exact execPortModeSetRead_keeps r s s' hexec
  | laneConfigSet r => exact execLaneConfigSet_keeps r s s' hexec
  | laneConfigSetRead r => exact execLaneConfigSetRead_keeps r s s' hexec
  | portTrainingSet r => exact execPortTrainingSet_keeps r s s' hexec
  | portTrainingSetRead r => exact execPortTrainingSetRead_keeps r s s' hexec
  | portDampingSet r => exact execPortDampingSet_keeps r s s' hexec
  | portDampingSetRead r => exact execPortDampingSetRead_keeps r s s' hexec
  | portPauseSet r => exact execPortPauseSet_keeps r s s' hexec
  | portPauseSetRead r => exact execPortPauseSetRead_keeps r s s' hexec
  | portPolicerSet r => exact execPortPolicerSet_keeps r s s' hexec
  | portPolicerSetRead r => exact execPortPolicerSetRead_keeps r s s' hexec
  | laneTestSet r => exact execLaneTestSet_keeps r s s' hexec
  | laneTestSetRead r => exact execLaneTestSetRead_keeps r s s' hexec
  | lanePowerSet r => exact execLanePowerSet_keeps r s s' hexec
  | lanePowerSetRead r => exact execLanePowerSetRead_keeps r s s' hexec
  | laneRecalibrateSet r => exact execLaneRecalibrateSet_keeps r s s' hexec
  | laneRecalibrateSetRead r => exact execLaneRecalibrateSetRead_keeps r s s' hexec
  | otnOverheadSet r => exact execOtnOverheadSet_keeps r s s' hexec
  | otnOverheadSetRead r => exact execOtnOverheadSetRead_keeps r s s' hexec
  | otnMaintenanceSet r => exact execOtnMaintenanceSet_keeps r s s' hexec
  | otnMaintenanceSetRead r => exact execOtnMaintenanceSetRead_keeps r s s' hexec
  | bufferPoolSet r => exact execBufferPoolSet_keeps r s s' hexec
  | bufferPoolSetRead r => exact execBufferPoolSetRead_keeps r s s' hexec
  | portQueueSet r => exact execPortQueueSet_keeps r s s' hexec
  | portQueueSetRead r => exact execPortQueueSetRead_keeps r s s' hexec
  | portSchedulerSet r => exact execPortSchedulerSet_keeps r s s' hexec
  | portSchedulerSetRead r => exact execPortSchedulerSetRead_keeps r s s' hexec
  | portStatus r => exact execPortStatus_keeps r s s' hexec
  | tillerReferenceSet r => exact execTillerReferenceSet_keeps r s s' hexec
  | tillerReferenceSetRead r => exact execTillerReferenceSetRead_keeps r s s' hexec
  | tillerHoldoverSet r => exact execTillerHoldoverSet_keeps r s s' hexec
  | tillerHoldoverSetRead r => exact execTillerHoldoverSetRead_keeps r s s' hexec
  | tillerModeSet r => exact execTillerModeSet_keeps r s s' hexec
  | tillerModeSetRead r => exact execTillerModeSetRead_keeps r s s' hexec
  | tillerTimeSourceSet r => exact execTillerTimeSourceSet_keeps r s s' hexec
  | tillerTimeSourceSetRead r => exact execTillerTimeSourceSetRead_keeps r s s' hexec
  | tillerOutputSet r => exact execTillerOutputSet_keeps r s s' hexec
  | tillerOutputSetRead r => exact execTillerOutputSetRead_keeps r s s' hexec
  | gateListSet r => exact execGateListSet_keeps r s s' hexec
  | windowSet r => exact execWindowSet_keeps r s s' hexec
  | tillerStatus r => exact execTillerStatus_keeps r s s' hexec
  | bridgeTableSet r => exact execBridgeTableSet_keeps r s s' hexec
  | bridgeTableSetRead r => exact execBridgeTableSetRead_keeps r s s' hexec
  | bridgeLearnSet r => exact execBridgeLearnSet_keeps r s s' hexec
  | bridgeLearnSetRead r => exact execBridgeLearnSetRead_keeps r s s' hexec
  | bridgeAgeingSet r => exact execBridgeAgeingSet_keeps r s s' hexec
  | bridgeAgeingSetRead r => exact execBridgeAgeingSetRead_keeps r s s' hexec
  | bridgeCopy r => exact execBridgeCopy_keeps r s s' hexec
  | routeOptionsSet r => exact execRouteOptionsSet_keeps r s s' hexec
  | routeOptionsSetRead r => exact execRouteOptionsSetRead_keeps r s s' hexec
  | aggregationSet r => exact execAggregationSet_keeps r s s' hexec
  | aggregationSetRead r => exact execAggregationSetRead_keeps r s s' hexec
  | bridgeEntrySet r => exact execBridgeEntrySet_keeps r s s' hexec
  | vlanSet r => exact execVlanSet_keeps r s s' hexec
  | routerMacSet r => exact execRouterMacSet_keeps r s s' hexec
  | prefixSet r => exact execPrefixSet_keeps r s s' hexec
  | nextHopSet r => exact execNextHopSet_keeps r s s' hexec
  | multipathSet r => exact execMultipathSet_keeps r s s' hexec
  | aggregationGroupSet r => exact execAggregationGroupSet_keeps r s s' hexec
  | matchRowSet r => exact execMatchRowSet_keeps r s s' hexec
  | matchBankSet r => exact execMatchBankSet_keeps r s s' hexec
  | matchArraySet r => exact execMatchArraySet_keeps r s s' hexec
  | matchArraySetRead r => exact execMatchArraySetRead_keeps r s s' hexec
  | matchRead r => exact execMatchRead_keeps r s s' hexec
  | bridgeRead r => exact execBridgeRead_keeps r s s' hexec
  | routeRead r => exact execRouteRead_keeps r s s' hexec
  | flowProfileSet r => exact execFlowProfileSet_keeps r s s' hexec
  | flowRecordSet r => exact execFlowRecordSet_keeps r s s' hexec
  | flowAgeingSet r => exact execFlowAgeingSet_keeps r s s' hexec
  | flowAgeingSetRead r => exact execFlowAgeingSetRead_keeps r s s' hexec
  | flowTableSet r => exact execFlowTableSet_keeps r s s' hexec
  | flowTableSetRead r => exact execFlowTableSetRead_keeps r s s' hexec
  | flowRead r => exact execFlowRead_keeps r s s' hexec
  | objectWrite r => exact execObjectWrite_keeps r s s' hexec
  | patternLoad r => exact execPatternLoad_keeps r s s' hexec
  | patternSwitch r => exact execPatternSwitch_keeps r s s' hexec
  | lbGroupSet r => exact execLbGroupSet_keeps r s s' hexec
  | lbMemberSet r => exact execLbMemberSet_keeps r s s' hexec
  | translationPoolSet r => exact execTranslationPoolSet_keeps r s s' hexec
  | exportSet r => exact execExportSet_keeps r s s' hexec
  | exportSetRead r => exact execExportSetRead_keeps r s s' hexec
  | exportStatus r => exact execExportStatus_keeps r s s' hexec
  | archiveRead r => exact execArchiveRead_keeps r s s' hexec
  | flowStatus r => exact execFlowStatus_keeps r s s' hexec
  | gateProfileSet r => exact execGateProfileSet_keeps r s s' hexec
  | keyRingSet r => exact execKeyRingSet_keeps r s s' hexec
  | gateIntakeSet r => exact execGateIntakeSet_keeps r s s' hexec
  | gateIntakeSetRead r => exact execGateIntakeSetRead_keeps r s s' hexec
  | gateOptionsSet r => exact execGateOptionsSet_keeps r s s' hexec
  | gateOptionsSetRead r => exact execGateOptionsSetRead_keeps r s s' hexec
  | ledgerOptionsSet r => exact execLedgerOptionsSet_keeps r s s' hexec
  | ledgerOptionsSetRead r => exact execLedgerOptionsSetRead_keeps r s s' hexec
  | ledgerAcknowledge r => exact execLedgerAcknowledge_keeps r s s' hexec
  | gateShut r => exact execGateShut_keeps r s s' hexec
  | gateReopen r => exact execGateReopen_keeps r s s' hexec
  | permitSubmit r => exact execPermitSubmit_keeps r s s' hexec
  | permitRevoke r => exact execPermitRevoke_keeps r s s' hexec
  | permitRead r => exact execPermitRead_keeps r s s' hexec
  | ledgerRead r => exact execLedgerRead_keeps r s s' hexec
  | gateStatus r => exact execGateStatus_keeps r s s' hexec
  | baleOpen r => exact execBaleOpen_keeps r s s' hexec
  | baleCommit r => exact execBaleCommit_keeps r s s' hexec
  | baleAbort r => exact execBaleAbort_keeps r s s' hexec
  | baleStatus r => exact execBaleStatus_keeps r s s' hexec
  | baleOptionsSet r => exact execBaleOptionsSet_keeps r s s' hexec
  | baleOptionsSetRead r => exact execBaleOptionsSetRead_keeps r s s' hexec
  | memorySchedulerSet r => exact execMemorySchedulerSet_keeps r s s' hexec
  | memorySchedulerSetRead r => exact execMemorySchedulerSetRead_keeps r s s' hexec
  | memoryRetrainSet r => exact execMemoryRetrainSet_keeps r s s' hexec
  | memoryRetrainSetRead r => exact execMemoryRetrainSetRead_keeps r s s' hexec
  | retrainUnitNow r => exact execRetrainUnitNow_keeps r s s' hexec
  | memoryScrubSet r => exact execMemoryScrubSet_keeps r s s' hexec
  | memoryScrubSetRead r => exact execMemoryScrubSetRead_keeps r s s' hexec
  | granaryRegionSet r => exact execGranaryRegionSet_keeps r s s' hexec
  | granaryRegionSetRead r => exact execGranaryRegionSetRead_keeps r s s' hexec
  | memoryRetire r => exact execMemoryRetire_keeps r s s' hexec
  | memoryStatus r => exact execMemoryStatus_keeps r s s' hexec
  | sheafPairSet r => exact execSheafPairSet_keeps r s s' hexec
  | sheafPairSetRead r => exact execSheafPairSetRead_keeps r s s' hexec
  | sheafLaneSet r => exact execSheafLaneSet_keeps r s s' hexec
  | sheafLaneSetRead r => exact execSheafLaneSetRead_keeps r s s' hexec
  | sheafPowerSet r => exact execSheafPowerSet_keeps r s s' hexec
  | sheafPowerSetRead r => exact execSheafPowerSetRead_keeps r s s' hexec
  | sheafStatus r => exact execSheafStatus_keeps r s s' hexec
  | chaffSet r => exact execChaffSet_keeps r s s' hexec
  | chaffSetRead r => exact execChaffSetRead_keeps r s s' hexec
  | strawSet r => exact execStrawSet_keeps r s s' hexec
  | strawSetRead r => exact execStrawSetRead_keeps r s s' hexec
  | strawRead r => exact execStrawRead_keeps r s s' hexec
  | counterRead r => exact execCounterRead_keeps r s s' hexec
  | counterSnapshot r => exact execCounterSnapshot_keeps r s s' hexec
  | counterFreeze r => exact execCounterFreeze_keeps r s s' hexec
  | counterSamplingSet r => exact execCounterSamplingSet_keeps r s s' hexec
  | counterSamplingSetRead r => exact execCounterSamplingSetRead_keeps r s s' hexec
  | microcodeLoad r => exact execMicrocodeLoad_keeps r s s' hexec
  | microcodeSwitch r => exact execMicrocodeSwitch_keeps r s s' hexec
  | microcodeRead r => exact execMicrocodeRead_keeps r s s' hexec
  | firmwareLoad r => exact execFirmwareLoad_keeps r s s' hexec
  | firmwareSwitch r => exact execFirmwareSwitch_keeps r s s' hexec
  | attestationQuote r => exact execAttestationQuote_keeps r s s' hexec
  | attestationLogRead r => exact execAttestationLogRead_keeps r s s' hexec
  | powerStatus r => exact execPowerStatus_keeps r s s' hexec
  | sagPortSet r => exact execSagPortSet_keeps r s s' hexec
  | sagPortSetRead r => exact execSagPortSetRead_keeps r s s' hexec
  | sagOptionsSet r => exact execSagOptionsSet_keeps r s s' hexec
  | sagOptionsSetRead r => exact execSagOptionsSetRead_keeps r s s' hexec
  | commandedTestLevel r => exact execCommandedTestLevel_keeps r s s' hexec
  | sagRecordRead r => exact execSagRecordRead_keeps r s s' hexec
  | timeRefLoss => exact execTimeRefLoss_keeps s s' hexec
  | sysclkReturn => exact execSysclkReturn_keeps s s' hexec
  | vkeepReturn => exact execVkeepReturn_keeps s s' hexec
  | xtal32Loss => exact execXtal32Loss_keeps s s' hexec
  | sheafSymbolLockGain l => exact execSheafSymbolLockGain_keeps l s s' hexec
  | pauseQuantaExpiry p c => exact execPauseQuantaExpiry_keeps p c s s' hexec
  | lacpTimeout p => exact execLacpTimeout_keeps p s s' hexec
  | switchoverImageStaged ok => exact execSwitchoverImageStaged_keeps ok s s' hexec
  | longRequestProgress mb percent => exact execLongRequestProgress_keeps mb percent s s' hexec
  | bootStart | switchoverHandoverDone | claim | rollbackAdvance | ownerKeySet | successionExport | successionImport =>
    cases hplain

/-- No command touches the queue, and what it makes of OTP is what Table 18-1 lets it. -/
theorem exec_otpStep {c : Instr} {s s' : State} (hexec : exec c s = .next s') :
    s'.pending = s.pending ∧ OtpStep s.trust.otp s'.trust.otp := by
  cases c with
  | bootStart x => exact execBootStart_otp x s s' hexec
  | switchoverHandoverDone => exact execSwitchoverHandoverDone_otp s s' hexec
  | claim r => exact execClaim_otp r s s' hexec
  | rollbackAdvance r => exact execRollbackAdvance_otp r s s' hexec
  | ownerKeySet r => exact execOwnerKeySet_otp r s s' hexec
  | successionExport r => exact execSuccessionExport_otp r s s' hexec
  | successionImport r => exact execSuccessionImport_otp r s s' hexec
  | _ => exact (exec_keeps rfl hexec).imp_right .of_eq

/-! ### Steps -/

/-- A step with commands waiting carries out the first on the rest of the queue (log entry 3). -/
theorem step_of_pending_cons {s : State} {c : Instr} {rest : List Instr} (h : s.pending = c :: rest) :
    step s = exec c { s with pending := rest } := by
  simp only [step, h]

theorem step_answers (s : State) : ∃ t, step s = .next t := by
  cases hqueue : s.pending with
  | nil => exact ⟨_, step_of_pending_nil hqueue⟩
  | cons c rest => exact step_of_pending_cons hqueue ▸ exec_answers c _

/-- A step takes one command from the queue, and what it makes of OTP is what Table 18-1 lets it. -/
theorem step_otpStep {s t : State} (h : step s = .next t) : t.pending = s.pending.tail ∧ OtpStep s.trust.otp t.trust.otp := by
  cases hqueue : s.pending with
  | nil =>
    obtain rfl : s.coreClock = t := Host.Outcome.next.inj (step_of_pending_nil hqueue ▸ h)
    have hclock := State.coreClock_keeps s
    exact ⟨hclock.1.trans hqueue, .of_eq hclock.2⟩
  | cons c rest => exact exec_otpStep (step_of_pending_cons hqueue ▸ h)

/-- Settles O52, by the two forms of the queue that a step can meet. -/
theorem stepRunsTheFront : Obligations.StepRunsTheFront := by
  unfold Obligations.StepRunsTheFront
  exact ⟨fun _ _ => rfl, fun _ _ _ hqueue => step_of_pending_cons hqueue⟩

/-- Settles O55: every command answers, and none touches the queue that the step leaves it. -/
theorem everyStepAnswers : Obligations.EveryStepAnswers := by
  unfold Obligations.EveryStepAnswers
  intro s
  obtain ⟨t, hstep⟩ := step_answers s
  exact ⟨t, hstep, (step_otpStep hstep).1⟩

/-- Settles O56, from what each command makes of OTP. -/
theorem otpStaysLaidOut : Obligations.OtpStaysLaidOut := by
  unfold Obligations.OtpStaysLaidOut
  intro s t hok hstep
  exact ((step_otpStep hstep).2 hok).1

/-- Settles O57, from what each command makes of OTP. -/
theorem otpIsNeverCleared : Obligations.OtpIsNeverCleared := by
  unfold Obligations.OtpIsNeverCleared
  intro s t hok hstep
  exact ((step_otpStep hstep).2 hok).2

end Sys2Proof.Machine
end

section
/-! Writes of the host's registers and windows (R363, R364, R366): the bytes of a window, and a table of the DMA rings that is not canonical. -/

namespace Sys2Proof.Tab

/-- The bytes read are those at the addresses from `a` on. -/
theorem getBytes_eq_map (t : Tab Byte) (a n : Nat) : getBytes t a n = (List.range n).map (fun i => get 0 t (a + i)) := by
  induction n generalizing a with
  | zero => rfl
  | succ n ih =>
    rw [getBytes, ih, List.range_succ_eq_map, List.map_cons, List.map_map]
    simp [Function.comp_def, Nat.add_assoc, Nat.add_comm 1]

/-- A byte string written to a canonical memory reads back from where it was written. -/
theorem getBytes_putBytes (t : Tab Byte) (a : Nat) (bs : Bytes) (hwf : wf 0 t = true) : getBytes (putBytes t a bs) a bs.length = bs := by
  rw [getBytes_eq_map]
  refine List.ext_getElem (by simp) fun i hi hlen => ?_
  rw [List.getElem_map, List.getElem_range, get_putBytes t a bs _ hwf, if_pos ⟨by omega, by omega⟩, Nat.add_sub_cancel_left,
    List.getD_eq_getElem _ _ hlen]

end Sys2Proof.Tab

namespace Sys2Proof.Machine

/-- A register write to an aligned address of an inbound window writes the word's four bytes there, and nothing else (R363). -/
theorem exec_registerWrite_window {a : Nat} (s : State) (v : W32) (haligned : a % 4 = 0) (hfrom : 0x100000 ≤ a) (hbelow : a < 0x900000) :
    exec (.registerWrite a v) s = .next { s with host := { s.host with
      windows := Tab.putBytes s.host.windows (a - 0x100000) (natLe 4 v.toNat) } } := by
  show execRegisterWrite a v s = _
  unfold execRegisterWrite
  rw [if_neg (by omega), if_neg (by omega), if_neg (by omega), if_neg (by omega), if_pos ⟨hfrom, hbelow⟩, done]

/-- Settles O28, from what a read of a canonical byte memory gives after a write. -/
theorem windowWriteReadsBack : Obligations.WindowWriteReadsBack := by
  unfold Obligations.WindowWriteReadsBack
  intro s a v hwf haligned hfrom hbelow
  refine ⟨_, exec_registerWrite_window s v haligned hfrom hbelow, ?written, fun b hb => ?others, Tab.wf_putBytes _ _ _ hwf, rfl⟩
  case written =>
    have hread := Tab.getBytes_putBytes s.host.windows (a - 0x100000) (natLe 4 v.toNat) hwf
    rwa [length_natLe] at hread
  case others =>
    show Tab.get 0 (Tab.putBytes s.host.windows (a - 0x100000) (natLe 4 v.toNat)) b = Tab.get 0 s.host.windows b
    rw [Tab.get_putBytes _ _ _ _ hwf, length_natLe, if_neg (by omega)]

/-- Ring 0 stands in the table of the rings twice: as the ring after reset, which is what a read gives, and behind it with RING_CONS at 7. -/
def twiceRing0 : State := { State.reset with host := { State.reset.host with rings := [(0, {}), (0, { cons := 7 })] } }

/-- A write of 0 to RING_CONS erases the entry that is as after reset, and the ring behind it is read. -/
theorem exec_ringConsWrite_twiceRing0 : ∃ t, exec (.ringConsWrite 0 0) twiceRing0 = .next t ∧ t.readRegister 0x210 = 7 :=
  ⟨_, rfl, by decide +kernel⟩

/-- Refutes O26 by its clause (g) on RING_CONS, which reads back what was written in a canonical table of the rings, while the statement is
about every state: in `twiceRing0` a write of 0 reads back as 7. -/
theorem not_hostRegisterWrites : ¬ Obligations.HostRegisterWrites := by
  unfold Obligations.HostRegisterWrites
  rintro ⟨-, -, -, -, -, -, -, -, -, -, -, -, -, -, ringCons, -⟩
  obtain ⟨t, ht, hread⟩ := ringCons twiceRing0 0 0
  obtain ⟨u, hu, hseven⟩ := exec_ringConsWrite_twiceRing0
  have htu : t = u := Host.Outcome.next.inj (ht.symm.trans hu)
  rw [htu] at hread
  exact absurd (hseven.symm.trans hread) (by decide)

end Sys2Proof.Machine
end

section
/-! Retraining of a memory unit, and the copies that replace one (R333 to R341, Table 13-5). -/

namespace Sys2Proof.Machine

/-- Reading the sensor writes its value alone, and takes one free value (log entry 40). -/
theorem State.senseTemp_frame (s : State) (u : Nat) :
    (s.senseTemp u).mayFence u = s.mayFence u ∧ (s.senseTemp u).munit u = s.munit u ∧ (s.senseTemp u).now = s.now ∧
    ∀ id, (s.senseTemp u).sn id = s.sn id :=
  ⟨rfl, rfl, rfl, fun _ => rfl⟩

theorem exec_retrainStart (s : State) (u : UnitId) :
    exec (.retrainStart u) s = .next (if s.mayFence u = true ∧ ((s.munit u).trainedAt + ns (s.sn 0x0D02) ≤ s.now ∨
        s.sn 0x0D03 ≤ ((s.senseTemp u).memTemp u - (s.munit u).trainedTemp).natAbs) then
      (s.senseTemp u).setUnit u { s.munit u with state := 1, trainedAt := s.now, trainedTemp := (s.senseTemp u).memTemp u }
      else s.senseTemp u) := by
  obtain ⟨hfence, hunit, hnow, hsn⟩ := State.senseTemp_frame s u
  show execRetrainStart u s = _
  simp only [execRetrainStart, State.tempStep, State.fenceUnit, hfence, hunit, hnow, hsn, decide_eq_true_eq, done, apply_ite Host.Outcome.next]

section
variable {s : State} {u : UnitId}

/-- A retry that has fallen due fences its unit again (R333, R336). -/
theorem exec_retrainRetry_of_due {t : Nat} (hfence : s.mayFence u = true) (hretry : (s.munit u).retryAt = some t) (hdue : t ≤ s.now) :
    exec (.retrainRetry u) s = .next ((s.setUnit u { s.munit u with retryAt := none }).fenceUnit u) := by
  show execRetrainRetry u s = _
  simp [execRetrainRetry, hfence, hretry, hdue, done]

/-- What a retraining's result does to the unit that it fenced (R335, R336): the third that kept the previous setting retires it. -/
theorem exec_retrainComplete (hfenced : (s.munit u).state = 1) (res : RetrainResult) :
    exec (.retrainComplete u res) s = .next (
      match res with
      | .newSetting => ((s.setUnit u { s.munit u with attempts := 0, retryAt := none }).liftFence u).retrainDone u 0
      | .keptPrevious =>
        let n := (s.munit u).attempts + 1
        let t := ((s.setUnit u { s.munit u with attempts := n, retryAt := some (s.now + sec 1) }).countUnit u 3).raise 0x0803 (srcUnit u) (natLe 1 n)
        if 3 ≤ n then (t.retireUnit u).retrainDone u 2 else (t.liftFence u).retrainDone u 1
      | .noneWorks => (s.retireUnit u).retrainDone u 2) := by
  show execRetrainComplete u res s = _
  cases res <;> simp only [execRetrainComplete, hfenced, ne_eq, not_true_eq_false, if_false, done, apply_ite Host.Outcome.next]

end

/-- A rebuilt mirror takes the stripe, and the second continuation record follows (R340, R341). -/
theorem exec_ledgerMirrorRebuildDone_of_over {s : State} {d : DdrId} {r : Rebuild} (hrebuild : Tab.find? s.mem.rebuilding (d.val % 8) = some r)
    (hfailed : r.failed = d.val) (hover : r.at_ + s.rebuildTime ≤ s.now) :
    exec (.ledgerMirrorRebuildDone d) s = .next (State.record { s with mem := { s.mem with
      rebuilding := Tab.erase s.mem.rebuilding (d.val % 8), rebuilt := s.mem.rebuilt ++ [d.val % 8] } }
      { type := 9, flags := 0, detailA := d.val + 32 }) := by
  show execLedgerMirrorRebuildDone d s = _
  simp only [execLedgerMirrorRebuildDone, hrebuild, if_pos (And.intro hfailed hover), done]
  rfl

/-- Settles O22, one lemma for each of its commands; that a copied policy mirror serves no longer is that command's definition. -/
theorem memoryRetraining : Obligations.MemoryRetraining := by
  unfold Obligations.MemoryRetraining
  refine ⟨?start, fun _ _ _ => exec_retrainRetry_of_due, fun _ _ hfenced => exec_retrainComplete hfenced .newSetting,
    fun _ _ hfenced => exec_retrainComplete hfenced .keptPrevious, fun _ _ hfenced => exec_retrainComplete hfenced .noneWorks,
    fun _ _ => rfl, fun _ _ _ => exec_ledgerMirrorRebuildDone_of_over⟩
  case start =>
    rintro s t u rfl
    exact exec_retrainStart s u

end Sys2Proof.Machine
end

section
/-! Heartbeats, pairing, delay exchanges and the loss of the twin (R350, R352, R353, R356). -/

namespace Sys2Proof.Machine

section
variable {s : State} {n : LinkId} {x : PairingBody} {key : Bytes}

theorem exec_pairing_of_other_pair (hkey : s.twinKey = some key) (hup : (s.link n).up = true) (hpair : s.pairId ≠ 0) (hid : x.pairId ≠ s.pairId) :
    exec (.pairing n x) s =
      .next ((s.setLink n { s.link n with paired := false }).raise 0x0904 srcDevice (natLe 1 n ++ natLe 1 1)) := by
  show execPairing n x s = _
  simp [execPairing, hkey, hup, hpair, hid, State.modLink, done]

theorem exec_pairing_of_other_key (hkey : s.twinKey = some key) (hup : (s.link n).up = true) (hpair : s.pairId ≠ 0) (hid : x.pairId = s.pairId)
    (hother : x.key ≠ key) :
    exec (.pairing n x) s =
      .next ((s.setLink n { s.link n with paired := false }).raise 0x0904 srcDevice (natLe 1 n ++ natLe 1 2)) := by
  show execPairing n x s = _
  simp [execPairing, hkey, hup, hpair, hid, hother, State.modLink, done]

/-- A signature over both nonces decides whether the twin is accepted (R352, log entry 46). -/
theorem exec_pairing_signed {g : Bytes} (hkey : s.twinKey = some key) (hup : (s.link n).up = true) (hpair : s.pairId ≠ 0)
    (hid : x.pairId = s.pairId) (hsame : x.key = key) (hnonce : (s.link n).twinNonce = x.nonce) (hsig : x.sig = some g) :
    exec (.pairing n x) s = .next (
      if edVerify key (pairSigned x.nonce (s.link n).nonce s.pairId) g then s.acceptTwin n x.serial
      else (s.setLink n { s.link n with paired := false }).raise 0x0904 srcDevice (natLe 1 n ++ natLe 1 3)) := by
  show execPairing n x s = _
  simp [execPairing, hkey, hup, hpair, hid, hsame, hnonce, hsig, State.modLink, done, apply_ite Host.Outcome.next]

end

/-- A delay request is due once a second on a link in use (R356). -/
theorem exec_delayExchangeSend_of_due {s : State} {n : LinkId} (hup : (s.link n).up = true) (hpaired : (s.link n).paired = true)
    (hdue : (s.link n).delayAt + sec 1 ≤ s.now) :
    exec (.delayExchangeSend n) s = .next ((s.setLink n { s.link n with delayAt := s.now }).tellOn n (.delay n s.tai 0 0 0)) :=
  if_pos ⟨hup, hpaired, hdue⟩

/-- The next message of a twin that is present is applied, and where it leaves none kept early nothing follows it (R350). -/
theorem State.takeMsg_next {s : State} {num : Nat} {m : Msg} (htwin : s.sheaf.twin = 1) (hnext : num = s.sheaf.rxNum + 1)
    (hearly : (State.applyMsg { s with sheaf := { s.sheaf with rxNum := num } } m).sheaf.early = []) :
    s.takeMsg num m = State.applyMsg { s with sheaf := { s.sheaf with rxNum := num } } m := by
  have hnew : ¬(s.sheaf.twin ≠ 1 ∨ num ≤ s.sheaf.rxNum) := by omega
  simp only [State.takeMsg, if_neg hnew, if_pos hnext, hearly]
  rfl

section
variable {s : State} {n : LinkId} {x : DelayBody} (hup : (s.link n).up = true) (hpaired : (s.link n).paired = true)
  (htwin : s.sheaf.twin = 1) (hnext : x.num = s.sheaf.rxNum + 1) (hearly : s.sheaf.early = [])
include hup hpaired htwin hnext hearly

/-- A delay message that is the next is stamped with its arrival and taken: as a request where its second time is still 0 (R356). -/
theorem exec_delayExchange_takes :
    exec (.delayExchange n x) s = .next (State.takeDelay { s with sheaf := { s.sheaf with rxNum := x.num } } n x.t1
      (if x.t2 = 0 then s.tai else x.t2) (if x.t2 = 0 then 0 else x.t3) (if x.t2 = 0 then 0 else s.tai)) := by
  have hkept : ∀ a b c d, (State.takeDelay { s with sheaf := { s.sheaf with rxNum := x.num } } n a b c d).sheaf.early = [] := by
    intro a b c d
    unfold State.takeDelay
    split <;> exact hearly
  have htaken : ∀ a b c d, s.takeMsg x.num (.delay n a b c d) =
      State.takeDelay { s with sheaf := { s.sheaf with rxNum := x.num } } n a b c d :=
    fun a b c d => State.takeMsg_next (m := .delay n a b c d) htwin hnext (hkept a b c d)
  show execDelayExchange n x s = _
  simp only [execDelayExchange, hup, hpaired, Bool.and_self, Bool.not_true, Bool.false_eq_true, if_false, done]
  split <;> rw [htaken]

theorem exec_delayExchange_request (hrequest : x.t2 = 0) :
    exec (.delayExchange n x) s = .next
      (State.tellOn { s with sheaf := { s.sheaf with rxNum := x.num } } n (.delay n x.t1 s.tai s.tai 0)) := by
  rw [exec_delayExchange_takes hup hpaired htwin hnext hearly]
  simp only [hrequest, if_true, State.takeDelay]
  rfl

theorem exec_delayExchange_answer (hsecond : x.t2 ≠ 0) (hthird : x.t3 ≠ 0) :
    exec (.delayExchange n x) s = .next (
      let t : State := { s with sheaf := { s.sheaf with rxNum := x.num } }
      let rtt := (s.tai - x.t1) - (x.t3 - x.t2)
      let u := t.setLink n { t.link n with delay := rtt / 2 }
      { u with sheaf := { u.sheaf with roundTrip := rtt } }) := by
  rw [exec_delayExchange_takes hup hpaired htwin hnext hearly]
  simp only [hsecond, hthird, if_false, State.takeDelay]
  rfl

end

/-- Settles O24, one lemma for each branch of pairing and of a delay exchange; the heartbeats and their time-out are the model's own by their
definitions. -/
theorem sheafTwin : Obligations.SheafTwin := by
  unfold Obligations.SheafTwin
  refine ⟨fun _ => rfl, fun _ _ _ => (apply_ite Host.Outcome.next _ _ _).symm, fun _ => (apply_ite Host.Outcome.next _ _ _).symm, ?pairing,
    fun _ _ => exec_delayExchangeSend_of_due, ?delay⟩
  case pairing =>
    rintro s _ n x key hkey hup hpair rfl
    exact ⟨exec_pairing_of_other_pair hkey hup hpair, exec_pairing_of_other_key hkey hup hpair,
      fun _ => exec_pairing_signed hkey hup hpair⟩
  case delay =>
    rintro s _ n x hup hpaired htwin hnext hearly rfl
    exact ⟨exec_delayExchange_request hup hpaired htwin hnext hearly, exec_delayExchange_answer hup hpaired htwin hnext hearly⟩

end Sys2Proof.Machine
end

section
/-! Revoked Larzenu keys: what a completed switch revokes, and what an image of a revoked key fails (R410, R420). -/

namespace Sys2Proof.Machine

theorem Talks.trust_eq {s t : State} (h : Talks s t) : t.trust = s.trust :=
  have kept : ({ t with host := s.host, outbox := s.outbox, sheaf := s.sheaf } : State) = s := h
  (congrArg State.trust kept :)

/-- The completion of long requests answers them, and changes nothing of the device besides. -/
theorem State.endLong_talks (s : State) (kind idx status detail : Nat) (resp : Bytes) (tick : Nat) :
    Talks s (s.endLong kind idx status detail resp tick) := by
  unfold State.endLong
  refine Talks.trans (t := { s with host := { s.host with longs := s.host.longs.filter fun x => !(x.kind == kind && x.idx == idx) } })
    rfl (foldl_talks _ _ _ fun t x => ?_)
  split
  · exact Talks.refl t
  · exact Talks.trans (t := { t with host := { t.host with longs := t.host.longs.filter fun y => !(y.mb == x.mb && y.seq == x.seq) } })
      rfl (State.answer_talks _ _ _ _ _ _ _)

/-- A measurement writes the attestation log alone, of what the keeper of trust holds (R421). -/
theorem State.measure_trust (s : State) (kind : Nat) (digest : Bytes) (slot sv source build : Nat) :
    (s.measure kind digest slot sv source build).trust.switchover = s.trust.switchover ∧
    (s.measure kind digest slot sv source build).trust.running = s.trust.running ∧
    (s.measure kind digest slot sv source build).trust.otp = s.trust.otp :=
  ⟨rfl, rfl, rfl⟩

/-- The revocation leaves the switch and the running slot (R420). -/
theorem State.revokeBelow_trust (s : State) (h : Bytes) :
    (s.revokeBelow h).trust.switchover = s.trust.switchover ∧ (s.revokeBelow h).trust.running = s.trust.running := by
  unfold State.revokeBelow
  split <;> exact ⟨rfl, rfl⟩

/-- Where the image's flag is set, the keys below its own join those that are revoked (R420). -/
theorem State.revokeBelow_testBit (s : State) {h : Bytes} (hkey : imgKey h < 4) (j : Nat) :
    (s.revokeBelow h).trust.otp.revoked.testBit j =
      (s.trust.otp.revoked.testBit j || ((leAt h 9 1).testBit 1 && decide (j < imgKey h))) := by
  unfold State.revokeBelow
  split
  case isTrue hflag => rw [Nat.testBit_or, Nat.testBit_two_pow_sub_one, Nat.mod_eq_of_lt hkey, hflag, Bool.true_and]
  case isFalse hflag => rw [Bool.eq_false_of_not_eq_true hflag, Bool.false_and, Bool.or_false]

/-- What the completion of a switch makes of the trust state, apart from its log, its boot record and the image's version: no switch is left,
the image's slot runs, and the keys below the image's are revoked where its flag is set (R419, R420). -/
theorem exec_switchoverHandoverDone_of_quiesced {s : State} {x : Switchover} (hswitch : s.trust.switchover = some x)
    (hquiesced : x.quiesced.isSome = true) :
    ∃ t, exec .switchoverHandoverDone s = .next t ∧ t.trust.switchover = none ∧ t.trust.running = x.slot ∧
      ∃ u : State, t.trust.otp = (u.revokeBelow x.header).trust.otp ∧ u.trust.otp = s.trust.otp := by
  have hnot : ¬x.quiesced.isNone = true := by rw [← Option.not_isSome, hquiesced]; exact Bool.false_ne_true
  obtain ⟨t, ht⟩ := exec_answers .switchoverHandoverDone s
  refine ⟨t, ht, ?_⟩
  have hdone : execSwitchoverHandoverDone s = .next t := ht
  simp only [execSwitchoverHandoverDone, hswitch, if_neg hnot, done, Host.Outcome.next.injEq] at hdone
  rw [← hdone, (State.endLong_talks _ _ _ _ _ _ _).trust_eq]
  simp only [State.raise_frame, State.noteStatus_frame, State.measure_trust, State.revokeBelow_trust]
  exact ⟨rfl, rfl, _, rfl, rfl⟩

/-- No key verifies an image of types 1 and 2 that names a revoked key (Table 18-5). -/
theorem State.imgSigner_of_revoked {s : State} {kind : Nat} {b : Bytes} (hkind : kind ≤ 2)
    (hrevoked : s.trust.otp.revoked.testBit (imgKey b) = true) : s.imgSigner kind b = none := by
  simp [State.imgSigner, hkind, hrevoked]

/-- A header without a key that verifies it has a field that fails (R410). -/
theorem State.imgField_of_no_signer {s : State} {kind : Nat} {b : Bytes} (hsigner : s.imgSigner kind b = none) :
    (s.imgField kind b).isSome = true := by
  simp only [State.imgField, hsigner, Option.isSome_map, List.find?_isSome]
  exact ⟨(6, true), by simp, rfl⟩

theorem State.imgFault_of_revoked {s : State} {kind : Nat} {b : Bytes} (hkind : kind ≤ 2)
    (hrevoked : s.trust.otp.revoked.testBit (imgKey b) = true) : (s.imgFault kind b).isSome = true := by
  obtain ⟨off, hoff⟩ := Option.isSome_iff_exists.1 (State.imgField_of_no_signer (State.imgSigner_of_revoked hkind hrevoked))
  simp only [State.imgFault, hoff, Option.isSome_some]

/-- A slot fails its check where its image does (R419). -/
theorem State.slotFault_of_image {s : State} {slot : Nat} {image : Bytes}
    (himage : (if slot = 0 then s.trust.flash.slotA else s.trust.flash.slotB).image = image) (hsome : image ≠ [])
    (hfault : (s.imgFault 1 image).isSome = true) : (s.slotFault slot).isSome = true := by
  obtain ⟨e, he⟩ := Option.isSome_iff_exists.1 hfault
  simp [State.slotFault, himage, hsome, he]

theorem State.slotOk_of_revoked {s : State} {c : SlotCheck} (hrevoked : s.trust.otp.revoked.testBit c.keyId = true) : s.slotOk c = false := by
  simp [State.slotOk, hrevoked]

/-- Settles O59: the bits that a completed switch sets, and the three checks that a revoked key fails. -/
theorem keyRevocation : Obligations.KeyRevocation := by
  unfold Obligations.KeyRevocation
  refine ⟨?switch, fun _ _ _ => State.imgFault_of_revoked, ?slot, fun _ _ => State.slotOk_of_revoked⟩
  case switch =>
    intro s x hswitch hquiesced hkey
    obtain ⟨t, ht, hnone, hrunning, u, hotp, hu⟩ := exec_switchoverHandoverDone_of_quiesced hswitch hquiesced
    refine ⟨t, ht, hnone, hrunning, fun j => ?_⟩
    rw [hotp, State.revokeBelow_testBit u hkey, hu]
  case slot =>
    intro s slot image hsome hrevoked
    exact State.slotFault_of_image rfl hsome (State.imgFault_of_revoked (by omega) hrevoked)

end Sys2Proof.Machine
end

section
/-! The claim, and the two commands of a succession (R377, R408, R424 to R427, Table 18-12). -/

namespace Sys2Proof.Machine

/-- A request that Scemas takes now is carried out with its mailbox's line open, and is answered at once (R369, R370). -/
theorem State.serve_answers {s t : State} {op : Nat} {r : Request} {run : State → Ans × State} {a : Ans} (hserves : s.Serves r)
    (hrun : run (s.openLine op r) = (a, t)) (hnow : a.later = []) :
    done (s.serve op r run) = .next (t.answer r.mb r.seq a.status a.detail a.resp a.tick) := by
  obtain ⟨hready, hruns, hmaster, hrecovery, hquiesced, hroom, horder⟩ := hserves
  simp only [serve, hready, hruns, hmaster, hrecovery, hquiesced, hroom, horder, hrun, State.conclude_now _ _ _ _ hnow, done, Bool.not_true,
    Bool.false_eq_true, false_and, or_self, if_false, if_true]

section
variable {s : State} {r : Request}

/-! ### The claim (R377) -/

section
variable (hserves : s.Serves r) (hheader : headerStatus 0x0B01 3 r = 0) (hbale : r.bale = 0)
include hserves hheader hbale

/-- A claim of one to four keys that its first key signs, by a mailbox that may claim (log entry 70). -/
theorem exec_claim_of_unowned {n : Nat} (hunowned : s.owned = false) (htwin : r.mb.val ≠ 12 ∧ r.mb.val ≠ 13) (hcount : leAt r.payload 0 1 = n)
    (hsome : 1 ≤ n) (hfour : n ≤ 4) (hlen : r.payload.length = 8 + 32 * n) (hzero : leNat (slice r.payload 1 7) = 0)
    (hsigned : s.newKeyStatus 0x0B01 3 r (fun id => if id = 0xFF00 then some (slice r.payload 8 32) else none) = 0) :
    exec (.claim r) s = .next (((s.openLine 0x0B01 r).applyClaim r).answer r.mb r.seq 0 0 [] 0) := by
  have hrecovery : (s.openLine 0x0B01 r).trust.recovery ≠ 1 := hserves.2.2.2.1
  have hopen : (s.openLine 0x0B01 r).owned = false := hunowned
  have hkey : (s.openLine 0x0B01 r).newKeyStatus 0x0B01 3 r (fun id => if id = 0xFF00 then some (slice r.payload 8 32) else none) = 0 :=
    hsigned
  have hshape : ¬(r.payload.length < 8 ∨ r.payload.length ≠ 8 + 32 * n ∨ leNat (slice r.payload 1 7) ≠ 0) := by omega
  have hkeys : ¬(n = 0 ∨ 4 < n) := by omega
  refine State.serve_answers (a := {}) hserves ?_ rfl
  simp only [hheader, hrecovery, hbale, hopen, htwin.1, htwin.2, hcount, if_neg hshape, if_neg hkeys, hkey, ne_eq, not_true_eq_false, or_self,
    if_false, Bool.false_eq_true]

theorem exec_claim_of_owned (howned : s.owned = true) :
    exec (.claim r) s = .next ((s.openLine 0x0B01 r).answer r.mb r.seq 0x0207 0 [] 0) := by
  have hrecovery : (s.openLine 0x0B01 r).trust.recovery ≠ 1 := hserves.2.2.2.1
  have hopen : (s.openLine 0x0B01 r).owned = true := howned
  refine State.serve_answers (a := { status := 0x0207 }) hserves ?_ rfl
  simp only [hheader, hrecovery, hbale, hopen, ne_eq, not_true_eq_false, or_self, if_false, if_true]

end

/-! ### Export (R425) -/

theorem exec_successionExport {key : Option Nat} (hadmits : s.Admits 0x0B0B 3 false r key) (hbale : r.bale = 0) (hempty : r.payload = [])
    (hcounter : s.rollback 3 ≠ 255) :
    exec (.successionExport r) s = .next (
      let t := s.admitted 0x0B0B r key
      let config := t.configBytes (masterOf r.mb)
      let u := t.setRollback 3 (s.rollback 3 + 1)
      let v := State.shutGate { u with trust := { u.trust with otp := { u.trust.otp with succeeded := true } } } 11 (0x0100 + r.mb.val) (key.getD 0xFFFF)
      let w := v.record { type := 10, code := 1, key := key.getD 0xFFFF, seq := v.rollback 3,
                          selector := successionSelector Config.serial 0, digest := v.ownerDigest.take 32, detailA := config.length,
                          detailB := edPublic Config.identitySeed ++ List.replicate 32 0 }
      w.answer r.mb r.seq 0 0 (w.packageBytes config) 0) := by
  refine State.directReq_answers (a := { resp := _ }) hadmits hbale ?_ rfl
  simp only [hempty, List.isEmpty_nil, Bool.not_true, Bool.false_eq_true, State.admitted_rollback, hcounter, if_false]
  rfl

/-! ### What an import that its request's checks let through comes to (R426) -/

section
variable (s r)

theorem State.takePackage_of_unsucceeded (howned : s.owned = true) (hnot : s.trust.otp.succeeded = false) :
    s.takePackage r = ({ status := 0x0207 }, s) := by
  simp only [takePackage, howned, hnot, Bool.not_false, and_self, if_true]

variable (hmay : ¬(s.owned = true ∧ (!s.trust.otp.succeeded) = true))
include hmay

theorem State.takePackage_of_fault {e : Nat × Nat} (hfault : s.imgFault 5 r.payload = some e) :
    s.takePackage r = ({ status := e.1, detail := e.2 }, s) := by
  simp only [takePackage, if_neg hmay, hfault]

variable (himage : s.imgFault 5 r.payload = none)
include himage

theorem State.takePackage_of_misshapen
    (hbad : configActions (imgPayload r.payload).length ((imgPayload r.payload).drop 304) = none ∨ packageMade (imgPayload r.payload) = false) :
    s.takePackage r = ({ status := 0x0301 }, s) := by
  simp only [takePackage, if_neg hmay, himage]
  cases hacts : configActions (imgPayload r.payload).length ((imgPayload r.payload).drop 304) with
  | none => rfl
  | some acts =>
    have hmade : packageMade (imgPayload r.payload) = false := hbad.resolve_left (by simp [hacts])
    simp only [hmade, Bool.not_false, if_true]

variable {acts : List (Nat × Nat × Bytes)}
  (hacts : configActions (imgPayload r.payload).length ((imgPayload r.payload).drop 304) = some acts)
  (hmade : packageMade (imgPayload r.payload) = true)
include hacts hmade

theorem State.takePackage_of_other_device (hother : s.notForUs (imgPayload r.payload) = true) :
    s.takePackage r = ({ status := 0x0B05 }, s) := by
  simp only [takePackage, if_neg hmay, himage, hacts, hmade, hother, Bool.not_true, Bool.false_eq_true, if_false, if_true]

variable (hours : s.notForUs (imgPayload r.payload) = false)
include hours

theorem State.takePackage_of_full (hfull : 260 < s.trust.otp.rows.length + (s.importRows (imgPayload r.payload)).length) :
    s.takePackage r = ({ status := 0x0B03 }, s) := by
  simp only [takePackage, if_neg hmay, himage, hacts, hmade, hours, hfull, Bool.not_true, Bool.false_eq_true, if_false, if_true]

end

/-- A package that the device takes over brings its configuration, and the answer says how that ended. -/
theorem State.takePackage_of_takes {acts : List (Nat × Nat × Bytes)} {c : (Nat × Nat) × State}
    (hmay : ¬(s.owned = true ∧ (!s.trust.otp.succeeded) = true)) (htakes : s.Takes r acts)
    (hc : c = State.importConfig r.mb (imgKey r.payload) acts.length 0 acts (s.takeOver r.payload (imgPayload r.payload))) :
    s.takePackage r = ({ status := c.1.1, detail := c.1.2 }, c.2) := by
  obtain ⟨himage, hacts, hmade, hours, hroom⟩ := htakes
  simp only [takePackage, if_neg hmay, himage, hacts, hmade, hours, Nat.not_lt.2 hroom, Bool.not_true, Bool.false_eq_true, if_false, hc]

/-! ### Import (R426) -/

/-- The checks of a request leave what an import is judged by. -/
theorem State.admitted_package (s : State) (op : Nat) (r : Request) (key : Option Nat) :
    (s.admitted op r key).owned = s.owned ∧ (∀ p, (s.admitted op r key).notForUs p = s.notForUs p) ∧
    (∀ p, (s.admitted op r key).importRows p = s.importRows p) ∧ ∀ acts, (s.admitted op r key).Takes r acts ↔ s.Takes r acts := by
  rw [admitted_eq_with_host]
  exact ⟨rfl, fun _ => rfl, fun _ => rfl, fun _ => Iff.rfl⟩

/-- A succeeded device takes packages again. -/
theorem State.admitted_mayImport (op : Nat) (r : Request) (key : Option Nat) (hsucceeded : s.trust.otp.succeeded = true) :
    ¬((s.admitted op r key).owned = true ∧ (!(s.admitted op r key).trust.otp.succeeded) = true) := by
  simp only [State.admitted_parts, hsucceeded, Bool.not_true, Bool.false_eq_true, and_false, not_false_eq_true]

/-- On an owned device an import is a direct command. -/
theorem exec_successionImport_of_owned {key : Option Nat} {a : Ans} {t : State} (hadmits : s.Admits 0x0B0C 3 false r key) (hbale : r.bale = 0)
    (howned : s.owned = true) (hpackage : (s.admitted 0x0B0C r key).takePackage r = (a, t)) (hnow : a.later = []) :
    exec (.successionImport r) s = .next (t.answer r.mb r.seq a.status a.detail a.resp a.tick) := by
  show execSuccessionImport r s = _
  rw [execSuccessionImport, if_pos howned]
  exact State.directReq_answers hadmits hbale hpackage hnow

section
variable {key : Option Nat} (hadmits : s.Admits 0x0B0C 3 false r key) (hbale : r.bale = 0) (howned : s.owned = true)
include hadmits hbale howned

theorem exec_successionImport_unsucceeded (hnot : s.trust.otp.succeeded = false) :
    exec (.successionImport r) s = .next ((s.admitted 0x0B0C r key).answer r.mb r.seq 0x0207 0 [] 0) :=
  exec_successionImport_of_owned (a := { status := 0x0207 }) hadmits hbale howned
    (State.takePackage_of_unsucceeded _ r ((State.admitted_package ..).1.trans howned) (by simpa only [State.admitted_parts] using hnot)) rfl

variable (hsucceeded : s.trust.otp.succeeded = true)
include hsucceeded

theorem exec_successionImport_takes {acts : List (Nat × Nat × Bytes)} (htakes : s.Takes r acts) :
    exec (.successionImport r) s = .next (
      let c := State.importConfig r.mb (imgKey r.payload) acts.length 0 acts ((s.admitted 0x0B0C r key).takeOver r.payload (imgPayload r.payload))
      c.2.answer r.mb r.seq c.1.1 c.1.2 [] 0) := by
  have hadmitted := ((State.admitted_package s 0x0B0C r key).2.2.2 acts).2 htakes
  exact exec_successionImport_of_owned (a := { status := _, detail := _ }) hadmits hbale howned
    (State.takePackage_of_takes (State.admitted_mayImport _ _ _ hsucceeded) hadmitted rfl) rfl

theorem exec_successionImport_fault {e : Nat × Nat} (hfault : s.imgFault 5 r.payload = some e) :
    exec (.successionImport r) s = .next ((s.admitted 0x0B0C r key).answer r.mb r.seq e.1 e.2 [] 0) :=
  exec_successionImport_of_owned (a := { status := e.1, detail := e.2 }) hadmits hbale howned
    (State.takePackage_of_fault _ r (State.admitted_mayImport _ _ _ hsucceeded) ((State.admitted_imgFault ..).trans hfault)) rfl

variable (himage : s.imgFault 5 r.payload = none)
include himage

theorem exec_successionImport_misshapen
    (hbad : configActions (imgPayload r.payload).length ((imgPayload r.payload).drop 304) = none ∨ packageMade (imgPayload r.payload) = false) :
    exec (.successionImport r) s = .next ((s.admitted 0x0B0C r key).answer r.mb r.seq 0x0301 0 [] 0) :=
  exec_successionImport_of_owned (a := { status := 0x0301 }) hadmits hbale howned
    (State.takePackage_of_misshapen _ r (State.admitted_mayImport _ _ _ hsucceeded) ((State.admitted_imgFault ..).trans himage) hbad) rfl

variable (hacts : (configActions (imgPayload r.payload).length ((imgPayload r.payload).drop 304)).isSome = true)
  (hmade : packageMade (imgPayload r.payload) = true)
include hacts hmade

theorem exec_successionImport_other_device (hother : s.notForUs (imgPayload r.payload) = true) :
    exec (.successionImport r) s = .next ((s.admitted 0x0B0C r key).answer r.mb r.seq 0x0B05 0 [] 0) := by
  obtain ⟨acts, hacts⟩ := Option.isSome_iff_exists.1 hacts
  have himage' : (s.admitted 0x0B0C r key).imgFault 5 r.payload = none := (State.admitted_imgFault ..).trans himage
  have hother' : (s.admitted 0x0B0C r key).notForUs (imgPayload r.payload) = true := ((State.admitted_package s 0x0B0C r key).2.1 _).trans hother
  have hpackage := State.takePackage_of_other_device _ r (State.admitted_mayImport 0x0B0C r key hsucceeded) himage' hacts hmade hother'
  exact exec_successionImport_of_owned (a := { status := 0x0B05 }) hadmits hbale howned hpackage rfl

theorem exec_successionImport_full (hours : s.notForUs (imgPayload r.payload) = false)
    (hfull : 260 < s.trust.otp.rows.length + (s.importRows (imgPayload r.payload)).length) :
    exec (.successionImport r) s = .next ((s.admitted 0x0B0C r key).answer r.mb r.seq 0x0B03 0 [] 0) := by
  obtain ⟨acts, hacts⟩ := Option.isSome_iff_exists.1 hacts
  obtain ⟨-, hnotForUs, himportRows, -⟩ := State.admitted_package s 0x0B0C r key
  have himage' : (s.admitted 0x0B0C r key).imgFault 5 r.payload = none := (State.admitted_imgFault ..).trans himage
  have hours' : (s.admitted 0x0B0C r key).notForUs (imgPayload r.payload) = false := (hnotForUs _).trans hours
  have hfull' : 260 < (s.admitted 0x0B0C r key).trust.otp.rows.length +
      ((s.admitted 0x0B0C r key).importRows (imgPayload r.payload)).length := by
    rw [himportRows, (State.admitted_parts s 0x0B0C r key).2.2.1]
    exact hfull
  have hpackage := State.takePackage_of_full _ r (State.admitted_mayImport 0x0B0C r key hsucceeded) himage' hacts hmade hours' hfull'
  exact exec_successionImport_of_owned (a := { status := 0x0B03 }) hadmits hbale howned hpackage rfl

end

/-- On an unowned device a request that one of the package's owner keys signed takes it over, and spends that key's counter (R426, log entry
70). -/
theorem exec_successionImport_of_unowned {acts : List (Nat × Nat × Bytes)} {id : Nat} {sig : Bytes} (hserves : s.Serves r)
    (hheader : headerStatus 0x0B0C 3 r = 0) (hbale : r.bale = 0) (hunowned : s.owned = false) (htwin : r.mb.val ≠ 12 ∧ r.mb.val ≠ 13)
    (htrailer : r.trailer = some (id, sig)) (hsigned : s.newKeyStatus 0x0B0C 3 r (packageKey r) = 0) (htakes : s.Takes r acts) :
    exec (.successionImport r) s = .next (
      let c := State.importConfig r.mb (imgKey r.payload) acts.length 0 acts ((s.openLine 0x0B0C r).takeOver r.payload (imgPayload r.payload))
      (c.2.spendCounter id r.counter).answer r.mb r.seq c.1.1 c.1.2 [] 0) := by
  have hrecovery : (s.openLine 0x0B0C r).trust.recovery ≠ 1 := hserves.2.2.2.1
  have hopen : (s.openLine 0x0B0C r).owned = false := hunowned
  have hkey : (s.openLine 0x0B0C r).newKeyStatus 0x0B0C 3 r (packageKey r) = 0 := hsigned
  have hpackage := State.takePackage_of_takes (r := r) (s := s.openLine 0x0B0C r) (by simp [hopen])
    (((State.admitted_package s 0x0B0C r none).2.2.2 acts).2 htakes) rfl
  show execSuccessionImport r s = _
  rw [execSuccessionImport, if_neg (by simp [hunowned])]
  refine State.serve_answers (a := { status := _, detail := _ }) hserves ?_ rfl
  unfold packageKey at hkey
  simp only [hheader, hrecovery, hbale, htwin.1, htwin.2, hkey, hpackage, htrailer, ne_eq, not_true_eq_false, or_self, if_false]

end

/-- Settles O50, one lemma for each way in which a claim or a command of a succession can end. -/
theorem claimAndSuccession : Obligations.ClaimAndSuccession := by
  unfold Obligations.ClaimAndSuccession
  refine ⟨?claims, fun _ _ => exec_claim_of_owned, fun _ _ _ => exec_successionExport,
    fun _ _ _ _ hadmits hbale howned hsucceeded => exec_successionImport_takes hadmits hbale howned hsucceeded, ?unowned,
    fun _ _ _ => exec_successionImport_unsucceeded, ?refused⟩
  case claims =>
    intro s r n hserves hheader hbale hunowned hmb12 hmb13 hcount hsome hfour hlen hzero hsigned
    exact exec_claim_of_unowned hserves hheader hbale hunowned ⟨hmb12, hmb13⟩ hcount hsome hfour hlen hzero hsigned
  case unowned =>
    intro s r acts id sig hserves hheader hbale hunowned hmb12 hmb13 htrailer hsigned htakes
    exact exec_successionImport_of_unowned hserves hheader hbale hunowned ⟨hmb12, hmb13⟩ htrailer hsigned htakes
  case refused =>
    rintro s r key hadmits hbale howned hsucceeded _ _ rfl rfl
    exact ⟨fun _ => exec_successionImport_fault hadmits hbale howned hsucceeded, exec_successionImport_misshapen hadmits hbale howned hsucceeded,
      exec_successionImport_other_device hadmits hbale howned hsucceeded, exec_successionImport_full hadmits hbale howned hsucceeded⟩

end Sys2Proof.Machine
end

section
/-! Settling, the slice reset, the management-core pairs and SYSCLK (R393 to R401, R406). -/

namespace Sys2Proof.Machine

section
variable {s : State} {k : SliceId} {d : Drain} (hdrain : s.fault.drain = some d) (hslice : d.slice = k.val)
include hdrain hslice

/-- A drain that has reached its bound, or has nothing left, drops what remains and rewrites the slice's tables (R401). -/
theorem exec_sliceDrainComplete_of_over (hopen : d.drained = false) (hover : d.at_ + ms 1 ≤ s.now ∨ (s.slicePackets k).isEmpty = true) :
    exec (.sliceDrainComplete k) s = .next (
      let t := ((s.slicePackets k).foldl (fun t n => t.dropDrained n) s).resetSlice k
      { t with fault := { t.fault with drain := some { d with drained := true } } }) := by
  show execSliceDrainComplete k s = _
  simp only [execSliceDrainComplete, hdrain, hslice, hopen, Bool.not_false, true_and, if_pos hover, done]

theorem exec_sliceReturn_of_drained (hdrained : d.drained = true) :
    exec (.sliceReturn k) s = .next (((slicePorts k).foldl (fun t p => t.returnPort p) s).sliceBack k d.cls) := by
  show execSliceReturn k s = _
  simp only [execSliceReturn, hdrain, if_pos (And.intro hslice hdrained), done]

end

section
variable {s : State} {q : Fin 2}

/-- A mismatch opens the pair's log entry, whose second rung retires the pair (R397, R406). -/
theorem exec_mcLockstepMismatch_of_unretired (hkept : s.mcState q ≠ 2) :
    exec (.mcLockstepMismatch q) s = .next (
      let o := s.openFault (96 + q.val) 1 q.val srcDevice (fun r => if r = 2 then 4 else 6)
      if o.1 = 2 then ((o.2.returnRetry.setMc q 2).settle (96 + q.val)).noteRetire else o.2.returnRetry.setMc q 1) := by
  show execMcLockstepMismatch q s = _
  simp only [execMcLockstepMismatch, if_neg hkept, done, apply_ite Host.Outcome.next]

/-- A pair under test returns to service, or retires. -/
theorem exec_mcPairSelfTestDone_of_resetting (hresetting : s.mcState q = 1) (pass : Bool) :
    exec (.mcPairSelfTestDone q pass) s = .next (
      if pass then ((s.setMc q 0).settle (96 + q.val)).faultReport 10 3 1 1 q.val srcDevice 0
      else (((s.setMc q 2).settle (96 + q.val)).faultReport 10 4 1 2 q.val srcDevice 0).noteRetire) := by
  show execMcPairSelfTestDone q pass s = _
  simp only [execMcPairSelfTestDone, hresetting, ne_eq, not_true_eq_false, if_false, done, apply_ite Host.Outcome.next]

end

theorem exec_sysclkLoss_of_present {s : State} (hsysclk : s.fault.sysclk = true) :
    exec .sysclkLoss s = .next ((State.faultReport { s with
      fault := { s.fault with sysclk := false, counts := Tab.modify 0 s.fault.counts 15 (· + 1) }
      tiller := { s.tiller with taiState := 4 } } 15 (if s.fault.safe then 0 else 9) 3 0 0 srcDevice 0).enterSafe 4) := by
  show execSysclkLoss s = _
  simp only [execSysclkLoss, hsysclk, Bool.not_true, Bool.false_eq_true, if_false, done]

/-- Settles O31, one lemma for each event with a condition; settling and SYSCLK's return are the model's own by their definitions. -/
theorem faultEvents : Obligations.FaultEvents := by
  unfold Obligations.FaultEvents
  exact ⟨fun _ _ => rfl, fun _ _ _ => exec_sliceDrainComplete_of_over, fun _ _ _ => exec_sliceReturn_of_drained,
    fun _ _ => (apply_ite Host.Outcome.next _ _ _).symm, fun _ _ => exec_mcLockstepMismatch_of_unretired,
    fun _ _ hresetting => ⟨exec_mcPairSelfTestDone_of_resetting hresetting true, exec_mcPairSelfTestDone_of_resetting hresetting false⟩,
    fun _ => exec_sysclkLoss_of_present, fun _ => rfl⟩

end Sys2Proof.Machine
end

section
/-! VCORE, temperature, the tamper inputs, and the keeper's supply and clock (R423, R430, R433, R444, R463, R465). -/

namespace Sys2Proof.Machine

/-- One step towards the lowest voltage that gives the margin, while adaptation is on, PMBus answers and 100 µs have passed (R430). -/
theorem exec_vcoreAdaptStep_of_due {s : State} (x : VcoreStep) (hon : s.son 0x130B = true) (hpmbus : s.power.pmbusLost = false)
    (hdue : s.power.vcoreAt + us 100 ≤ s.now) :
    exec (.vcoreAdaptStep x) s = .next (
      if x.marginMet then (if s.power.vcore ≤ 700 then s else s.setVcore (s.power.vcore - 5) x.acked)
      else if 800 ≤ s.power.vcore then s else s.setVcore (s.power.vcore + 5) x.acked) := by
  show execVcoreAdaptStep x s = _
  simp only [execVcoreAdaptStep, hon, hpmbus, Nat.not_lt.2 hdue, Bool.not_true, Bool.false_eq_true, or_self, if_false, done,
    apply_ite Host.Outcome.next]

/-! ### Temperature (R444) -/

section
variable {s : State} {temp : Int}

/-- The reading is kept, and compared with the threshold, or with its release 5 degrees below once it is over (R444). -/
theorem exec_thermalThresholdCrossing {on : Bool}
    (hon : (if s.power.therm then decide ((s.sn 0x130A : Int) - 5 < temp) else decide ((s.sn 0x130A : Int) ≤ temp)) = on) :
    exec (.thermalThresholdCrossing temp) s = .next (
      if on = s.power.therm then { s with power := { s.power with temp := temp } }
      else State.raise { s with power := { s.power with temp := temp, therm := on } } 0x0C02 srcDevice
        (natLe 1 (b2n on) ++ [0] ++ natLe 2 (unsigned 16 temp))) := by
  subst hon
  rfl

theorem exec_thermalThresholdCrossing_up (hcool : s.power.therm = false) (hover : (s.sn 0x130A : Int) ≤ temp) :
    exec (.thermalThresholdCrossing temp) s = .next (State.raise { s with power := { s.power with temp := temp, therm := true } }
      0x0C02 srcDevice (natLe 1 1 ++ [0] ++ natLe 2 (unsigned 16 temp))) := by
  rw [exec_thermalThresholdCrossing (on := true) (by simp [hcool, hover]), hcool]
  rfl

theorem exec_thermalThresholdCrossing_down (hhot : s.power.therm = true) (hunder : temp ≤ (s.sn 0x130A : Int) - 5) :
    exec (.thermalThresholdCrossing temp) s = .next (State.raise { s with power := { s.power with temp := temp, therm := false } }
      0x0C02 srcDevice (natLe 1 0 ++ [0] ++ natLe 2 (unsigned 16 temp))) := by
  rw [exec_thermalThresholdCrossing (on := false) (by simp only [hhot, if_true, decide_eq_false (Int.not_lt.2 hunder)]), hhot]
  rfl

theorem exec_thermalThresholdCrossing_within (hhot : s.power.therm = true → (s.sn 0x130A : Int) - 5 < temp)
    (hcool : s.power.therm = false → temp < (s.sn 0x130A : Int)) :
    exec (.thermalThresholdCrossing temp) s = .next { s with power := { s.power with temp := temp } } := by
  have hstays : (if s.power.therm then decide ((s.sn 0x130A : Int) - 5 < temp) else decide ((s.sn 0x130A : Int) ≤ temp)) = s.power.therm := by
    cases htherm : s.power.therm with
    | true => simp only [if_true, decide_eq_true (hhot htherm)]
    | false => simp only [Bool.false_eq_true, if_false, decide_eq_false (Int.not_le.2 (hcool htherm))]
  rw [exec_thermalThresholdCrossing hstays, if_pos rfl]

end

/-! ### Tamper inputs and the keeper's supply (R423, R433, R463) -/

/-- A tamper source latches in a keeper that has its supply, is measured with its digest and raises its event. -/
theorem State.tamper_of_vkeep {s : State} (hvkeep : s.keeper.vkeep = true) (source : Nat) :
    s.tamper source = ((State.measure { s with keeper := { s.keeper with tamper := source } } 8 (sha512 (natLe 1 source)) 0xFF 0 source).raise
      0x0B03 srcDevice (natLe 1 source)) := by
  simp only [State.tamper, hvkeep, if_true]

theorem exec_vcoreGlitch {s : State} (hvkeep : s.keeper.vkeep = true) :
    exec .vcoreGlitch s = .next ((State.measure { s with keeper := { s.keeper with tamper := 1 } } 8 (sha512 [1]) 0xFF 0 1).raise
      0x0B03 srcDevice [1]) :=
  congrArg Host.Outcome.next (State.tamper_of_vkeep hvkeep 1)

theorem exec_sysclkPeriodGlitch {s : State} (hvkeep : s.keeper.vkeep = true) :
    exec .sysclkPeriodGlitch s = .next ((State.measure { s with keeper := { s.keeper with tamper := 3 } } 8 (sha512 [3]) 0xFF 0 3).raise
      0x0B03 srcDevice [3]) :=
  congrArg Host.Outcome.next (State.tamper_of_vkeep hvkeep 3)

/-- RESET_N shuts the gate, writes the ledger queue or finishes the close, and resets (R465). -/
theorem exec_resetNAssert (s : State) :
    exec .resetNAssert s = .next (
      let t := if s.gate.isShut = true ∧ s.gate.cause = 13 then s else s.shutGate 13 0xFFFF 0xFFFF
      State.internalReset (if t.power.level = 5 ∧ t.power.closed = false then t.closeLedger else t.writeLedger)) := by
  show execResetNAssert s = _
  simp only [execResetNAssert, done, Bool.not_eq_true']

/-- Settles O30, one lemma for each happening with a condition; what a step of VCORE leaves of the power state, and the keeper's supply and
crystal, are the model's own by their definitions. -/
theorem supplyClockAndTemperature : Obligations.SupplyClockAndTemperature := by
  unfold Obligations.SupplyClockAndTemperature
  exact ⟨fun _ => exec_vcoreAdaptStep_of_due, fun _ _ => ⟨rfl, rfl⟩, fun _ _ => exec_thermalThresholdCrossing_up,
    fun _ _ => exec_thermalThresholdCrossing_down, fun _ _ => exec_thermalThresholdCrossing_within, fun _ => exec_vcoreGlitch,
    fun _ => exec_sysclkPeriodGlitch, fun _ => rfl, fun _ => (apply_ite Host.Outcome.next _ _ _).symm, fun _ => rfl, exec_resetNAssert⟩

end Sys2Proof.Machine
end

section
/-! The sag level: its triggers, shedding, release, the close at level 5 and the reset that ends it (R434 to R441). -/

namespace Sys2Proof.Machine

section
variable {s : State}

/-- The level rises at once to the highest request (R434). -/
theorem State.sagUpdate_of_higher (hrises : s.power.level < s.sagRequest.2) : s.sagUpdate = s.raiseSag s.sagRequest.2 s.sagRequest.1 :=
  if_pos hrises

/-- A lower request at levels 1 to 4 starts the release hold, or leaves the one that runs (R441). -/
theorem State.sagUpdate_of_lower (hfalls : s.sagRequest.2 < s.power.level) (hlevel : s.power.level < 5) :
    s.sagUpdate = { s with power := { s.power with releaseAt := some (s.power.releaseAt.getD (s.now + ns (s.sn 0x1306))) } } :=
  (if_neg (Nat.lt_asymm hfalls)).trans ((if_neg (Nat.ne_of_lt hlevel)).trans (if_pos hfalls))

/-- When the release hold has run out the level steps down by one (R441). -/
theorem exec_sagReleaseHoldExpiry_of_over {t : Nat} (hfrom : 1 ≤ s.power.level) (hto : s.power.level ≤ 4)
    (hfalls : s.sagRequest.2 < s.power.level) (hrelease : s.power.releaseAt = some t) (hover : t ≤ s.now) :
    exec .sagReleaseHoldExpiry s = .next (
      let old := s.power.level
      let kept := if old = 3 then (s.keepSag (s.sagRecord 0 0 0)).settleCreation else s
      let p : Power := { s.power with
        level := old - 1, releaseAt := if s.sagRequest.2 < old - 1 then some (s.now + ns (s.sn 0x1306)) else none }
      let u := (({ kept with power := if old = 1 then { p with deepest := 0, deepTrigger := 0, deepStamp := {}, vcoreOut := false }
        else p } : State).raise 0x0C01 srcDevice
        (natLe 1 old ++ natLe 1 (old - 1) ++ natLe 1 (if s.sagRequest.2 = 0 then s.power.trigger else s.sagRequest.1))).noteStatus
      ((List.range 96).filter (fun q => (u.port q).shedAt == old)).foldl (fun u q => u.unshedPort q) u) := by
  have hdue : 1 ≤ s.power.level ∧ s.power.level ≤ 4 ∧ s.sagRequest.2 < s.power.level ∧
      s.power.releaseAt.any (fun x => decide (x ≤ s.now)) = true := ⟨hfrom, hto, hfalls, by simp [hrelease, hover]⟩
  have hlast : s.power.level - 1 = 0 ↔ s.power.level = 1 := by omega
  show execSagReleaseHoldExpiry s = _
  simp only [execSagReleaseHoldExpiry, if_pos hdue, hlast, done]
  by_cases hthree : s.power.level = 3
  · simp only [hthree, if_true]
  · simp only [hthree, if_false]

end

/-- Settles O29, one lemma for each way in which the level moves; that a trigger is taken and updates the level, a rank's shedding, the close
and the reset after level 5 are the model's own by their definitions. -/
theorem sagLevels : Obligations.SagLevels := by
  unfold Obligations.SagLevels
  refine ⟨fun _ _ => rfl, fun _ _ _ => (apply_ite Host.Outcome.next _ _ _).symm, fun _ => State.sagUpdate_of_higher,
    fun _ => State.sagUpdate_of_lower, fun _ _ => (apply_ite Host.Outcome.next _ _ _).symm, fun _ _ => exec_sagReleaseHoldExpiry_of_over,
    ?close, fun _ => (apply_ite Host.Outcome.next _ _ _).symm⟩
  case close =>
    intro s
    show execLedgerCloseDone s = _
    simp only [execLedgerCloseDone, done, Bool.not_eq_true', apply_ite Host.Outcome.next]

end Sys2Proof.Machine
end

section
/-! Reads of settings: the headers of the payload in order, and the items of the targets that they name (R370, R377, R381, R383, R384). -/

namespace Sys2Proof.Machine

section
variable {s : State} {op : Nat} {expert : Bool} {master : Nat} {p : Bytes}

/-- What a read of settings makes of its payload is as of the last tick: the host interface does not enter it (R381). -/
theorem State.admitted_readItems (s : State) (op' : Nat) (r : Request) (key : Option Nat) (op : Nat) (expert : Bool) (master : Nat) (p : Bytes) :
    (s.admitted op' r key).readItems op expert master p = s.readItems op expert master p := by
  rw [admitted_eq_with_host]
  rfl

/-- A read of settings is answered at once. -/
theorem State.readItems_now (s : State) (op : Nat) (expert : Bool) (master : Nat) (p : Bytes) : (s.readItems op expert master p).later = [] := by
  unfold State.readItems
  dsimp only
  split
  · rfl
  · split <;> rfl

theorem State.readItems_of_empty : s.readItems op expert master [] = { status := 0x0301 } := rfl

/-- The first header that is refused ends the read, with its status and offset (R384). -/
theorem State.readItems_of_badHeader {i e : Nat} (hin : 8 * i < p.length) (hbad : headerTargets (kindsOf op) p (8 * i) = .error e)
    (hgood : ∀ j, j < i → (headerTargets (kindsOf op) p (8 * j)).isOk = true) :
    s.readItems op expert master p = { status := e, detail := 8 * i } := by
  have hcount : ceilDiv p.length 8 = i + 1 + (ceilDiv p.length 8 - (i + 1)) := by unfold ceilDiv; omega
  have hbefore : ∀ j ∈ List.range i, ∃ x, headerTargets (kindsOf op) p (8 * j) = .ok x := by
    intro j hj
    have hok := hgood j (List.mem_range.1 hj)
    cases hhead : headerTargets (kindsOf op) p (8 * j) with
    | ok x => exact ⟨x, rfl⟩
    | error e => rw [hhead] at hok; exact absurd hok Bool.false_ne_true
  simp only [State.readItems]
  rw [hcount, List.range_add, List.range_succ, List.map_append, List.map_append, List.findSome?_append, List.findSome?_append,
    List.findSome?_eq_none_iff.2]
  · simp only [List.map_cons, List.map_nil, List.findSome?_cons, hbad, Option.none_or, Option.some_or]
  · intro x hx
    obtain ⟨j, hj, rfl⟩ := List.mem_map.1 hx
    obtain ⟨y, hy⟩ := hbefore j hj
    simp only [hy]

/-- Headers that all name targets are answered in order, each target with its items in row order (R383). -/
theorem State.readItems_of_heads {heads : List (Nat × List Nat)} (hsome : heads ≠ []) (hlen : p.length = 8 * heads.length)
    (hheads : ∀ i, i < heads.length → headerTargets (kindsOf op) p (8 * i) = .ok (heads.getD i (0, []))) :
    s.readItems op expert master p =
      { resp := (heads.map (fun x => (x.2.map (fun t => s.readTarget (readRows op expert) x.1 t master)).flatten)).flatten } := by
  have hcount : ceilDiv p.length 8 = heads.length := by unfold ceilDiv; omega
  have hnot : heads.length ≠ 0 := fun h => hsome (List.length_eq_zero_iff.1 h)
  have hnamed : (List.range heads.length).map (fun i => (8 * i, headerTargets (kindsOf op) p (8 * i))) =
      heads.zipIdx.map (fun x => (8 * x.2, Except.ok x.1)) := by
    refine List.ext_getElem (by simp) fun i hi _ => ?_
    have hi' : i < heads.length := by simpa using hi
    simp [hheads i hi', hi']
  simp only [State.readItems, hcount, hnamed, if_neg hnot]
  rw [List.findSome?_eq_none_iff.2]
  · simp only [List.map_map]
    conv_rhs => rw [← List.zipIdx_map_fst 0 heads, List.map_map]
    rfl
  · intro x hx
    obtain ⟨y, -, rfl⟩ := List.mem_map.1 hx
    rfl

end

section
variable {mk : Request → Instr} {op : Nat} {s : State} {r : Request} {key : Option Nat}

theorem exec_settingReadRow (hrow : SettingReadRow mk op) (r : Request) (s : State) : exec (mk r) s = done (s.settingsRead op r) := by
  simp only [SettingReadRow, List.mem_append, List.mem_cons, List.not_mem_nil, or_false, Prod.mk.injEq] at hrow
  casesm* _ ∨ _, _ ∧ _ <;> subst_vars <;> rfl

/-- A read of settings outside a bale answers what its payload comes to, and names the last commit tick (R381). -/
theorem exec_settingReadRow_answers {a : Ans} (hrow : SettingReadRow mk op) (hadmits : s.Admits (op + 0x80) 0 true r key) (hbale : r.bale = 0)
    (hitems : s.readItems op r.expert (masterOf r.mb) r.payload = a) :
    exec (mk r) s = .next ((s.admitted (op + 0x80) r key).answer r.mb r.seq a.status a.detail a.resp s.bales.lastTick) := by
  subst hitems
  rw [exec_settingReadRow hrow]
  refine State.request_answers (a := { s.readItems op r.expert (masterOf r.mb) r.payload with tick := s.bales.lastTick }) hadmits ?_
    (State.readItems_now _ _ _ _ _)
  simp only [State.settingsAns, hbale, ne_eq, not_true_eq_false, if_false, State.admitted_readItems, State.admitted_frame]

/-- The basic form of a settings command whose rows are all expert is its read (R383). -/
theorem exec_settingRow_of_allExpert {cls : Nat} (hrow : SettingRow mk op cls) (hall : allExpert op = true) (hbasic : r.expert = false)
    (hadmits : s.Admits op 0 true r key) (hbale : r.bale = 0) :
    exec (mk r) s = .next (
      let a := s.readItems op false (masterOf r.mb) r.payload
      (s.admitted op r key).answer r.mb r.seq a.status a.detail a.resp s.bales.lastTick) := by
  rw [exec_settingRow hrow, State.settingsSet, if_pos ⟨hall, by rw [hbasic]; rfl⟩]
  refine State.request_answers (a := { s.readItems op false (masterOf r.mb) r.payload with tick := s.bales.lastTick }) hadmits ?_
    (State.readItems_now _ _ _ _ _)
  simp only [State.settingsAns, hbale, hbasic, ne_eq, not_true_eq_false, if_false, State.admitted_readItems, State.admitted_frame]

end

/-- Settles O43, from what a read makes of the headers of its payload; that an answer changes nothing else is the model's lemma on answers. -/
theorem settingsReads : Obligations.SettingsReads := by
  unfold Obligations.SettingsReads
  refine ⟨?heads, ?refused, ?basic, State.answer_talks⟩
  case heads =>
    intro mk op hrow s r key heads hadmits hbale hsome hlen hheads
    exact exec_settingReadRow_answers (a := { resp := _ }) hrow hadmits hbale (State.readItems_of_heads hsome hlen hheads)
  case refused =>
    intro mk op hrow s r key hadmits hbale
    refine ⟨fun hempty => ?_, fun i e hin hbad hgood => ?_⟩
    · exact exec_settingReadRow_answers (a := { status := 0x0301 }) hrow hadmits hbale (by rw [hempty, State.readItems_of_empty])
    · exact exec_settingReadRow_answers (a := { status := e, detail := 8 * i }) hrow hadmits hbale (State.readItems_of_badHeader hin hbad hgood)
  case basic =>
    intro mk op cls hrow hall s r key hbasic hadmits hbale
    exact exec_settingRow_of_allExpert hrow hall hbasic hadmits hbale

end Sys2Proof.Machine
end
